-- ==== Sys2Proof/Word.lean ====
section
/-! DEFINITION. The word types of the device and the shape of its sparse stores. -/

namespace Sys2Proof

/-- An octet. -/
abbrev Byte := BitVec 8

/-- A 32-bit setup register word (R422). -/
abbrev Word := BitVec 32

/-- A trigger word, training control word or capability word: 64 bits (R81, R114, R193). -/
abbrev Word64 := BitVec 64

/-- A T48 time value: 47:16 nanoseconds, 15:0 fraction (R13). -/
abbrev T48 := BitVec 48

/-- A store that lists only the keys whose value differs from what an unlisted key reads as: keys strictly rising. -/
abbrev Sparse (α : Type) := List (Nat × α)

end Sys2Proof
end

