-- ==== Sys2Proof/Syntax.lean ====
section
/-! DEFINITION. The commands of the device: one constructor per row of spec/opcode_table.json. An operand names the
instance concerned (a lane, a port, a channel, a ring …) or carries what comes from outside or is measured by an
analogue part: a register word, received bits, a frame's octets, a descriptor and its data, a measured value. -/

namespace Sys2Proof

/-- The blocks that have an enable field (R347). -/
inductive EnTarget
  | clkout (n : Fin 8)
  | pps (m : Fin 2)
  | lane (n : Fin 64)
  | port (p : Fin 64)
  | ring (r : Fin 64)
  | chan (c : Fin 128)
  | engine
  | unit (u : Fin 4096)
  | pail
  deriving DecidableEq, Repr

/-- The three configuration registers of a port (R104, R133). -/
inductive PortReg
  | port | eth | isz
  deriving DecidableEq, Repr

/-- The groups whose low register latches the others (R425). -/
inductive LatchGroup
  | tcNow
  | tcPpsStamp
  | lkDly (p : Fin 64) (i : Fin 8)
  | portRange (p : Fin 64)
  deriving DecidableEq, Repr

/-- What the physical layer found wrong with a received frame, beyond its length and FCS (R110). -/
inductive RxFault
  | lineCode | codeword | incomplete
  deriving DecidableEq, Repr

/-- The descriptor of a host command as the device reads it (R297), without its opcode, which the row gives.
`data` is what the device reads at `addr`, or the inline bytes (DESIGN CHOICE: log entry 109). -/
structure CmdDesc where
  ring   : Fin 64
  inline : Bool
  count  : BitVec 16
  arg0   : Word
  addr   : Word64
  arg1   : Word64
  cookie : Word64
  data   : List Byte
  deriving DecidableEq, Repr

/-- A TXP descriptor (R295) and the octets it points to (DESIGN CHOICE: log entry 109). -/
structure TxpDesc where
  bufAddr  : Word64
  len      : BitVec 16
  tsId     : BitVec 16
  tsReq    : Bool
  oneStep  : Bool
  direct   : Bool
  cpl      : Bool
  port     : BitVec 8
  tsRef    : T48
  cookie   : Word64
  octets   : List Byte
  deriving DecidableEq, Repr

/-- One posted RXP buffer (R296). -/
structure RxpBuf where
  addr : Word64
  len  : BitVec 16
  deriving DecidableEq, Repr

/-- What a host-memory read failure concerned (R304): a ring's entry, a command's data, a TXP frame's octets, or the
doorbell page. -/
inductive HostReadErr
  | ring (r : Fin 64)
  | data (opcode : Byte) (d : CmdDesc)
  | frame (r : Fin 64) (d : TxpDesc)
  | doorbell
  deriving DecidableEq, Repr

/-- A read of one line: the bits that have flipped since it was written, each by its word and its bit of 72. The words of the
line come in order, and behind them the word of the outer code (R349, R350). -/
structure LineRead where
  flips : List (Fin 33 × Fin 72)
  deriving DecidableEq, Repr

/-- A read, within a command, of a line of memories 0–11 that found an error (R351). -/
structure MemErr where
  mem  : Nat
  line : Nat
  read : LineRead
  deriving DecidableEq, Repr

/-- What a command found in the two copies of the word it takes from memories 12–14 (R361): no error, one copy
uncorrectable, or both. -/
inductive DupRead
  | good
  | one (line : Nat) (word : Fin 32) (bit : Fin 72)
  | both (line : Nat)
  deriving DecidableEq, Repr

/-- A failing row, or bank for memory 0, of the firing BIST (R364); bank 48 is the spare bank. -/
structure BistFail where
  mem : Nat
  row : Nat
  deriving DecidableEq, Repr

/-- A pair of measurements A and B of a firing calibration (R378, R379): of a TDC bias trim (6), a DTC trim error (7) or a
reference input delay (8), in 2^-16 ns; or of a tap scale (12) in 2^-6 tap, with the channel's nonlinearity table. -/
structure CalMeas where
  kind  : Nat
  index : Nat
  a     : Int
  b     : Int
  table : List (BitVec 16)
  deriving DecidableEq, Repr

/-- One tap-scale measurement of an edge channel: codes c1 and c2 in units of 2^-6 tap, and whether a crossing
arrived during it (R172). -/
structure ScaleMeas where
  chan    : Fin 128
  c1      : Int
  c2      : Int
  crossed : Bool
  deriving DecidableEq, Repr

/-- What the analogue monitors give one telemetry record: the mean voltage, in mV, and current, in 10 mA, of each rail in the
record's order, the total power, the eye margins and the errors corrected of each lane (R400). -/
structure TelMeas where
  rails  : List (BitVec 16 × BitVec 16)
  power  : BitVec 16
  eyes   : List (Byte × Byte)
  fec    : List Word
  deriving DecidableEq, Repr

/-- The delay part of a management block, or of a timing word in band: transmit instant, receive stamp of the partner's block
rx_seq, sequence number, TE and flags (R120, R124, R129). -/
structure DelayPart where
  txTime  : T48
  rxStamp : T48
  seq     : Byte
  rxSeq   : Byte
  te      : Byte
  disturb : Bool
  invalid : Bool
  rxValid : Bool
  deriving DecidableEq, Repr

/-- One of the two measurements of a code-density turn: the tap scale, in 2^-6 tap, and on a DTC output the error of its delay
trim, in 2^-16 ns (R173, R379). -/
structure TurnMeas where
  scale : Int
  trim  : Int
  deriving DecidableEq, Repr

/-- A loss of lock or framing on a lane, and whether its signal detect is present then (R79). -/
structure LockEvent where
  lane   : Fin 64
  signal : Bool
  deriving DecidableEq, Repr

/-- One reading of a lane's CDR phase, and the wrong bits that its checker has found since the last (R94, R95). -/
structure PhaseReading where
  phase     : Fin 512
  wrongBits : Nat
  deriving DecidableEq, Repr

/-- The class in a frame's START block, the lane index that carried the stamped symbol, and the RS codewords that the port's
decoders have corrected, and found uncorrectable, since the frame before (R118, R149, R397). -/
structure StartSymbol where
  cls   : BitVec 3
  lane  : Fin 8
  fixed : Nat := 0
  lost  : Nat := 0
  deriving DecidableEq, Repr

/-- What the transmission of one frame finds: the memory errors of its cells, and the lane index and the instant, in 2^-16 ns of
TIME, at which its stamped symbol is loaded (R149, R353). -/
structure Departure where
  errs : List MemErr
  lane : Fin 8
  load : Nat
  deriving DecidableEq, Repr

/-- A word received in band on a version-1 or version-2 link, as the VXN-2425's formats, which the manual does not give, deliver
it: a capability or trigger word by its 64 bits; the timing content of a timing word, `symbols` after the last TIME tick; an
enumeration message; or a forerunner's reply, its subtree's next free address (R129, R344)
(DESIGN CHOICE: log entry 50). -/
inductive InBand
  | word (w : Word64)
  | timing (t : DelayPart) (symbols : Nat)
  | enum (body : BitVec 108)
  | reply (next : BitVec 16)
  deriving DecidableEq, Repr

/-- The bar that a register access addresses (R287). -/
inductive Bar
  | bar0 | bar2
  deriving DecidableEq, Repr

/-- The commands, one per row of the table. -/
inductive Instr
  -- stages
  | resetAssert
  | pwrOkFall
  | resetRelease (temps : List Int)
  | bisqueComplete
  | pciePerstRelease (speed width : Fin 16)
  | pciePerstAssert
  | firingBistDone (fails : List BistFail)
  | firingCalibrationDone (temps : List Int) (results : List CalMeas)
  | glazeImageLoaded
  | glazeWrite (w : Word)
  -- clock tree
  | ckXoCfgWrite (w : Word)
  | refActivityLoss (n : Fin 68)
  | refFrequencyWindowEnd (n : Fin 68) (ppt : Int)
  | qualTimeExpiry (n : Fin 68)
  | wtrExpiry (n : Fin 68)
  | wtrClear (n : Fin 68) (w : Word)
  | selModeWrite (w : Word)
  | buildOutEnd (phase ppb : Int)
  | acquireEnd
  | acquisitionFailure
  | narrowStep
  | narrowEnd
  | phaseErrorExceeded
  | switchingEnd
  | holdoverSample (mean : Int)
  | holdoverRecompute
  | lockDeclaration
  | lossOfLock
  | faultIdle
  | relockAttemptFail
  | syncInEdge (fullHigh : Bool)
  | ppsPulse (m : Fin 2)
  | ppsPulseEnd (m : Fin 2)
  | ppsNextCommit (m : Fin 2) (w : Word)
  | clkoutStartingEnd (n : Fin 8)
  | clkoutStoppingEnd (n : Fin 8)
  | ppsOutStartingEnd (m : Fin 2)
  | ppsOutStoppingEnd (m : Fin 2)
  | enableWrite (t : EnTarget) (w : Word)
  -- lanes
  | laneStartingEnd (n : Fin 64)
  | laneStoppingEnd (n : Fin 64)
  | dormantEntry (n : Fin 64) (w : Word)
  | dormantExit (n : Fin 64) (w : Word)
  | wakeOnSignal (n : Fin 64)
  | fastPathPowerUp (n : Fin 64)
  | signalDetect (n : Fin 64)
  | trainingFrame (n : Fin 64) (cw : Word64) (inverted converged : Bool)
  | trainComplete (n : Fin 64) (gain : Byte) (ctle : BitVec 4)
  | cdrLock (n : Fin 64) (ppm : Int)
  | framingLock (n : Fin 64) (skewBlocks skewUi : List Nat)
  | polarityRetry (n : Fin 64)
  | bringupTimeout (n : Fin 64)
  | fallbackEnd (n : Fin 64)
  | laneRestart (n : Fin 64) (w : Word)
  | lossOfSignal (n : Fin 64)
  | cdrUnlock (n : LockEvent)
  | framingLoss (n : LockEvent)
  | signalReturn (n : Fin 64)
  | gapReacquireTimeout (n : Fin 64)
  | eqWrite (n : Fin 64) (tx : Bool) (w : Word)
  | checkerSync (n : Fin 64)
  | checkerSyncLost (n : Fin 64) (wrongBits : Nat)
  | phaseSample (n : Fin 64) (phase : PhaseReading)
  | delayWindowEnd (scales : List ScaleMeas)
  | alignmentMarker (n : Fin 64) (inPlace : Bool) (mk : BitVec 256)
  -- links
  | portCfgWrite (p : Fin 64) (r : PortReg) (w : Word)
  | portStartingEnd (p : Fin 64)
  | portStoppingEnd (p : Fin 64)
  | capabilityWord (p : Fin 64) (w : Word64)
  | frameReceived (p : Fin 64) (octets : List Byte) (err : Option RxFault) (start : StartSymbol) (age symbols : Nat)
  | creditBlock (p : Fin 64) (counts : BitVec 128)
  | creditBlockSend (p : Fin 64)
  | triggerBlock (p : Fin 64) (i : Fin 8) (words : BitVec 256)
  | triggerHandoff (p : Fin 64)
  | managementBlock (p : Fin 64) (i : Fin 8) (blk : BitVec 256) (symbols : Nat) (phase : Fin 512)
  | delayPublish (p : Fin 64) (i : Fin 8)
  | macCommit (p : Fin 64) (w : Word)
  | pfcReceived (p : Fin 64) (pfc : Bool) (classes : BitVec 8) (quanta : List (BitVec 16))
  | pauseExpiry (p : Fin 64) (c : Fin 8)
  | pfcRefresh (p : Fin 64)
  -- time core
  | incrCommit (w : Word)
  | latchingRead (g : LatchGroup)
  | stepCommit (w : Word)
  | stepApply
  | sourceWrite (w : Word)
  | hostValidWrite (w : Word)
  | ppsRefEdge (k : Fin 4) (sinceTick rootPs : Nat)
  | ppsExpectMissed
  | ppsExpectCommit (w : Word)
  | holdLimitExpiry
  -- edge channels
  | edgeCrossing (c : Fin 128) (fall : Bool) (k : Fin 5) (code : Byte)
  | windowOpening (c : Fin 128) (m : ScaleMeas)
  | calTurnStart (c : Fin 128)
  | calTurnEnd (c : Fin 128) (a b : TurnMeas) (table : List (BitVec 16))
  | privilegedApply (c : Fin 128)
  | channelValueApply (c : Fin 128)
  | staleTimeout (c : Fin 128)
  | collectorDrain (c : Fin 128) (dup : DupRead)
  | streamFrameFlush (t : Fin 128)
  | winBaseCommit (c : Fin 128) (w : Word)
  | channelStartingEnd (c : Fin 128) (m : ScaleMeas)
  | channelStoppingEnd (c : Fin 128)
  | dtcEntryStart (c : Fin 128) (dup : DupRead)
  | dtcEntryEnd (c : Fin 128) (placed : Nat)
  -- trigger plane
  | primitiveArrival (src : Fin 194) (w : Word64)
  | mergeBufferAdmit (dup : DupRead)
  | unitWindowOpen (u : Fin 4096)
  | unitWindowClose (u : Fin 4096)
  | unitOutput (u : Fin 4096)
  | unitHoldRelease (u : Fin 4096)
  | unitStartingEnd (u : Fin 4096)
  | unitStoppingEnd (u : Fin 4096)
  | decisionRelease
  | decisionExecute (errs : List MemErr) (dup : DupRead)
  | readoutChannel (waited : Bool)
  | engineStartingEnd
  | engineStoppingEnd
  -- switch core and classifier
  | headCellAssign
  | classify (id : Nat) (errs : List MemErr)
  | cellAdmit (id : Nat)
  | resequencerRelease (dup : DupRead)
  | egressSchedule (p : Fin 67) (errs : Departure)
  | frameTransmitEnd (p : Fin 67)
  | mcHoldExpiry (id : Nat)
  | downGraceExpiry (p : Fin 64)
  | bankSwap (d : CmdDesc)
  | bankDrainEnd
  | shadowCommit (t : Fin 4) (w : Word)
  -- host rings
  | doorbellPoll (hidx : List (Fin 64 × Word))
  | hostMemoryError (e : HostReadErr)
  | txpDescriptor (r : Fin 64) (d : TxpDesc)
  | rxpFill (r : Fin 64) (bufs : List RxpBuf)
  | tblWrite (d : CmdDesc)
  | emAdd (d : CmdDesc)
  | emRemove (d : CmdDesc)
  | tsqRead (d : CmdDesc) (dups : List (Nat × DupRead))
  | ctrSnapshot (d : CmdDesc)
  | klogRead (d : CmdDesc)
  | klogClearBegin (d : CmdDesc)
  | klogClearFinish (d : CmdDesc)
  | klogClearEnd
  | dtcSubmit (d : CmdDesc)
  | primSubmit (d : CmdDesc)
  | decSubmit (d : CmdDesc)
  | nop (d : CmdDesc)
  | badOpcode (opcode : Byte) (d : CmdDesc)
  | interruptModeration (r : Fin 64)
  | ringStartingEnd (r : Fin 64)
  | ringStoppingEnd (r : Fin 64)
  | functionLevelReset
  | pageBaseCommit (doorbell : Bool) (w : Word)
  | telemetryRecord (m : TelMeas)
  -- pail port
  | piWord (data : Word64) (sb : Byte) (valid : Bool)
  | piPacketAdmit
  | poDrop
  | piClockLoss
  | piAlignment
  | poTrainingEnd
  | pailStartingEnd
  | pailStoppingEnd
  -- enumeration
  | enumGo (w : Word)
  | enumAssign (p : Fin 64) (body : BitVec 108)
  | enumDone (p : Fin 64) (body : BitVec 108)
  | enumRefuse (p : Fin 64) (body : BitVec 108)
  | enumRelease (p : Fin 64) (body : BitVec 108)
  | enumWorking (p : Fin 64) (body : BitVec 108)
  | enumChange (p : Fin 64) (body : BitVec 108)
  | enumPortTimeout (p : Fin 64)
  | enumAutoWalk
  | enumFiringTimeout
  -- memory integrity
  | correctedWriteBack (mem line : Nat)
  | lineRestoreDone (mem line : Nat) (readOk : Bool) (data : BitVec 512)
  | refetchRetry (mem line : Nat)
  | churnStep (r : LineRead)
  | bankTestStart
  | bankTestPhaseEnd (failed : Bool)
  | ceClear (w : Word)
  | scanEnter
  -- calibration
  | sensorUpdate (temps : List Int)
  | calOpStart (w : Word)
  | calMeasurementEnd (value : Int) (table : List (BitVec 16))
  | calOpTimeout
  | deltaStore (w : Word)
  | deltaStoreEnd (fails : List (Fin 256))
  | deltaDiscard (w : Word)
  | deltaWrite (w : Word)
  -- kiln log and counters
  | kilnRecordStore (needsSpare : Bool)
  | operatingMinute
  | cursorWrite (w : Word)
  | cursorAdvance (w : Word)
  | bwWindowEnd
  -- pairing and security
  | actInRise
  | actInFall (phaseHit : Int)
  | claimTimeout
  | creditResyncEnd
  | watchdogExpiry
  | watchdogKick (w : Word)
  | tvLimitExpiry
  | yield (w : Word)
  | rejoin (w : Word)
  | zeroize (w : Word) (verified : Bool)
  | keyWrite (w : Word) (key : List Byte)
  | imgStore (w : Word) (octets : List Byte)
  | openCode (w : Word)
  -- setup register space and the rest
  | registerWrite (bar : Bar) (off : BitVec 20) (be : BitVec 4) (w : Word)
  | reservedAccess (off : BitVec 20) (write : Bool)
  | clearingRead (off : BitVec 20)
  | timeTick
  | refActivityReturn (n : Fin 68)
  | managementBlockSend (p : Fin 64) (i : Fin 8)
  | inBandWord (p : Fin 64) (w : InBand)
  | poWord (ready : Bool)
  | piClockReturn
  | cursorReady
  | imgStoreEnd (fails : List (Fin 13568))
  | openFuseBlown
  deriving DecidableEq, Repr

end Sys2Proof
end

