-- ==== Sys2Proof/Decode.lean ====
section
/-! DEFINITION. The commands that the opcode table spells by bits: none. Every row of spec/opcode_table.json has an empty
list of fields, because the device takes events on its pins, links, bus and host memory, not encoded words. -/

namespace Sys2Proof

/-- The command that a word spells by the table's bits: no row gives any. -/
def decodeTableWord (_nbits _w : Nat) : Option Instr := none

end Sys2Proof
end

