-- ==== Sys2Proof/Config.lean ====
section
/-! DEFINITION. What the manual leaves open as a value: free values, constants without a body. No proof can see what
they are. The model applies them to `Dev.free`, a counter that each use advances. -/

namespace Sys2Proof

/-- An octet the manual does not fix: the nonce of a clear challenge (R416). -/
opaque Config.freeByte : Nat → Byte

/-- A choice the manual does not fix: whether a SYNC_IN edge with too short a high time is captured (R59). -/
opaque Config.freeBool : Nat → Bool

/-- Where a lane's pseudo-random sequence begins (R80, R93). -/
opaque Config.prbsSeed : Nat → Nat

/-- The bits of SSPRQ, which the manual takes from IEEE 802.3 (R93). -/
opaque Config.ssprq : Nat → Bool

/-- Symbols that a lane's far-end loop buffer holds (R92). -/
opaque Config.loopFill : Nat → Nat

/-- The gain code of a lane's receiver while it adapts in ACTIVE, at a TIME tick (R90). -/
opaque Config.gain : Nat → Nat → Byte

end Sys2Proof
end

