-- ==== Sys2Proof/Machine/Operands.lean ====
section
/-! DEFINITION. Operand forms: octets and words in both byte orders (R12), bit fields, signed values, the T48 scale
(R13) and its nearest-distance comparison, and the CRCs of the wire, the tables and the trigger words. -/

namespace Sys2Proof.Machine

/-- `n` octets of `v`, least significant first (R12, host memory). -/
def leBytes : Nat → Nat → List Byte
  | 0, _ => []
  | n + 1, v => BitVec.ofNat 8 v :: leBytes n (v / 256)

/-- The number that octets spell, least significant first. -/
def leNat : List Byte → Nat
  | [] => 0
  | b :: bs => b.toNat + 256 * leNat bs

/-- `n` octets of `v`, most significant first (R12, the wire). -/
def beBytes (n v : Nat) : List Byte := (leBytes n v).reverse

/-- The number that octets spell, most significant first. -/
def beNat (bs : List Byte) : Nat := leNat bs.reverse

/-- Octets `i` to `i + n - 1`. -/
def octets (bs : List Byte) (i n : Nat) : List Byte := (bs.drop i).take n

/-- Octet `i`, 0 beyond the end. -/
def octet (bs : List Byte) (i : Nat) : Nat := (bs.getD i 0).toNat

/-- `n` octets at `i`, most significant first, zeros beyond the end (R257). -/
def wire (bs : List Byte) (i n : Nat) : Nat :=
  (List.range n).foldl (fun a k => a * 256 + octet bs (i + k)) 0

/-- `n` octets at `i`, least significant first. -/
def little (bs : List Byte) (i n : Nat) : Nat := leNat (octets bs i n)

/-- Bits high:low of a number (R5). -/
def bits (v hi lo : Nat) : Nat := (v >>> lo) % 2 ^ (hi + 1 - lo)

/-- Bit `i` of a number. -/
def bit (v i : Nat) : Bool := v.testBit i

/-- A number of `w` bits read as signed. -/
def signed (w v : Nat) : Int := if v % 2 ^ w < 2 ^ (w - 1) then (v % 2 ^ w : Nat) else (v % 2 ^ w : Nat) - (2 ^ w : Nat)

/-- A signed value as `w` bits. -/
def unsigned (w : Nat) (v : Int) : Nat := (v % (2 ^ w : Nat)).toNat

/-- `v` held between two limits. -/
def clampI (lo hi v : Int) : Int := if v < lo then lo else if hi < v then hi else v

/-- Quotient rounded to the nearest integer, halves upward (DESIGN CHOICE: log entry 19). -/
def divNear (a : Int) (b : Nat) : Int := (2 * a + b) / (2 * b : Nat)

/-- T48 values wrap at 2^48 (R13). -/
def t48Mod : Nat := 2 ^ 48

/-- `a` moved by a signed number of 2^-16 ns. -/
def t48Add (a : Nat) (d : Int) : Nat := unsigned 48 (a + d)

/-- `a` minus `b`, reduced into the signed range (R60, R140). -/
def t48Sub (a b : Nat) : Int := signed 48 (unsigned 48 (a - b))

/-- T48 of whole nanoseconds. -/
def ns (n : Nat) : Nat := n * 65536

/-- The T48 value nearest `now` whose bits 39:8 are `t`, with bits 7:0 zero (R203). -/
def t32pNear (now t : Nat) : Nat :=
  t48Add now (signed 40 (unsigned 40 (((t % 2 ^ 32) * 256 : Nat) - (now : Int))))

/-- The 1.25 ps grid on the T48 scale: 2^35 × 100 steps make one wrap (R184). -/
def gridMod : Nat := 2 ^ 35 * 100

/-- The grid step nearest a T48 instant. -/
def toGrid (t : Nat) : Nat := ((2 * t * 100 + 8192) / (2 * 8192)) % gridMod

/-- The T48 value nearest a grid step. -/
def ofGrid (g : Nat) : Nat := ((2 * g * 8192 + 100) / 200) % t48Mod

/-- Signed distance of two grid steps. -/
def gridSub (a b : Nat) : Int :=
  let d : Int := ((a : Int) - b) % (gridMod : Nat)
  if d < (gridMod / 2 : Nat) then d else d - (gridMod : Nat)

/-- A grid step moved by a signed number of steps. -/
def gridAdd (a : Nat) (d : Int) : Nat := (((a : Int) + d) % (gridMod : Nat)).toNat

/-- One bit of an MSB-first CRC of `w` bits. -/
def crcBit (w poly : Nat) (c : Nat) (b : Bool) : Nat :=
  let top := c.testBit (w - 1)
  let s := (c * 2) % 2 ^ w
  if top != b then s ^^^ poly else s

/-- MSB-first CRC over the `n` most significant bits of an `n`-bit number. -/
def crcMsb (w poly : Nat) (init v : Nat) : Nat → Nat
  | 0 => init
  | n + 1 => crcMsb w poly (crcBit w poly init (v.testBit n)) v n

/-- The CRC-8 of trigger words: polynomial 0x07, initial value 0 (R196). -/
def crc8 (n v : Nat) : Nat := crcMsb 8 0x07 0 v n

/-- One octet of an LSB-first CRC of 32 bits with reflected polynomial `p` (PRESUMED: log entry 91). -/
def crcOctet (p c : Nat) (b : Byte) : Nat :=
  (List.range 8).foldl (fun x _ => if x % 2 = 1 then (x / 2) ^^^ p else x / 2) (c ^^^ b.toNat)

/-- An LSB-first 32-bit CRC with initial value and final inversion of all ones. -/
def crc32 (p : Nat) (bs : List Byte) : Nat := (bs.foldl (crcOctet p) 0xFFFFFFFF) ^^^ 0xFFFFFFFF

/-- CRC-32C, polynomial 0x1EDC_6F41 (R350). -/
def crc32c (bs : List Byte) : Nat := crc32 0x82F63B78 bs

/-- The frame check sequence of IEEE 802.3 (R109). -/
def fcs (bs : List Byte) : List Byte := leBytes 4 (crc32 0xEDB88320 bs)

/-- The 64-bit words of a number of `n` words, most significant first. -/
def words64 : Nat → Nat → List Word64
  | 0, _ => []
  | n + 1, v => words64 n (v >>> 64) ++ [BitVec.ofNat 64 v]

/-- Drop the first entry that satisfies `p`. -/
def dropFirst {α : Type} (p : α → Bool) : List α → List α
  | [] => []
  | x :: xs => if p x then xs else x :: dropFirst p xs

/-- `x` inserted before the first entry that comes after it. -/
def insertBy {α : Type} (before : α → α → Bool) (x : α) : List α → List α
  | [] => [x]
  | y :: ys => if before x y then x :: y :: ys else y :: insertBy before x ys

end Sys2Proof.Machine
end

