-- ==== Sys2Proof/Machine/RegMap.lean ====
section
/-! DEFINITION. The setup register map (R421): every register of BAR0 by its offset, its instances, its reset word,
and its fields with access type (R8) and the rule by which a written value is stored. The names are the manual's own:
`R.X` is the BAR0 offset of register X (instance indices as arguments), `F.X_f` the bit range of field f of X. -/

namespace Sys2Proof.Machine

/-- A bit range high:low of a register (R5). -/
structure Field where
  hi : Nat
  lo : Nat
  deriving DecidableEq, Repr

/-- The access types of R8. -/
inductive Acc
  | rw | ro | w1c | wo | rs | rc
  deriving DecidableEq, Repr

/-- How an RW field stores a written value: as written; not at all for a reserved code (R423) or a value above a
limit; or as the nearer limit of a range. -/
inductive WRule
  | any
  | reserved (codes : List Nat)
  | ignoreAbove (limit : Nat)
  | within (least most : Nat)
  deriving DecidableEq, Repr

/-- One named field of a register. -/
structure FieldSpec where
  fld  : Field
  acc  : Acc
  rule : WRule
  deriving DecidableEq, Repr

/-- A family of registers: the offset of the first, two index dimensions (count and stride), the reset word and the
named fields. Bits outside the named fields are reserved (R10). -/
structure RegSpec where
  off : Nat
  n1 : Nat
  stride1 : Nat
  n2 : Nat
  stride2 : Nat
  reset : Nat
  fields : List FieldSpec
  deriving DecidableEq, Repr

namespace R

/-! Offsets of the clock tree (R63–R72). -/
def CK_XO_CFG : Nat := 0x10000
def CK_CLN_CFG : Nat := 0x10004
def CK_TIMER_CFG : Nat := 0x10008
def CK_STATUS : Nat := 0x1000C
def CK_ALARM : Nat := 0x10010
def CK_ALARM_MASK : Nat := 0x10014
def CK_STEER : Nat := 0x10018
def CK_PHASE_SP : Nat := 0x1001C
def CK_HOLD_FREQ : Nat := 0x10020
def CK_AGE : Nat := 0x10024
def CK_FREERUN : Nat := 0x10028
def CK_FREERUN_MIN : Nat := 0x1002C
def CK_SYN_STATUS : Nat := 0x10030
def CK_SYNC_CFG : Nat := 0x10034
def CK_REF_CFG (n : Nat) : Nat := 0x10100 + 0x4 * n
def CK_REF_STATUS (n : Nat) : Nat := 0x10300 + 0x4 * n
def CK_REF_FOFF (n : Nat) : Nat := 0x10500 + 0x4 * n
def CK_OUT_CFG (n : Nat) : Nat := 0x10700 + 0x8 * n
def CK_OUT_DIV (n : Nat) : Nat := 0x10704 + 0x8 * n
def CK_PPS_CFG (n : Nat) : Nat := 0x10780 + 0x10 * n
def CK_PPS_PERIOD (n : Nat) : Nat := 0x10784 + 0x10 * n
def CK_PPS_NEXT_LO (n : Nat) : Nat := 0x10788 + 0x10 * n
def CK_PPS_NEXT_HI (n : Nat) : Nat := 0x1078C + 0x10 * n

/-! Offsets of the lanes (R98–R103). -/
def LN_CTRL (n : Nat) : Nat := 0x30000 + 0x400 * n
def LN_CFG (n : Nat) : Nat := 0x30004 + 0x400 * n
def LN_RATE_CFG (n : Nat) : Nat := 0x30008 + 0x400 * n
def LN_STATUS (n : Nat) : Nat := 0x3000C + 0x400 * n
def LN_FAIL (n : Nat) : Nat := 0x30010 + 0x400 * n
def LN_ALARM (n : Nat) : Nat := 0x30014 + 0x400 * n
def LN_EQ_TX (n : Nat) : Nat := 0x30018 + 0x400 * n
def LN_EQ_RX (n : Nat) : Nat := 0x3001C + 0x400 * n
def LN_TEST (n : Nat) : Nat := 0x30020 + 0x400 * n
def LN_PRBS_ERR (n : Nat) : Nat := 0x30024 + 0x400 * n
def LN_PHASE_INST (n : Nat) : Nat := 0x30028 + 0x400 * n
def LN_PHASE_AVG (n : Nat) : Nat := 0x3002C + 0x400 * n
def LN_TX_DELAY (n : Nat) : Nat := 0x30030 + 0x400 * n
def LN_RX_DELAY (n : Nat) : Nat := 0x30034 + 0x400 * n
def LN_SKEW (n : Nat) : Nat := 0x30038 + 0x400 * n

/-! Offsets of the links and ports (R132–R136). -/
def LK_PORT_CTRL (n : Nat) : Nat := 0x40000 + 0x400 * n
def LK_PORT_CFG (n : Nat) : Nat := 0x40004 + 0x400 * n
def LK_ETH_CFG (n : Nat) : Nat := 0x40008 + 0x400 * n
def LK_ISZ_CFG (n : Nat) : Nat := 0x4000C + 0x400 * n
def LK_STATUS (n : Nat) : Nat := 0x40010 + 0x400 * n
def LK_ALARM (n : Nat) : Nat := 0x40014 + 0x400 * n
def LK_MAC_LO (n : Nat) : Nat := 0x40018 + 0x400 * n
def LK_MAC_HI (n : Nat) : Nat := 0x4001C + 0x400 * n
def LK_DLY_RTT_LO (n i : Nat) : Nat := 0x40100 + 0x400 * n + 0x20 * i
def LK_DLY_RTT_HI (n i : Nat) : Nat := 0x40104 + 0x400 * n + 0x20 * i
def LK_DLY_OFS (n i : Nat) : Nat := 0x40108 + 0x400 * n + 0x20 * i
def LK_ASYM_CFG (n i : Nat) : Nat := 0x4010C + 0x400 * n + 0x20 * i
def LK_DLY_STAT (n i : Nat) : Nat := 0x40110 + 0x400 * n + 0x20 * i
def LK_TC_CFG (n : Nat) : Nat := 0x40200 + 0x400 * n
def LK_TC_KAPPA (n : Nat) : Nat := 0x40204 + 0x400 * n
def LK_TC_FIX (n : Nat) : Nat := 0x40208 + 0x400 * n
def LK_TC_ASYM (n : Nat) : Nat := 0x4020C + 0x400 * n

/-! Offsets of the time core (R160–R164). -/
def TC_CTRL : Nat := 0x20000
def TC_STATUS : Nat := 0x20004
def TC_ALARM : Nat := 0x20008
def TC_INCR_LO : Nat := 0x2000C
def TC_INCR_HI : Nat := 0x20010
def TC_NOW_LO : Nat := 0x20014
def TC_NOW_HI : Nat := 0x20018
def TC_STEP_LO : Nat := 0x2001C
def TC_STEP_HI : Nat := 0x20020
def TC_STEP_LIMIT : Nat := 0x20024
def TC_SRC_CFG : Nat := 0x20028
def TC_SERVO_CFG : Nat := 0x2002C
def TC_VALID_CFG : Nat := 0x20030
def TC_OFS_LAST : Nat := 0x20034
def TC_PPS_EXPECT_LO : Nat := 0x20038
def TC_PPS_EXPECT_HI : Nat := 0x2003C
def TC_PPS_STAMP_LO : Nat := 0x20040
def TC_PPS_STAMP_HI : Nat := 0x20044
def TC_TSQ_STAT : Nat := 0x20048
def TC_PTP_CFG (n : Nat) : Nat := 0x20100 + 0x4 * n

/-! Offsets of the edge channels (R188–R192). -/
def EC_CTRL (n : Nat) : Nat := 0x70000 + 0x200 * n
def EC_PAD (n : Nat) : Nat := 0x70004 + 0x200 * n
def EC_OUT_CFG (n : Nat) : Nat := 0x70008 + 0x200 * n
def EC_WIN_CFG (n : Nat) : Nat := 0x7000C + 0x200 * n
def EC_WIN_DELAY (n : Nat) : Nat := 0x70010 + 0x200 * n
def EC_WIN_LEN (n : Nat) : Nat := 0x70014 + 0x200 * n
def EC_WIN_PERIOD (n : Nat) : Nat := 0x70018 + 0x200 * n
def EC_WIN_BASE_LO (n : Nat) : Nat := 0x7001C + 0x200 * n
def EC_WIN_BASE_HI (n : Nat) : Nat := 0x70020 + 0x200 * n
def EC_STATUS (n : Nat) : Nat := 0x70024 + 0x200 * n
def EC_ALARM (n : Nat) : Nat := 0x70028 + 0x200 * n
def EC_PILEUP (n : Nat) : Nat := 0x7002C + 0x200 * n
def EC_OVERFLOW (n : Nat) : Nat := 0x70030 + 0x200 * n
def EC_REJECT (n : Nat) : Nat := 0x70034 + 0x200 * n
def EC_DTC_LATE (n : Nat) : Nat := 0x70038 + 0x200 * n
def EC_DTC_REFUSED (n : Nat) : Nat := 0x7003C + 0x200 * n
def EC_DTC_FLUSHED (n : Nat) : Nat := 0x70040 + 0x200 * n
def EC_CAL_STAT (n : Nat) : Nat := 0x70044 + 0x200 * n
def EC_IN_DELAY (n : Nat) : Nat := 0x70048 + 0x200 * n
def EC_OUT_DELAY (n : Nat) : Nat := 0x7004C + 0x200 * n
def EC_TPL (n i : Nat) : Nat := 0x70100 + 0x200 * n + 0x4 * i
def EC_STREAM_CFG (n : Nat) : Nat := 0x70140 + 0x200 * n
def EC_GL_CAL : Nat := 0x70180

/-! Offsets of the trigger plane (R223–R226). -/
def TG_CTRL : Nat := 0x80000
def TG_STATUS : Nat := 0x80004
def TG_ALARM : Nat := 0x80008
def TG_BUDGET : Nat := 0x8000C
def TG_UPLINK : Nat := 0x80010
def TG_DEC_CFG : Nat := 0x80014
def TG_EXEC_CFG : Nat := 0x80018
def TG_LATE : Nat := 0x8001C
def TG_UNMAPPED : Nat := 0x80020
def TG_RELAY_MASK_LO : Nat := 0x80024
def TG_RELAY_MASK_HI : Nat := 0x80028
def TG_RELAY_NOW_LO : Nat := 0x8002C
def TG_RELAY_NOW_HI : Nat := 0x80030
def TG_CLASS_CFG (n : Nat) : Nat := 0x80100 + 0x10 * n
def TG_CLASS_DOWN_LO (n : Nat) : Nat := 0x80104 + 0x10 * n
def TG_CLASS_DOWN_HI (n : Nat) : Nat := 0x80108 + 0x10 * n
def TG_PORT_ERR (n : Nat) : Nat := 0x80200 + 0x4 * n
def TG_IN_LOSS (n : Nat) : Nat := 0x80400 + 0x4 * n
def TG_CU_CTRL (n : Nat) : Nat := 0x84000 + 0x4 * n

/-! Offsets of the switch core (R251–R254). -/
def SW_POOL_STAT : Nat := 0x50000
def SW_ALARM : Nat := 0x50004
def SW_BUF_STAT : Nat := 0x50008
def SW_BUF_FREE : Nat := 0x5000C
def SW_POOL_CFG : Nat := 0x50010
def SW_MC_HOLD : Nat := 0x50014
def SW_DOWN_CFG : Nat := 0x50018
def SW_RECIRC_CFG : Nat := 0x5001C
def SW_PORT_CFG (n : Nat) : Nat := 0x51000 + 0x100 * n
def SW_PORT_HDRM (n : Nat) : Nat := 0x51004 + 0x100 * n
def SW_PORT_STAT (n : Nat) : Nat := 0x51008 + 0x100 * n
def SW_OCC (n : Nat) : Nat := 0x5100C + 0x100 * n
def SW_TC_CFG (n i : Nat) : Nat := 0x51010 + 0x100 * n + 0x4 * i
def SW_CREDIT (n i : Nat) : Nat := 0x51030 + 0x100 * n + 0x4 * i
def SW_STOMP (n : Nat) : Nat := 0x51050 + 0x100 * n
def SW_MC_REMOVED (n : Nat) : Nat := 0x51054 + 0x100 * n
def SW_MC_ABANDON (n : Nat) : Nat := 0x51058 + 0x100 * n
def SW_DOWN_DISCARD (n : Nat) : Nat := 0x5105C + 0x100 * n
def SW_HDRM_BORROW (n : Nat) : Nat := 0x51060 + 0x100 * n

/-! Offsets of the classifier (R283–R285). -/
def CL_BANK_STAT : Nat := 0x60000
def CL_ALARM : Nat := 0x60004
def CL_TBL_CFG : Nat := 0x60008
def CL_WHEY_CFG : Nat := 0x6000C
def CL_EM_STAT : Nat := 0x60010
def CL_DRAIN_MAX : Nat := 0x60014
def CL_WHEY_LIM (n : Nat) : Nat := 0x60080 + 0x4 * n
def CL_WHEY_CNT (n : Nat) : Nat := 0x600C0 + 0x4 * n
def CL_WHEY_DROP (n : Nat) : Nat := 0x60100 + 0x4 * n
def CL_UDF_CFG (n : Nat) : Nat := 0x60140 + 0x4 * n
def CL_PORT_CFG (n : Nat) : Nat := 0x60200 + 0x8 * n
def CL_PCP_MAP (n : Nat) : Nat := 0x60204 + 0x8 * n
def CL_KEY_PROF (n i : Nat) : Nat := 0x60800 + 0x20 * n + 0x4 * i
def CL_SHADOW_LO (n : Nat) : Nat := 0x60A00 + 0x8 * n
def CL_SHADOW_HI (n : Nat) : Nat := 0x60A04 + 0x8 * n

/-! Offsets of the host rings (R307–R309). -/
def HR_CTRL : Nat := 0x90000
def HR_CAP : Nat := 0x90004
def HR_ALARM : Nat := 0x90008
def HR_POLL_CFG : Nat := 0x9000C
def HR_DB_BASE_LO : Nat := 0x90010
def HR_DB_BASE_HI : Nat := 0x90014
def HR_ST_BASE_LO : Nat := 0x90018
def HR_ST_BASE_HI : Nat := 0x9001C
def HR_IRQ_MASK : Nat := 0x90020
def HR_CMD_ERR : Nat := 0x90024
def HR_MEM_ERR : Nat := 0x90028
def HR_PCIE_STAT : Nat := 0x9002C
def HR_RING_CTRL (n : Nat) : Nat := 0x91000 + 0x20 * n
def HR_RING_CFG (n : Nat) : Nat := 0x91004 + 0x20 * n
def HR_RING_BASE_LO (n : Nat) : Nat := 0x91008 + 0x20 * n
def HR_RING_BASE_HI (n : Nat) : Nat := 0x9100C + 0x20 * n
def HR_RING_MOD (n : Nat) : Nat := 0x91010 + 0x20 * n
def HR_RING_DIDX (n : Nat) : Nat := 0x91014 + 0x20 * n
def HR_RING_HIDX (n : Nat) : Nat := 0x91018 + 0x20 * n

/-! Offsets of the pail port (R324–R325). -/
def PL_CTRL : Nat := 0xA0000
def PL_CFG : Nat := 0xA0004
def PL_STATUS : Nat := 0xA0008
def PL_ALARM : Nat := 0xA000C
def PL_PI_WM : Nat := 0xA0010
def PL_PO_WM : Nat := 0xA0014
def PL_PI_LEVEL : Nat := 0xA0018
def PL_PO_LEVEL : Nat := 0xA001C
def PL_PI_PARITY : Nat := 0xA0020
def PL_PI_MARKED : Nat := 0xA0024
def PL_PI_LENGTH : Nat := 0xA0028
def PL_PI_PARTIAL : Nat := 0xA002C
def PL_PI_WORD_ERR : Nat := 0xA0030
def PL_PO_DROP : Nat := 0xA0034
def PL_PO_DROP_VOID : Nat := 0xA0038
def PL_PO_DEC_LOST : Nat := 0xA003C

/-! Offsets of the memory integrity (R368–R370). -/
def MI_STATUS : Nat := 0xB0000
def MI_ALARM : Nat := 0xB0004
def MI_CHURN_CFG : Nat := 0xB0008
def MI_CHURN_STAT : Nat := 0xB000C
def MI_CE_OVF : Nat := 0xB0010
def MI_CE_CLEAR : Nat := 0xB0014
def MI_BIST_CFG : Nat := 0xB0018
def MI_RETIRED_LO : Nat := 0xB001C
def MI_RETIRED_HI : Nat := 0xB0020
def MI_CE_ENT_LO (n : Nat) : Nat := 0xB0100 + 0x8 * n
def MI_CE_ENT_HI (n : Nat) : Nat := 0xB0104 + 0x8 * n
def MI_MEM_CE (n : Nat) : Nat := 0xB0200 + 0x4 * n
def MI_MEM_UE (n : Nat) : Nat := 0xB0240 + 0x4 * n
def MI_MEM_SPARE (n : Nat) : Nat := 0xB0280 + 0x4 * n

/-! Offsets of the calibration (R384–R386). -/
def CA_STATUS : Nat := 0xC0000
def CA_ALARM : Nat := 0xC0004
def CA_CMD : Nat := 0xC0008
def CA_CMD_K : Nat := 0xC000C
def CA_RESULT_A : Nat := 0xC0010
def CA_RESULT_B : Nat := 0xC0014
def CA_STORE : Nat := 0xC0018
def CA_DELTA_SEL : Nat := 0xC001C
def CA_DELTA_VAL : Nat := 0xC0020
def CA_DELTA_STAT : Nat := 0xC0024
def CA_TEMP (n : Nat) : Nat := 0xC0100 + 0x4 * n

/-! Offsets of the kiln log (R401–R402). -/
def ER_STATUS : Nat := 0xD0000
def ER_ALARM : Nat := 0xD0004
def ER_USED : Nat := 0xD0008
def ER_REFUSED : Nat := 0xD000C
def ER_CLEARS : Nat := 0xD0010
def ER_PWR_CYCLES : Nat := 0xD0014
def ER_MINUTES : Nat := 0xD0018
def ER_CURSOR : Nat := 0xD001C
def ER_ADVANCE : Nat := 0xD0020
def ER_QLOST : Nat := 0xD0024
def ER_WIN (n : Nat) : Nat := 0xD0100 + 0x4 * n

/-! Offsets of the counters and telemetry (R403–R404). -/
def PC_ALARM : Nat := 0xE0000
def PC_TEL_CFG : Nat := 0xE0004
def PC_BW_CFG : Nat := 0xE0008
def PC_BW_RX (n : Nat) : Nat := 0xE0100 + 0x8 * n
def PC_BW_TX (n : Nat) : Nat := 0xE0104 + 0x8 * n

/-! Offsets of the pairing and security (R419–R420). -/
def PS_PAIR_CFG : Nat := 0xF0000
def PS_PAIR_STATUS : Nat := 0xF0004
def PS_ALARM : Nat := 0xF0008
def PS_YIELD_CFG : Nat := 0xF000C
def PS_WDOG : Nat := 0xF0010
def PS_CMD : Nat := 0xF0014
def PS_XFER_LO : Nat := 0xF0018
def PS_XFER_HI : Nat := 0xF001C
def PS_XFER_LEN : Nat := 0xF0020
def PS_SEC_STATUS : Nat := 0xF0024
def PS_OPEN : Nat := 0xF0028
def PS_TAKE_STAT : Nat := 0xF002C
def PS_LOST : Nat := 0xF0030

/-! Offsets of the global block (R432–R436). -/
def GL_VERSION : Nat := 0x00000
def GL_CAP : Nat := 0x00004
def GL_STAGE : Nat := 0x00008
def GL_CTRL : Nat := 0x0000C
def GL_ALARM : Nat := 0x00010
def GL_ADDR : Nat := 0x00014
def GL_ENUM_STAT : Nat := 0x00018
def GL_STRAP : Nat := 0x0001C
def GL_ACCESS_ERR : Nat := 0x00020
def GL_SCRATCH : Nat := 0x00024
def GL_PORT_RANGE (n : Nat) : Nat := 0x00100 + 0x8 * n
def GL_PORT_RANGE_END (n : Nat) : Nat := 0x00104 + 0x8 * n

end R

namespace F

/-! Fields of the clock tree (R63–R72). -/
def CK_XO_CFG_pd_auto : Field := ⟨4, 4⟩
def CK_XO_CFG_pd_mode : Field := ⟨3, 2⟩
def CK_XO_CFG_freq : Field := ⟨1, 0⟩
def CK_CLN_CFG_pair_tol : Field := ⟨31, 24⟩
def CK_CLN_CFG_bw_final : Field := ⟨23, 20⟩
def CK_CLN_CFG_bw_acq : Field := ⟨19, 16⟩
def CK_CLN_CFG_forced_ref : Field := ⟨15, 8⟩
def CK_CLN_CFG_sel_mode : Field := ⟨1, 0⟩
def CK_TIMER_CFG_hold_avg : Field := ⟨27, 20⟩
def CK_TIMER_CFG_qual_time : Field := ⟨19, 12⟩
def CK_TIMER_CFG_wtr_time : Field := ⟨11, 0⟩
def CK_STATUS_sel_ref : Field := ⟨22, 16⟩
def CK_STATUS_bw_now : Field := ⟨11, 8⟩
def CK_STATUS_conflict : Field := ⟨4, 4⟩
def CK_STATUS_hold_valid : Field := ⟨3, 3⟩
def CK_STATUS_state : Field := ⟨2, 0⟩
def CK_ALARM_sync_ignored : Field := ⟨8, 8⟩
def CK_ALARM_steer_clamp : Field := ⟨7, 7⟩
def CK_ALARM_relock_fail : Field := ⟨6, 6⟩
def CK_ALARM_acq_fail : Field := ⟨5, 5⟩
def CK_ALARM_freerun : Field := ⟨4, 4⟩
def CK_ALARM_sel_lost : Field := ⟨3, 3⟩
def CK_ALARM_ref_conflict : Field := ⟨2, 2⟩
def CK_ALARM_holdover : Field := ⟨1, 1⟩
def CK_ALARM_fault : Field := ⟨0, 0⟩
def CK_ALARM_MASK_en : Field := ⟨3, 0⟩
def CK_STEER_value : Field := ⟨31, 0⟩
def CK_PHASE_SP_value : Field := ⟨31, 0⟩
def CK_HOLD_FREQ_value : Field := ⟨31, 0⟩
def CK_AGE_rate : Field := ⟨15, 0⟩
def CK_FREERUN_offset : Field := ⟨31, 0⟩
def CK_FREERUN_MIN_minutes : Field := ⟨31, 0⟩
def CK_SYN_STATUS_loss_count : Field := ⟨15, 8⟩
def CK_SYN_STATUS_attempts : Field := ⟨7, 4⟩
def CK_SYN_STATUS_locked : Field := ⟨0, 0⟩
def CK_SYNC_CFG_out_mask : Field := ⟨15, 8⟩
def CK_SYNC_CFG_mode : Field := ⟨1, 0⟩
def CK_REF_CFG_wtr_clear : Field := ⟨16, 16⟩
def CK_REF_CFG_qual_range : Field := ⟨15, 8⟩
def CK_REF_CFG_freq : Field := ⟨7, 4⟩
def CK_REF_CFG_rank : Field := ⟨3, 0⟩
def CK_REF_STATUS_wtr_remain : Field := ⟨15, 4⟩
def CK_REF_STATUS_freq_ok : Field := ⟨3, 3⟩
def CK_REF_STATUS_active : Field := ⟨2, 2⟩
def CK_REF_STATUS_qual : Field := ⟨1, 0⟩
def CK_REF_FOFF_value : Field := ⟨31, 0⟩
def CK_OUT_CFG_phase : Field := ⟨15, 8⟩
def CK_OUT_CFG_state : Field := ⟨2, 1⟩
def CK_OUT_CFG_enable : Field := ⟨0, 0⟩
def CK_OUT_DIV_div : Field := ⟨31, 0⟩
def CK_PPS_CFG_width : Field := ⟨23, 4⟩
def CK_PPS_CFG_state : Field := ⟨2, 1⟩
def CK_PPS_CFG_enable : Field := ⟨0, 0⟩
def CK_PPS_PERIOD_period : Field := ⟨31, 0⟩
def CK_PPS_NEXT_LO_next_lo : Field := ⟨31, 0⟩
def CK_PPS_NEXT_HI_next_hi : Field := ⟨15, 0⟩

/-! Fields of the lanes (R98–R103). -/
def LN_CTRL_state : Field := ⟨5, 4⟩
def LN_CTRL_restart : Field := ⟨2, 2⟩
def LN_CTRL_dormant : Field := ⟨1, 1⟩
def LN_CTRL_enable : Field := ⟨0, 0⟩
def LN_CFG_mode : Field := ⟨15, 13⟩
def LN_CFG_wake_on_signal : Field := ⟨12, 12⟩
def LN_CFG_pol_auto : Field := ⟨11, 11⟩
def LN_CFG_rx_invert : Field := ⟨10, 10⟩
def LN_CFG_tx_invert : Field := ⟨9, 9⟩
def LN_CFG_tx_precode : Field := ⟨8, 8⟩
def LN_CFG_rx_precode : Field := ⟨7, 7⟩
def LN_RATE_CFG_ladder : Field := ⟨6, 6⟩
def LN_RATE_CFG_allowed : Field := ⟨5, 0⟩
def LN_STATUS_rx_precode : Field := ⟨15, 15⟩
def LN_STATUS_tx_precode : Field := ⟨14, 14⟩
def LN_STATUS_lane_rx : Field := ⟨13, 11⟩
def LN_STATUS_reversed : Field := ⟨10, 10⟩
def LN_STATUS_rx_inverted : Field := ⟨9, 9⟩
def LN_STATUS_cdr_lock : Field := ⟨8, 8⟩
def LN_STATUS_signal : Field := ⟨7, 7⟩
def LN_STATUS_rate_now : Field := ⟨6, 4⟩
def LN_STATUS_bringup : Field := ⟨3, 0⟩
def LN_FAIL_count : Field := ⟨31, 16⟩
def LN_FAIL_last_state : Field := ⟨15, 12⟩
def LN_FAIL_last_rate : Field := ⟨11, 9⟩
def LN_ALARM_marker_err : Field := ⟨7, 7⟩
def LN_ALARM_bottom : Field := ⟨6, 6⟩
def LN_ALARM_prbs_sync_lost : Field := ⟨5, 5⟩
def LN_ALARM_delay_disturb : Field := ⟨4, 4⟩
def LN_ALARM_eq_reject : Field := ⟨3, 3⟩
def LN_ALARM_deskew_err : Field := ⟨2, 2⟩
def LN_ALARM_lane_order_err : Field := ⟨1, 1⟩
def LN_ALARM_loss : Field := ⟨0, 0⟩
def LN_EQ_TX_main : Field := ⟨31, 25⟩
def LN_EQ_TX_swing : Field := ⟨23, 22⟩
def LN_EQ_TX_pre1 : Field := ⟨20, 16⟩
def LN_EQ_TX_pre2 : Field := ⟨15, 12⟩
def LN_EQ_TX_post1 : Field := ⟨9, 5⟩
def LN_EQ_RX_gain : Field := ⟨23, 16⟩
def LN_EQ_RX_ctle : Field := ⟨15, 12⟩
def LN_EQ_RX_adapt_cont : Field := ⟨7, 7⟩
def LN_EQ_RX_ctle_fix : Field := ⟨6, 6⟩
def LN_TEST_chk_sync : Field := ⟨14, 14⟩
def LN_TEST_chk_inv : Field := ⟨12, 12⟩
def LN_TEST_chk_pat : Field := ⟨11, 8⟩
def LN_TEST_gen_inv : Field := ⟨4, 4⟩
def LN_TEST_gen_pat : Field := ⟨3, 0⟩
def LN_PRBS_ERR_count : Field := ⟨31, 0⟩
def LN_PHASE_INST_phase : Field := ⟨8, 0⟩
def LN_PHASE_AVG_window : Field := ⟨31, 24⟩
def LN_PHASE_AVG_value : Field := ⟨23, 0⟩
def LN_TX_DELAY_value : Field := ⟨31, 0⟩
def LN_RX_DELAY_value : Field := ⟨31, 0⟩
def LN_SKEW_skew : Field := ⟨15, 0⟩

/-! Fields of the links and ports (R132–R136). -/
def LK_PORT_CTRL_state : Field := ⟨2, 1⟩
def LK_PORT_CTRL_enable : Field := ⟨0, 0⟩
def LK_PORT_CFG_time_lane : Field := ⟨27, 25⟩
def LK_PORT_CFG_width : Field := ⟨20, 18⟩
def LK_PORT_CFG_protocol : Field := ⟨16, 16⟩
def LK_PORT_CFG_max_frame : Field := ⟨15, 0⟩
def LK_ETH_CFG_eth_mode : Field := ⟨7, 4⟩
def LK_ETH_CFG_fc : Field := ⟨1, 0⟩
def LK_ISZ_CFG_trig_share : Field := ⟨11, 10⟩
def LK_ISZ_CFG_time_role : Field := ⟨9, 8⟩
def LK_ISZ_CFG_ver_mask : Field := ⟨6, 4⟩
def LK_STATUS_family : Field := ⟨31, 24⟩
def LK_STATUS_lanes_active : Field := ⟨23, 16⟩
def LK_STATUS_tc_partner : Field := ⟨12, 12⟩
def LK_STATUS_share_now : Field := ⟨11, 10⟩
def LK_STATUS_timing : Field := ⟨9, 9⟩
def LK_STATUS_link_up : Field := ⟨8, 8⟩
def LK_STATUS_ver : Field := ⟨1, 0⟩
def LK_ALARM_tc_reject : Field := ⟨6, 6⟩
def LK_ALARM_mgmt_crc : Field := ⟨5, 5⟩
def LK_ALARM_role_conflict : Field := ⟨4, 4⟩
def LK_ALARM_ver_fail : Field := ⟨3, 3⟩
def LK_ALARM_width_mismatch : Field := ⟨2, 2⟩
def LK_ALARM_cfg_reject : Field := ⟨1, 1⟩
def LK_ALARM_link_down : Field := ⟨0, 0⟩
def LK_MAC_LO_mac_lo : Field := ⟨31, 0⟩
def LK_MAC_HI_mac_hi : Field := ⟨15, 0⟩
def LK_DLY_RTT_LO_value_lo : Field := ⟨31, 0⟩
def LK_DLY_RTT_HI_window : Field := ⟨31, 24⟩
def LK_DLY_RTT_HI_value_hi : Field := ⟨15, 0⟩
def LK_DLY_OFS_value : Field := ⟨31, 0⟩
def LK_ASYM_CFG_value : Field := ⟨31, 0⟩
def LK_DLY_STAT_fwd_n : Field := ⟨31, 24⟩
def LK_DLY_STAT_rev_n : Field := ⟨23, 16⟩
def LK_DLY_STAT_drop_count : Field := ⟨15, 8⟩
def LK_TC_CFG_apply : Field := ⟨7, 7⟩
def LK_TC_CFG_lane_b : Field := ⟨6, 4⟩
def LK_TC_CFG_lane_a : Field := ⟨3, 1⟩
def LK_TC_CFG_enable : Field := ⟨0, 0⟩
def LK_TC_KAPPA_kappa : Field := ⟨31, 0⟩
def LK_TC_FIX_value : Field := ⟨31, 0⟩
def LK_TC_ASYM_value : Field := ⟨31, 0⟩

/-! Fields of the time core (R160–R164). -/
def TC_CTRL_host_valid : Field := ⟨2, 2⟩
def TC_CTRL_servo_mode : Field := ⟨1, 1⟩
def TC_CTRL_incr_src : Field := ⟨0, 0⟩
def TC_STATUS_te : Field := ⟨31, 24⟩
def TC_STATUS_step_busy : Field := ⟨16, 16⟩
def TC_STATUS_time_valid : Field := ⟨2, 2⟩
def TC_STATUS_state : Field := ⟨1, 0⟩
def TC_ALARM_hold_expired : Field := ⟨8, 8⟩
def TC_ALARM_sp_clamp : Field := ⟨7, 7⟩
def TC_ALARM_src_mismatch : Field := ⟨6, 6⟩
def TC_ALARM_src_lost : Field := ⟨5, 5⟩
def TC_ALARM_tsq_overflow : Field := ⟨4, 4⟩
def TC_ALARM_incr_reject : Field := ⟨3, 3⟩
def TC_ALARM_step_refused : Field := ⟨2, 2⟩
def TC_ALARM_step_applied : Field := ⟨1, 1⟩
def TC_ALARM_valid_lost : Field := ⟨0, 0⟩
def TC_INCR_LO_value_lo : Field := ⟨31, 0⟩
def TC_INCR_HI_value_hi : Field := ⟨15, 0⟩
def TC_NOW_LO_t48_lo : Field := ⟨31, 0⟩
def TC_NOW_HI_te : Field := ⟨31, 24⟩
def TC_NOW_HI_invalid : Field := ⟨16, 16⟩
def TC_NOW_HI_t48_hi : Field := ⟨15, 0⟩
def TC_STEP_LO_value_lo : Field := ⟨31, 0⟩
def TC_STEP_HI_force : Field := ⟨31, 31⟩
def TC_STEP_HI_absolute : Field := ⟨30, 30⟩
def TC_STEP_HI_value_hi : Field := ⟨15, 0⟩
def TC_STEP_LIMIT_limit : Field := ⟨31, 0⟩
def TC_SRC_CFG_port : Field := ⟨13, 8⟩
def TC_SRC_CFG_refin : Field := ⟨5, 4⟩
def TC_SRC_CFG_source : Field := ⟨1, 0⟩
def TC_SERVO_CFG_step_thresh : Field := ⟨31, 16⟩
def TC_SERVO_CFG_realign : Field := ⟨8, 8⟩
def TC_SERVO_CFG_ki_shift : Field := ⟨7, 4⟩
def TC_SERVO_CFG_kp_shift : Field := ⟨3, 0⟩
def TC_VALID_CFG_thresh : Field := ⟨31, 16⟩
def TC_VALID_CFG_windows : Field := ⟨15, 12⟩
def TC_VALID_CFG_hold_limit : Field := ⟨11, 0⟩
def TC_OFS_LAST_value : Field := ⟨31, 0⟩
def TC_PPS_EXPECT_LO_next_lo : Field := ⟨31, 0⟩
def TC_PPS_EXPECT_HI_next_hi : Field := ⟨15, 0⟩
def TC_PPS_STAMP_LO_t48_lo : Field := ⟨31, 0⟩
def TC_PPS_STAMP_HI_te : Field := ⟨31, 24⟩
def TC_PPS_STAMP_HI_invalid : Field := ⟨16, 16⟩
def TC_PPS_STAMP_HI_t48_hi : Field := ⟨15, 0⟩
def TC_TSQ_STAT_lost : Field := ⟨31, 16⟩
def TC_TSQ_STAT_count : Field := ⟨6, 0⟩
def TC_PTP_CFG_udp6 : Field := ⟨4, 4⟩
def TC_PTP_CFG_udp4 : Field := ⟨3, 3⟩
def TC_PTP_CFG_l2 : Field := ⟨2, 2⟩
def TC_PTP_CFG_one_step : Field := ⟨1, 1⟩
def TC_PTP_CFG_rx_stamp : Field := ⟨0, 0⟩

/-! Fields of the edge channels (R188–R192). -/
def EC_CTRL_privileged : Field := ⟨7, 7⟩
def EC_CTRL_state : Field := ⟨5, 4⟩
def EC_CTRL_enable : Field := ⟨0, 0⟩
def EC_PAD_dir : Field := ⟨7, 6⟩
def EC_PAD_term : Field := ⟨5, 5⟩
def EC_PAD_invert : Field := ⟨4, 4⟩
def EC_PAD_edges : Field := ⟨3, 2⟩
def EC_PAD_idle : Field := ⟨0, 0⟩
def EC_OUT_CFG_src_id : Field := ⟨31, 16⟩
def EC_OUT_CFG_trig : Field := ⟨15, 15⟩
def EC_OUT_CFG_hist : Field := ⟨14, 14⟩
def EC_OUT_CFG_report : Field := ⟨13, 13⟩
def EC_OUT_CFG_stream : Field := ⟨11, 10⟩
def EC_OUT_CFG_target : Field := ⟨6, 0⟩
def EC_WIN_CFG_ref : Field := ⟨15, 9⟩
def EC_WIN_CFG_mode : Field := ⟨1, 0⟩
def EC_WIN_DELAY_delay : Field := ⟨31, 0⟩
def EC_WIN_LEN_len : Field := ⟨31, 0⟩
def EC_WIN_PERIOD_period : Field := ⟨31, 0⟩
def EC_WIN_BASE_LO_base_lo : Field := ⟨31, 0⟩
def EC_WIN_BASE_HI_base_hi : Field := ⟨15, 0⟩
def EC_STATUS_sq_depth : Field := ⟨25, 16⟩
def EC_STATUS_dtc_depth : Field := ⟨14, 8⟩
def EC_STATUS_stale : Field := ⟨2, 2⟩
def EC_STATUS_cal : Field := ⟨1, 1⟩
def EC_STATUS_live : Field := ⟨0, 0⟩
def EC_ALARM_cfg_reject : Field := ⟨6, 6⟩
def EC_ALARM_scale_reject : Field := ⟨5, 5⟩
def EC_ALARM_cal_refused : Field := ⟨4, 4⟩
def EC_ALARM_dtc_refused : Field := ⟨3, 3⟩
def EC_ALARM_dtc_late : Field := ⟨2, 2⟩
def EC_ALARM_overflow : Field := ⟨1, 1⟩
def EC_ALARM_pileup : Field := ⟨0, 0⟩
def EC_PILEUP_count : Field := ⟨31, 0⟩
def EC_OVERFLOW_count : Field := ⟨31, 0⟩
def EC_REJECT_count : Field := ⟨31, 0⟩
def EC_DTC_LATE_count : Field := ⟨31, 0⟩
def EC_DTC_REFUSED_count : Field := ⟨31, 0⟩
def EC_DTC_FLUSHED_count : Field := ⟨31, 0⟩
def EC_CAL_STAT_scale : Field := ⟨15, 0⟩
def EC_IN_DELAY_value : Field := ⟨31, 0⟩
def EC_OUT_DELAY_value : Field := ⟨31, 0⟩
def EC_TPL_bytes : Field := ⟨31, 0⟩
def EC_STREAM_CFG_flush : Field := ⟨23, 16⟩
def EC_STREAM_CFG_tc : Field := ⟨15, 13⟩
def EC_STREAM_CFG_batch : Field := ⟨12, 7⟩
def EC_STREAM_CFG_tpl_len : Field := ⟨6, 0⟩
def EC_GL_CAL_period : Field := ⟨11, 0⟩

/-! Fields of the trigger plane (R223–R226). -/
def TG_CTRL_state : Field := ⟨2, 1⟩
def TG_CTRL_enable : Field := ⟨0, 0⟩
def TG_STATUS_pending : Field := ⟨31, 16⟩
def TG_STATUS_eff_gap : Field := ⟨15, 0⟩
def TG_ALARM_ro_overrun : Field := ⟨6, 6⟩
def TG_ALARM_cfg_reject : Field := ⟨5, 5⟩
def TG_ALARM_relay_excluded : Field := ⟨4, 4⟩
def TG_ALARM_hold : Field := ⟨3, 3⟩
def TG_ALARM_late : Field := ⟨2, 2⟩
def TG_ALARM_word_err : Field := ⟨1, 1⟩
def TG_ALARM_in_loss : Field := ⟨0, 0⟩
def TG_BUDGET_budget : Field := ⟨20, 0⟩
def TG_UPLINK_parent_gap : Field := ⟨31, 16⟩
def TG_UPLINK_valid : Field := ⟨7, 7⟩
def TG_UPLINK_port : Field := ⟨5, 0⟩
def TG_DEC_CFG_min_gap : Field := ⟨15, 0⟩
def TG_EXEC_CFG_ro_wait : Field := ⟨7, 0⟩
def TG_LATE_count : Field := ⟨31, 0⟩
def TG_UNMAPPED_count : Field := ⟨31, 0⟩
def TG_RELAY_MASK_LO_ports_lo : Field := ⟨31, 0⟩
def TG_RELAY_MASK_HI_ports_hi : Field := ⟨31, 0⟩
def TG_RELAY_NOW_LO_ports_lo : Field := ⟨31, 0⟩
def TG_RELAY_NOW_HI_ports_hi : Field := ⟨31, 0⟩
def TG_CLASS_CFG_exec : Field := ⟨0, 0⟩
def TG_CLASS_DOWN_LO_ports_lo : Field := ⟨31, 0⟩
def TG_CLASS_DOWN_HI_ports_hi : Field := ⟨31, 0⟩
def TG_PORT_ERR_crc : Field := ⟨31, 16⟩
def TG_PORT_ERR_misdirected : Field := ⟨15, 8⟩
def TG_PORT_ERR_idle : Field := ⟨7, 0⟩
def TG_IN_LOSS_count : Field := ⟨31, 0⟩
def TG_CU_CTRL_open : Field := ⟨15, 8⟩
def TG_CU_CTRL_held : Field := ⟨3, 3⟩
def TG_CU_CTRL_state : Field := ⟨2, 1⟩
def TG_CU_CTRL_enable : Field := ⟨0, 0⟩

/-! Fields of the switch core (R251–R254). -/
def SW_POOL_STAT_shared : Field := ⟨18, 0⟩
def SW_ALARM_bank_retired : Field := ⟨8, 8⟩
def SW_ALARM_cfg_reject : Field := ⟨7, 7⟩
def SW_ALARM_pool_short : Field := ⟨6, 6⟩
def SW_ALARM_down_discard : Field := ⟨5, 5⟩
def SW_ALARM_flow_violation : Field := ⟨4, 4⟩
def SW_ALARM_hdrm_borrow : Field := ⟨3, 3⟩
def SW_ALARM_stomp : Field := ⟨2, 2⟩
def SW_ALARM_mc_removed : Field := ⟨1, 1⟩
def SW_ALARM_mc_abandon : Field := ⟨0, 0⟩
def SW_BUF_STAT_banks_retired : Field := ⟨31, 24⟩
def SW_BUF_STAT_cells_usable : Field := ⟨18, 0⟩
def SW_BUF_FREE_free : Field := ⟨18, 0⟩
def SW_POOL_CFG_xon_gap : Field := ⟨15, 0⟩
def SW_MC_HOLD_limit : Field := ⟨16, 0⟩
def SW_DOWN_CFG_grace : Field := ⟨9, 0⟩
def SW_RECIRC_CFG_rsv : Field := ⟨15, 0⟩
def SW_PORT_CFG_sp_mask : Field := ⟨15, 8⟩
def SW_PORT_CFG_ct_en : Field := ⟨0, 0⟩
def SW_PORT_HDRM_cells : Field := ⟨15, 0⟩
def SW_PORT_STAT_xoff : Field := ⟨31, 24⟩
def SW_PORT_STAT_paused : Field := ⟨23, 16⟩
def SW_PORT_STAT_carrying : Field := ⟨0, 0⟩
def SW_OCC_cells : Field := ⟨18, 0⟩
def SW_TC_CFG_alpha : Field := ⟨31, 29⟩
def SW_TC_CFG_weight : Field := ⟨23, 16⟩
def SW_TC_CFG_rsv : Field := ⟨15, 0⟩
def SW_CREDIT_granted : Field := ⟨31, 16⟩
def SW_CREDIT_avail : Field := ⟨15, 0⟩
def SW_STOMP_count : Field := ⟨31, 0⟩
def SW_MC_REMOVED_count : Field := ⟨31, 0⟩
def SW_MC_ABANDON_count : Field := ⟨31, 0⟩
def SW_DOWN_DISCARD_count : Field := ⟨31, 0⟩
def SW_HDRM_BORROW_count : Field := ⟨31, 0⟩

/-! Fields of the classifier (R283–R285). -/
def CL_BANK_STAT_inflight : Field := ⟨19, 8⟩
def CL_BANK_STAT_held : Field := ⟨6, 6⟩
def CL_BANK_STAT_draining : Field := ⟨5, 5⟩
def CL_BANK_STAT_active : Field := ⟨4, 4⟩
def CL_BANK_STAT_epoch : Field := ⟨3, 0⟩
def CL_ALARM_cfg_reject : Field := ⟨5, 5⟩
def CL_ALARM_whey_drop : Field := ⟨4, 4⟩
def CL_ALARM_bad_action : Field := ⟨3, 3⟩
def CL_ALARM_stale_epoch : Field := ⟨2, 2⟩
def CL_ALARM_em_full : Field := ⟨1, 1⟩
def CL_ALARM_table_error : Field := ⟨0, 0⟩
def CL_TBL_CFG_tcam_mode : Field := ⟨1, 1⟩
def CL_TBL_CFG_em_mode : Field := ⟨0, 0⟩
def CL_WHEY_CFG_ptp_tc : Field := ⟨5, 3⟩
def CL_WHEY_CFG_tc : Field := ⟨2, 0⟩
def CL_EM_STAT_entries : Field := ⟨19, 0⟩
def CL_DRAIN_MAX_ns : Field := ⟨15, 0⟩
def CL_WHEY_LIM_rate : Field := ⟨31, 16⟩
def CL_WHEY_LIM_burst : Field := ⟨15, 0⟩
def CL_WHEY_CNT_count : Field := ⟨31, 0⟩
def CL_WHEY_DROP_count : Field := ⟨31, 0⟩
def CL_UDF_CFG_anchor : Field := ⟨31, 29⟩
def CL_UDF_CFG_offset : Field := ⟨23, 16⟩
def CL_PORT_CFG_tprof1 : Field := ⟨31, 28⟩
def CL_PORT_CFG_eprof1 : Field := ⟨27, 24⟩
def CL_PORT_CFG_tprof0 : Field := ⟨23, 20⟩
def CL_PORT_CFG_eprof0 : Field := ⟨19, 16⟩
def CL_PORT_CFG_em_en : Field := ⟨15, 15⟩
def CL_PORT_CFG_tcam_en : Field := ⟨14, 14⟩
def CL_PORT_CFG_tc_mode : Field := ⟨13, 12⟩
def CL_PORT_CFG_tc_default : Field := ⟨11, 9⟩
def CL_PORT_CFG_miss : Field := ⟨8, 7⟩
def CL_PORT_CFG_miss_port : Field := ⟨6, 0⟩
def CL_PCP_MAP_map : Field := ⟨23, 0⟩
def CL_KEY_PROF_sel : Field := ⟨29, 0⟩
def CL_SHADOW_LO_base_lo : Field := ⟨31, 0⟩
def CL_SHADOW_HI_base_hi : Field := ⟨31, 0⟩

/-! Fields of the host rings (R307–R309). -/
def HR_CTRL_dec_ring : Field := ⟨31, 26⟩
def HR_CTRL_tel_ring : Field := ⟨25, 20⟩
def HR_CTRL_fmt : Field := ⟨1, 0⟩
def HR_CAP_rings : Field := ⟨31, 24⟩
def HR_CAP_max_log2 : Field := ⟨23, 16⟩
def HR_CAP_vectors : Field := ⟨15, 8⟩
def HR_CAP_fmt_mask : Field := ⟨1, 0⟩
def HR_ALARM_flr : Field := ⟨6, 6⟩
def HR_ALARM_cmd_err : Field := ⟨5, 5⟩
def HR_ALARM_tel_lost : Field := ⟨4, 4⟩
def HR_ALARM_dec_lost : Field := ⟨3, 3⟩
def HR_ALARM_cfg_reject : Field := ⟨2, 2⟩
def HR_ALARM_ring_err : Field := ⟨1, 1⟩
def HR_ALARM_host_mem_err : Field := ⟨0, 0⟩
def HR_POLL_CFG_idle_time : Field := ⟨31, 16⟩
def HR_POLL_CFG_interval : Field := ⟨15, 0⟩
def HR_DB_BASE_LO_base_lo : Field := ⟨31, 0⟩
def HR_DB_BASE_HI_base_hi : Field := ⟨31, 0⟩
def HR_ST_BASE_LO_base_lo : Field := ⟨31, 0⟩
def HR_ST_BASE_HI_base_hi : Field := ⟨31, 0⟩
def HR_IRQ_MASK_blocks : Field := ⟨15, 0⟩
def HR_CMD_ERR_crc : Field := ⟨31, 16⟩
def HR_CMD_ERR_bad : Field := ⟨15, 0⟩
def HR_MEM_ERR_count : Field := ⟨31, 0⟩
def HR_PCIE_STAT_width : Field := ⟨7, 4⟩
def HR_PCIE_STAT_speed : Field := ⟨3, 0⟩
def HR_RING_CTRL_err : Field := ⟨15, 8⟩
def HR_RING_CTRL_state : Field := ⟨2, 1⟩
def HR_RING_CTRL_enable : Field := ⟨0, 0⟩
def HR_RING_CFG_type : Field := ⟨31, 29⟩
def HR_RING_CFG_size_log2 : Field := ⟨28, 24⟩
def HR_RING_CFG_cls : Field := ⟨23, 16⟩
def HR_RING_CFG_cpl_ring : Field := ⟨15, 10⟩
def HR_RING_BASE_LO_base_lo : Field := ⟨31, 0⟩
def HR_RING_BASE_HI_base_hi : Field := ⟨31, 0⟩
def HR_RING_MOD_count : Field := ⟨31, 16⟩
def HR_RING_MOD_time : Field := ⟨15, 0⟩
def HR_RING_DIDX_didx : Field := ⟨31, 0⟩
def HR_RING_HIDX_hidx : Field := ⟨31, 0⟩

/-! Fields of the pail port (R324–R325). -/
def PL_CTRL_state : Field := ⟨2, 1⟩
def PL_CTRL_enable : Field := ⟨0, 0⟩
def PL_CFG_po_mode : Field := ⟨17, 17⟩
def PL_CFG_pi_mode : Field := ⟨16, 16⟩
def PL_CFG_max_frame : Field := ⟨15, 0⟩
def PL_STATUS_po_xoff : Field := ⟨3, 3⟩
def PL_STATUS_pi_xoff : Field := ⟨2, 2⟩
def PL_STATUS_pi_aligned : Field := ⟨1, 1⟩
def PL_STATUS_pi_clk : Field := ⟨0, 0⟩
def PL_ALARM_align_lost : Field := ⟨6, 6⟩
def PL_ALARM_cfg_reject : Field := ⟨5, 5⟩
def PL_ALARM_drop_void : Field := ⟨4, 4⟩
def PL_ALARM_dec_lost : Field := ⟨3, 3⟩
def PL_ALARM_word_err : Field := ⟨2, 2⟩
def PL_ALARM_length : Field := ⟨1, 1⟩
def PL_ALARM_parity : Field := ⟨0, 0⟩
def PL_PI_WM_high : Field := ⟨31, 16⟩
def PL_PI_WM_low : Field := ⟨15, 0⟩
def PL_PO_WM_high : Field := ⟨31, 16⟩
def PL_PO_WM_low : Field := ⟨15, 0⟩
def PL_PI_LEVEL_pkts : Field := ⟨31, 16⟩
def PL_PI_LEVEL_words : Field := ⟨15, 0⟩
def PL_PO_LEVEL_pkts : Field := ⟨31, 16⟩
def PL_PO_LEVEL_words : Field := ⟨15, 0⟩
def PL_PI_PARITY_count : Field := ⟨31, 0⟩
def PL_PI_MARKED_count : Field := ⟨31, 0⟩
def PL_PI_LENGTH_count : Field := ⟨31, 0⟩
def PL_PI_PARTIAL_count : Field := ⟨31, 0⟩
def PL_PI_WORD_ERR_count : Field := ⟨31, 0⟩
def PL_PO_DROP_count : Field := ⟨31, 0⟩
def PL_PO_DROP_VOID_count : Field := ⟨31, 0⟩
def PL_PO_DEC_LOST_count : Field := ⟨31, 0⟩

/-! Fields of the memory integrity (R368–R370). -/
def MI_STATUS_diverted : Field := ⟨31, 24⟩
def MI_STATUS_phase : Field := ⟨7, 6⟩
def MI_STATUS_bank : Field := ⟨5, 0⟩
def MI_ALARM_spare_fail : Field := ⟨6, 6⟩
def MI_ALARM_dup_loss : Field := ⟨5, 5⟩
def MI_ALARM_no_spare : Field := ⟨4, 4⟩
def MI_ALARM_no_source : Field := ⟨3, 3⟩
def MI_ALARM_refetch_err : Field := ⟨2, 2⟩
def MI_ALARM_ue : Field := ⟨1, 1⟩
def MI_ALARM_ce_ovf : Field := ⟨0, 0⟩
def MI_CHURN_CFG_interval : Field := ⟨16, 0⟩
def MI_CHURN_STAT_walks : Field := ⟨31, 16⟩
def MI_CHURN_STAT_mem : Field := ⟨11, 8⟩
def MI_CE_OVF_count : Field := ⟨31, 0⟩
def MI_CE_CLEAR_clear : Field := ⟨0, 0⟩
def MI_BIST_CFG_online : Field := ⟨16, 16⟩
def MI_BIST_CFG_period : Field := ⟨15, 0⟩
def MI_RETIRED_LO_banks_lo : Field := ⟨31, 0⟩
def MI_RETIRED_HI_banks_hi : Field := ⟨15, 0⟩
def MI_CE_ENT_LO_mem : Field := ⟨31, 28⟩
def MI_CE_ENT_LO_line : Field := ⟨27, 8⟩
def MI_CE_ENT_LO_word : Field := ⟨7, 3⟩
def MI_CE_ENT_HI_repeats : Field := ⟨31, 24⟩
def MI_CE_ENT_HI_bit : Field := ⟨23, 17⟩
def MI_CE_ENT_HI_src : Field := ⟨16, 16⟩
def MI_CE_ENT_HI_first_min : Field := ⟨15, 0⟩
def MI_MEM_CE_count : Field := ⟨31, 0⟩
def MI_MEM_UE_count : Field := ⟨31, 0⟩
def MI_MEM_SPARE_used : Field := ⟨15, 8⟩
def MI_MEM_SPARE_total : Field := ⟨7, 0⟩

/-! Fields of the calibration (R384–R386). -/
def CA_STATUS_pending : Field := ⟨31, 24⟩
def CA_STATUS_result : Field := ⟨15, 12⟩
def CA_STATUS_state : Field := ⟨1, 0⟩
def CA_ALARM_cfg_reject : Field := ⟨8, 8⟩
def CA_ALARM_store_fail : Field := ⟨7, 7⟩
def CA_ALARM_pending_lost : Field := ⟨6, 6⟩
def CA_ALARM_delta_crc : Field := ⟨5, 5⟩
def CA_ALARM_temp_range : Field := ⟨4, 4⟩
def CA_ALARM_sensor_fail : Field := ⟨3, 3⟩
def CA_ALARM_timeout : Field := ⟨2, 2⟩
def CA_ALARM_temp_window : Field := ⟨1, 1⟩
def CA_ALARM_disagree : Field := ⟨0, 0⟩
def CA_CMD_go : Field := ⟨31, 31⟩
def CA_CMD_op : Field := ⟨30, 27⟩
def CA_CMD_set : Field := ⟨26, 24⟩
def CA_CMD_all_sets : Field := ⟨23, 23⟩
def CA_CMD_target : Field := ⟨14, 8⟩
def CA_CMD_ref : Field := ⟨6, 0⟩
def CA_CMD_K_k : Field := ⟨31, 0⟩
def CA_RESULT_A_value : Field := ⟨31, 0⟩
def CA_RESULT_B_value : Field := ⟨31, 0⟩
def CA_STORE_discard : Field := ⟨1, 1⟩
def CA_STORE_store : Field := ⟨0, 0⟩
def CA_DELTA_SEL_kind : Field := ⟨31, 28⟩
def CA_DELTA_SEL_set : Field := ⟨26, 24⟩
def CA_DELTA_SEL_index : Field := ⟨14, 8⟩
def CA_DELTA_SEL_rate : Field := ⟨2, 0⟩
def CA_DELTA_VAL_value : Field := ⟨31, 0⟩
def CA_DELTA_STAT_seq : Field := ⟨31, 16⟩
def CA_DELTA_STAT_copy : Field := ⟨1, 1⟩
def CA_DELTA_STAT_loaded : Field := ⟨0, 0⟩
def CA_TEMP_valid : Field := ⟨31, 31⟩
def CA_TEMP_failed : Field := ⟨30, 30⟩
def CA_TEMP_temp : Field := ⟨15, 0⟩

/-! Fields of the kiln log (R401–R402). -/
def ER_STATUS_full : Field := ⟨31, 31⟩
def ER_STATUS_clearing : Field := ⟨30, 30⟩
def ER_STATUS_records : Field := ⟨23, 0⟩
def ER_ALARM_clear_done : Field := ⟨3, 3⟩
def ER_ALARM_auth_fail : Field := ⟨2, 2⟩
def ER_ALARM_q_lost : Field := ⟨1, 1⟩
def ER_ALARM_full : Field := ⟨0, 0⟩
def ER_USED_bytes : Field := ⟨17, 0⟩
def ER_REFUSED_count : Field := ⟨31, 0⟩
def ER_CLEARS_count : Field := ⟨31, 0⟩
def ER_PWR_CYCLES_count : Field := ⟨31, 0⟩
def ER_MINUTES_count : Field := ⟨31, 0⟩
def ER_CURSOR_ready : Field := ⟨31, 31⟩
def ER_CURSOR_none : Field := ⟨30, 30⟩
def ER_CURSOR_index : Field := ⟨23, 0⟩
def ER_ADVANCE_next : Field := ⟨0, 0⟩
def ER_QLOST_count : Field := ⟨31, 0⟩
def ER_WIN_bytes : Field := ⟨31, 0⟩

/-! Fields of the counters and telemetry (R403–R404). -/
def PC_ALARM_supply_range : Field := ⟨1, 1⟩
def PC_ALARM_wrap : Field := ⟨0, 0⟩
def PC_TEL_CFG_enable : Field := ⟨0, 0⟩
def PC_BW_CFG_window : Field := ⟨13, 0⟩
def PC_BW_RX_window : Field := ⟨31, 24⟩
def PC_BW_RX_rate : Field := ⟨23, 0⟩
def PC_BW_TX_window : Field := ⟨31, 24⟩
def PC_BW_TX_rate : Field := ⟨23, 0⟩

/-! Fields of the pairing and security (R419–R420). -/
def PS_PAIR_CFG_claim_wait : Field := ⟨31, 24⟩
def PS_PAIR_CFG_claim_any : Field := ⟨8, 8⟩
def PS_PAIR_CFG_enable : Field := ⟨7, 7⟩
def PS_PAIR_CFG_port : Field := ⟨5, 0⟩
def PS_PAIR_STATUS_role : Field := ⟨3, 3⟩
def PS_PAIR_STATUS_state : Field := ⟨2, 0⟩
def PS_ALARM_refused : Field := ⟨4, 4⟩
def PS_ALARM_zeroized : Field := ⟨3, 3⟩
def PS_ALARM_sig_fail : Field := ⟨2, 2⟩
def PS_ALARM_yielded : Field := ⟨1, 1⟩
def PS_ALARM_takeover : Field := ⟨0, 0⟩
def PS_YIELD_CFG_ue_limit : Field := ⟨31, 24⟩
def PS_YIELD_CFG_tv_limit : Field := ⟨23, 8⟩
def PS_YIELD_CFG_en : Field := ⟨4, 0⟩
def PS_WDOG_period : Field := ⟨15, 0⟩
def PS_CMD_slot : Field := ⟨7, 5⟩
def PS_CMD_img_store : Field := ⟨4, 4⟩
def PS_CMD_key_write : Field := ⟨3, 3⟩
def PS_CMD_zeroize : Field := ⟨2, 2⟩
def PS_CMD_rejoin : Field := ⟨1, 1⟩
def PS_CMD_yield : Field := ⟨0, 0⟩
def PS_XFER_LO_addr_lo : Field := ⟨31, 0⟩
def PS_XFER_HI_addr_hi : Field := ⟨31, 0⟩
def PS_XFER_LEN_len : Field := ⟨21, 0⟩
def PS_SEC_STATUS_unsigned : Field := ⟨9, 9⟩
def PS_SEC_STATUS_open : Field := ⟨8, 8⟩
def PS_SEC_STATUS_filled : Field := ⟨7, 0⟩
def PS_OPEN_code : Field := ⟨15, 0⟩
def PS_TAKE_STAT_phase : Field := ⟨31, 0⟩
def PS_LOST_count : Field := ⟨31, 0⟩

/-! Fields of the global block (R432–R436). -/
def GL_VERSION_part : Field := ⟨31, 16⟩
def GL_VERSION_rev_letter : Field := ⟨15, 8⟩
def GL_VERSION_rev_digit : Field := ⟨7, 0⟩
def GL_CAP_lanes : Field := ⟨31, 24⟩
def GL_CAP_ec_channels : Field := ⟨23, 16⟩
def GL_CAP_isz_ver : Field := ⟨15, 13⟩
def GL_CAP_two_colour : Field := ⟨12, 12⟩
def GL_CAP_pairing : Field := ⟨11, 11⟩
def GL_CAP_buf_banks : Field := ⟨7, 0⟩
def GL_STAGE_safe_cause : Field := ⟨23, 16⟩
def GL_STAGE_glaze_wait : Field := ⟨8, 8⟩
def GL_STAGE_fire_step : Field := ⟨7, 4⟩
def GL_STAGE_stage : Field := ⟨2, 0⟩
def GL_CTRL_enum_auto : Field := ⟨4, 4⟩
def GL_CTRL_enum_go : Field := ⟨3, 3⟩
def GL_CTRL_enum_root : Field := ⟨2, 2⟩
def GL_CTRL_glaze : Field := ⟨1, 1⟩
def GL_CTRL_glaze_src : Field := ⟨0, 0⟩
def GL_ALARM_addr_lost : Field := ⟨4, 4⟩
def GL_ALARM_refused : Field := ⟨3, 3⟩
def GL_ALARM_enum_change : Field := ⟨2, 2⟩
def GL_ALARM_stage_reject : Field := ⟨1, 1⟩
def GL_ALARM_access_err : Field := ⟨0, 0⟩
def GL_ADDR_valid : Field := ⟨31, 31⟩
def GL_ADDR_refused : Field := ⟨30, 30⟩
def GL_ADDR_port : Field := ⟨29, 24⟩
def GL_ADDR_addr : Field := ⟨23, 0⟩
def GL_ENUM_STAT_seq : Field := ⟨31, 24⟩
def GL_ENUM_STAT_mismatch : Field := ⟨16, 16⟩
def GL_ENUM_STAT_walking : Field := ⟨0, 0⟩
def GL_STRAP_test_mode : Field := ⟨1, 1⟩
def GL_STRAP_pair_role : Field := ⟨0, 0⟩
def GL_ACCESS_ERR_count : Field := ⟨31, 24⟩
def GL_ACCESS_ERR_kind : Field := ⟨23, 20⟩
def GL_ACCESS_ERR_offset : Field := ⟨19, 0⟩
def GL_SCRATCH_value : Field := ⟨31, 0⟩
def GL_PORT_RANGE_valid : Field := ⟨31, 31⟩
def GL_PORT_RANGE_first : Field := ⟨23, 0⟩
def GL_PORT_RANGE_END_end : Field := ⟨23, 0⟩

end F

/-- GL register families, R432–R436. -/
def specsGL : List RegSpec := [
  ⟨0x00000, 1, 0x0, 1, 0x0, 0x64124201,
    [⟨⟨31, 16⟩, .ro, .any⟩, ⟨⟨15, 8⟩, .ro, .any⟩, ⟨⟨7, 0⟩, .ro, .any⟩]⟩,
  ⟨0x00004, 1, 0x0, 1, 0x0, 0x4080F830,
    [⟨⟨31, 24⟩, .ro, .any⟩, ⟨⟨23, 16⟩, .ro, .any⟩, ⟨⟨15, 13⟩, .ro, .any⟩, ⟨⟨12, 12⟩, .ro, .any⟩, ⟨⟨11, 11⟩, .ro, .any⟩, ⟨⟨7, 0⟩, .ro, .any⟩]⟩,
  ⟨0x00008, 1, 0x0, 1, 0x0, 0x00000001,
    [⟨⟨23, 16⟩, .ro, .any⟩, ⟨⟨8, 8⟩, .ro, .any⟩, ⟨⟨7, 4⟩, .ro, .any⟩, ⟨⟨2, 0⟩, .ro, .any⟩]⟩,
  ⟨0x0000C, 1, 0x0, 1, 0x0, 0x00000010,
    [⟨⟨4, 4⟩, .rw, .any⟩, ⟨⟨3, 3⟩, .wo, .any⟩, ⟨⟨2, 2⟩, .rw, .any⟩, ⟨⟨1, 1⟩, .wo, .any⟩, ⟨⟨0, 0⟩, .rw, .any⟩]⟩,
  ⟨0x00010, 1, 0x0, 1, 0x0, 0x00000000,
    [⟨⟨4, 4⟩, .w1c, .any⟩, ⟨⟨3, 3⟩, .w1c, .any⟩, ⟨⟨2, 2⟩, .w1c, .any⟩, ⟨⟨1, 1⟩, .w1c, .any⟩, ⟨⟨0, 0⟩, .w1c, .any⟩]⟩,
  ⟨0x00014, 1, 0x0, 1, 0x0, 0x00000000,
    [⟨⟨31, 31⟩, .ro, .any⟩, ⟨⟨30, 30⟩, .ro, .any⟩, ⟨⟨29, 24⟩, .ro, .any⟩, ⟨⟨23, 0⟩, .ro, .any⟩]⟩,
  ⟨0x00018, 1, 0x0, 1, 0x0, 0x00000000,
    [⟨⟨31, 24⟩, .ro, .any⟩, ⟨⟨16, 16⟩, .ro, .any⟩, ⟨⟨0, 0⟩, .ro, .any⟩]⟩,
  ⟨0x0001C, 1, 0x0, 1, 0x0, 0x00000000,
    [⟨⟨1, 1⟩, .ro, .any⟩, ⟨⟨0, 0⟩, .ro, .any⟩]⟩,
  ⟨0x00020, 1, 0x0, 1, 0x0, 0x00000000,
    [⟨⟨31, 24⟩, .rc, .any⟩, ⟨⟨23, 20⟩, .ro, .any⟩, ⟨⟨19, 0⟩, .ro, .any⟩]⟩,
  ⟨0x00024, 1, 0x0, 1, 0x0, 0x00000000,
    [⟨⟨31, 0⟩, .rw, .any⟩]⟩,
  ⟨0x00100, 64, 0x8, 1, 0x0, 0x00000000,
    [⟨⟨31, 31⟩, .ro, .any⟩, ⟨⟨23, 0⟩, .ro, .any⟩]⟩,
  ⟨0x00104, 64, 0x8, 1, 0x0, 0x00000000,
    [⟨⟨23, 0⟩, .ro, .any⟩]⟩]

/-- CK register families, R63–R72, part 1. -/
def specsCKa : List RegSpec := [
  ⟨0x10000, 1, 0x0, 1, 0x0, 0x00000014,
    [⟨⟨4, 4⟩, .rw, .any⟩, ⟨⟨3, 2⟩, .rw, .any⟩, ⟨⟨1, 0⟩, .rw, .reserved [3]⟩]⟩,
  ⟨0x10004, 1, 0x0, 1, 0x0, 0x14520000,
    [⟨⟨31, 24⟩, .rw, .any⟩, ⟨⟨23, 20⟩, .rw, .any⟩, ⟨⟨19, 16⟩, .rw, .any⟩, ⟨⟨15, 8⟩, .rw, .ignoreAbove 67⟩, ⟨⟨1, 0⟩, .rw, .reserved [3]⟩]⟩,
  ⟨0x10008, 1, 0x0, 1, 0x0, 0x03C0A12C,
    [⟨⟨27, 20⟩, .rw, .any⟩, ⟨⟨19, 12⟩, .rw, .any⟩, ⟨⟨11, 0⟩, .rw, .within 0 3600⟩]⟩,
  ⟨0x1000C, 1, 0x0, 1, 0x0, 0x007F0000,
    [⟨⟨22, 16⟩, .ro, .any⟩, ⟨⟨11, 8⟩, .ro, .any⟩, ⟨⟨4, 4⟩, .ro, .any⟩, ⟨⟨3, 3⟩, .ro, .any⟩, ⟨⟨2, 0⟩, .ro, .any⟩]⟩,
  ⟨0x10010, 1, 0x0, 1, 0x0, 0x00000000,
    [⟨⟨8, 8⟩, .w1c, .any⟩, ⟨⟨7, 7⟩, .w1c, .any⟩, ⟨⟨6, 6⟩, .w1c, .any⟩, ⟨⟨5, 5⟩, .w1c, .any⟩, ⟨⟨4, 4⟩, .w1c, .any⟩, ⟨⟨3, 3⟩, .w1c, .any⟩, ⟨⟨2, 2⟩, .w1c, .any⟩, ⟨⟨1, 1⟩, .w1c, .any⟩, ⟨⟨0, 0⟩, .w1c, .any⟩]⟩,
  ⟨0x10014, 1, 0x0, 1, 0x0, 0x0000000F,
    [⟨⟨3, 0⟩, .rw, .any⟩]⟩,
  ⟨0x10018, 1, 0x0, 1, 0x0, 0x00000000,
    [⟨⟨31, 0⟩, .rw, .any⟩]⟩,
  ⟨0x1001C, 1, 0x0, 1, 0x0, 0x00000000,
    [⟨⟨31, 0⟩, .rw, .any⟩]⟩,
  ⟨0x10020, 1, 0x0, 1, 0x0, 0x00000000,
    [⟨⟨31, 0⟩, .ro, .any⟩]⟩,
  ⟨0x10024, 1, 0x0, 1, 0x0, 0x00000000,
    [⟨⟨15, 0⟩, .rw, .any⟩]⟩,
  ⟨0x10028, 1, 0x0, 1, 0x0, 0x00000000,
    [⟨⟨31, 0⟩, .rw, .any⟩]⟩,
  ⟨0x1002C, 1, 0x0, 1, 0x0, 0x00000000,
    [⟨⟨31, 0⟩, .rw, .any⟩]⟩]

/-- CK register families, R63–R72, part 2. -/
def specsCKb : List RegSpec := [
  ⟨0x10030, 1, 0x0, 1, 0x0, 0x00000000,
    [⟨⟨15, 8⟩, .ro, .any⟩, ⟨⟨7, 4⟩, .ro, .any⟩, ⟨⟨0, 0⟩, .ro, .any⟩]⟩,
  ⟨0x10034, 1, 0x0, 1, 0x0, 0x0000FF00,
    [⟨⟨15, 8⟩, .rw, .any⟩, ⟨⟨1, 0⟩, .rw, .reserved [3]⟩]⟩,
  ⟨0x10100, 4, 0x4, 1, 0x0, 0x00005C10,
    [⟨⟨16, 16⟩, .wo, .any⟩, ⟨⟨15, 8⟩, .rw, .any⟩, ⟨⟨7, 4⟩, .rw, .reserved [5, 6, 7, 8, 9, 10, 11, 12, 13, 14, 15]⟩, ⟨⟨3, 0⟩, .rw, .any⟩]⟩,
  ⟨0x10110, 64, 0x4, 1, 0x0, 0x00005C40,
    [⟨⟨16, 16⟩, .wo, .any⟩, ⟨⟨15, 8⟩, .rw, .any⟩, ⟨⟨7, 4⟩, .ro, .reserved [5, 6, 7, 8, 9, 10, 11, 12, 13, 14, 15]⟩, ⟨⟨3, 0⟩, .rw, .any⟩]⟩,
  ⟨0x10300, 68, 0x4, 1, 0x0, 0x00000000,
    [⟨⟨15, 4⟩, .ro, .any⟩, ⟨⟨3, 3⟩, .ro, .any⟩, ⟨⟨2, 2⟩, .ro, .any⟩, ⟨⟨1, 0⟩, .ro, .any⟩]⟩,
  ⟨0x10500, 68, 0x4, 1, 0x0, 0x80000000,
    [⟨⟨31, 0⟩, .ro, .any⟩]⟩,
  ⟨0x10700, 8, 0x8, 1, 0x0, 0x00000000,
    [⟨⟨15, 8⟩, .rw, .any⟩, ⟨⟨2, 1⟩, .ro, .any⟩, ⟨⟨0, 0⟩, .rw, .any⟩]⟩,
  ⟨0x10704, 8, 0x8, 1, 0x0, 0x000004E2,
    [⟨⟨31, 0⟩, .rw, .within 8 0xFFFFFFFF⟩]⟩,
  ⟨0x10780, 2, 0x10, 1, 0x0, 0x00186A00,
    [⟨⟨23, 4⟩, .rw, .any⟩, ⟨⟨2, 1⟩, .ro, .any⟩, ⟨⟨0, 0⟩, .rw, .any⟩]⟩,
  ⟨0x10784, 2, 0x10, 1, 0x0, 0x3B9ACA00,
    [⟨⟨31, 0⟩, .rw, .within 2000 0xFFFFFFFF⟩]⟩,
  ⟨0x10788, 2, 0x10, 1, 0x0, 0x00000000,
    [⟨⟨31, 0⟩, .rw, .any⟩]⟩,
  ⟨0x1078C, 2, 0x10, 1, 0x0, 0x00000000,
    [⟨⟨15, 0⟩, .rw, .any⟩]⟩]

/-- All CK register families (R63–R72). -/
def specsCK : List RegSpec :=
  specsCKa ++ specsCKb

/-- TC register families, R160–R164, part 1. -/
def specsTCa : List RegSpec := [
  ⟨0x20000, 1, 0x0, 1, 0x0, 0x00000002,
    [⟨⟨2, 2⟩, .rw, .any⟩, ⟨⟨1, 1⟩, .rw, .any⟩, ⟨⟨0, 0⟩, .rw, .any⟩]⟩,
  ⟨0x20004, 1, 0x0, 1, 0x0, 0x00000000,
    [⟨⟨31, 24⟩, .ro, .any⟩, ⟨⟨16, 16⟩, .ro, .any⟩, ⟨⟨2, 2⟩, .ro, .any⟩, ⟨⟨1, 0⟩, .ro, .any⟩]⟩,
  ⟨0x20008, 1, 0x0, 1, 0x0, 0x00000000,
    [⟨⟨8, 8⟩, .w1c, .any⟩, ⟨⟨7, 7⟩, .w1c, .any⟩, ⟨⟨6, 6⟩, .w1c, .any⟩, ⟨⟨5, 5⟩, .w1c, .any⟩, ⟨⟨4, 4⟩, .w1c, .any⟩, ⟨⟨3, 3⟩, .w1c, .any⟩, ⟨⟨2, 2⟩, .w1c, .any⟩, ⟨⟨1, 1⟩, .w1c, .any⟩, ⟨⟨0, 0⟩, .w1c, .any⟩]⟩,
  ⟨0x2000C, 1, 0x0, 1, 0x0, 0x9999999A,
    [⟨⟨31, 0⟩, .rw, .any⟩]⟩,
  ⟨0x20010, 1, 0x0, 1, 0x0, 0x00000199,
    [⟨⟨15, 0⟩, .rw, .any⟩]⟩,
  ⟨0x20014, 1, 0x0, 1, 0x0, 0x00000000,
    [⟨⟨31, 0⟩, .ro, .any⟩]⟩,
  ⟨0x20018, 1, 0x0, 1, 0x0, 0x00010000,
    [⟨⟨31, 24⟩, .ro, .any⟩, ⟨⟨16, 16⟩, .ro, .any⟩, ⟨⟨15, 0⟩, .ro, .any⟩]⟩,
  ⟨0x2001C, 1, 0x0, 1, 0x0, 0x00000000,
    [⟨⟨31, 0⟩, .rw, .any⟩]⟩,
  ⟨0x20020, 1, 0x0, 1, 0x0, 0x00000000,
    [⟨⟨31, 31⟩, .rw, .any⟩, ⟨⟨30, 30⟩, .rw, .any⟩, ⟨⟨15, 0⟩, .rw, .any⟩]⟩,
  ⟨0x20024, 1, 0x0, 1, 0x0, 0x000003E8,
    [⟨⟨31, 0⟩, .rw, .any⟩]⟩,
  ⟨0x20028, 1, 0x0, 1, 0x0, 0x00000010,
    [⟨⟨13, 8⟩, .rw, .any⟩, ⟨⟨5, 4⟩, .rw, .any⟩, ⟨⟨1, 0⟩, .rw, .any⟩]⟩,
  ⟨0x2002C, 1, 0x0, 1, 0x0, 0x000A0182,
    [⟨⟨31, 16⟩, .rw, .any⟩, ⟨⟨8, 8⟩, .rw, .any⟩, ⟨⟨7, 4⟩, .rw, .any⟩, ⟨⟨3, 0⟩, .rw, .any⟩]⟩]

/-- TC register families, R160–R164, part 2. -/
def specsTCb : List RegSpec := [
  ⟨0x20030, 1, 0x0, 1, 0x0, 0x03E8303C,
    [⟨⟨31, 16⟩, .rw, .any⟩, ⟨⟨15, 12⟩, .rw, .any⟩, ⟨⟨11, 0⟩, .rw, .any⟩]⟩,
  ⟨0x20034, 1, 0x0, 1, 0x0, 0x80000000,
    [⟨⟨31, 0⟩, .ro, .any⟩]⟩,
  ⟨0x20038, 1, 0x0, 1, 0x0, 0x00000000,
    [⟨⟨31, 0⟩, .rw, .any⟩]⟩,
  ⟨0x2003C, 1, 0x0, 1, 0x0, 0x00000000,
    [⟨⟨15, 0⟩, .rw, .any⟩]⟩,
  ⟨0x20040, 1, 0x0, 1, 0x0, 0x00000000,
    [⟨⟨31, 0⟩, .ro, .any⟩]⟩,
  ⟨0x20044, 1, 0x0, 1, 0x0, 0x00010000,
    [⟨⟨31, 24⟩, .ro, .any⟩, ⟨⟨16, 16⟩, .ro, .any⟩, ⟨⟨15, 0⟩, .ro, .any⟩]⟩,
  ⟨0x20048, 1, 0x0, 1, 0x0, 0x00000000,
    [⟨⟨31, 16⟩, .rc, .any⟩, ⟨⟨6, 0⟩, .ro, .any⟩]⟩,
  ⟨0x20100, 64, 0x4, 1, 0x0, 0x00000004,
    [⟨⟨4, 4⟩, .rw, .any⟩, ⟨⟨3, 3⟩, .rw, .any⟩, ⟨⟨2, 2⟩, .rw, .any⟩, ⟨⟨1, 1⟩, .rw, .any⟩, ⟨⟨0, 0⟩, .rw, .any⟩]⟩]

/-- All TC register families (R160–R164). -/
def specsTC : List RegSpec :=
  specsTCa ++ specsTCb

/-- LN register families, R98–R103, part 1. -/
def specsLNa : List RegSpec := [
  ⟨0x30000, 64, 0x400, 1, 0x0, 0x00000000,
    [⟨⟨5, 4⟩, .ro, .any⟩, ⟨⟨2, 2⟩, .wo, .any⟩, ⟨⟨1, 1⟩, .rw, .any⟩, ⟨⟨0, 0⟩, .rw, .any⟩]⟩,
  ⟨0x30004, 64, 0x400, 1, 0x0, 0x00000800,
    [⟨⟨15, 13⟩, .rw, .reserved [5, 6, 7]⟩, ⟨⟨12, 12⟩, .rw, .any⟩, ⟨⟨11, 11⟩, .rw, .any⟩, ⟨⟨10, 10⟩, .rw, .any⟩, ⟨⟨9, 9⟩, .rw, .any⟩, ⟨⟨8, 8⟩, .rw, .any⟩, ⟨⟨7, 7⟩, .rw, .any⟩]⟩,
  ⟨0x30008, 64, 0x400, 1, 0x0, 0x0000005B,
    [⟨⟨6, 6⟩, .rw, .any⟩, ⟨⟨5, 0⟩, .rw, .any⟩]⟩,
  ⟨0x3000C, 64, 0x400, 1, 0x0, 0x00000000,
    [⟨⟨15, 15⟩, .ro, .any⟩, ⟨⟨14, 14⟩, .ro, .any⟩, ⟨⟨13, 11⟩, .ro, .any⟩, ⟨⟨10, 10⟩, .ro, .any⟩, ⟨⟨9, 9⟩, .ro, .any⟩, ⟨⟨8, 8⟩, .ro, .any⟩, ⟨⟨7, 7⟩, .ro, .any⟩, ⟨⟨6, 4⟩, .ro, .any⟩, ⟨⟨3, 0⟩, .ro, .any⟩]⟩,
  ⟨0x30010, 64, 0x400, 1, 0x0, 0x00000000,
    [⟨⟨31, 16⟩, .rc, .any⟩, ⟨⟨15, 12⟩, .ro, .any⟩, ⟨⟨11, 9⟩, .ro, .any⟩]⟩,
  ⟨0x30014, 64, 0x400, 1, 0x0, 0x00000000,
    [⟨⟨7, 7⟩, .w1c, .any⟩, ⟨⟨6, 6⟩, .w1c, .any⟩, ⟨⟨5, 5⟩, .w1c, .any⟩, ⟨⟨4, 4⟩, .w1c, .any⟩, ⟨⟨3, 3⟩, .w1c, .any⟩, ⟨⟨2, 2⟩, .w1c, .any⟩, ⟨⟨1, 1⟩, .w1c, .any⟩, ⟨⟨0, 0⟩, .w1c, .any⟩]⟩,
  ⟨0x30018, 64, 0x400, 1, 0x0, 0x68840100,
    [⟨⟨31, 25⟩, .ro, .any⟩, ⟨⟨23, 22⟩, .rw, .any⟩, ⟨⟨20, 16⟩, .rw, .any⟩, ⟨⟨15, 12⟩, .rw, .any⟩, ⟨⟨9, 5⟩, .rw, .any⟩]⟩,
  ⟨0x3001C, 64, 0x400, 1, 0x0, 0x00006080,
    [⟨⟨23, 16⟩, .ro, .any⟩, ⟨⟨15, 12⟩, .rw, .any⟩, ⟨⟨7, 7⟩, .rw, .any⟩, ⟨⟨6, 6⟩, .rw, .any⟩]⟩,
  ⟨0x30020, 64, 0x400, 1, 0x0, 0x00000000,
    [⟨⟨14, 14⟩, .ro, .any⟩, ⟨⟨12, 12⟩, .rw, .any⟩, ⟨⟨11, 8⟩, .rw, .any⟩, ⟨⟨4, 4⟩, .rw, .any⟩, ⟨⟨3, 0⟩, .rw, .reserved [9, 10, 11, 12, 13, 14, 15]⟩]⟩,
  ⟨0x30024, 64, 0x400, 1, 0x0, 0x00000000,
    [⟨⟨31, 0⟩, .rc, .any⟩]⟩,
  ⟨0x30028, 64, 0x400, 1, 0x0, 0x00000000,
    [⟨⟨8, 0⟩, .ro, .any⟩]⟩,
  ⟨0x3002C, 64, 0x400, 1, 0x0, 0x00000000,
    [⟨⟨31, 24⟩, .ro, .any⟩, ⟨⟨23, 0⟩, .ro, .any⟩]⟩]

/-- LN register families, R98–R103, part 2. -/
def specsLNb : List RegSpec := [
  ⟨0x30030, 64, 0x400, 1, 0x0, 0x00000000,
    [⟨⟨31, 0⟩, .ro, .any⟩]⟩,
  ⟨0x30034, 64, 0x400, 1, 0x0, 0x00000000,
    [⟨⟨31, 0⟩, .ro, .any⟩]⟩,
  ⟨0x30038, 64, 0x400, 1, 0x0, 0x00000000,
    [⟨⟨15, 0⟩, .ro, .any⟩]⟩]

/-- All LN register families (R98–R103). -/
def specsLN : List RegSpec :=
  specsLNa ++ specsLNb

/-- LK register families, R132–R136, part 1. -/
def specsLKa : List RegSpec := [
  ⟨0x40000, 64, 0x400, 1, 0x0, 0x00000000,
    [⟨⟨2, 1⟩, .ro, .any⟩, ⟨⟨0, 0⟩, .rw, .any⟩]⟩,
  ⟨0x40004, 64, 0x400, 1, 0x0, 0x00004000,
    [⟨⟨27, 25⟩, .rw, .any⟩, ⟨⟨20, 18⟩, .rw, .reserved [5, 6, 7]⟩, ⟨⟨16, 16⟩, .rw, .any⟩, ⟨⟨15, 0⟩, .rw, .within 64 16384⟩]⟩,
  ⟨0x40008, 64, 0x400, 1, 0x0, 0x00000072,
    [⟨⟨7, 4⟩, .rw, .reserved [0, 15]⟩, ⟨⟨1, 0⟩, .rw, .reserved [0, 3]⟩]⟩,
  ⟨0x4000C, 64, 0x400, 1, 0x0, 0x00000470,
    [⟨⟨11, 10⟩, .rw, .reserved [0]⟩, ⟨⟨9, 8⟩, .rw, .reserved [3]⟩, ⟨⟨6, 4⟩, .rw, .any⟩]⟩,
  ⟨0x40010, 64, 0x400, 1, 0x0, 0x00000000,
    [⟨⟨31, 24⟩, .ro, .any⟩, ⟨⟨23, 16⟩, .ro, .any⟩, ⟨⟨12, 12⟩, .ro, .any⟩, ⟨⟨11, 10⟩, .ro, .any⟩, ⟨⟨9, 9⟩, .ro, .any⟩, ⟨⟨8, 8⟩, .ro, .any⟩, ⟨⟨1, 0⟩, .ro, .any⟩]⟩,
  ⟨0x40014, 64, 0x400, 1, 0x0, 0x00000000,
    [⟨⟨6, 6⟩, .w1c, .any⟩, ⟨⟨5, 5⟩, .w1c, .any⟩, ⟨⟨4, 4⟩, .w1c, .any⟩, ⟨⟨3, 3⟩, .w1c, .any⟩, ⟨⟨2, 2⟩, .w1c, .any⟩, ⟨⟨1, 1⟩, .w1c, .any⟩, ⟨⟨0, 0⟩, .w1c, .any⟩]⟩,
  ⟨0x40018, 64, 0x400, 1, 0x0, 0x00000000,
    [⟨⟨31, 0⟩, .rw, .any⟩]⟩,
  ⟨0x4001C, 64, 0x400, 1, 0x0, 0x00000000,
    [⟨⟨15, 0⟩, .rw, .any⟩]⟩,
  ⟨0x40100, 64, 0x400, 8, 0x20, 0x00000000,
    [⟨⟨31, 0⟩, .ro, .any⟩]⟩,
  ⟨0x40104, 64, 0x400, 8, 0x20, 0x00000000,
    [⟨⟨31, 24⟩, .ro, .any⟩, ⟨⟨15, 0⟩, .ro, .any⟩]⟩,
  ⟨0x40108, 64, 0x400, 8, 0x20, 0x80000000,
    [⟨⟨31, 0⟩, .ro, .any⟩]⟩,
  ⟨0x4010C, 64, 0x400, 8, 0x20, 0x00000000,
    [⟨⟨31, 0⟩, .rw, .any⟩]⟩]

/-- LK register families, R132–R136, part 2. -/
def specsLKb : List RegSpec := [
  ⟨0x40110, 64, 0x400, 8, 0x20, 0x00000000,
    [⟨⟨31, 24⟩, .ro, .any⟩, ⟨⟨23, 16⟩, .ro, .any⟩, ⟨⟨15, 8⟩, .ro, .any⟩]⟩,
  ⟨0x40200, 64, 0x400, 1, 0x0, 0x00000010,
    [⟨⟨7, 7⟩, .rw, .any⟩, ⟨⟨6, 4⟩, .rw, .any⟩, ⟨⟨3, 1⟩, .rw, .any⟩, ⟨⟨0, 0⟩, .rw, .any⟩]⟩,
  ⟨0x40204, 64, 0x400, 1, 0x0, 0x00000000,
    [⟨⟨31, 0⟩, .rw, .any⟩]⟩,
  ⟨0x40208, 64, 0x400, 1, 0x0, 0x00000000,
    [⟨⟨31, 0⟩, .rw, .any⟩]⟩,
  ⟨0x4020C, 64, 0x400, 1, 0x0, 0x80000000,
    [⟨⟨31, 0⟩, .ro, .any⟩]⟩]

/-- All LK register families (R132–R136). -/
def specsLK : List RegSpec :=
  specsLKa ++ specsLKb

/-- SW register families, R251–R254, part 1. -/
def specsSWa : List RegSpec := [
  ⟨0x50000, 1, 0x0, 1, 0x0, 0x0005DD80,
    [⟨⟨18, 0⟩, .ro, .any⟩]⟩,
  ⟨0x50004, 1, 0x0, 1, 0x0, 0x00000000,
    [⟨⟨8, 8⟩, .w1c, .any⟩, ⟨⟨7, 7⟩, .w1c, .any⟩, ⟨⟨6, 6⟩, .w1c, .any⟩, ⟨⟨5, 5⟩, .w1c, .any⟩, ⟨⟨4, 4⟩, .w1c, .any⟩, ⟨⟨3, 3⟩, .w1c, .any⟩, ⟨⟨2, 2⟩, .w1c, .any⟩, ⟨⟨1, 1⟩, .w1c, .any⟩, ⟨⟨0, 0⟩, .w1c, .any⟩]⟩,
  ⟨0x50008, 1, 0x0, 1, 0x0, 0x00060000,
    [⟨⟨31, 24⟩, .ro, .any⟩, ⟨⟨18, 0⟩, .ro, .any⟩]⟩,
  ⟨0x5000C, 1, 0x0, 1, 0x0, 0x00060000,
    [⟨⟨18, 0⟩, .ro, .any⟩]⟩,
  ⟨0x50010, 1, 0x0, 1, 0x0, 0x00000040,
    [⟨⟨15, 0⟩, .rw, .any⟩]⟩,
  ⟨0x50014, 1, 0x0, 1, 0x0, 0x000007D0,
    [⟨⟨16, 0⟩, .rw, .within 10 100000⟩]⟩,
  ⟨0x50018, 1, 0x0, 1, 0x0, 0x00000000,
    [⟨⟨9, 0⟩, .rw, .within 0 1000⟩]⟩,
  ⟨0x5001C, 1, 0x0, 1, 0x0, 0x00000100,
    [⟨⟨15, 0⟩, .rw, .any⟩]⟩,
  ⟨0x51000, 67, 0x100, 1, 0x0, 0x00000001,
    [⟨⟨15, 8⟩, .rw, .any⟩, ⟨⟨0, 0⟩, .rw, .any⟩]⟩,
  ⟨0x51004, 67, 0x100, 1, 0x0, 0x00000000,
    [⟨⟨15, 0⟩, .rw, .any⟩]⟩,
  ⟨0x51008, 67, 0x100, 1, 0x0, 0x00000000,
    [⟨⟨31, 24⟩, .ro, .any⟩, ⟨⟨23, 16⟩, .ro, .any⟩, ⟨⟨0, 0⟩, .ro, .any⟩]⟩,
  ⟨0x5100C, 67, 0x100, 1, 0x0, 0x00000000,
    [⟨⟨18, 0⟩, .ro, .any⟩]⟩]

/-- SW register families, R251–R254, part 2. -/
def specsSWb : List RegSpec := [
  ⟨0x51010, 67, 0x100, 8, 0x4, 0x80010010,
    [⟨⟨31, 29⟩, .rw, .any⟩, ⟨⟨23, 16⟩, .rw, .any⟩, ⟨⟨15, 0⟩, .rw, .any⟩]⟩,
  ⟨0x51030, 67, 0x100, 8, 0x4, 0x00000000,
    [⟨⟨31, 16⟩, .ro, .any⟩, ⟨⟨15, 0⟩, .ro, .any⟩]⟩,
  ⟨0x51050, 67, 0x100, 1, 0x0, 0x00000000,
    [⟨⟨31, 0⟩, .rc, .any⟩]⟩,
  ⟨0x51054, 67, 0x100, 1, 0x0, 0x00000000,
    [⟨⟨31, 0⟩, .rc, .any⟩]⟩,
  ⟨0x51058, 67, 0x100, 1, 0x0, 0x00000000,
    [⟨⟨31, 0⟩, .rc, .any⟩]⟩,
  ⟨0x5105C, 67, 0x100, 1, 0x0, 0x00000000,
    [⟨⟨31, 0⟩, .rc, .any⟩]⟩,
  ⟨0x51060, 67, 0x100, 1, 0x0, 0x00000000,
    [⟨⟨31, 0⟩, .rc, .any⟩]⟩]

/-- All SW register families (R251–R254). -/
def specsSW : List RegSpec :=
  specsSWa ++ specsSWb

/-- CL register families, R283–R285, part 1. -/
def specsCLa : List RegSpec := [
  ⟨0x60000, 1, 0x0, 1, 0x0, 0x00000000,
    [⟨⟨19, 8⟩, .ro, .any⟩, ⟨⟨6, 6⟩, .ro, .any⟩, ⟨⟨5, 5⟩, .ro, .any⟩, ⟨⟨4, 4⟩, .ro, .any⟩, ⟨⟨3, 0⟩, .ro, .any⟩]⟩,
  ⟨0x60004, 1, 0x0, 1, 0x0, 0x00000000,
    [⟨⟨5, 5⟩, .w1c, .any⟩, ⟨⟨4, 4⟩, .w1c, .any⟩, ⟨⟨3, 3⟩, .w1c, .any⟩, ⟨⟨2, 2⟩, .w1c, .any⟩, ⟨⟨1, 1⟩, .w1c, .any⟩, ⟨⟨0, 0⟩, .w1c, .any⟩]⟩,
  ⟨0x60008, 1, 0x0, 1, 0x0, 0x00000000,
    [⟨⟨1, 1⟩, .rw, .any⟩, ⟨⟨0, 0⟩, .rw, .any⟩]⟩,
  ⟨0x6000C, 1, 0x0, 1, 0x0, 0x0000003E,
    [⟨⟨5, 3⟩, .rw, .any⟩, ⟨⟨2, 0⟩, .rw, .any⟩]⟩,
  ⟨0x60010, 1, 0x0, 1, 0x0, 0x00000000,
    [⟨⟨19, 0⟩, .ro, .any⟩]⟩,
  ⟨0x60014, 1, 0x0, 1, 0x0, 0x00000000,
    [⟨⟨15, 0⟩, .rc, .any⟩]⟩,
  ⟨0x60080, 1, 0x4, 1, 0x0, 0x00000000,
    [⟨⟨31, 16⟩, .rw, .any⟩, ⟨⟨15, 0⟩, .rw, .any⟩]⟩,
  ⟨0x60084, 1, 0x4, 1, 0x0, 0x00640040,
    [⟨⟨31, 16⟩, .rw, .any⟩, ⟨⟨15, 0⟩, .rw, .any⟩]⟩,
  ⟨0x60088, 1, 0x4, 1, 0x0, 0x00000040,
    [⟨⟨31, 16⟩, .rw, .any⟩, ⟨⟨15, 0⟩, .rw, .any⟩]⟩,
  ⟨0x6008C, 1, 0x4, 1, 0x0, 0x00400100,
    [⟨⟨31, 16⟩, .rw, .any⟩, ⟨⟨15, 0⟩, .rw, .any⟩]⟩,
  ⟨0x60090, 1, 0x4, 1, 0x0, 0x00010010,
    [⟨⟨31, 16⟩, .rw, .any⟩, ⟨⟨15, 0⟩, .rw, .any⟩]⟩,
  ⟨0x60094, 1, 0x4, 1, 0x0, 0x000A0010,
    [⟨⟨31, 16⟩, .rw, .any⟩, ⟨⟨15, 0⟩, .rw, .any⟩]⟩]

/-- CL register families, R283–R285, part 2. -/
def specsCLb : List RegSpec := [
  ⟨0x60098, 1, 0x4, 1, 0x0, 0x000A0010,
    [⟨⟨31, 16⟩, .rw, .any⟩, ⟨⟨15, 0⟩, .rw, .any⟩]⟩,
  ⟨0x6009C, 1, 0x4, 1, 0x0, 0x000A0010,
    [⟨⟨31, 16⟩, .rw, .any⟩, ⟨⟨15, 0⟩, .rw, .any⟩]⟩,
  ⟨0x600A0, 1, 0x4, 1, 0x0, 0x000A0010,
    [⟨⟨31, 16⟩, .rw, .any⟩, ⟨⟨15, 0⟩, .rw, .any⟩]⟩,
  ⟨0x600A4, 1, 0x4, 1, 0x0, 0x000A0010,
    [⟨⟨31, 16⟩, .rw, .any⟩, ⟨⟨15, 0⟩, .rw, .any⟩]⟩,
  ⟨0x600A8, 1, 0x4, 1, 0x0, 0x000A0010,
    [⟨⟨31, 16⟩, .rw, .any⟩, ⟨⟨15, 0⟩, .rw, .any⟩]⟩,
  ⟨0x600AC, 1, 0x4, 1, 0x0, 0x000A0010,
    [⟨⟨31, 16⟩, .rw, .any⟩, ⟨⟨15, 0⟩, .rw, .any⟩]⟩,
  ⟨0x600B0, 1, 0x4, 1, 0x0, 0x03E80400,
    [⟨⟨31, 16⟩, .rw, .any⟩, ⟨⟨15, 0⟩, .rw, .any⟩]⟩,
  ⟨0x600B4, 1, 0x4, 1, 0x0, 0x00000000,
    [⟨⟨31, 16⟩, .rw, .any⟩, ⟨⟨15, 0⟩, .rw, .any⟩]⟩,
  ⟨0x600B8, 1, 0x4, 1, 0x0, 0x00000000,
    [⟨⟨31, 16⟩, .rw, .any⟩, ⟨⟨15, 0⟩, .rw, .any⟩]⟩,
  ⟨0x600BC, 1, 0x4, 1, 0x0, 0x00000000,
    [⟨⟨31, 16⟩, .rw, .any⟩, ⟨⟨15, 0⟩, .rw, .any⟩]⟩,
  ⟨0x600C0, 16, 0x4, 1, 0x0, 0x00000000,
    [⟨⟨31, 0⟩, .rc, .any⟩]⟩,
  ⟨0x60100, 16, 0x4, 1, 0x0, 0x00000000,
    [⟨⟨31, 0⟩, .rc, .any⟩]⟩]

/-- CL register families, R283–R285, part 3. -/
def specsCLc : List RegSpec := [
  ⟨0x60140, 8, 0x4, 1, 0x0, 0x00000000,
    [⟨⟨31, 29⟩, .rw, .any⟩, ⟨⟨23, 16⟩, .rw, .any⟩]⟩,
  ⟨0x60200, 67, 0x8, 1, 0x0, 0x00000041,
    [⟨⟨31, 28⟩, .rw, .any⟩, ⟨⟨27, 24⟩, .rw, .any⟩, ⟨⟨23, 20⟩, .rw, .any⟩, ⟨⟨19, 16⟩, .rw, .any⟩, ⟨⟨15, 15⟩, .rw, .any⟩, ⟨⟨14, 14⟩, .rw, .any⟩, ⟨⟨13, 12⟩, .rw, .reserved [3]⟩, ⟨⟨11, 9⟩, .rw, .any⟩, ⟨⟨8, 7⟩, .rw, .reserved [3]⟩, ⟨⟨6, 0⟩, .rw, .any⟩]⟩,
  ⟨0x60204, 67, 0x8, 1, 0x0, 0x00FAC688,
    [⟨⟨23, 0⟩, .rw, .any⟩]⟩,
  ⟨0x60800, 16, 0x20, 8, 0x4, 0x3FFFFFFF,
    [⟨⟨29, 0⟩, .rw, .any⟩]⟩,
  ⟨0x60A00, 4, 0x8, 1, 0x0, 0x00000000,
    [⟨⟨31, 0⟩, .rw, .any⟩]⟩,
  ⟨0x60A04, 4, 0x8, 1, 0x0, 0x00000000,
    [⟨⟨31, 0⟩, .rw, .any⟩]⟩]

/-- All CL register families (R283–R285). -/
def specsCL : List RegSpec :=
  specsCLa ++ specsCLb ++ specsCLc

/-- EC register families, R188–R192, part 1. -/
def specsECa : List RegSpec := [
  ⟨0x70000, 8, 0x200, 1, 0x0, 0x00000000,
    [⟨⟨7, 7⟩, .rw, .any⟩, ⟨⟨5, 4⟩, .ro, .any⟩, ⟨⟨0, 0⟩, .rw, .any⟩]⟩,
  ⟨0x71000, 120, 0x200, 1, 0x0, 0x00000000,
    [⟨⟨5, 4⟩, .ro, .any⟩, ⟨⟨0, 0⟩, .rw, .any⟩]⟩,
  ⟨0x70004, 128, 0x200, 1, 0x0, 0x00000020,
    [⟨⟨7, 6⟩, .rw, .reserved [2, 3]⟩, ⟨⟨5, 5⟩, .rw, .any⟩, ⟨⟨4, 4⟩, .rw, .any⟩, ⟨⟨3, 2⟩, .rw, .reserved [3]⟩, ⟨⟨0, 0⟩, .rw, .any⟩]⟩,
  ⟨0x70008, 128, 0x200, 1, 0x0, 0x00004000,
    [⟨⟨31, 16⟩, .rw, .any⟩, ⟨⟨15, 15⟩, .rw, .any⟩, ⟨⟨14, 14⟩, .rw, .any⟩, ⟨⟨13, 13⟩, .rw, .any⟩, ⟨⟨11, 10⟩, .rw, .reserved [3]⟩, ⟨⟨6, 0⟩, .rw, .any⟩]⟩,
  ⟨0x7000C, 128, 0x200, 1, 0x0, 0x00000000,
    [⟨⟨15, 9⟩, .rw, .any⟩, ⟨⟨1, 0⟩, .rw, .reserved [3]⟩]⟩,
  ⟨0x70010, 128, 0x200, 1, 0x0, 0x00000000,
    [⟨⟨31, 0⟩, .rw, .any⟩]⟩,
  ⟨0x70014, 128, 0x200, 1, 0x0, 0x00000000,
    [⟨⟨31, 0⟩, .rw, .any⟩]⟩,
  ⟨0x70018, 128, 0x200, 1, 0x0, 0x00000000,
    [⟨⟨31, 0⟩, .rw, .any⟩]⟩,
  ⟨0x7001C, 128, 0x200, 1, 0x0, 0x00000000,
    [⟨⟨31, 0⟩, .rw, .any⟩]⟩,
  ⟨0x70020, 128, 0x200, 1, 0x0, 0x00000000,
    [⟨⟨15, 0⟩, .rw, .any⟩]⟩,
  ⟨0x70024, 128, 0x200, 1, 0x0, 0x00000000,
    [⟨⟨25, 16⟩, .ro, .any⟩, ⟨⟨14, 8⟩, .ro, .any⟩, ⟨⟨2, 2⟩, .ro, .any⟩, ⟨⟨1, 1⟩, .ro, .any⟩, ⟨⟨0, 0⟩, .ro, .any⟩]⟩,
  ⟨0x70028, 128, 0x200, 1, 0x0, 0x00000000,
    [⟨⟨6, 6⟩, .w1c, .any⟩, ⟨⟨5, 5⟩, .w1c, .any⟩, ⟨⟨4, 4⟩, .w1c, .any⟩, ⟨⟨3, 3⟩, .w1c, .any⟩, ⟨⟨2, 2⟩, .w1c, .any⟩, ⟨⟨1, 1⟩, .w1c, .any⟩, ⟨⟨0, 0⟩, .w1c, .any⟩]⟩]

/-- EC register families, R188–R192, part 2. -/
def specsECb : List RegSpec := [
  ⟨0x7002C, 128, 0x200, 1, 0x0, 0x00000000,
    [⟨⟨31, 0⟩, .rc, .any⟩]⟩,
  ⟨0x70030, 128, 0x200, 1, 0x0, 0x00000000,
    [⟨⟨31, 0⟩, .rc, .any⟩]⟩,
  ⟨0x70034, 128, 0x200, 1, 0x0, 0x00000000,
    [⟨⟨31, 0⟩, .rc, .any⟩]⟩,
  ⟨0x70038, 128, 0x200, 1, 0x0, 0x00000000,
    [⟨⟨31, 0⟩, .rc, .any⟩]⟩,
  ⟨0x7003C, 128, 0x200, 1, 0x0, 0x00000000,
    [⟨⟨31, 0⟩, .rc, .any⟩]⟩,
  ⟨0x70040, 128, 0x200, 1, 0x0, 0x00000000,
    [⟨⟨31, 0⟩, .rc, .any⟩]⟩,
  ⟨0x70044, 128, 0x200, 1, 0x0, 0x00004000,
    [⟨⟨15, 0⟩, .ro, .any⟩]⟩,
  ⟨0x70048, 128, 0x200, 1, 0x0, 0x00000000,
    [⟨⟨31, 0⟩, .ro, .any⟩]⟩,
  ⟨0x7004C, 128, 0x200, 1, 0x0, 0x00000000,
    [⟨⟨31, 0⟩, .ro, .any⟩]⟩,
  ⟨0x70100, 128, 0x200, 16, 0x4, 0x00000000,
    [⟨⟨31, 0⟩, .rw, .any⟩]⟩,
  ⟨0x70140, 128, 0x200, 1, 0x0, 0x000A1F80,
    [⟨⟨23, 16⟩, .rw, .any⟩, ⟨⟨15, 13⟩, .rw, .any⟩, ⟨⟨12, 7⟩, .rw, .any⟩, ⟨⟨6, 0⟩, .rw, .within 0 64⟩]⟩,
  ⟨0x70180, 1, 0x0, 1, 0x0, 0x0000003C,
    [⟨⟨11, 0⟩, .rw, .within 0 3600⟩]⟩]

/-- All EC register families (R188–R192). -/
def specsEC : List RegSpec :=
  specsECa ++ specsECb

/-- TG register families, R223–R226, part 1. -/
def specsTGa : List RegSpec := [
  ⟨0x80000, 1, 0x0, 1, 0x0, 0x00000000,
    [⟨⟨2, 1⟩, .ro, .any⟩, ⟨⟨0, 0⟩, .rw, .any⟩]⟩,
  ⟨0x80004, 1, 0x0, 1, 0x0, 0x00000080,
    [⟨⟨31, 16⟩, .ro, .any⟩, ⟨⟨15, 0⟩, .ro, .any⟩]⟩,
  ⟨0x80008, 1, 0x0, 1, 0x0, 0x00000000,
    [⟨⟨6, 6⟩, .w1c, .any⟩, ⟨⟨5, 5⟩, .w1c, .any⟩, ⟨⟨4, 4⟩, .w1c, .any⟩, ⟨⟨3, 3⟩, .w1c, .any⟩, ⟨⟨2, 2⟩, .w1c, .any⟩, ⟨⟨1, 1⟩, .w1c, .any⟩, ⟨⟨0, 0⟩, .w1c, .any⟩]⟩,
  ⟨0x8000C, 1, 0x0, 1, 0x0, 0x00000000,
    [⟨⟨20, 0⟩, .rw, .within 0 1048576⟩]⟩,
  ⟨0x80010, 1, 0x0, 1, 0x0, 0x00000000,
    [⟨⟨31, 16⟩, .ro, .any⟩, ⟨⟨7, 7⟩, .rw, .any⟩, ⟨⟨5, 0⟩, .rw, .any⟩]⟩,
  ⟨0x80014, 1, 0x0, 1, 0x0, 0x00000080,
    [⟨⟨15, 0⟩, .rw, .within 80 65535⟩]⟩,
  ⟨0x80018, 1, 0x0, 1, 0x0, 0x00000014,
    [⟨⟨7, 0⟩, .rw, .any⟩]⟩,
  ⟨0x8001C, 1, 0x0, 1, 0x0, 0x00000000,
    [⟨⟨31, 0⟩, .rc, .any⟩]⟩,
  ⟨0x80020, 1, 0x0, 1, 0x0, 0x00000000,
    [⟨⟨31, 0⟩, .rc, .any⟩]⟩,
  ⟨0x80024, 1, 0x0, 1, 0x0, 0x00000000,
    [⟨⟨31, 0⟩, .rw, .any⟩]⟩,
  ⟨0x80028, 1, 0x0, 1, 0x0, 0x00000000,
    [⟨⟨31, 0⟩, .rw, .any⟩]⟩,
  ⟨0x8002C, 1, 0x0, 1, 0x0, 0x00000000,
    [⟨⟨31, 0⟩, .ro, .any⟩]⟩]

/-- TG register families, R223–R226, part 2. -/
def specsTGb : List RegSpec := [
  ⟨0x80030, 1, 0x0, 1, 0x0, 0x00000000,
    [⟨⟨31, 0⟩, .ro, .any⟩]⟩,
  ⟨0x80100, 16, 0x10, 1, 0x0, 0x00000000,
    [⟨⟨0, 0⟩, .rw, .any⟩]⟩,
  ⟨0x80104, 16, 0x10, 1, 0x0, 0x00000000,
    [⟨⟨31, 0⟩, .rw, .any⟩]⟩,
  ⟨0x80108, 16, 0x10, 1, 0x0, 0x00000000,
    [⟨⟨31, 0⟩, .rw, .any⟩]⟩,
  ⟨0x80200, 64, 0x4, 1, 0x0, 0x00000000,
    [⟨⟨31, 16⟩, .rc, .any⟩, ⟨⟨15, 8⟩, .rc, .any⟩, ⟨⟨7, 0⟩, .rc, .any⟩]⟩,
  ⟨0x80400, 194, 0x4, 1, 0x0, 0x00000000,
    [⟨⟨31, 0⟩, .rc, .any⟩]⟩,
  ⟨0x84000, 4096, 0x4, 1, 0x0, 0x00000000,
    [⟨⟨15, 8⟩, .ro, .any⟩, ⟨⟨3, 3⟩, .ro, .any⟩, ⟨⟨2, 1⟩, .ro, .any⟩, ⟨⟨0, 0⟩, .rw, .any⟩]⟩]

/-- All TG register families (R223–R226). -/
def specsTG : List RegSpec :=
  specsTGa ++ specsTGb

/-- HR register families, R307–R309, part 1. -/
def specsHRa : List RegSpec := [
  ⟨0x90000, 1, 0x0, 1, 0x0, 0x00000000,
    [⟨⟨31, 26⟩, .rw, .any⟩, ⟨⟨25, 20⟩, .rw, .any⟩, ⟨⟨1, 0⟩, .rw, .reserved [2, 3]⟩]⟩,
  ⟨0x90004, 1, 0x0, 1, 0x0, 0x40104203,
    [⟨⟨31, 24⟩, .ro, .any⟩, ⟨⟨23, 16⟩, .ro, .any⟩, ⟨⟨15, 8⟩, .ro, .any⟩, ⟨⟨1, 0⟩, .ro, .any⟩]⟩,
  ⟨0x90008, 1, 0x0, 1, 0x0, 0x00000000,
    [⟨⟨6, 6⟩, .w1c, .any⟩, ⟨⟨5, 5⟩, .w1c, .any⟩, ⟨⟨4, 4⟩, .w1c, .any⟩, ⟨⟨3, 3⟩, .w1c, .any⟩, ⟨⟨2, 2⟩, .w1c, .any⟩, ⟨⟨1, 1⟩, .w1c, .any⟩, ⟨⟨0, 0⟩, .w1c, .any⟩]⟩,
  ⟨0x9000C, 1, 0x0, 1, 0x0, 0x00640190,
    [⟨⟨31, 16⟩, .rw, .any⟩, ⟨⟨15, 0⟩, .rw, .within 100 20000⟩]⟩,
  ⟨0x90010, 1, 0x0, 1, 0x0, 0x00000000,
    [⟨⟨31, 0⟩, .rw, .any⟩]⟩,
  ⟨0x90014, 1, 0x0, 1, 0x0, 0x00000000,
    [⟨⟨31, 0⟩, .rw, .any⟩]⟩,
  ⟨0x90018, 1, 0x0, 1, 0x0, 0x00000000,
    [⟨⟨31, 0⟩, .rw, .any⟩]⟩,
  ⟨0x9001C, 1, 0x0, 1, 0x0, 0x00000000,
    [⟨⟨31, 0⟩, .rw, .any⟩]⟩,
  ⟨0x90020, 1, 0x0, 1, 0x0, 0x00000000,
    [⟨⟨15, 0⟩, .rw, .any⟩]⟩,
  ⟨0x90024, 1, 0x0, 1, 0x0, 0x00000000,
    [⟨⟨31, 16⟩, .rc, .any⟩, ⟨⟨15, 0⟩, .rc, .any⟩]⟩,
  ⟨0x90028, 1, 0x0, 1, 0x0, 0x00000000,
    [⟨⟨31, 0⟩, .rc, .any⟩]⟩,
  ⟨0x9002C, 1, 0x0, 1, 0x0, 0x00000000,
    [⟨⟨7, 4⟩, .ro, .any⟩, ⟨⟨3, 0⟩, .ro, .any⟩]⟩]

/-- HR register families, R307–R309, part 2. -/
def specsHRb : List RegSpec := [
  ⟨0x91000, 64, 0x20, 1, 0x0, 0x00000000,
    [⟨⟨15, 8⟩, .ro, .any⟩, ⟨⟨2, 1⟩, .ro, .any⟩, ⟨⟨0, 0⟩, .rw, .any⟩]⟩,
  ⟨0x91004, 64, 0x20, 1, 0x0, 0x00000000,
    [⟨⟨31, 29⟩, .rw, .any⟩, ⟨⟨28, 24⟩, .rw, .any⟩, ⟨⟨23, 16⟩, .rw, .any⟩, ⟨⟨15, 10⟩, .rw, .any⟩]⟩,
  ⟨0x91008, 64, 0x20, 1, 0x0, 0x00000000,
    [⟨⟨31, 0⟩, .rw, .any⟩]⟩,
  ⟨0x9100C, 64, 0x20, 1, 0x0, 0x00000000,
    [⟨⟨31, 0⟩, .rw, .any⟩]⟩,
  ⟨0x91010, 64, 0x20, 1, 0x0, 0x00010000,
    [⟨⟨31, 16⟩, .rw, .any⟩, ⟨⟨15, 0⟩, .rw, .any⟩]⟩,
  ⟨0x91014, 64, 0x20, 1, 0x0, 0x00000000,
    [⟨⟨31, 0⟩, .ro, .any⟩]⟩,
  ⟨0x91018, 64, 0x20, 1, 0x0, 0x00000000,
    [⟨⟨31, 0⟩, .ro, .any⟩]⟩]

/-- All HR register families (R307–R309). -/
def specsHR : List RegSpec :=
  specsHRa ++ specsHRb

/-- PL register families, R324–R325, part 1. -/
def specsPLa : List RegSpec := [
  ⟨0xA0000, 1, 0x0, 1, 0x0, 0x00000000,
    [⟨⟨2, 1⟩, .ro, .any⟩, ⟨⟨0, 0⟩, .rw, .any⟩]⟩,
  ⟨0xA0004, 1, 0x0, 1, 0x0, 0x00004000,
    [⟨⟨17, 17⟩, .rw, .any⟩, ⟨⟨16, 16⟩, .rw, .any⟩, ⟨⟨15, 0⟩, .rw, .within 64 16384⟩]⟩,
  ⟨0xA0008, 1, 0x0, 1, 0x0, 0x00000000,
    [⟨⟨3, 3⟩, .ro, .any⟩, ⟨⟨2, 2⟩, .ro, .any⟩, ⟨⟨1, 1⟩, .ro, .any⟩, ⟨⟨0, 0⟩, .ro, .any⟩]⟩,
  ⟨0xA000C, 1, 0x0, 1, 0x0, 0x00000000,
    [⟨⟨6, 6⟩, .w1c, .any⟩, ⟨⟨5, 5⟩, .w1c, .any⟩, ⟨⟨4, 4⟩, .w1c, .any⟩, ⟨⟨3, 3⟩, .w1c, .any⟩, ⟨⟨2, 2⟩, .w1c, .any⟩, ⟨⟨1, 1⟩, .w1c, .any⟩, ⟨⟨0, 0⟩, .w1c, .any⟩]⟩,
  ⟨0xA0010, 1, 0x0, 1, 0x0, 0x30002000,
    [⟨⟨31, 16⟩, .rw, .any⟩, ⟨⟨15, 0⟩, .rw, .any⟩]⟩,
  ⟨0xA0014, 1, 0x0, 1, 0x0, 0x38003000,
    [⟨⟨31, 16⟩, .rw, .within 0 14336⟩, ⟨⟨15, 0⟩, .rw, .any⟩]⟩,
  ⟨0xA0018, 1, 0x0, 1, 0x0, 0x00000000,
    [⟨⟨31, 16⟩, .ro, .any⟩, ⟨⟨15, 0⟩, .ro, .any⟩]⟩,
  ⟨0xA001C, 1, 0x0, 1, 0x0, 0x00000000,
    [⟨⟨31, 16⟩, .ro, .any⟩, ⟨⟨15, 0⟩, .ro, .any⟩]⟩,
  ⟨0xA0020, 1, 0x0, 1, 0x0, 0x00000000,
    [⟨⟨31, 0⟩, .rc, .any⟩]⟩,
  ⟨0xA0024, 1, 0x0, 1, 0x0, 0x00000000,
    [⟨⟨31, 0⟩, .rc, .any⟩]⟩,
  ⟨0xA0028, 1, 0x0, 1, 0x0, 0x00000000,
    [⟨⟨31, 0⟩, .rc, .any⟩]⟩,
  ⟨0xA002C, 1, 0x0, 1, 0x0, 0x00000000,
    [⟨⟨31, 0⟩, .rc, .any⟩]⟩]

/-- PL register families, R324–R325, part 2. -/
def specsPLb : List RegSpec := [
  ⟨0xA0030, 1, 0x0, 1, 0x0, 0x00000000,
    [⟨⟨31, 0⟩, .rc, .any⟩]⟩,
  ⟨0xA0034, 1, 0x0, 1, 0x0, 0x00000000,
    [⟨⟨31, 0⟩, .rc, .any⟩]⟩,
  ⟨0xA0038, 1, 0x0, 1, 0x0, 0x00000000,
    [⟨⟨31, 0⟩, .rc, .any⟩]⟩,
  ⟨0xA003C, 1, 0x0, 1, 0x0, 0x00000000,
    [⟨⟨31, 0⟩, .rc, .any⟩]⟩]

/-- All PL register families (R324–R325). -/
def specsPL : List RegSpec :=
  specsPLa ++ specsPLb

/-- MI register families, R368–R370, part 1. -/
def specsMIa : List RegSpec := [
  ⟨0xB0000, 1, 0x0, 1, 0x0, 0x0000003F,
    [⟨⟨31, 24⟩, .ro, .any⟩, ⟨⟨7, 6⟩, .ro, .any⟩, ⟨⟨5, 0⟩, .ro, .any⟩]⟩,
  ⟨0xB0004, 1, 0x0, 1, 0x0, 0x00000000,
    [⟨⟨6, 6⟩, .w1c, .any⟩, ⟨⟨5, 5⟩, .w1c, .any⟩, ⟨⟨4, 4⟩, .w1c, .any⟩, ⟨⟨3, 3⟩, .w1c, .any⟩, ⟨⟨2, 2⟩, .w1c, .any⟩, ⟨⟨1, 1⟩, .w1c, .any⟩, ⟨⟨0, 0⟩, .w1c, .any⟩]⟩,
  ⟨0xB0008, 1, 0x0, 1, 0x0, 0x00000B97,
    [⟨⟨16, 0⟩, .rw, .within 64 65536⟩]⟩,
  ⟨0xB000C, 1, 0x0, 1, 0x0, 0x00000000,
    [⟨⟨31, 16⟩, .ro, .any⟩, ⟨⟨11, 8⟩, .ro, .any⟩]⟩,
  ⟨0xB0010, 1, 0x0, 1, 0x0, 0x00000000,
    [⟨⟨31, 0⟩, .rc, .any⟩]⟩,
  ⟨0xB0014, 1, 0x0, 1, 0x0, 0x00000000,
    [⟨⟨0, 0⟩, .wo, .any⟩]⟩,
  ⟨0xB0018, 1, 0x0, 1, 0x0, 0x0001001E,
    [⟨⟨16, 16⟩, .rw, .any⟩, ⟨⟨15, 0⟩, .rw, .any⟩]⟩,
  ⟨0xB001C, 1, 0x0, 1, 0x0, 0x00000000,
    [⟨⟨31, 0⟩, .ro, .any⟩]⟩,
  ⟨0xB0020, 1, 0x0, 1, 0x0, 0x00000000,
    [⟨⟨15, 0⟩, .ro, .any⟩]⟩,
  ⟨0xB0100, 32, 0x8, 1, 0x0, 0x00000000,
    [⟨⟨31, 28⟩, .ro, .any⟩, ⟨⟨27, 8⟩, .ro, .any⟩, ⟨⟨7, 3⟩, .ro, .any⟩]⟩,
  ⟨0xB0104, 32, 0x8, 1, 0x0, 0x00000000,
    [⟨⟨31, 24⟩, .ro, .any⟩, ⟨⟨23, 17⟩, .ro, .any⟩, ⟨⟨16, 16⟩, .ro, .any⟩, ⟨⟨15, 0⟩, .ro, .any⟩]⟩,
  ⟨0xB0200, 15, 0x4, 1, 0x0, 0x00000000,
    [⟨⟨31, 0⟩, .rc, .any⟩]⟩]

/-- MI register families, R368–R370, part 2. -/
def specsMIb : List RegSpec := [
  ⟨0xB0240, 15, 0x4, 1, 0x0, 0x00000000,
    [⟨⟨31, 0⟩, .rc, .any⟩]⟩,
  ⟨0xB0280, 1, 0x4, 1, 0x0, 0x00000000,
    [⟨⟨15, 8⟩, .ro, .any⟩, ⟨⟨7, 0⟩, .ro, .any⟩]⟩,
  ⟨0xB0284, 11, 0x4, 1, 0x0, 0x00000010,
    [⟨⟨15, 8⟩, .ro, .any⟩, ⟨⟨7, 0⟩, .ro, .any⟩]⟩,
  ⟨0xB02B0, 3, 0x4, 1, 0x0, 0x00000000,
    [⟨⟨15, 8⟩, .ro, .any⟩, ⟨⟨7, 0⟩, .ro, .any⟩]⟩]

/-- All MI register families (R368–R370). -/
def specsMI : List RegSpec :=
  specsMIa ++ specsMIb

/-- CA register families, R384–R386. -/
def specsCA : List RegSpec := [
  ⟨0xC0000, 1, 0x0, 1, 0x0, 0x00000000,
    [⟨⟨31, 24⟩, .ro, .any⟩, ⟨⟨15, 12⟩, .ro, .any⟩, ⟨⟨1, 0⟩, .ro, .any⟩]⟩,
  ⟨0xC0004, 1, 0x0, 1, 0x0, 0x00000000,
    [⟨⟨8, 8⟩, .w1c, .any⟩, ⟨⟨7, 7⟩, .w1c, .any⟩, ⟨⟨6, 6⟩, .w1c, .any⟩, ⟨⟨5, 5⟩, .w1c, .any⟩, ⟨⟨4, 4⟩, .w1c, .any⟩, ⟨⟨3, 3⟩, .w1c, .any⟩, ⟨⟨2, 2⟩, .w1c, .any⟩, ⟨⟨1, 1⟩, .w1c, .any⟩, ⟨⟨0, 0⟩, .w1c, .any⟩]⟩,
  ⟨0xC0008, 1, 0x0, 1, 0x0, 0x00000000,
    [⟨⟨31, 31⟩, .wo, .any⟩, ⟨⟨30, 27⟩, .rw, .any⟩, ⟨⟨26, 24⟩, .rw, .any⟩, ⟨⟨23, 23⟩, .rw, .any⟩, ⟨⟨14, 8⟩, .rw, .any⟩, ⟨⟨6, 0⟩, .rw, .any⟩]⟩,
  ⟨0xC000C, 1, 0x0, 1, 0x0, 0x00000000,
    [⟨⟨31, 0⟩, .rw, .any⟩]⟩,
  ⟨0xC0010, 1, 0x0, 1, 0x0, 0x80000000,
    [⟨⟨31, 0⟩, .ro, .any⟩]⟩,
  ⟨0xC0014, 1, 0x0, 1, 0x0, 0x80000000,
    [⟨⟨31, 0⟩, .ro, .any⟩]⟩,
  ⟨0xC0018, 1, 0x0, 1, 0x0, 0x00000000,
    [⟨⟨1, 1⟩, .wo, .any⟩, ⟨⟨0, 0⟩, .wo, .any⟩]⟩,
  ⟨0xC001C, 1, 0x0, 1, 0x0, 0x00000000,
    [⟨⟨31, 28⟩, .rw, .reserved [11, 12, 13, 14, 15]⟩, ⟨⟨26, 24⟩, .rw, .any⟩, ⟨⟨14, 8⟩, .rw, .any⟩, ⟨⟨2, 0⟩, .rw, .any⟩]⟩,
  ⟨0xC0020, 1, 0x0, 1, 0x0, 0x00000000,
    [⟨⟨31, 0⟩, .rw, .any⟩]⟩,
  ⟨0xC0024, 1, 0x0, 1, 0x0, 0x00000000,
    [⟨⟨31, 16⟩, .ro, .any⟩, ⟨⟨1, 1⟩, .ro, .any⟩, ⟨⟨0, 0⟩, .ro, .any⟩]⟩,
  ⟨0xC0100, 16, 0x4, 1, 0x0, 0x00000000,
    [⟨⟨31, 31⟩, .ro, .any⟩, ⟨⟨30, 30⟩, .ro, .any⟩, ⟨⟨15, 0⟩, .ro, .any⟩]⟩]

/-- ER register families, R401–R402. -/
def specsER : List RegSpec := [
  ⟨0xD0000, 1, 0x0, 1, 0x0, 0x00000000,
    [⟨⟨31, 31⟩, .ro, .any⟩, ⟨⟨30, 30⟩, .ro, .any⟩, ⟨⟨23, 0⟩, .ro, .any⟩]⟩,
  ⟨0xD0004, 1, 0x0, 1, 0x0, 0x00000000,
    [⟨⟨3, 3⟩, .w1c, .any⟩, ⟨⟨2, 2⟩, .w1c, .any⟩, ⟨⟨1, 1⟩, .w1c, .any⟩, ⟨⟨0, 0⟩, .w1c, .any⟩]⟩,
  ⟨0xD0008, 1, 0x0, 1, 0x0, 0x00000000,
    [⟨⟨17, 0⟩, .ro, .any⟩]⟩,
  ⟨0xD000C, 1, 0x0, 1, 0x0, 0x00000000,
    [⟨⟨31, 0⟩, .ro, .any⟩]⟩,
  ⟨0xD0010, 1, 0x0, 1, 0x0, 0x00000000,
    [⟨⟨31, 0⟩, .ro, .any⟩]⟩,
  ⟨0xD0014, 1, 0x0, 1, 0x0, 0x00000000,
    [⟨⟨31, 0⟩, .ro, .any⟩]⟩,
  ⟨0xD0018, 1, 0x0, 1, 0x0, 0x00000000,
    [⟨⟨31, 0⟩, .ro, .any⟩]⟩,
  ⟨0xD001C, 1, 0x0, 1, 0x0, 0x00000000,
    [⟨⟨31, 31⟩, .ro, .any⟩, ⟨⟨30, 30⟩, .ro, .any⟩, ⟨⟨23, 0⟩, .rw, .any⟩]⟩,
  ⟨0xD0020, 1, 0x0, 1, 0x0, 0x00000000,
    [⟨⟨0, 0⟩, .wo, .any⟩]⟩,
  ⟨0xD0024, 1, 0x0, 1, 0x0, 0x00000000,
    [⟨⟨31, 0⟩, .rc, .any⟩]⟩,
  ⟨0xD0100, 64, 0x4, 1, 0x0, 0x00000000,
    [⟨⟨31, 0⟩, .ro, .any⟩]⟩]

/-- PC register families, R403–R404. -/
def specsPC : List RegSpec := [
  ⟨0xE0000, 1, 0x0, 1, 0x0, 0x00000000,
    [⟨⟨1, 1⟩, .w1c, .any⟩, ⟨⟨0, 0⟩, .w1c, .any⟩]⟩,
  ⟨0xE0004, 1, 0x0, 1, 0x0, 0x00000001,
    [⟨⟨0, 0⟩, .rw, .any⟩]⟩,
  ⟨0xE0008, 1, 0x0, 1, 0x0, 0x000003E8,
    [⟨⟨13, 0⟩, .rw, .within 1 10000⟩]⟩,
  ⟨0xE0100, 67, 0x8, 1, 0x0, 0x00FFFFFF,
    [⟨⟨31, 24⟩, .ro, .any⟩, ⟨⟨23, 0⟩, .ro, .any⟩]⟩,
  ⟨0xE0104, 67, 0x8, 1, 0x0, 0x00FFFFFF,
    [⟨⟨31, 24⟩, .ro, .any⟩, ⟨⟨23, 0⟩, .ro, .any⟩]⟩]

/-- PS register families, R419–R420, part 1. -/
def specsPSa : List RegSpec := [
  ⟨0xF0000, 1, 0x0, 1, 0x0, 0x64000000,
    [⟨⟨31, 24⟩, .rw, .any⟩, ⟨⟨8, 8⟩, .rw, .any⟩, ⟨⟨7, 7⟩, .rw, .any⟩, ⟨⟨5, 0⟩, .rw, .any⟩]⟩,
  ⟨0xF0004, 1, 0x0, 1, 0x0, 0x00000000,
    [⟨⟨3, 3⟩, .ro, .any⟩, ⟨⟨2, 0⟩, .ro, .any⟩]⟩,
  ⟨0xF0008, 1, 0x0, 1, 0x0, 0x00000000,
    [⟨⟨4, 4⟩, .w1c, .any⟩, ⟨⟨3, 3⟩, .w1c, .any⟩, ⟨⟨2, 2⟩, .w1c, .any⟩, ⟨⟨1, 1⟩, .w1c, .any⟩, ⟨⟨0, 0⟩, .w1c, .any⟩]⟩,
  ⟨0xF000C, 1, 0x0, 1, 0x0, 0x10003C1E,
    [⟨⟨31, 24⟩, .rw, .any⟩, ⟨⟨23, 8⟩, .rw, .any⟩, ⟨⟨4, 0⟩, .rw, .any⟩]⟩,
  ⟨0xF0010, 1, 0x0, 1, 0x0, 0x000003E8,
    [⟨⟨15, 0⟩, .rw, .any⟩]⟩,
  ⟨0xF0014, 1, 0x0, 1, 0x0, 0x00000000,
    [⟨⟨7, 5⟩, .rw, .any⟩, ⟨⟨4, 4⟩, .wo, .any⟩, ⟨⟨3, 3⟩, .wo, .any⟩, ⟨⟨2, 2⟩, .wo, .any⟩, ⟨⟨1, 1⟩, .wo, .any⟩, ⟨⟨0, 0⟩, .wo, .any⟩]⟩,
  ⟨0xF0018, 1, 0x0, 1, 0x0, 0x00000000,
    [⟨⟨31, 0⟩, .rw, .any⟩]⟩,
  ⟨0xF001C, 1, 0x0, 1, 0x0, 0x00000000,
    [⟨⟨31, 0⟩, .rw, .any⟩]⟩,
  ⟨0xF0020, 1, 0x0, 1, 0x0, 0x00000000,
    [⟨⟨21, 0⟩, .rw, .any⟩]⟩,
  ⟨0xF0024, 1, 0x0, 1, 0x0, 0x00000000,
    [⟨⟨9, 9⟩, .ro, .any⟩, ⟨⟨8, 8⟩, .ro, .any⟩, ⟨⟨7, 0⟩, .ro, .any⟩]⟩,
  ⟨0xF0028, 1, 0x0, 1, 0x0, 0x00000000,
    [⟨⟨15, 0⟩, .wo, .any⟩]⟩,
  ⟨0xF002C, 1, 0x0, 1, 0x0, 0x00000000,
    [⟨⟨31, 0⟩, .ro, .any⟩]⟩]

/-- PS register families, R419–R420, part 2. -/
def specsPSb : List RegSpec := [
  ⟨0xF0030, 1, 0x0, 1, 0x0, 0x00000000,
    [⟨⟨31, 0⟩, .rc, .any⟩]⟩]

/-- All PS register families (R419–R420). -/
def specsPS : List RegSpec :=
  specsPSa ++ specsPSb

/-- The register families of block b (R421). -/
def blockSpecs : Nat → List RegSpec
  | 0 => specsGL
  | 1 => specsCK
  | 2 => specsTC
  | 3 => specsLN
  | 4 => specsLK
  | 5 => specsSW
  | 6 => specsCL
  | 7 => specsEC
  | 8 => specsTG
  | 9 => specsHR
  | 10 => specsPL
  | 11 => specsMI
  | 12 => specsCA
  | 13 => specsER
  | 14 => specsPC
  | 15 => specsPS
  | _ => []

/-- Does the family hold the register at BAR0 offset `o`? -/
def RegSpec.holds (r : RegSpec) (o : Nat) : Bool :=
  r.off ≤ o &&
    (let d := o - r.off
     let i := if r.stride1 = 0 then 0 else d / r.stride1
     if r.n2 = 1 then
       i < r.n1 && d = r.stride1 * i
     else
       let e := d - r.stride1 * i
       let j := if r.stride2 = 0 then 0 else e / r.stride2
       i < r.n1 && j < r.n2 && e = r.stride2 * j)

/-- The family of the register at BAR0 offset `o`; none for a reserved offset (R424). -/
def regSpec (o : Nat) : Option RegSpec :=
  (blockSpecs (o / 0x10000)).find? (fun r => r.holds o)

/-- The word that the register at offset `o` holds at reset; 0 at a reserved offset (R424). -/
def resetWord (o : Nat) : Word :=
  match regSpec o with
  | some r => BitVec.ofNat 32 r.reset
  | none => 0#32

end Sys2Proof.Machine
end

