-- ==== Sys2Proof/Machine/State.lean ====
section
/-! DEFINITION. The state of the device as plain data: the register store, the hidden state of every block, the
non-volatile store, the queue of waiting commands, and the state after reset. -/

namespace Sys2Proof.Machine

/-- The stages of R326. -/
inductive Stage
  | off | bisque | firing | glaze | yielded | safe
  deriving DecidableEq, Repr

/-- What leaves the device, for whoever stands outside: the model's own record, newest first. -/
inductive Out
  /-- An MSI-X message of a vector, to the address and with the data of its table entry (R306). -/
  | msix (vector addr data : Nat)
  /-- A posted write to host memory (R302). -/
  | hostWrite (addr : Nat) (data : List Byte)
  /-- The completion of a register read (R422). -/
  | readData (bar : Bar) (off : Nat) (w : Word)
  /-- A frame leaves port p, complete or with its FCS stomped (R250). -/
  | frame (port cls : Nat) (octets : List Byte) (stomped : Bool)
  /-- A PFC frame leaves port p: source address, class-enable vector and quanta (R237). -/
  | pfc (port src classes : Nat) (quanta : List Nat)
  /-- A PAUSE frame leaves port p: source address and quanta (R237). -/
  | pause (port src quanta : Nat)
  /-- A trigger block leaves lane index i of port p (R119). -/
  | trigBlock (port i : Nat) (words : List Word64)
  /-- A management block leaves lane index i of port p (R120). -/
  | mgmtBlock (port i : Nat) (blk : BitVec 256)
  /-- A CREDIT block leaves port p: the counts of classes 0 to 7 (R240). -/
  | credit (port : Nat) (counts : List Nat)
  /-- An in-band word of a version-1 or version-2 link leaves port p (R129, R130). -/
  | inBand (port : Nat) (w : Word64)
  /-- The timing content of an in-band word of a version-1 or version-2 link leaves port p (R129). -/
  | inBandTiming (port : Nat) (t : DelayPart)
  /-- An enumeration message leaves port p in an in-band management word (R129, R341). -/
  | inBandEnum (port : Nat) (body : BitVec 108)
  /-- The 16-bit address given to a forerunner leaves port p in an in-band management word (R344). -/
  | inBandAddress (port : Nat) (next : BitVec 16)
  /-- An alignment marker leaves lane index i of port p (R121). -/
  | marker (port i : Nat) (mk : BitVec 256)
  /-- The data positions of port p strictly between two values of its framing counter carry these blocks, in the order of
  R117, after `skip` positions already filled; the rest carry IDLE (R107, R118). -/
  | data (port after before skip : Nat) (blocks : List (BitVec 257))
  /-- A training frame of lane n: its control word, and where in the sequence of PRBS13 its pattern begins (R80, R81). -/
  | training (lane : Nat) (cw : Word64) (start : Nat)
  /-- One edge of the pail output: data, sideband and PO_VALID (R311, R313, R316). -/
  | pail (data : Word64) (sb : Byte) (valid : Bool)
  /-- A train of pulses begins on edge channel c at a target instant in 2^-16 ns, with width and period in 1.25 ps and a
  count; count 0 has no end (R184, R185). -/
  | pulses (chan start width period count : Nat)
  /-- A PPS_OUT pulse starts or ends: its output, the level, and the instant at which the device launches the edge, on the
  1.25 ps grid (R60). -/
  | pps (out : Nat) (level : Bool) (at_ : Nat)
  deriving DecidableEq, Repr

/-- A counter of R396. -/
structure Ctr where
  value : BitVec 48
  wrap  : Bool
  deriving DecidableEq, Repr

/-- The challenge that the last KLOG_CLEAR_BEGIN of a ring issued (R416), and the TIME ticks counted then. -/
structure Challenge where
  slot  : Nat
  bytes : List Byte
  at_   : Nat
  deriving DecidableEq, Repr

/-- The descriptor that a completion answers (R297). -/
structure Origin where
  ring   : Nat
  index  : Nat
  opcode : Nat
  cookie : Nat
  kind   : Nat
  deriving DecidableEq, Repr

/-- Hidden state of a host ring (R289, R303, R306). -/
structure Ring where
  /-- Empty RXP buffers the device has read and not filled. -/
  posted    : List RxpBuf
  /-- Entries the ring could not take (R292). -/
  lost      : Nat
  /-- CPL positions reserved for commands in execution (R297). -/
  reserved  : Nat
  /-- Entries written since the ring's last message (R306). -/
  fresh     : Nat
  /-- The last challenge issued on the ring. -/
  challenge : Option Challenge
  /-- A command of the ring is in execution and holds it (R302). -/
  busy      : Bool
  deriving DecidableEq, Repr

/-- A ring at reset. -/
def Ring.reset : Ring :=
  { posted := [], lost := 0, reserved := 0, fresh := 0, challenge := none, busy := false }

/-- The host interface beyond its registers. -/
structure Hr where
  rings     : Sparse Ring
  /-- MSI-X table words by BAR2 offset; an unlisted word reads as after function reset (R287). -/
  msix      : Sparse Word
  /-- Vectors with a pending message (R306). -/
  pba       : List Nat
  /-- The PCIe link is up (R333). -/
  linkUp    : Bool
  /-- The poll interval in force, ns, and the time since new work was last found (R293). -/
  pollNow   : Nat
  pollIdle  : Nat
  /-- Consecutive failures of the doorbell page read (R304). -/
  dbFails   : Nat
  /-- A function-level reset waits for the rings to stop (R305). -/
  flr       : Bool
  /-- Low halves of page bases written and not yet committed are in the registers; the committed bases (R308). -/
  dbBase    : Nat
  stBase    : Nat
  /-- A message of vector 64 or 65 is due at the end of the present command (R306). -/
  irq64     : Bool
  irq65     : Bool
  /-- The KLOG_CLEAR_FINISH that completes when the clear in progress ends (R395). -/
  clearFor  : Option Origin
  deriving DecidableEq, Repr

/-- The host interface at reset. -/
def Hr.reset : Hr :=
  { rings := [], msix := [], pba := [], linkUp := false, pollNow := 400, pollIdle := 0, dbFails := 0, flr := false,
    dbBase := 0, stBase := 0, irq64 := false, irq65 := false, clearFor := none }

/-- An image region of the MRAM: the octets stored, empty when absent (R417). -/
abbrev Image := List Byte

/-- One copy of the delta region (R383): sequence number, whether its CRC holds, and the deltas by item key. -/
structure DeltaCopy where
  seq    : Nat
  good   : Bool
  deltas : Sparse Int
  deriving DecidableEq, Repr

/-- A clear of the kiln log in progress (R395): records and refused count of the old log, and the key slot. -/
structure ClearMark where
  records : Nat
  refused : Nat
  slot    : Nat
  deriving DecidableEq, Repr

/-- The non-volatile store, fuses included: all of it outlives a reset (R330, R331, R371, R414). -/
structure Nv where
  /-- Kiln-log records in the order stored, header first (R388, R393). -/
  klog     : List (List Byte)
  clears   : Nat
  pwr      : Nat
  minutes  : Nat
  clearing : Option ClearMark
  bisque   : Image
  glaze    : Image
  copyA    : DeltaCopy
  copyB    : DeltaCopy
  /-- User key slots 0 to 7 (R414). -/
  keys     : List (Option (List Byte))
  openFuse : Bool
  /-- Digest of the image-verification key (R414). -/
  digest   : List Byte
  /-- Factory calibration values by item key and cone set (R371), in the unit of the item. -/
  factory  : Sparse Int
  /-- Spare blocks left, and writes made to each logical block (R331). -/
  spares   : Nat
  wear     : Sparse Nat
  /-- The physical block of each logical block that does not lie in the block of its own number (R331). -/
  place    : Sparse Nat
  /-- Writes made to each physical block, and the physical blocks that fail their write verification (R331). -/
  worn     : Sparse Nat
  bad      : List Nat
  deriving DecidableEq, Repr

/-- Hidden state of a reference (R34–R36, R44). -/
structure RefH where
  /-- It has been disqualified at least once since reset (R35). -/
  disqOnce : Bool
  /-- qual_time has elapsed, or the wait-to-restore timer expired, during SWITCHING (R44). -/
  held     : Bool
  /-- The lane criterion holds (n ≥ 4). -/
  laneOk   : Bool
  /-- Instant of the last edge of a 1PPS input, in ps of ROOT time. -/
  lastEdge : Option Nat
  /-- A ROOT loss of lock has come since the last edge of a 1PPS input (R36). -/
  spoilt   : Bool
  /-- TIME ticks at which the wait-to-restore timer ends (R71). -/
  wtrEnd   : Nat
  deriving DecidableEq, Repr

/-- A reference at reset. -/
def RefH.reset : RefH := { disqOnce := false, held := false, laneOk := false, lastEdge := none, spoilt := false, wtrEnd := 0 }

/-- Agreement of two references (R38): whether they disagree, and the run of windows against that. -/
structure PairRun where
  disagree : Bool
  run      : Nat
  deriving DecidableEq, Repr

/-- Why a ROOT lock is being sought (R29, R54). -/
inductive Episode
  | first | loss | controlled
  deriving DecidableEq, Repr

/-- Hidden state of a PPS output (R60): the committed next time, a held low half, whether a pulse is in progress, and the
T48 instant at which its falling edge is launched. -/
structure PpsOut where
  next    : Nat
  heldLo  : Option Word
  pulsing : Bool
  fall    : Nat
  deriving DecidableEq, Repr

/-- The clock tree beyond its registers. -/
structure Ck where
  refs      : Sparse RefH
  pairs     : Sparse PairRun
  /-- A phase build-out is in progress, and the setpoint reference value of the present zero (R41, R48). -/
  buildOut  : Bool
  zeroSp    : Int
  /-- The measured phase that is the zero of the phase detector since the last build-out (R41). -/
  zero      : Int
  /-- Setpoint applied, in 2^-16 ns, and its slew accumulator (R48). -/
  spNow     : Int
  spAcc     : Nat
  /-- bw_final as applied at the last entry to NARROW (R43). -/
  bwFinal   : Nat
  /-- The new reference of SWITCHING measured within 100 ppb, and was lost during it (R44). -/
  swClose   : Bool
  swLost    : Bool
  /-- Holdover samples, newest first (at most 257 kept), and how many were taken since reset (R45). -/
  samples   : List Int
  taken     : Nat
  /-- Seconds in HOLDOVER (R45). -/
  holdSecs  : Nat
  /-- DCO frequency in force and applied, in ppt, and the slew accumulator (R47). -/
  dcoTarget : Int
  dcoNow    : Int
  dcoAcc    : Nat
  episode   : Option Episode
  /-- The attempt count restarts at the next attempt (R29). -/
  restart   : Bool
  /-- FAULT_IDLE has come about in the present episode (R51). -/
  idled     : Bool
  /-- Alignment instants of CLKOUT0–7, in ROOT cycles counted as 20 a TIME tick, and those that were in force before
  them, which an output's series counts from until it is held low (R58, R59). -/
  align     : Sparse Nat
  alignOld  : Sparse Nat
  /-- An output has started since reset release (R58). -/
  started   : Bool
  /-- TIME ticks at the last accepted SYNC_IN edge (R59). -/
  syncLast  : Option Nat
  pps       : Sparse PpsOut
  deriving DecidableEq, Repr

/-- A PPS output at reset. -/
def PpsOut.reset : PpsOut := { next := 0, heldLo := none, pulsing := false, fall := 0 }

/-- The clock tree at reset (DESIGN CHOICE: log entry 10). -/
def Ck.reset : Ck :=
  { refs := [], pairs := [], buildOut := false, zeroSp := 0, zero := 0, spNow := 0, spAcc := 0, bwFinal := 5, swClose := false,
    swLost := false, samples := [], taken := 0, holdSecs := 0, dcoTarget := 0, dcoNow := 0, dcoAcc := 0,
    episode := none, restart := false, idled := false, align := [], alignOld := [], started := false, syncLast := none, pps := [] }

/-- An entry of the transmit-timestamp queue (R152). -/
structure TsqEntry where
  id      : BitVec 16
  port    : Nat
  invalid : Bool
  te      : Nat
  t48     : Nat
  seq     : Nat
  deriving DecidableEq, Repr

/-- A committed step (R140–R142): its value (signed change, or T48 when absolute), and whether the device's servo
requested it on a sample of source 1 (R143). -/
structure StepReq where
  value    : Int
  absolute : Bool
  force    : Bool
  onPps    : Bool
  deriving DecidableEq, Repr

/-- A change of the time scale, for stamps whose instant lies before it (R142, R149): the TIME tick at which it came, the
TE and the invalid flag that held before it, and what a step added to the counter (0 where validity alone changed). -/
structure TimeMark where
  tick    : Nat
  te      : Nat
  invalid : Bool
  moved   : Int
  deriving DecidableEq, Repr

/-- The time core beyond its registers. -/
structure Tc where
  /-- The counter: 72 bits in 2^-40 ns (R137). -/
  acc      : Nat
  /-- Position in the nominal increment pattern (R138). -/
  pos      : Fin 5
  /-- TC_INCR in force, and the commit that takes effect at the next tick (R138). -/
  incr     : Nat
  incrNext : Option Nat
  step     : Option StepReq
  /-- Consecutive good samples, and samples not good (R147). -/
  goodRun  : Nat
  badRun   : Nat
  /-- Servo state (R148). -/
  integ    : Int
  sp       : Int
  /-- TC_PPS_EXPECT committed, and its held low half (R145, R425). -/
  expect   : Nat
  heldLo   : Option Word
  /-- The next edge is the first since the source was selected (R145). -/
  firstEdge : Bool
  tsq      : List TsqEntry
  tsqSeq   : Nat
  /-- The changes of the last 2^20 TIME ticks, newest first: no stamp refers to an instant further back. -/
  marks    : List TimeMark
  deriving DecidableEq, Repr

/-- The time core at reset. -/
def Tc.reset : Tc :=
  { acc := 0, pos := 0, incr := 0x1999999999A, incrNext := none, step := none, goodRun := 0, badRun := 0, integ := 0,
    sp := 0, expect := 0, heldLo := none, firstEdge := false, tsq := [], tsqSeq := 0, marks := [] }

/-- The destinations that EC_OUT_CFG selects for a record (R181, R182, R189). -/
structure EdgeDest where
  hist   : Bool
  stream : Nat
  target : Nat
  deriving DecidableEq, Repr

/-- No destination. -/
def EdgeDest.none : EdgeDest := { hist := false, stream := 0, target := 0 }

/-- An edge record (R176), with the destinations of the instant at which it entered its queue (R189), and the tick at which it was
made. -/
structure EdgeRec where
  kind    : Nat
  aux     : Nat
  window  : Nat
  chan    : Nat
  seq     : Nat
  late    : Bool
  stale   : Bool
  invalid : Bool
  fall    : Bool
  te      : Nat
  t48     : Nat
  dest    : EdgeDest
  made    : Nat
  deriving DecidableEq, Repr

/-- A record that waits for the window decision of R170, 25.6 ns after its crossing: its channel and the tick of the decision. A
marker waits behind the edges of its channel. -/
structure EdgeWait where
  chan : Nat
  due  : Nat
  rec_ : EdgeRec
  deriving DecidableEq, Repr

/-- An opening of an acceptance window (R170): its instant and count, the tick at which it became known, and where a time step
closed it, the counter and TE before the step (R171). -/
structure Opening where
  at_   : Nat
  count : Nat
  known : Nat
  shut  : Option (Nat × Nat)
  deriving DecidableEq, Repr

/-- The instant, TE and tick of a channel's last record (R178). -/
structure LastRec where
  t48  : Nat
  te   : Nat
  tick : Nat
  deriving DecidableEq, Repr

/-- What the edge channels share: the records that wait for a window decision, oldest first; the channel that the collector
serves next (R179); and the channel whose calibration turn falls due next (R173). -/
structure Ec where
  waits     : List EdgeWait
  collector : Nat
  turn      : Nat
  deriving DecidableEq, Repr

/-- The edge channels' common state at reset. -/
def Ec.reset : Ec := { waits := [], collector := 0, turn := 0 }

/-- A schedule entry of a DTC channel (R184), with the shifted start of R185 when it is late, on the grid of 1.25 ps. -/
structure DtcEntry where
  tag    : Nat
  period : Nat
  width  : Nat
  count  : Nat
  t48    : Nat
  due    : Option Nat
  deriving DecidableEq, Repr

/-- The entry in execution: its start on the 1.25 ps grid, whether it is late, the sum in grid steps of the time steps accepted
since its start, which its train does not follow (R186), the TE and flags of its first edge (R176), and the pulses after which it
ends where a stop or the fall of TIME_VALID cuts it short (R167, R186). -/
structure DtcRun where
  entry   : DtcEntry
  start   : Nat
  late    : Bool
  moved   : Int
  te      : Nat
  invalid : Bool
  stale   : Bool
  limit   : Option Nat
  deriving DecidableEq, Repr

/-- Calibration values of a channel that wait for an idle instant (R174, R375). -/
structure ChanNew where
  table    : List (BitVec 16)
  scale    : Int
  inDelay  : Nat
  outDelay : Nat
  turn     : Bool
  /-- Accepted error of a DTC output's delay trim (R173, R376). -/
  trim     : Option Int
  deriving DecidableEq, Repr

/-- Hidden state of an edge channel. -/
structure Chan where
  /-- Instant of the last stamped crossing, in 2^-16/100 ns of elapsed TIME (R169). -/
  lastEdge : Option Nat
  /-- The record last made (R178). -/
  latest   : Option LastRec
  /-- Window openings, newest first (R170), and the window count. -/
  wins     : List Opening
  winCount : Nat
  /-- Committed window base (R170, R425). -/
  winBase  : Nat
  /-- Next opening of a mode 2 series, T48. -/
  nextOpen : Nat
  /-- Interpolator offset, nonlinearity table (256 entries, empty = uniform taps) and scale of the last accepted
  code-density calibration, all in 2^-6 tap (R172, R173). -/
  offset   : Int
  table    : List (BitVec 16)
  scd      : Int
  waiting  : Option ChanNew
  postponed : Nat
  /-- Reasons for which the channel is not live (R175). -/
  dead     : List Nat
  seq      : Nat
  /-- Stream queue, oldest first, and records held for a free position (R180). -/
  queue    : List EdgeRec
  held     : List EdgeRec
  /-- History ring, newest first, and the records written to it since reset (R181). -/
  hist     : List EdgeRec
  histPos  : Nat
  /-- Instants of the records overwritten in the ring in the last 2^30 ticks, each with the tick of its loss, newest first. -/
  overwritten : List (Nat × Nat)
  /-- DTC schedule in order of instant, and the running entry (R185). -/
  sched    : List DtcEntry
  running  : Option DtcRun
  /-- Falling edge of the pulse in progress or last placed, on the 1.25 ps grid, and the tick at which it became known. -/
  lastFall : Option (Nat × Nat)
  /-- Records gathered for a frame of this template (R182). -/
  gather   : List EdgeRec
  /-- Instant of the record last taken by the collector (R361). -/
  drained  : Option Nat
  deriving DecidableEq, Repr

/-- An edge channel at reset. -/
def Chan.reset : Chan :=
  { lastEdge := none, latest := none, wins := [], winCount := 0, winBase := 0, nextOpen := 0, offset := 0, table := [], scd := 0x4000,
    waiting := none, postponed := 0, dead := [], seq := 0, queue := [], held := [], hist := [], histPos := 0, overwritten := [],
    sched := [], running := none, lastFall := none, gather := [],
    drained := none }

/-- A trigger primitive (R194). -/
structure Prim where
  srcId : Nat
  pol   : Bool
  t32p  : Nat
  deriving DecidableEq, Repr

/-- A decision (R195) in the scheduler: what the node does with it and where it comes from. -/
structure Dec where
  action : Nat
  origin : Nat
  srcId  : Nat
  dclass : Nat
  tExec  : Nat
  tDec   : Nat
  loc    : Bool
  down   : Bool
  rcvd   : Bool
  unit   : Option Nat
  host   : Option Origin
  deriving DecidableEq, Repr

/-- A decision of the pending store (R213, R218). -/
structure PendDec where
  dec     : Dec
  entered : Nat
  late    : Bool
  dtcDone : Bool
  started : Bool
  tStart  : Nat
  teStart : Nat
  act     : List Word
  /-- Channels still to be read out. -/
  readout : List Nat
  deriving DecidableEq, Repr

/-- A window of a coincidence unit that has opened and has not been evaluated (R202–R204): its slot counts, its first stamp, and its
t_dec where it has closed while the unit holds (R207). -/
structure Win where
  start  : Nat
  counts : List Nat
  first  : Option (Nat × Bool × Nat)
  tDec   : Option Nat
  deriving DecidableEq, Repr

/-- A firing window's output that has not left the unit (R206). -/
structure UnitOut where
  tDec  : Nat
  first : Option (Nat × Bool × Nat)
  deriving DecidableEq, Repr

/-- The cancellation by the last window that fired: its start, the length of the interval, and the tick of its evaluation (R205). -/
structure Cancel where
  start : Nat
  len   : Nat
  tick  : Nat
  deriving DecidableEq, Repr

/-- A coincidence unit that is not OFF (R208). -/
structure UnitRun where
  entry    : List Word
  wins     : List Win
  next     : Nat
  cancel   : Option Cancel
  prescale : Nat
  outs     : List UnitOut
  /-- TIME ticks counted when the unit began to hold (R207). -/
  heldAt   : Option Nat
  deriving DecidableEq, Repr

/-- The trigger plane beyond its registers. -/
structure Tg where
  chanMap  : Sparse Nat
  unitTab  : Sparse (List Word)
  actTab   : Sparse (List Word)
  /-- Primitives on their way to the engine input, and the merge buffer (R199): source index and primitive. -/
  flight   : List (Nat × Prim)
  merge    : List (Nat × Prim)
  upward   : List Word64
  /-- Decision staging of each port (R212). -/
  staged   : Sparse (List Dec)
  received : List Dec
  own      : List Dec
  pending  : List PendDec
  run      : Sparse UnitRun
  deriving DecidableEq, Repr

/-- The trigger plane at reset. -/
def Tg.reset : Tg :=
  { chanMap := [], unitTab := [], actTab := [], flight := [], merge := [], upward := [], staged := [], received := [],
    own := [], pending := [], run := [] }

/-- A restoration of a diverted line (R355, R356): its source code (1 host shadow, 2 glaze image, 3 recomputed,
4 factory and deltas), and whether its last shadow read failed. -/
structure Restore where
  mem   : Nat
  line  : Nat
  src   : Nat
  retry : Bool
  remap : Bool
  deriving DecidableEq, Repr

/-- Memory integrity beyond its registers. -/
structure Mi where
  churnLine : Nat
  /-- Diverted lines, oldest first, as (memory, line) (R354). -/
  diverted  : List (Nat × Nat)
  restoring : List Restore
  /-- Lines without a source: they stay diverted until a command writes them (R357). -/
  stuck     : List (Nat × Nat)
  /-- Lines that found no spare row: they stay diverted until reset (R358). -/
  noSpare   : List (Nat × Nat)
  /-- Lines restored and not read since (R358). -/
  fresh     : List (Nat × Nat)
  /-- TIME ticks counted at the uncorrectable reads of a line (key memory × 2^20 + line) and of a buffer bank. -/
  ueLine    : Sparse (List Nat)
  ueBank    : Sparse (List Nat)
  /-- Lines whose image bit is set (R355), by the same key. -/
  image     : Sparse Bool
  /-- Lines read with a correctable error and not yet written back (R351). -/
  writeBack : List (Nat × Nat)
  /-- Next bank of the online test, and banks taken ahead of their turn (R353, R365). -/
  nextBank  : Nat
  ahead     : List Nat
  /-- Phase of the turn in progress, 1 to 4; 0 without a turn (R365). -/
  phase     : Nat
  /-- The spare bank failed its test (R364, R366). -/
  spareBad  : Bool
  /-- The scan chains are connected (R367); the TAP status of the last SCAN_ENTER. -/
  scan      : Bool
  tap       : Nat
  deriving DecidableEq, Repr

/-- Memory integrity at reset. -/
def Mi.reset : Mi :=
  { churnLine := 0, diverted := [], restoring := [], stuck := [], noSpare := [], fresh := [], ueLine := [], ueBank := [],
    image := [], writeBack := [], nextBank := 0, ahead := [], phase := 0,
    spareBad := false, scan := false, tap := 0 }

/-- A measured user calibration in progress (R380): its A value once measured. It waits for a code-density turn on a
channel it names (R382). -/
structure CalOp where
  op     : Nat
  set    : Nat
  allSet : Bool
  target : Nat
  ref    : Nat
  a      : Option Int
  waits  : Bool
  deriving DecidableEq, Repr

/-- Calibration beyond its registers. Items are keyed by `itemKey`, deltas by `deltaKey` (R372). -/
structure Ca where
  stored   : Sparse Int
  pending  : Sparse Int
  /-- Values in effect of items that no register reports: trims and REFIN, PPS constants; and the interpolated value that
  each was last moved to. -/
  inForce  : Sparse Int
  base     : Sparse Int
  /-- Recomputed lane values that wait for the next delay-window boundary (R375). -/
  laneNew  : Sparse Int
  /-- Values that wait for the next REFIN edge or PPS pulse end (R375). -/
  refNew   : Sparse Int
  op       : Option CalOp
  /-- A store is in progress (R383). -/
  storing  : Bool
  /-- Deltas have changed since the last update (R383, R386). -/
  dirty    : Bool
  /-- The deltas in force at the last update, which the values in effect follow (R375, R386). -/
  live     : Sparse Int
  deriving DecidableEq, Repr

/-- Calibration at reset. -/
def Ca.reset : Ca :=
  { stored := [], pending := [], inForce := [], base := [], laneNew := [], refNew := [], op := none, storing := false,
    dirty := false, live := [] }

/-- Counters and telemetry beyond their registers (R396–R400). -/
structure Pc where
  ctrs    : Sparse Ctr
  /-- Octet counts of ports at the last window boundary: key 2p receive, 2p + 1 transmit (R399). -/
  bwBase  : Sparse Nat
  /-- Window length in force, ms, and windows completed (R399). -/
  bwLen   : Nat
  bwCount : Nat
  telSeq  : Nat
  /-- FAULT has held during the telemetry interval (R400). -/
  telFault : Bool
  deriving DecidableEq, Repr

/-- Counters at reset. -/
def Pc.reset : Pc := { ctrs := [], bwBase := [], bwLen := 1000, bwCount := 0, telSeq := 0, telFault := false }

/-- Pairing and security beyond registers (R405–R418). -/
structure Ps where
  /-- Level of ACT_IN, and TIME ticks counted when the device's own ACT_OUT rose (R409). -/
  actIn    : Bool
  claimAt  : Option Nat
  /-- TIME ticks at the first code of the open sequence (R418). -/
  openAt   : Option Nat
  blowing  : Bool
  /-- An image verified and being written: kind and octets (R417). -/
  storing  : Option (Nat × List Byte)
  /-- Credit resynchronisation after a takeover runs (R412). -/
  resync   : Bool
  deriving DecidableEq, Repr

/-- Pairing at reset. -/
def Ps.reset : Ps :=
  { actIn := false, claimAt := none, openAt := none, blowing := false, storing := none, resync := false }

/-- Enumeration (R341–R345). -/
structure Enum where
  /-- Accumulated latency received, 2^-4 ns (R343). -/
  acc      : Nat
  /-- Messages acted on: port, op and seq of the last (R341). -/
  acted    : List (Nat × Nat × Nat)
  /-- Port toward the parent on which the walk's ASSIGN came; none at the root. -/
  up       : Option Nat
  /-- Next free address, ports still to walk, and the port whose DONE is awaited (R342). -/
  next     : Nat
  ports    : List Nat
  cur      : Option Nat
  mismatch : Bool
  /-- A further walk follows the present one (R435). -/
  again    : Bool
  /-- Message bodies repeated downward per port, and upward (R341). -/
  sendDown : Sparse (BitVec 108)
  sendUp   : Option (BitVec 108)
  /-- CHANGE messages still to send upward, and a walk armed by a CHANGE (R345). -/
  changes  : Nat
  armed    : Bool
  /-- Ports refused for triggering, and ports given a range by the present walk (R343). -/
  refused  : List Nat
  deriving DecidableEq, Repr

/-- Enumeration at reset. -/
def Enum.reset : Enum :=
  { acc := 0, acted := [], up := none, next := 0, ports := [], cur := none, mismatch := false, again := false,
    sendDown := [], sendUp := none, changes := 0, armed := false, refused := [] }

/-- Input balls that the device reads as levels (R338, R407). -/
structure Pins where
  pairRole : Bool
  testMode : Bool
  perstHigh : Bool
  deriving DecidableEq, Repr

/-- What the host asked of a frame it sends (R295): a transmit stamp, its identifier, and the reference of a one-step
correction. -/
structure TxReq where
  stamp   : Bool
  id      : BitVec 16
  oneStep : Option Nat
  deriving DecidableEq, Repr

/-- What a second pass keeps of its first (R271): class, recirculation tag, bank and epoch of the stamp, the cells it
holds, and the class that orders it (R231). -/
structure Second where
  cls   : Nat
  tag   : Nat
  bank  : Nat
  epoch : Nat
  order : Nat
  deriving DecidableEq, Repr

/-- A frame inside the device: ingress port, octets with FCS, and what ingress noted of it. -/
structure Frame where
  id      : Nat
  port    : Nat
  octets  : List Byte
  /-- Class that takes the place of tc_default: of a START block or a TXP ring, or given with an own frame. -/
  cls     : Option Nat
  stamp   : Nat
  te      : Nat
  invalid : Bool
  /-- The second pass's part; none on a first pass. -/
  second  : Option Second
  /-- Egress port of a direct frame (R295). -/
  direct  : Option Nat
  tx      : Option TxReq
  /-- The ingress ended in an error of R110 after the head cell. -/
  err     : Bool
  deriving DecidableEq, Repr

/-- What the whey path tells of a frame (R274). -/
structure Whey where
  reason : Nat
  ruleId : Nat
  bank   : Nat
  epoch  : Nat
  pass   : Nat
  deriving DecidableEq, Repr

/-- What the classifier resolved for a frame (R265, R272, R274). -/
inductive Verdict
  | discard
  | unicast (port : Nat)
  | group (g : Nat)
  | recirculate (tag : Nat)
  | whey (w : Whey)
  deriving DecidableEq, Repr

/-- The space that a cell was admitted from (R235). -/
inductive Space
  | rsv | shared | hdrm | recirc
  deriving DecidableEq, Repr

/-- A frame between the spreader and the resequencer (R228–R231). -/
structure Fly where
  frame   : Frame
  seq     : Nat
  pipe    : Nat
  bank    : Nat
  epoch   : Nat
  /-- CL_PORT_CFG, CL_PCP_MAP, CL_UDF_CFG and CL_KEY_PROF as they stood at the assignment of the head cell (R285). -/
  config  : Sparse Word
  verdict : Option Verdict
  /-- The rule_id of the action that applied; 0 without one (R274). -/
  rule    : Nat
  /-- Class that the frame leaves the pass with, and its octets after the edits of R269. -/
  cls     : Nat
  edited  : List Byte
  deriving DecidableEq, Repr

/-- The cells a frame holds in the buffer: ingress port and class charged, the class whose credit it consumed, and of each cell
the space it was admitted from and the bank it lies in, 48 the spare bank (R232, R233, R242). -/
structure Held where
  id    : Nat
  port  : Nat
  cls   : Nat
  start : Nat
  cells : List Space
  banks : List Nat
  /-- One of its cells was read uncorrectable: every copy is stomped (R250). -/
  bad   : Bool
  deriving DecidableEq, Repr

/-- An entry of an egress class queue (R243). -/
structure QEntry where
  id     : Nat
  cls    : Nat
  octets : List Byte
  frame  : Frame
  multi  : Bool
  whey   : Option Whey
  /-- Bank and epoch stamped (R278), and the tag of a recirculating frame. -/
  bank   : Nat
  epoch  : Nat
  tag    : Nat
  deriving DecidableEq, Repr

/-- A frame in transmission on an egress port: its queue entry, the octets that leave, whether they leave stomped (R250), and
on a version-3 port the blocks of it that have not left: a fixed block suspends it (R18, R118). -/
structure TxRun where
  entry : QEntry
  sent  : List Byte
  bad   : Bool
  left  : List (BitVec 257)
  deriving DecidableEq, Repr

/-- A frame for which an RXP ring has filled every buffer that it holds and that is not written whole yet: its transmission, the
octets that remain, and whether FRAME_TRANSMIT_END has come (R296). -/
structure RxpPart where
  run   : TxRun
  rest  : List Byte
  ended : Bool
  deriving DecidableEq, Repr

/-- The credit of one class of an Isazu port (R239–R241): cells set aside, those of them that come from the shared pool, the
count sent, the count of cells received, the count received from the partner and the cells consumed, the counts modulo
65,536. -/
structure Credit where
  aside    : Nat
  lent     : Nat
  granted  : Nat
  received : Nat
  partner  : Nat
  consumed : Nat
  deriving DecidableEq, Repr

/-- A class without credit. -/
def Credit.zero : Credit := { aside := 0, lent := 0, granted := 0, received := 0, partner := 0, consumed := 0 }

/-- The switch core beyond its registers. Keys of port and class are 8p + c. -/
structure Sw where
  nextId  : Nat
  /-- Frames whose head cells are complete, in the order of R228. -/
  arrive  : List Frame
  /-- Next pipeline and next sequence number (R228, R229). -/
  rotate  : Nat
  seqNo   : Nat
  fly     : List Fly
  /-- Bank of the rotation that takes the next cell (R232). -/
  bank    : Nat
  /-- Descriptors held behind a recirculating frame, in order (R231). -/
  order   : List Fly
  /-- Recirculating frames whose second pass has not been released: id, port, class (R231). -/
  recirc  : List (Nat × Nat × Nat)
  store   : List Held
  /-- Targets of each stored frame not yet done (R246). -/
  targets : Sparse Nat
  queues  : Sparse (List QEntry)
  tx      : Sparse (Option TxRun)
  /-- The frame of each RXP ring that waits for further buffers (R296). -/
  parts   : Sparse (Option RxpPart)
  /-- Deficit of each class and the class served last (R243). -/
  deficit : Sparse Nat
  turn    : Sparse Nat
  credit  : Sparse Credit
  /-- Classes paused by the partner (R237), as a mask per port. -/
  paused  : Sparse Nat
  /-- Back-pressure asserted, as (port, class) (R236). -/
  bp      : List (Nat × Nat)
  /-- Ports whose flow-control frame waits for the end of the frame in transmission, with the classes released since, as a mask
  (R237). -/
  fcDue   : Sparse (Option Nat)
  /-- Ports whose link_up fell while ON, and those whose grace has expired (R249). -/
  lost    : List Nat
  downed  : List Nat
  /-- Multicast group table: 128 bits an entry (R247). -/
  groups  : Sparse Nat
  deriving DecidableEq, Repr

/-- The switch core at reset. -/
def Sw.reset : Sw :=
  { nextId := 0, arrive := [], rotate := 0, seqNo := 0, fly := [], bank := 0, order := [], recirc := [], store := [],
    targets := [], queues := [], tx := [], parts := [], deficit := [], turn := [], credit := [], paused := [], bp := [],
    fcDue := [], lost := [], downed := [], groups := [] }

/-- A command held in its ring: a swap that waits for a drain (R279), or a write aimed at a draining bank (R280) with
the count of its entries already applied. -/
structure HeldCmd where
  op     : Nat
  desc   : CmdDesc
  origin : Origin
  done   : Nat
  deriving DecidableEq, Repr

/-- The classifier beyond its registers. -/
structure Cl where
  /-- Exact-match entries: key (way × 65,536 + bucket) × 4 + slot, 256 bits (R262). -/
  em       : Sparse Nat
  /-- Ternary entries of 1,536 bits by bank × 16,384 + index (R264). -/
  tern     : Sparse Nat
  /-- Action entries of 256 bits by bank × 65,536 + index (R267). -/
  act      : Sparse Nat
  /-- Push templates of 512 bits by bank × 256 + index (R267). -/
  tpl      : Sparse Nat
  /-- The epoch under which banks A and B were last activated (R281). -/
  epochs   : Nat × Nat
  /-- The swap whose drain is in progress, and TIME ticks counted at it (R279). -/
  swap     : Option Origin
  drainAt  : Nat
  held     : List HeldCmd
  /-- Token buckets: level in 1/625,000 token and TIME ticks counted at that level; unlisted, full (R275). -/
  tokens   : Sparse (Option (Nat × Nat))
  /-- Shadow bases committed, by table (R277). -/
  shadow   : Sparse (Option Nat)
  deriving DecidableEq, Repr

/-- The classifier at reset. -/
def Cl.reset : Cl :=
  { em := [], tern := [], act := [], tpl := [], epochs := (0, 0), swap := none, drainAt := 0, held := [],
    tokens := [], shadow := [] }

/-- A word of a pail FIFO: data, sideband, and whether an inbound word failed parity (R312, R323). -/
structure PailWord where
  data : Word64
  sb   : Byte
  bad  : Bool
  deriving DecidableEq, Repr

/-- The pail port beyond its registers (R310–R323). -/
structure Pl where
  inq      : List PailWord
  /-- PI_READY as launched for the coming edges, the next one first: 16 of them once the latency has passed (R313). -/
  ready    : List Bool
  /-- The rest of an over-long inbound packet is being discarded, up to its eop word. -/
  skipping : Bool
  outq     : List PailWord
  /-- The outbound packet whose first word has transferred and whose eop word has not; packets begun (R317). -/
  inPacket : Bool
  packetNo : Nat
  /-- PO_DROP edges sampled: edges left before they act, and the packet then in progress. -/
  drops    : List (Nat × Option Nat)
  /-- The training of R316 is sent; PO_CLK edges since STARTING. -/
  training : Bool
  edges    : Nat
  deriving DecidableEq, Repr

/-- The pail port at reset. -/
def Pl.reset : Pl :=
  { inq := [], ready := [], skipping := false, outq := [], inPacket := false, packetNo := 0, drops := [], training := false,
    edges := 0 }

/-- Samples of one delay window of a lane (R124–R126), and whether the window is not to be published. -/
structure Samples where
  fwdSum : Int
  fwdN   : Nat
  revSum : Int
  revN   : Nat
  spoilt : Bool
  deriving DecidableEq, Repr

/-- A window without samples. -/
def Samples.zero : Samples := { fwdSum := 0, fwdN := 0, revSum := 0, revN := 0, spoilt := false }

/-- Hidden state of a lane. -/
structure Lane where
  /-- Port, index in it, its width and protocol, read when the enable state left OFF (R106). -/
  port      : Option Nat
  index     : Nat
  width     : Nat
  ethernet  : Bool
  /-- TRAIN: valid frames in a row, rx_ready last received, own receiver converged, the 32 further frames begun, and how
  many of them have been sent (R79). -/
  run       : Nat
  ready     : Bool
  converged : Bool
  leaving   : Bool
  further   : Nat
  /-- Bits of PRBS13 sent so far in training frames, modulo its period (R80). -/
  prbsAt    : Nat
  /-- Frames received since the last tap request acted on, the reply owed, and the sequence number sent (R81). -/
  sinceTap  : Nat
  reply     : Nat
  seq       : Nat
  /-- Rate of the last completed TRAIN since the lane was enabled, LN_STATUS, LN_EQ_TX and LN_EQ_RX as they stood at its
  end, and the dormant fast path in progress (R77). -/
  trained   : Option Nat
  trainStat : Word
  trainTx   : Word
  trainRx   : Word
  fast      : Bool
  /-- LN_RATE_CFG as it stood at the last entry to DETECT from FALLBACK, restart or enable (R103). -/
  rateCfg   : Word
  /-- SYMLOCK runs with the other polarity (R82). -/
  retried   : Bool
  /-- A signal gap of ACTIVE, its 10 µs allowance included; the TIME ticks at which the allowance ends, none while the signal
  is absent; and whether CDR lock and framing have been reacquired in it (R79). -/
  gap       : Bool
  gapEnd    : Option Nat
  regained  : Bool
  badMarks  : Nat
  /-- Rate at which the lane was last ACTIVE (R86). -/
  lastRate  : Option Nat
  /-- Phase samples of the window: count, first, sum of the unwrapped differences (R96). -/
  phN       : Nat
  phFirst   : Nat
  phSum     : Int
  phSpoilt  : Bool
  /-- Management blocks: next sequence number, own transmit times by sequence number, last block received (R120). -/
  mgmtSeq   : Nat
  sent      : List (Nat × Nat)
  rx        : Option (Nat × Nat)
  /-- The window in progress, the one that waits to be published, and those published (R125). -/
  cur       : Samples
  closed    : Option Samples
  windows   : Nat
  /-- The partner's te as last received (R126); disturb is sent for the rest of the window (R127). -/
  partnerTe : Option Nat
  /-- The delay window whose values were published last (R128). -/
  pubAt     : Option Nat
  disturb   : Bool
  deriving DecidableEq, Repr

/-- A lane at reset. -/
def Lane.reset : Lane :=
  { port := none, index := 0, width := 1, ethernet := false, run := 0, ready := false, converged := false,
    leaving := false, further := 0, prbsAt := 0, sinceTap := 16, reply := 0, seq := 0, trained := none, trainStat := 0,
    trainTx := 0, trainRx := 0, fast := false, rateCfg := 0x5B#32, retried := false, gap := false, gapEnd := none,
    regained := false, badMarks := 0, lastRate := none, phN := 0, phFirst := 0, phSum := 0, phSpoilt := false,
    mgmtSeq := 0, sent := [], rx := none, cur := Samples.zero, closed := none, windows := 0, partnerTe := none, pubAt := none,
    disturb := false }

/-- Hidden state of a port. -/
structure Port where
  /-- Committed MAC address (R136). -/
  mac      : Nat
  /-- The capability word last received, and whether this end has sent ack = 1 (R115). -/
  partner  : Option Word64
  sentAck  : Bool
  /-- The partner's management blocks carry time_invalid = 1 (R147). -/
  invalid  : Bool
  /-- First word of a decision received in band (R129). -/
  half     : Option Word64
  /-- The time_role that this end sent in the last completed CAPEX (R115). -/
  role     : Nat
  /-- Framing counter of the port's lanes, modulo 16,384; markers sent, modulo 256; data positions filled since the counter
  last moved; and the lane indices that have sent a management block at its present value (R117, R121). -/
  c        : Nat
  marks    : Nat
  filled   : Nat
  sentAt   : List Nat
  /-- Trigger words of a version-1 or version-2 link that wait for the end of the frame in transmission (R129). -/
  waiting  : List Word64
  /-- After FAULT the port is back-pressured and holds its frames until its link is active again (R56). -/
  held     : Bool
  deriving DecidableEq, Repr

/-- A port at reset. -/
def Port.reset : Port :=
  { mac := 0, partner := none, sentAck := false, invalid := true, half := none, role := 0, c := 0, marks := 0
    filled := 0, sentAt := [], waiting := [], held := false }

/-- A record of an image (R332): a register write; entries of a table from an index on; exact-match entries. -/
inductive ImgRec
  | reg (off : Nat) (w : Word)
  | table (code first : Nat) (entries : List Byte)
  | em (entries : List Byte)
  deriving DecidableEq, Repr

/-- The load of an image in progress (R332, R333, R336): its kind, the records still to be applied, the index of the next, and the
ignored writes and refused entries so far. -/
structure Load where
  kind    : Nat
  recs    : List ImgRec
  next    : Nat
  refused : Nat
  deriving DecidableEq, Repr

/-- The device: everything but the queue of commands. -/
structure Dev where
  stage     : Stage
  /-- In SAFE, the cause of the STAGE record (R434). -/
  safeCause : Nat
  /-- Firing step in progress, and step 3 waits for GL_CTRL.glaze (R434). -/
  fireStep  : Nat
  glazeWait : Bool
  /-- The load of an image whose records are being applied. -/
  load      : Option Load
  /-- Setup registers by BAR0 offset; an unlisted register holds its reset word (R421). -/
  regs      : Sparse Word
  /-- Words latched by the read of a low register (R425), by the offset of the register that reads them. -/
  latch     : Sparse Word
  pins      : Pins
  /-- TIME ticks since bisque start: elapsed time for the rules that decide by it. -/
  ticks     : Nat
  /-- Free values used so far. -/
  free      : Nat
  /-- What has left the device, newest first. -/
  out       : List Out
  klogQueue : List (List Byte)
  /-- A read started by the kiln-log cursor is in progress (R393). -/
  curReading : Bool
  nv        : Nv
  hr        : Hr
  ck        : Ck
  tc        : Tc
  chans     : Sparse Chan
  ec        : Ec
  tg        : Tg
  mi        : Mi
  ca        : Ca
  pc        : Pc
  ps        : Ps
  en        : Enum
  lanes     : Sparse Lane
  ports     : Sparse Port
  sw        : Sw
  cl        : Cl
  pl        : Pl
  deriving DecidableEq, Repr

/-- The state: the device and the commands that wait, first in first out. -/
structure State where
  pending : List Instr
  dev     : Dev
  deriving DecidableEq, Repr

/-- Why a step stops. -/
inductive Fault
  /-- Raised by every command but RESET_ASSERT and PWR_OK_FALL once the scan chains are connected (R367): the manual
  says nothing of the device then but that only reset leaves scan. Safe. -/
  | scanConnected
  deriving DecidableEq, Repr

/-- Why a command has no meaning. -/
inductive Refusal
  /-- Raised by `exec` for a command whose meaning the model does not give. Safe. -/
  | notModelled (mnemonic : String)
  deriving DecidableEq, Repr

/-- The non-volatile store as shipped (R393): an empty log but for its first record; images, keys and deltas absent
(PRESUMED: log entry 11). -/
def Nv.shipped : Nv :=
  { klog := [[0, 0, 20, 1] ++ List.replicate 20 0], clears := 0, pwr := 0, minutes := 0, clearing := none,
    bisque := [], glaze := [], copyA := { seq := 0, good := true, deltas := [] },
    copyB := { seq := 0, good := true, deltas := [] }, keys := List.replicate 8 none, openFuse := false,
    digest := List.replicate 48 0, factory := [], spares := 820, wear := [], place := [], worn := [],
    bad := [] }

/-- The device in OFF, with the store it finds there and the straps (R330) (DESIGN CHOICE: log entries 8, 10). -/
def Dev.cold (nv : Nv) (pins : Pins) (out : List Out) (free : Nat) : Dev :=
  { stage := .off, safeCause := 0, fireStep := 0, glazeWait := false, load := none, regs := [], latch := [], pins := pins,
    ticks := 0, free := free, out := out, klogQueue := [], curReading := false, nv := nv, hr := Hr.reset,
    ck := Ck.reset, tc := Tc.reset, chans := [], ec := Ec.reset, tg := Tg.reset, mi := Mi.reset, ca := Ca.reset, pc := Pc.reset,
    ps := Ps.reset, en := Enum.reset, lanes := [],
    ports := [], sw := Sw.reset, cl := Cl.reset, pl := Pl.reset }

/-- The state right after reset: the device is in OFF, nothing waits. -/
def State.reset : State :=
  { pending := [],
    dev := Dev.cold Nv.shipped { pairRole := false, testMode := false, perstHigh := false } [] 0 }

end Sys2Proof.Machine
end

