-- ==== Sys2Proof/Machine/Ops.lean ====
section
/-! DEFINITION. The named operations over the state: sparse stores, registers and their fields, alarms and messages,
counters, kiln-log records, and what leaves the device. -/

namespace Sys2Proof.Machine

/-! Sparse stores. -/

/-- The value at key `k`; `dflt` where the store lists none (DESIGN CHOICE: log entry 9). -/
def sGet {α : Type} (dflt : α) : Sparse α → Nat → α
  | [], _ => dflt
  | (j, v) :: m, k => if k = j then v else sGet dflt m k

/-- The store without key `k`. -/
def sDel {α : Type} (m : Sparse α) (k : Nat) : Sparse α := m.filter (fun e => e.1 != k)

/-- `v` listed at key `k`, before the first larger key. -/
def sIns {α : Type} : Sparse α → Nat → α → Sparse α
  | [], k, v => [(k, v)]
  | (j, x) :: m, k, v => if k < j then (k, v) :: (j, x) :: m else (j, x) :: sIns m k v

/-- The store with `v` at key `k`: a value equal to `dflt` is not listed (DESIGN CHOICE: log entry 9). -/
def sPut {α : Type} [DecidableEq α] (dflt : α) (m : Sparse α) (k : Nat) (v : α) : Sparse α :=
  if v = dflt then sDel m k else sIns (sDel m k) k v

/-- The store with every entry put anew: its canonical form. -/
def sNorm {α : Type} [DecidableEq α] (dflt : Nat → α) (m : Sparse α) : Sparse α :=
  m.foldr (fun e acc => sPut (dflt e.1) acc e.1 e.2) []

/-- Keys rise strictly from `lo` on, and no listed value is what `dflt` gives its key. -/
def sWfFrom {α : Type} [DecidableEq α] (dflt : Nat → α) : Nat → Sparse α → Bool
  | _, [] => true
  | lo, (j, v) :: m => decide (lo ≤ j) && decide (v ≠ dflt j) && sWfFrom dflt (j + 1) m

/-- The canonical form: equal contents are equal data. -/
def sWf {α : Type} [DecidableEq α] (dflt : Nat → α) (m : Sparse α) : Bool := sWfFrom dflt 0 m

/-! Registers. -/

/-- The word a register holds. -/
def Dev.reg (d : Dev) (o : Nat) : Word := sGet (resetWord o) d.regs o

/-- A register set to a word. -/
def Dev.setReg (d : Dev) (o : Nat) (w : Word) : Dev := { d with regs := sPut (resetWord o) d.regs o w }

/-- A field of a word. -/
def getField (w : Word) (f : Field) : Nat := (w.toNat >>> f.lo) % 2 ^ (f.hi + 1 - f.lo)

/-- A word with a field replaced. -/
def putField (w : Word) (f : Field) (v : Nat) : Word :=
  let n := f.hi + 1 - f.lo
  BitVec.ofNat 32 (w.toNat - getField w f * 2 ^ f.lo + (v % 2 ^ n) * 2 ^ f.lo)

/-- The value of field `f` of register `o`. -/
def Dev.fld (d : Dev) (o : Nat) (f : Field) : Nat := getField (d.reg o) f

/-- Field `f` of register `o` reads other than 0. -/
def Dev.flag (d : Dev) (o : Nat) (f : Field) : Bool := d.fld o f != 0

/-- A field read as a signed value. -/
def Dev.sfld (d : Dev) (o : Nat) (f : Field) : Int := signed (f.hi + 1 - f.lo) (d.fld o f)

/-- Field `f` of register `o` set to `v`. -/
def Dev.setFld (d : Dev) (o : Nat) (f : Field) (v : Nat) : Dev := d.setReg o (putField (d.reg o) f v)

/-- Field set to a truth value. -/
def Dev.setFlag (d : Dev) (o : Nat) (f : Field) (b : Bool) : Dev := d.setFld o f (if b then 1 else 0)

/-- Field set to a signed value. -/
def Dev.setSigned (d : Dev) (o : Nat) (f : Field) (v : Int) : Dev := d.setFld o f (unsigned (f.hi + 1 - f.lo) v)

/-- A count advanced by `n`, saturating at the field's largest value. -/
def Dev.addSat (d : Dev) (o : Nat) (f : Field) (n : Nat) : Dev :=
  d.setFld o f (min (d.fld o f + n) (2 ^ (f.hi + 1 - f.lo) - 1))

/-- An alarm flag set: a bit that changes from 0 to 1 owes a message of vector 65 in the HR block, and of vector 64 in
a block enabled in HR_IRQ_MASK (R306, R421). -/
def Dev.raise (d : Dev) (o : Nat) (f : Field) : Dev :=
  if d.flag o f then d
  else
    let b := o / 0x10000
    let e := d.setFld o f 1
    if b = 9 then { e with hr := { e.hr with irq65 := true } }
    else if bit (d.fld R.HR_IRQ_MASK F.HR_IRQ_MASK_blocks) b then { e with hr := { e.hr with irq64 := true } }
    else e

/-! What leaves the device. -/

/-- An item leaves the device (DESIGN CHOICE: log entry 8). -/
def Dev.emit (d : Dev) (o : Out) : Dev := { d with out := o :: d.out }

/-- A posted write to host memory; nothing is sent while the link is down (R302, R333). -/
def Dev.toHost (d : Dev) (addr : Nat) (bs : List Byte) : Dev := if d.hr.linkUp then d.emit (.hostWrite addr bs) else d

/-- The MSI-X table word at a BAR2 offset: the vector control word of each of the 66 entries starts masked
(PRESUMED: log entry 13). -/
def msixReset (o : Nat) : Word := if o % 16 = 12 && decide (o < 66 * 16) then 1#32 else 0#32

/-- The MSI-X table word at a BAR2 offset (R287) (PRESUMED: log entry 13). -/
def Dev.msixWord (d : Dev) (o : Nat) : Word := sGet (msixReset o) d.hr.msix o

/-- A message of a vector: sent, or held pending while the vector is masked (R306). Nothing is sent while the link is
down (R333) (DEDUCED: log entry 106). -/
def Dev.message (d : Dev) (v : Nat) : Dev :=
  if (d.msixWord (16 * v + 12)).toNat % 2 = 1 || !d.hr.linkUp then
    { d with hr := { d.hr with pba := if d.hr.pba.contains v then d.hr.pba else v :: d.hr.pba } }
  else
    d.emit (.msix v ((d.msixWord (16 * v)).toNat + 2 ^ 32 * (d.msixWord (16 * v + 4)).toNat)
      (d.msixWord (16 * v + 8)).toNat)

/-- The messages that the alarms of one command owe, one for each vector concerned (R306) (DEDUCED: log entry 106). -/
def Dev.flushIrq (d : Dev) : Dev :=
  let d1 := if d.hr.irq64 then ({ d with hr := { d.hr with irq64 := false } } : Dev).message 64 else d
  if d1.hr.irq65 then ({ d1 with hr := { d1.hr with irq65 := false } } : Dev).message 65 else d1

/-! Free values. -/

/-- A free truth value (DESIGN CHOICE: log entries 136, 163). -/
def Dev.freeBool (d : Dev) : Bool × Dev := (Config.freeBool d.free, { d with free := d.free + 1 })

/-- `n` free octets (DESIGN CHOICE: log entries 104, 141, 148, 163). -/
def Dev.freeBytes (d : Dev) (n : Nat) : List Byte × Dev :=
  ((List.range n).map (fun i => Config.freeByte (d.free + i)), { d with free := d.free + n })

/-! Counters (R396, R397). -/

/-- A counter before its first event. -/
def Ctr.zero : Ctr := { value := 0, wrap := false }

/-- Counter `n` advances by `k`; passing its end sets the wrap sticky and PC_ALARM.wrap. -/
def Dev.count (d : Dev) (n : Nat) (k : Nat := 1) : Dev :=
  let c := sGet Ctr.zero d.pc.ctrs n
  let w := decide (2 ^ 48 ≤ c.value.toNat + k)
  let c' : Ctr := { value := BitVec.ofNat 48 (c.value.toNat + k), wrap := c.wrap || w }
  let e : Dev := { d with pc := { d.pc with ctrs := sPut Ctr.zero d.pc.ctrs n c' } }
  if w then e.raise R.PC_ALARM F.PC_ALARM_wrap else e

/-- Port event e of port p. -/
def portCtr (p e : Nat) : Nat := 0x40 * p + e
/-- Lane event e of lane n. -/
def laneCtr (n e : Nat) : Nat := 0x2000 + 0x10 * n + e
/-- Edge-channel event e of channel c. -/
def chanCtr (c e : Nat) : Nat := 0x3000 + 0x10 * c + e
/-- Engine-input losses of source s. -/
def lossCtr (s : Nat) : Nat := 0x4000 + s
/-- Correctable (0) or uncorrectable (1) errors of memory m. -/
def memCtr (m e : Nat) : Nat := 0x4100 + 2 * m + e
/-- Whey reason r: delivered (0), refused (1). -/
def wheyCtr (r e : Nat) : Nat := 0x4200 + 2 * r + e
/-- Device-wide event e. -/
def devCtr (e : Nat) : Nat := 0x4300 + e
/-- Event e of coincidence unit u. -/
def unitCtr (u e : Nat) : Nat := 0x10000 + 8 * u + e

/-! Kiln-log records (R388, R390). -/

/-- The octets of a record: header, operating minutes, and the fields from body byte 4. -/
def recordBytes (nv : Nv) (typ : Nat) (body : List Byte) : List Byte :=
  leBytes 4 (typ * 2 ^ 24 + (body.length + 4) * 2 ^ 16 + nv.pwr % 65536) ++ leBytes 4 nv.minutes ++ body

/-- A record is formed at its event and queued; one that finds 64 queued is not formed (R390). -/
def Dev.record (d : Dev) (typ : Nat) (body : List Byte) : Dev :=
  if 64 ≤ d.klogQueue.length then
    ((d.addSat R.ER_QLOST F.ER_QLOST_count 1).raise R.ER_ALARM F.ER_ALARM_q_lost).count (devCtr 15)
  else { d with klogQueue := d.klogQueue ++ [recordBytes d.nv typ body] }

/-- STAGE record: new stage and cause. -/
def Dev.recStage (d : Dev) (stage cause : Nat) : Dev := d.record 0x03 (leBytes 1 stage ++ leBytes 3 cause)
/-- CLOCK record: event, attempts, loss count. -/
def Dev.recClock (d : Dev) (event attempts losses : Nat) : Dev :=
  d.record 0x04 (leBytes 1 event ++ leBytes 1 attempts ++ leBytes 1 losses ++ leBytes 1 0)
/-- TIME_STEP record: event, TE after, refusal cause, change. -/
def Dev.recStep (d : Dev) (event te cause : Nat) (change : Int) : Dev :=
  d.record 0x05 (leBytes 1 event ++ leBytes 1 te ++ leBytes 1 cause ++ leBytes 1 0 ++
    leBytes 6 (unsigned 48 change) ++ leBytes 2 0)
/-- IMAGE record: image, event, record index. -/
def Dev.recImage (d : Dev) (image event index : Nat) : Dev :=
  d.record 0x06 (leBytes 1 image ++ leBytes 1 event ++ leBytes 2 0 ++ leBytes 4 index)
/-- MRAM record: event and logical block. -/
def Dev.recMram (d : Dev) (event block : Nat) : Dev :=
  d.record 0x07 (leBytes 1 event ++ leBytes 1 0 ++ leBytes 2 block)
/-- ENUM record: port, reason, accumulated latency. -/
def Dev.recEnum (d : Dev) (port reason acc : Nat) : Dev :=
  d.record 0x08 (leBytes 1 port ++ leBytes 1 reason ++ leBytes 2 0 ++ leBytes 3 acc ++ leBytes 1 0)
/-- MEM record: memory, event, source, line. -/
def Dev.recMem (d : Dev) (mem event source line : Nat) : Dev :=
  d.record 0x09 (leBytes 1 mem ++ leBytes 1 event ++ leBytes 1 source ++ leBytes 1 0 ++ leBytes 4 line)
/-- DECISION record: event, TE, action, T_exec, origin. -/
def Dev.recDecision (d : Dev) (event te action tExec origin : Nat) : Dev :=
  d.record 0x0A (leBytes 1 event ++ leBytes 1 te ++ leBytes 2 action ++ leBytes 6 tExec ++ leBytes 3 origin ++
    leBytes 3 0)
/-- BIST record: memory, event, row or bank. -/
def Dev.recBist (d : Dev) (mem event row : Nat) : Dev :=
  d.record 0x0B (leBytes 1 mem ++ leBytes 1 event ++ leBytes 2 0 ++ leBytes 4 row)
/-- CAL record: event, kind, index, cone set, sequence number. -/
def Dev.recCal (d : Dev) (event kind index set seq : Nat) : Dev :=
  d.record 0x0D (leBytes 1 event ++ leBytes 1 kind ++ leBytes 1 index ++ leBytes 1 set ++ leBytes 4 seq)

/-! The time counter as other blocks read it. -/

/-- T48 of the counter: its upper 48 bits (R137). -/
def Dev.now (d : Dev) : Nat := d.tc.acc / 2 ^ 24
/-- The current time epoch. -/
def Dev.te (d : Dev) : Nat := d.fld R.TC_STATUS F.TC_STATUS_te
/-- The level of TIME_VALID (R147). -/
def Dev.timeValid (d : Dev) : Bool := d.flag R.TC_STATUS F.TC_STATUS_time_valid

/-- Changes of the time scale as they stand after one at this tick, which adds `moved` to the counter (R142): those of the
last 2^20 ticks are kept. -/
def Dev.marked (d : Dev) (moved : Int) : List TimeMark :=
  { tick := d.ticks, te := d.te, invalid := !d.timeValid, moved := moved } ::
    d.tc.marks.filter fun m => decide (d.ticks < m.tick + 2 ^ 20)

/-- A stamp: the T48 of an instant, with the TE and the invalid flag of that instant (R149). -/
structure Stamp where
  t48     : Nat
  te      : Nat
  invalid : Bool
  deriving DecidableEq, Repr

/-- The changes of the time scale that came after an instant `off` 2^-16 ns after the last TIME tick, newest first: those
whose tick of 1.6 ns lies after it. -/
def Dev.marksAfter (d : Dev) (off : Int) : List TimeMark :=
  d.tc.marks.takeWhile fun m => decide (((d.ticks - m.tick : Nat) : Int) * 1048576 < -off * 10)

/-- The stamp of an instant `off` 2^-16 ns after the last TIME tick: an instant before a step carries the counter, the TE and
the flag of before it (R142, R149). -/
def Dev.stampAt (d : Dev) (off : Int) : Stamp :=
  let after := d.marksAfter off
  let t := t48Add d.now (off - (after.map (·.moved)).foldl (· + ·) 0)
  match after.getLast? with
  | some m => { t48 := t, te := m.te, invalid := m.invalid }
  | none => { t48 := t, te := d.te, invalid := !d.timeValid }

/-! Stage and enables. -/

/-- The code of GL_STAGE.stage (R326). -/
def Stage.code : Stage → Nat
  | .off => 0 | .bisque => 1 | .firing => 2 | .glaze => 3 | .yielded => 4 | .safe => 5

/-- States of the enable rule (R346). -/
def enOff : Nat := 0
/-- STARTING. -/
def enStarting : Nat := 1
/-- ON. -/
def enOn : Nat := 2
/-- STOPPING. -/
def enStopping : Nat := 3

/-- The cleaner is in FAULT (R40). -/
def Dev.inFault (d : Dev) : Bool := d.fld R.CK_STATUS F.CK_STATUS_state == 7

/-- PS_PAIR_STATUS.state (R407). -/
def Dev.pairState (d : Dev) : Nat := d.fld R.PS_PAIR_STATUS F.PS_PAIR_STATUS_state

/-- The device is a STANDBY (R410). -/
def Dev.standby (d : Dev) : Bool := d.pairState == 2

/-- The device is in a stage with full function: GLAZE. -/
def Dev.inGlaze (d : Dev) : Bool := d.stage == .glaze

/-! How a command acts. -/

/-- What a command answers. -/
abbrev Result := Host.Outcome State Fault Refusal

/-- The end of every command: the messages its alarms owe are sent, and the addressed stores (registers, MSI-X table,
counters) are in canonical form. -/
def Dev.settle (d : Dev) : Dev :=
  let e := d.flushIrq
  { e with
    regs := sNorm resetWord e.regs
    hr := { e.hr with msix := sNorm msixReset e.hr.msix }
    pc := { e.pc with ctrs := sNorm (fun _ => Ctr.zero) e.pc.ctrs } }

/-- A command that acts in every stage: `f` on the device; once the scan chains are connected the manual gives no
behaviour (R367) (DESIGN CHOICE: log entry 7). -/
def always (s : State) (f : Dev → Dev) : Result :=
  if s.dev.mi.scan then .fault .scanConnected else .next { s with dev := (f s.dev).settle }

/-- A command that acts in every stage but OFF: in OFF the device is in reset and nothing comes about (R330)
(DESIGN CHOICE: log entries 2, 6, 7). -/
def awake (s : State) (f : Dev → Dev) : Result :=
  always s (fun d => if d.stage = .off then d else f d)

/-- A command that acts in every stage but OFF and SAFE: in SAFE every block is off and ROOT is stopped (R347)
(DESIGN CHOICE: log entry 2). -/
def running (s : State) (f : Dev → Dev) : Result :=
  always s (fun d => if d.stage = .off ∨ d.stage = .safe then d else f d)

end Sys2Proof.Machine
end

