-- ==== Sys2Proof/Machine/RingOps.lean ====
section
/-! DEFINITION. Operations on host rings that other blocks use: indices, entries, status page, moderation and
completions (R288–R292, R297, R306). -/

namespace Sys2Proof.Machine

/-- Hidden state of ring r. -/
def Dev.ring (d : Dev) (r : Nat) : Ring := sGet Ring.reset d.hr.rings r
/-- Hidden state of ring r replaced. -/
def Dev.setRing (d : Dev) (r : Nat) (x : Ring) : Dev :=
  { d with hr := { d.hr with rings := sPut Ring.reset d.hr.rings r x } }

/-- HR_RING_CTRL[r].state. -/
def Dev.ringState (d : Dev) (r : Nat) : Nat := d.fld (R.HR_RING_CTRL r) F.HR_RING_CTRL_state
/-- HR_RING_CFG[r].type (R288). -/
def Dev.ringType (d : Dev) (r : Nat) : Nat := d.fld (R.HR_RING_CFG r) F.HR_RING_CFG_type
/-- Entries of ring r. -/
def Dev.ringSize (d : Dev) (r : Nat) : Nat := 2 ^ d.fld (R.HR_RING_CFG r) F.HR_RING_CFG_size_log2
/-- Device index (R289). -/
def Dev.didx (d : Dev) (r : Nat) : Nat := (d.reg (R.HR_RING_DIDX r)).toNat
/-- Host index as last read (R289). -/
def Dev.hidx (d : Dev) (r : Nat) : Nat := (d.reg (R.HR_RING_HIDX r)).toNat
/-- Descriptor format v3 is in force (R294). -/
def Dev.v3 (d : Dev) : Bool := d.fld R.HR_CTRL F.HR_CTRL_fmt == 1

/-- Bytes of one entry of a ring of a type (R288). -/
def entrySize (typ : Nat) (v3 : Bool) : Nat :=
  match typ with
  | 5 => 16 | 6 => 32 | 7 => 512
  | _ => if v3 then 64 else 32

/-- Host address of the entry for index i of ring r (R289). -/
def Dev.entryAddr (d : Dev) (r i : Nat) : Nat :=
  (d.reg (R.HR_RING_BASE_LO r)).toNat + 2 ^ 32 * (d.reg (R.HR_RING_BASE_HI r)).toNat +
    (i % d.ringSize r) * entrySize (d.ringType r) d.v3

/-- A device-written ring has no free entry by the last hidx read, reserved positions counted (R289, R297). -/
def Dev.ringFull (d : Dev) (r : Nat) : Bool :=
  decide (d.ringSize r ≤ (d.didx r + 2 ^ 32 - d.hidx r) % 2 ^ 32 + (d.ring r).reserved)

/-- The status entry of ring r is written whole; lost is 0 on a ring that is no DEC and no TEL ring (R292). -/
def Dev.writeStatus (d : Dev) (r : Nat) : Dev :=
  let lost := if d.ringType r = 6 ∨ d.ringType r = 7 then (d.ring r).lost else 0
  d.toHost (d.hr.stBase + 64 * r)
    (leBytes 4 (d.didx r) ++ leBytes 1 (d.ringState r) ++
     leBytes 1 (d.fld (R.HR_RING_CTRL r) F.HR_RING_CTRL_err) ++ leBytes 2 0 ++ leBytes 4 lost ++ List.replicate 52 0)

/-- didx of ring r advances by n; the status entry follows, then the message when the moderation count is reached
(R292, R302, R306). -/
def Dev.advance (d : Dev) (r n : Nat) : Dev :=
  let d1 := (d.setFld (R.HR_RING_DIDX r) F.HR_RING_DIDX_didx ((d.didx r + n) % 2 ^ 32)).writeStatus r
  let x := d1.ring r
  let c := d1.fld (R.HR_RING_MOD r) F.HR_RING_MOD_count
  if c ≠ 0 ∧ c ≤ x.fresh + n then (d1.setRing r { x with fresh := 0 }).message r
  else d1.setRing r { x with fresh := x.fresh + n }

/-- An entry is written into a device-written ring. -/
def Dev.ringWrite (d : Dev) (r : Nat) (entry : List Byte) : Dev :=
  (d.toHost (d.entryAddr r (d.didx r)) entry).advance r 1

/-- The octets of a completion (R297). -/
def cplBytes (v3 : Bool) (o : Origin) (status r0 r1 : Nat) : List Byte :=
  leBytes 1 o.ring ++ leBytes 1 status ++ leBytes 1 o.kind ++ leBytes 1 o.opcode ++ leBytes 4 o.index ++
    leBytes 8 o.cookie ++ leBytes 4 r0 ++ leBytes 4 r1 ++ List.replicate (if v3 then 40 else 8) 0

/-- A completion is written to the completion ring of its source ring; status 3 and 4 count in HR_CMD_ERR.bad
(R297, R308). -/
def Dev.complete (d : Dev) (o : Origin) (status : Nat) (r0 r1 : Nat := 0) : Dev :=
  let d1 :=
    if status = 3 ∨ status = 4 then
      ((d.addSat R.HR_CMD_ERR F.HR_CMD_ERR_bad 1).raise R.HR_ALARM F.HR_ALARM_cmd_err).count (devCtr 8)
    else d
  d1.ringWrite (d1.fld (R.HR_RING_CFG o.ring) F.HR_RING_CFG_cpl_ring) (cplBytes d1.v3 o status r0 r1)

/-- Host words, `n` of them, that fail their CRC: both of a decision count (R196, R298, R308). -/
def Dev.hostCrcError (d : Dev) (n : Nat) : Dev :=
  ((((d.addSat R.HR_CMD_ERR F.HR_CMD_ERR_crc n).raise R.HR_ALARM F.HR_ALARM_cmd_err).count (devCtr 8)).raise
    R.TG_ALARM F.TG_ALARM_word_err)

/-- A completion position of a ring's completion ring is reserved for a command that does not complete at once. -/
def Dev.reserve (d : Dev) (r : Nat) (n : Nat) : Dev :=
  let c := d.fld (R.HR_RING_CFG r) F.HR_RING_CFG_cpl_ring
  let x := d.ring c
  d.setRing c { x with reserved := x.reserved + n }

/-- A reserved completion position is used. -/
def Dev.unreserve (d : Dev) (r : Nat) : Dev :=
  let c := d.fld (R.HR_RING_CFG r) F.HR_RING_CFG_cpl_ring
  let x := d.ring c
  d.setRing c { x with reserved := x.reserved - 1 }

/-! Enable (R303, R304). -/

/-- HR_RING_CTRL[r].state set; the status entry follows (R292). -/
def Dev.setRingState (d : Dev) (r st : Nat) : Dev := (d.setFld (R.HR_RING_CTRL r) F.HR_RING_CTRL_state st).writeStatus r

/-- The configuration of ring r passes the check of STARTING (R303). -/
def Dev.ringValid (d : Dev) (r : Nat) : Bool :=
  let t := d.ringType r
  let s := d.fld (R.HR_RING_CFG r) F.HR_RING_CFG_size_log2
  t != 0 && decide (6 ≤ s) && decide (s ≤ 16) && (d.reg (R.HR_RING_BASE_LO r)).toNat % 4096 == 0 &&
    (!(t == 1 || t == 3) || d.ringType (d.fld (R.HR_RING_CFG r) F.HR_RING_CFG_cpl_ring) == 2)

/-- An enable of ring r: an invalid configuration leaves it OFF at once with err 1; otherwise it enters STARTING with both
indices 0, and an error code of an earlier stop is gone (R303) (DEDUCED: log entry 96). -/
def Dev.ringStart (d : Dev) (r : Nat) : Dev :=
  if !d.ringValid r then
    ((d.setFld (R.HR_RING_CTRL r) F.HR_RING_CTRL_err 1).raise R.HR_ALARM F.HR_ALARM_cfg_reject).setRingState r enOff
  else
    let d1 := (d.setRing r { Ring.reset with lost := (d.ring r).lost }).setFld (R.HR_RING_CTRL r) F.HR_RING_CTRL_err 0
    ((d1.setFld (R.HR_RING_HIDX r) F.HR_RING_HIDX_hidx 0).setFld (R.HR_RING_DIDX r) F.HR_RING_DIDX_didx 0).setRingState r
      enStarting

/-- Ring r enters STOPPING: fetching and filling end. -/
def Dev.ringStop (d : Dev) (r : Nat) : Dev := d.setRingState r enStopping

/-- Ring r stops by itself with an error code; its enable reads 0, so that it does not start again. During a loss of ROOT lock it
keeps its state, and stops at recovery (R304, R347) (DEDUCED: log entries 96, 120). -/
def Dev.ringError (d : Dev) (r err : Nat) : Dev :=
  if d.ringState r = enOff then d
  else
    let d1 := ((d.setFld (R.HR_RING_CTRL r) F.HR_RING_CTRL_err err).setFld (R.HR_RING_CTRL r) F.HR_RING_CTRL_enable
      0).raise R.HR_ALARM (if 3 ≤ err then F.HR_ALARM_host_mem_err else F.HR_ALARM_ring_err)
    if d.ringState r = enOn && !d.inFault then d1.ringStop r else d1.writeStatus r

/-- Rings may leave OFF from FIRING on, in YIELDED too (R336, R347). -/
def Dev.ringsMayStart (d : Dev) : Bool := d.stage == .firing || d.stage == .glaze || d.stage == .yielded

/-- The rings that are not OFF. -/
def Dev.ringsActive (d : Dev) : List Nat := (List.range 64).filter fun r => d.ringState r != enOff

/-- Offsets of the HR block. -/
def inHr (o : Nat) : Bool := decide (0x90000 ≤ o) && decide (o < 0xA0000)

/-- The end of a function-level reset, once every ring is OFF: the HR registers, and the function's MSI-X table, return to
reset; the link's report stays (R305) (PRESUMED: log entry 98). -/
def Dev.flrEnd (d : Dev) : Dev :=
  if d.hr.flr && d.ringsActive.isEmpty then
    let stat := d.reg R.HR_PCIE_STAT
    let d1 : Dev := { d with regs := d.regs.filter fun e => !inHr e.1
                             hr := { Hr.reset with linkUp := d.hr.linkUp, irq64 := d.hr.irq64, clearFor := d.hr.clearFor } }
    (d1.setReg R.HR_PCIE_STAT stat).raise R.HR_ALARM F.HR_ALARM_flr
  else d

/-- A write of enable = 0 to every ring, at a function-level reset; during a loss of ROOT lock the rings follow it at recovery
(R305, R347) (PRESUMED: log entry 98). -/
def Dev.flrBegin (d : Dev) : Dev :=
  let d1 := (List.range 64).foldl (fun d r =>
    let e := d.setFld (R.HR_RING_CTRL r) F.HR_RING_CTRL_enable 0
    if d.ringState r = enOn && !d.inFault then e.ringStop r else e) d
  ({ d1 with hr := { d1.hr with flr := true } } : Dev).flrEnd

/-! Commands (R297, R302). -/

/-- The completion ring of ring r takes an entry (DEDUCED: log entry 99). -/
def Dev.cplRoom (d : Dev) (r : Nat) : Bool :=
  let c := d.fld (R.HR_RING_CFG r) F.HR_RING_CFG_cpl_ring
  d.ringType c == 2 && d.ringState c == enOn && !d.ringFull c

/-- The device may take the next descriptor of ring r, a CMD ring: it is ON, an index lies below the hidx read, no command
of it is in execution, and its completion has a place (R290, R297, R302) (DEDUCED: log entry 97). -/
def Dev.cmdReady (d : Dev) (r : Nat) : Bool :=
  d.ringType r == 1 && d.ringState r == enOn && !(d.ring r).busy && d.hidx r != d.didx r && d.cplRoom r

/-- The ring of a command is held while it executes, with a place for its completion (DEDUCED: log entry 97). -/
def Dev.takeCommand (d : Dev) (r : Nat) : Dev :=
  let d1 := (d.advance r 1).reserve r 1
  d1.setRing r { d1.ring r with busy := true }

/-- A command completes. -/
def Dev.finish (d : Dev) (o : Origin) (status : Nat) (r0 r1 : Nat := 0) : Dev :=
  let d1 := d.unreserve o.ring
  (d1.setRing o.ring { d1.ring o.ring with busy := false }).complete o status r0 r1

/-- A host command of an opcode: `f` on the device that has taken the descriptor. -/
def Dev.command (d : Dev) (c : CmdDesc) (opcode : Nat) (f : Dev → Origin → Dev) : Dev :=
  let r := c.ring.val
  if !d.cmdReady r then d
  else
    f (d.takeCommand r)
      { ring := r, index := d.didx r, opcode := opcode, cookie := c.cookie.toNat, kind := 1 }

/-- Entries of a command: 0 acts as 1 (R297). -/
def entriesOf (c : CmdDesc) : Nat := max 1 c.count.toNat

/-- arg1, which v2 gives up (R294). -/
def Dev.arg1 (d : Dev) (c : CmdDesc) : Nat := if d.v3 then c.arg1.toNat else 0

end Sys2Proof.Machine
end

