-- ==== Sys2Proof/Machine/Codes.lean ====
section
/-! DEFINITION. The codes of the on-die memories: the SEC-DED word, the outer code of a line, and what a read of a line whose
bits have flipped finds (R349–R351). -/

namespace Sys2Proof.Machine

/-! The inner code (R349). -/

/-- Number of bits set in a byte. -/
def weight8 (x : Nat) : Nat := (List.range 8).foldl (fun n i => if x.testBit i then n + 1 else n) 0

/-- Syndromes of a single error in the bits 0 to 71 of a word: for the data bits the 56 bytes of weight 3 and the first 8 of weight
5, for the check bits the 8 of weight 1. They differ and are of odd weight, so no two errors look like one
(DESIGN CHOICE: log entry 167). -/
def codeColumns : List Nat :=
  (List.range 256).filter (weight8 · == 3) ++ ((List.range 256).filter (weight8 · == 5)).take 8 ++
    (List.range 8).map (2 ^ ·)

/-- The exclusive-or of the syndromes of the bits set in a word of 72 bits: zero on a word of the code. -/
def syndrome (w : BitVec 72) : Nat :=
  codeColumns.zipIdx.foldl (fun a c => if w.getLsbD c.2 then a ^^^ c.1 else a) 0

/-- The stored word: the data in bits 0 to 63 and the check bits in 64 to 71. -/
def encodeWord (data : Word64) : BitVec 72 :=
  let w : BitVec 72 := data.setWidth 72
  w ||| (BitVec.ofNat 72 (syndrome w) <<< 64)

/-- What a read of one word finds. -/
inductive WordRead
  | good (data : Word64)
  | corrected (data : Word64) (bit : Nat)
  | double
  deriving DecidableEq, Repr

/-- A word is read: a syndrome of no single error is a double-bit error. -/
def decodeWord (w : BitVec 72) : WordRead :=
  let s := syndrome w
  if s = 0 then .good (w.setWidth 64)
  else
    match codeColumns.findIdx? (· == s) with
    | some b => .corrected ((w ^^^ BitVec.twoPow 72 b).setWidth 64) b
    | none => .double

/-- The data a word yields. -/
def WordRead.data : WordRead → Word64
  | .good x => x
  | .corrected x _ => x
  | .double => 0

/-! A line with its outer code (R350). -/

/-- Data words of a line of memories 0 to 11 (R348). -/
def lineWords (m : Nat) : Nat :=
  match m with
  | 0 => 32
  | 3 | 5 | 7 => 8
  | 9 => 2
  | _ => 4

/-- The outer code of a line, over its data words in ascending order (R350). -/
def outerCode (words : List Word64) : Nat := crc32c (words.flatMap fun w => leBytes 8 w.toNat)

/-- A line as it is written: its data words, and behind them the word that holds the outer code. -/
def storeLine (words : List Word64) : List (BitVec 72) :=
  words.map encodeWord ++ [encodeWord (BitVec.ofNat 64 (outerCode words))]

/-- What a read of a line finds (R351): the words corrected, each with its bit, or an error that cannot be corrected. -/
inductive LineFound
  | data (words : List Word64) (corrected : List (Nat × Nat))
  | inner
  | outer
  deriving DecidableEq, Repr

/-- A stored line is read (R351). -/
def readStored (stored : List (BitVec 72)) : LineFound :=
  let ws := stored.map decodeWord
  if ws.contains .double then .inner
  else
    let words := ws.dropLast.map WordRead.data
    if (ws.getLastD .double).data != BitVec.ofNat 64 (outerCode words) then .outer
    else
      .data words (ws.zipIdx.filterMap fun x =>
        match x.1 with
        | .corrected _ b => some (x.2, b)
        | _ => none)

/-- The words of a line with the bits that `flips` names turned over. -/
def flipBits (stored : List (BitVec 72)) (flips : List (Fin 33 × Fin 72)) : List (BitVec 72) :=
  stored.zipIdx.map fun x =>
    flips.foldl (fun w f => if f.1.val = x.2 then w ^^^ BitVec.twoPow 72 f.2.val else w) x.1

/-- What the read of a line of memory m finds when these of its bits have flipped since it was written. Both codes are linear, so
what is found does not depend on the content, and a line of zeros stands for it (DESIGN CHOICE: log entry 130). -/
def lineFound (m : Nat) (flips : List (Fin 33 × Fin 72)) : LineFound :=
  readStored (flipBits (storeLine (List.replicate (lineWords m) 0)) flips)

/-! The march tests (R363). -/

/-- An operation of a march element: a write or a read of the background's "0" or "1". -/
inductive MarchOp
  | write (one : Bool)
  | read (one : Bool)
  deriving DecidableEq, Repr

/-- The order in which an element visits the rows. -/
inductive MarchOrder
  | up | down | either
  deriving DecidableEq, Repr

/-- March C−. -/
def marchC : List (MarchOrder × List MarchOp) :=
  [(.either, [.write false]), (.up, [.read false, .write true]), (.up, [.read true, .write false]),
   (.down, [.read false, .write true]), (.down, [.read true, .write false]), (.either, [.read false])]

/-- The word that stands for "0" in a row under background `k`: zeros, checkerboard, row stripe, column stripe. -/
def background (k row : Nat) : BitVec 72 :=
  let ones : BitVec 72 := BitVec.allOnes 72
  let odd : BitVec 72 := (List.range 36).foldl (fun w i => w ||| BitVec.twoPow 72 (2 * i + 1)) 0
  match k with
  | 0 => 0
  | 1 => if row % 2 = 0 then odd else ~~~odd
  | 2 => if row % 2 = 0 then 0 else ones
  | _ => odd

/-- The rows of a memory in which some read differs from what was written, for a memory whose row answers a written word by
`answer`: March C− under every background, then the retention variant (DESIGN CHOICE: log entry 167). -/
def marchFails (answer : Nat → BitVec 72 → BitVec 72) (rows : Nat) : List Nat :=
  let word (k row : Nat) (one : Bool) : BitVec 72 := if one then ~~~background k row else background k row
  let bad (k row : Nat) (ops : List MarchOp) : Bool :=
    (ops.foldl (fun (acc : BitVec 72 × Bool) op =>
      match op with
      | .write one => (word k row one, acc.2)
      | .read one => (acc.1, acc.2 || answer row acc.1 != word k row one)) (0, false)).2
  (List.range rows).filter fun row =>
    (List.range 4).any (fun k => bad k row (marchC.flatMap Prod.snd)) ||
      bad 0 row [.write false, .read false, .write true, .read true]

end Sys2Proof.Machine
end

