-- ==== Sys2Proof/Machine/MemOps.lean ====
section
/-! DEFINITION. Memory integrity: classification of reads, the correctable-error table, diversion and restoration of
lines, remapping, and duplicated words (R348–R361). -/

namespace Sys2Proof.Machine

/-- Lines of memories 1 to 11 (R348). -/
def memLines (m : Nat) : Nat :=
  match m with
  | 1 => 524288 | 2 => 4096 | 3 => 98304 | 4 => 131072 | 5 => 512 | 6 => 4096 | 7 => 4096 | 8 => 4096
  | 9 => 16384 | 10 => 262144 | 11 => 4096
  | _ => 0

/-- The memory and line that follow `n` lines of the walk over memories 1 to 11 (R362). -/
def walkLine : Nat → Nat → Nat × Nat
  | 0, _ => (11, 0)
  | k + 1, n => if n < memLines (11 - k) then (11 - k, n) else walkLine k (n - memLines (11 - k))

/-- Lines of one walk. -/
def walkTotal : Nat := 1053184

/-- Key of a line among all memories. -/
def lineKey (m line : Nat) : Nat := m * 2 ^ 20 + line

/-- TIME ticks in a number of seconds: 625 million a second. -/
def tickSeconds (s : Nat) : Nat := 625000000 * s

/-- The line is diverted (R354). -/
def Dev.diverted (d : Dev) (m line : Nat) : Bool := d.mi.diverted.contains (m, line)

/-- Lines of memories 1 to 9 diverted now (R369) (DEDUCED: log entry 135). -/
def Dev.divertedCount (d : Dev) : Nat := (d.mi.diverted.filter fun x => decide (x.1 ≤ 9)).length

/-! Correctable errors (R352). -/

/-- The entry of the table that holds an address, or the lowest free one. -/
def Dev.ceSlot (d : Dev) (m line word : Nat) : Option Nat :=
  let at_ (i : Nat) : Bool :=
    d.flag (R.MI_CE_ENT_HI i) F.MI_CE_ENT_HI_repeats && d.fld (R.MI_CE_ENT_LO i) F.MI_CE_ENT_LO_mem == m &&
      d.fld (R.MI_CE_ENT_LO i) F.MI_CE_ENT_LO_line == line && d.fld (R.MI_CE_ENT_LO i) F.MI_CE_ENT_LO_word == word
  match (List.range 32).find? at_ with
  | some i => some i
  | none => (List.range 32).find? fun i => !d.flag (R.MI_CE_ENT_HI i) F.MI_CE_ENT_HI_repeats

/-- One correctable error is counted and offered to the table. -/
def Dev.correctable (d : Dev) (m line word bit : Nat) (churn : Bool) : Dev :=
  let d1 := (d.addSat (R.MI_MEM_CE m) F.MI_MEM_CE_count 1).count (memCtr m 0)
  match d1.ceSlot m line word with
  | none => (d1.addSat R.MI_CE_OVF F.MI_CE_OVF_count 1).raise R.MI_ALARM F.MI_ALARM_ce_ovf
  | some i =>
    if d1.flag (R.MI_CE_ENT_HI i) F.MI_CE_ENT_HI_repeats then
      d1.addSat (R.MI_CE_ENT_HI i) F.MI_CE_ENT_HI_repeats 1
    else
      let a := ((d1.setFld (R.MI_CE_ENT_LO i) F.MI_CE_ENT_LO_mem m).setFld (R.MI_CE_ENT_LO i) F.MI_CE_ENT_LO_line
        line).setFld (R.MI_CE_ENT_LO i) F.MI_CE_ENT_LO_word word
      (((a.setFld (R.MI_CE_ENT_HI i) F.MI_CE_ENT_HI_repeats 1).setFld (R.MI_CE_ENT_HI i) F.MI_CE_ENT_HI_bit
        bit).setFlag (R.MI_CE_ENT_HI i) F.MI_CE_ENT_HI_src churn).setFld (R.MI_CE_ENT_HI i) F.MI_CE_ENT_HI_first_min
        (d1.nv.minutes % 65536)

/-! Uncorrectable reads. -/

/-- The source code of a diverted line's restoration: 1 host shadow, 2 glaze image, 3 recomputed, 4 factory values and
deltas; none where R355 gives no source. -/
def Dev.restoreSource (d : Dev) (m line : Nat) : Option Nat :=
  let image := if sGet false d.mi.image (lineKey m line) then some 2 else none
  match m with
  | 1 => if (sGet none d.cl.shadow 0).isSome then some 1 else image
  | 2 => some 3
  | 3 => if (sGet none d.cl.shadow 1).isSome then some 1 else image
  | 4 => if (sGet none d.cl.shadow 2).isSome then some 1 else image
  | 5 => if (sGet none d.cl.shadow 3).isSome then some 1 else image
  | 6 | 7 | 8 | 9 => image
  | 11 => some 4
  | _ => none

/-- Instants of the last uncorrectable reads kept under a key, the new one added, those older than 3,600 s dropped. -/
def recent (now : Nat) (xs : List Nat) : List Nat := now :: xs.filter fun t => decide (now < t + tickSeconds 3600)

/-- A spare row takes the line's place, or none remains (R358). The answer says whether the line may be restored
(DEDUCED: log entry 133). -/
def Dev.remap (d : Dev) (m line : Nat) : Dev × Bool :=
  let o := R.MI_MEM_SPARE m
  if d.fld o F.MI_MEM_SPARE_used < d.fld o F.MI_MEM_SPARE_total then
    ((d.addSat o F.MI_MEM_SPARE_used 1).recMem m 3 ((d.restoreSource m line).getD 0) line, true)
  else
    let d1 : Dev := { d with mi := { d.mi with noSpare := (m, line) :: d.mi.noSpare } }
    ((d1.raise R.MI_ALARM F.MI_ALARM_no_spare).recMem m 4 0 line, false)

/-- The restoration of a diverted line starts, or the line has no source (R355–R357) (DEDUCED: log entry 132). -/
def Dev.startRestore (d : Dev) (m line : Nat) (remap : Bool) : Dev :=
  match d.restoreSource m line with
  | some src =>
    let r : Restore := { mem := m, line := line, src := src, retry := false, remap := remap }
    { d with mi := { d.mi with restoring := d.mi.restoring ++ [r] } }
  | none =>
    let d1 : Dev := { d with mi := { d.mi with stuck := (m, line) :: d.mi.stuck } }
    (d1.raise R.MI_ALARM F.MI_ALARM_no_source).recMem m 2 0 line

/-- An uncorrectable read of a packet-buffer cell (R353) (DEDUCED: log entry 134). -/
def Dev.cellUncorrectable (d : Dev) (cell : Nat) : Dev :=
  let b := cell / 8192
  let xs := recent d.ticks (sGet [] d.mi.ueBank b)
  let early := decide (16 ≤ xs.length) && decide (b < 48) && !d.mi.ahead.contains b
  let d1 := (d.addSat (R.MI_MEM_UE 0) F.MI_MEM_UE_count 1).count (memCtr 0 1)
  { d1 with mi := { d1.mi with ueBank := sPut [] d1.mi.ueBank b xs
                               ahead := if early then d1.mi.ahead ++ [b] else d1.mi.ahead } }

/-- An uncorrectable read of a line of memories 1 to 11: counted, diverted and restored. A line already diverted is not
counted again (R354–R360) (DEDUCED: log entry 133). -/
def Dev.lineUncorrectable (d : Dev) (m line : Nat) : Dev :=
  if d.diverted m line then d
  else
    let key := lineKey m line
    let xs := recent d.ticks (sGet [] d.mi.ueLine key)
    let again := decide (3 ≤ xs.length) || d.mi.fresh.contains (m, line)
    let d1 := (d.addSat (R.MI_MEM_UE m) F.MI_MEM_UE_count 1).count (memCtr m 1)
    let d2 := if m ≤ 9 then d1.raise R.MI_ALARM F.MI_ALARM_ue else d1
    let d3 := if m = 1 ∨ m = 3 ∨ m = 4 ∨ m = 5 then d2.raise R.CL_ALARM F.CL_ALARM_table_error else d2
    let d4 : Dev := { d3 with mi := { d3.mi with diverted := d3.mi.diverted ++ [(m, line)]
                                                 fresh := d3.mi.fresh.filter (· != (m, line))
                                                 ueLine := sPut [] d3.mi.ueLine key xs } }
    let (d5, ok) := if again then d4.remap m line else (d4, true)
    if m = 10 || !(ok || m == 11) then d5 else d5.startRestore m line (again && ok)

/-- A read of a line is classified by its codes: its uncorrectable or correctable errors are dealt with (R351). The answer says
whether it was uncorrectable (DESIGN CHOICE: log entry 130). -/
def Dev.readLine (d : Dev) (m line : Nat) (r : LineRead) (churn : Bool) : Dev × Bool :=
  match lineFound m r.flips with
  | .inner | .outer => (if m = 0 then d.cellUncorrectable line else d.lineUncorrectable m line, true)
  | .data _ corrected =>
    let d1 := corrected.foldl (fun d e => d.correctable m line (e.1 % 32) e.2 churn) d
    let wb := if m = 0 ∨ corrected.isEmpty ∨ d1.mi.writeBack.contains (m, line) then d1.mi.writeBack
      else d1.mi.writeBack ++ [(m, line)]
    ({ d1 with mi := { d1.mi with writeBack := wb, fresh := d1.mi.fresh.filter (· != (m, line)) } }, false)

/-- Errors of one CORE cycle in the order in which they are offered: ascending memory code, then ascending line (R352). -/
def sortErrs (errs : List MemErr) : List MemErr :=
  errs.foldr (fun e xs =>
    let before (x : MemErr) : Bool := decide (lineKey x.mem x.line < lineKey e.mem e.line)
    xs.takeWhile before ++ e :: xs.dropWhile before) []

/-- The errors that a command's reads found; the answer lists the lines read uncorrectable
(DESIGN CHOICE: log entry 130). -/
def Dev.readErrs (d : Dev) (errs : List MemErr) : Dev × List (Nat × Nat) :=
  (sortErrs errs).foldl (fun acc e =>
    let (d1, bad) := acc.1.readLine e.mem e.line e.read false
    (d1, if bad then acc.2 ++ [(e.mem, e.line)] else acc.2)) (d, [])

/-- The read of a word kept in two copies in memory m (R361). The answer says whether the item is lost. -/
def Dev.readDup (d : Dev) (m : Nat) (x : DupRead) : Dev × Bool :=
  match x with
  | .good => (d, false)
  | .one line word bit => (d.correctable m line word.val bit.val false, false)
  | .both line =>
    ((((d.addSat (R.MI_MEM_UE m) F.MI_MEM_UE_count 1).count (memCtr m 1)).raise R.MI_ALARM F.MI_ALARM_dup_loss).recMem
      m 5 0 line, true)

/-- A write of a line by a command or an image: its diversion ends and its restoration is cancelled, a write-back is
dropped, and the image bit follows the writer (R351, R355, R356). A line without a spare row stays diverted (R358). -/
def Dev.lineWritten (d : Dev) (m line : Nat) (image : Bool) : Dev :=
  let x := (m, line)
  let keep (ys : List (Nat × Nat)) : List (Nat × Nat) := ys.filter (· != x)
  { d with mi := { d.mi with
      diverted := if d.mi.noSpare.contains x then d.mi.diverted else keep d.mi.diverted
      restoring := d.mi.restoring.filter fun r => !(r.mem == m && r.line == line)
      stuck := keep d.mi.stuck
      fresh := keep d.mi.fresh
      writeBack := keep d.mi.writeBack
      image := sPut false d.mi.image (lineKey m line) image } }

/-! Buffer banks (R232, R365, R366). -/

/-- Bank b is retired. -/
def Dev.retired (d : Dev) (b : Nat) : Bool :=
  if b < 32 then bit (d.reg R.MI_RETIRED_LO).toNat b else bit (d.reg R.MI_RETIRED_HI).toNat (b - 32)

/-- The bank under test. -/
def Dev.testBank (d : Dev) : Nat := d.fld R.MI_STATUS F.MI_STATUS_bank

/-- The place of the rotation that a cell of bank b fills. From phase 2 of a turn on the spare bank fills the place of the bank
under test, whose own cells fill it too until they are copied; the cells left in the spare bank after a retirement, and those of
a retired bank, fill none (R232, R365, R366). -/
def Dev.placeOf (d : Dev) (b : Nat) : Option Nat :=
  if b = 48 then (if 2 ≤ d.mi.phase then some d.testBank else none)
  else if d.retired b then none
  else some b

/-- The bank that receives the new cells of place b: the spare one in phases 2 and 3 of b's turn (R365). -/
def Dev.bankOf (d : Dev) (b : Nat) : Nat := if (d.mi.phase = 2 ∨ d.mi.phase = 3) ∧ d.testBank = b then 48 else b

/-- Cells in bank b. -/
def Dev.cellsIn (d : Dev) (b : Nat) : Nat := d.sw.store.foldl (fun a h => a + (h.banks.filter (· == b)).length) 0

/-- Cells that fill places of the rotation. -/
def Dev.cellsPlaced (d : Dev) : Nat :=
  d.sw.store.foldl (fun a h => a + (h.banks.filter fun b => (d.placeOf b).isSome).length) 0

/-- Cells that fill place b. -/
def Dev.placeUsed (d : Dev) (b : Nat) : Nat :=
  d.sw.store.foldl (fun a h => a + (h.banks.filter fun k => d.placeOf k == some b).length) 0

/-- The place that takes the next cell: the next of the rotation that is not retired and has room (R232)
(DESIGN CHOICE: log entry 83). -/
def Dev.nextPlace (d : Dev) : Nat :=
  (((List.range 48).map fun i => (d.sw.bank + i) % 48).find? fun b =>
    !d.retired b && decide (d.placeUsed b < 8192)).getD d.sw.bank

/-- The cells of bank `a` are copied to bank `b` (R365). -/
def Dev.copyBank (d : Dev) (a b : Nat) : Dev :=
  { d with sw := { d.sw with
      store := d.sw.store.map fun h => { h with banks := h.banks.map fun k => if k == a then b else k } } }

/-- The turn in progress is over. -/
def Dev.turnOver (d : Dev) : Dev :=
  ({ d with mi := { d.mi with phase := 0 } } : Dev).setFld R.MI_STATUS F.MI_STATUS_bank 0x3F

end Sys2Proof.Machine
end

