-- ==== Sys2Proof/Machine/SwitchOps.lean ====
section
/-! DEFINITION. Operations of the switch core: frames entering it, buffer space, back-pressure and flow control, credit,
egress queues, and the end of a frame's stay (R228–R250). -/

namespace Sys2Proof.Machine

/-! Ports. -/

/-- LK_STATUS[p].link_up. -/
def Dev.linkUp (d : Dev) (p : Nat) : Bool := d.flag (R.LK_STATUS p) F.LK_STATUS_link_up
/-- Port p is an Ethernet port. -/
def Dev.ethernet (d : Dev) (p : Nat) : Bool := decide (p < 64) && d.flag (R.LK_PORT_CFG p) F.LK_PORT_CFG_protocol
/-- Port p is an Isazu port. -/
def Dev.isazu (d : Dev) (p : Nat) : Bool := decide (p < 64) && !d.flag (R.LK_PORT_CFG p) F.LK_PORT_CFG_protocol
/-- LK_PORT_CTRL[p].state reads ON. -/
def Dev.portOn (d : Dev) (p : Nat) : Bool := d.fld (R.LK_PORT_CTRL p) F.LK_PORT_CTRL_state == enOn
/-- A channel streams to port 66 and is not OFF (R254). -/
def Dev.streamsOn (d : Dev) : Bool :=
  (List.range 128).any fun c => d.fld (R.EC_OUT_CFG c) F.EC_OUT_CFG_stream == 2 &&
    d.fld (R.EC_CTRL c) F.EC_CTRL_state != enOff
/-- Some TXP ring is not OFF (R303). -/
def Dev.txpOn (d : Dev) : Bool :=
  (List.range 64).any fun r => d.fld (R.HR_RING_CFG r) F.HR_RING_CFG_type == 3 &&
    d.fld (R.HR_RING_CTRL r) F.HR_RING_CTRL_state != enOff
/-- Port p is OFF in the sense of R254. -/
def Dev.portOff (d : Dev) (p : Nat) : Bool :=
  if p < 64 then d.fld (R.LK_PORT_CTRL p) F.LK_PORT_CTRL_state == enOff
  else if p = 64 then d.fld R.PL_CTRL F.PL_CTRL_state == enOff
  else if p = 65 then !d.txpOn
  else !d.streamsOn
/-- SW_PORT_STAT[p].carrying: ON with link_up. The internal ports have no link: they are ON when what R254 names for them is: the
pail port, a TXP ring, a channel that streams to port 66 (R253) (DEDUCED: log entry 84). -/
def Dev.carrying (d : Dev) (p : Nat) : Bool :=
  if p < 64 then d.portOn p && d.linkUp p
  else if p = 64 then d.fld R.PL_CTRL F.PL_CTRL_state == enOn
  else if p = 65 then (List.range 64).any fun r =>
    d.fld (R.HR_RING_CFG r) F.HR_RING_CFG_type == 3 && d.fld (R.HR_RING_CTRL r) F.HR_RING_CTRL_state == enOn
  else (List.range 128).any fun c =>
    d.fld (R.EC_OUT_CFG c) F.EC_OUT_CFG_stream == 2 && d.fld (R.EC_CTRL c) F.EC_CTRL_state == enOn
/-- max_frame of port p: LK_PORT_CFG, or PL_CFG for port 64 (R320). -/
def Dev.maxFrame (d : Dev) (p : Nat) : Nat :=
  if p < 64 then d.fld (R.LK_PORT_CFG p) F.LK_PORT_CFG_max_frame else d.fld R.PL_CFG F.PL_CFG_max_frame

/-- The pair port is named and pairing enabled (R405, R406). -/
def Dev.isPairPort (d : Dev) (p : Nat) : Bool :=
  d.flag R.PS_PAIR_CFG F.PS_PAIR_CFG_enable && d.fld R.PS_PAIR_CFG F.PS_PAIR_CFG_port == p
/-- The transmitters of port p are at electrical idle whatever their bring-up state: WAITING and STANDBY but for the pair port,
YIELDED, and FAULT from 2,000 ns on (R51, R407) (DEDUCED: log entry 87). -/
def Dev.txIdle (d : Dev) (p : Nat) : Bool :=
  ((d.pairState == 1 || d.pairState == 2) && !d.isPairPort p) || d.stage == .yielded || (d.inFault && d.ck.idled)

/-- Key of port p and class c. -/
def pcKey (p c : Nat) : Nat := 8 * p + c

/-- Cells of a frame of n octets (R232, R241). -/
def cellsOf (n : Nat) : Nat := (n + 255) / 256

/-! Ingress. -/

/-- A received and accepted frame is counted (R397). -/
def Dev.countRx (d : Dev) (p n : Nat) : Dev := (d.count (portCtr p 0)).count (portCtr p 1) n

/-! Buffer space (R232–R236). -/

/-- Reservation of (p, c). -/
def Dev.rsv (d : Dev) (p c : Nat) : Nat := d.fld (R.SW_TC_CFG p c) F.SW_TC_CFG_rsv
/-- Headroom of port p: of Ethernet ports only (R239, R253). -/
def Dev.hdrm (d : Dev) (p : Nat) : Nat := if d.ethernet p then d.fld (R.SW_PORT_HDRM p) F.SW_PORT_HDRM_cells else 0
/-- Cells reserved in all: reservations, headroom and the recirculation reserve (R234). -/
def Dev.reservedSum (d : Dev) : Nat :=
  ((List.range 67).foldl (fun a p => a + d.hdrm p + (List.range 8).foldl (fun b c => b + d.rsv p c) 0) 0) +
    d.fld R.SW_RECIRC_CFG F.SW_RECIRC_CFG_rsv
/-- Usable cells (R232) (DESIGN CHOICE: log entry 83). -/
def Dev.cellsUsable (d : Dev) : Nat := d.fld R.SW_BUF_STAT F.SW_BUF_STAT_cells_usable

/-- SW_POOL_STAT.shared follows the reservations and the usable cells; a sum above them is reported (R234). -/
def Dev.poolUpdate (d : Dev) : Dev :=
  let d1 := d.setFld R.SW_POOL_STAT F.SW_POOL_STAT_shared (d.cellsUsable - d.reservedSum)
  if d.cellsUsable < d.reservedSum then d1.raise R.SW_ALARM F.SW_ALARM_pool_short else d1

/-- Cells of one kind held by frames that satisfy `q` (R233). -/
def Dev.cellsWhere (d : Dev) (q : Held → Bool) (k : Space → Bool) : Nat :=
  d.sw.store.foldl (fun a h => if q h then a + (h.cells.filter k).length else a) 0

/-- The credit of (p, c). -/
def Dev.credit (d : Dev) (p c : Nat) : Credit := sGet Credit.zero d.sw.credit (pcKey p c)
/-- The credit of (p, c) replaced. -/
def Dev.setCredit (d : Dev) (p c : Nat) (x : Credit) : Dev :=
  { d with sw := { d.sw with credit := sPut Credit.zero d.sw.credit (pcKey p c) x } }

/-- Cells used by (p, c): those of its frames and those set aside (R233, R239). -/
def Dev.used (d : Dev) (p c : Nat) : Nat :=
  d.cellsWhere (fun h => h.port == p && h.cls == c) (fun _ => true) + (d.credit p c).aside
/-- Cells set aside for credit, and those of them that come from the shared pool (R239). -/
def Dev.asideAll (d : Dev) : Nat := d.sw.credit.foldl (fun a x => a + x.2.aside) 0
/-- Cells of the shared pool set aside for credit. -/
def Dev.lentAll (d : Dev) : Nat := d.sw.credit.foldl (fun a x => a + x.2.lent) 0
/-- Shared cells of (p, c). -/
def Dev.sharedOf (d : Dev) (p c : Nat) : Nat :=
  d.cellsWhere (fun h => h.port == p && h.cls == c) (fun k => k == .shared) + (d.credit p c).lent
/-- The free shared pool F (R235). -/
def Dev.sharedFree (d : Dev) : Nat :=
  d.fld R.SW_POOL_STAT F.SW_POOL_STAT_shared - (d.cellsWhere (fun _ => true) (fun k => k == .shared) + d.lentAll)
/-- Cells of the buffer that hold no frame and are not set aside. -/
def Dev.cellsFree (d : Dev) : Nat := d.cellsUsable - (d.cellsPlaced + d.asideAll)
/-- Free cells of the headroom of port p. -/
def Dev.hdrmFree (d : Dev) (p : Nat) : Nat := d.hdrm p - d.cellsWhere (fun h => h.port == p) (fun k => k == .hdrm)

/-- The space that the next cell of (p, c) takes under R235, and whether it is borrowed; none with the buffer entirely full. A
class past its reservation, its limit and the headroom borrows while any cell is free, be the shared pool empty or short (R234)
(DESIGN CHOICE: log entry 85). -/
def Dev.space (d : Dev) (p c : Nat) : Option (Space × Bool) :=
  if d.cellsFree = 0 then none
  else if d.used p c < d.rsv p c then some (.rsv, false)
  else if d.sharedOf p c * 16 < 2 ^ d.fld (R.SW_TC_CFG p c) F.SW_TC_CFG_alpha * d.sharedFree then some (.shared, false)
  else if 0 < d.hdrmFree p then some (.hdrm, false)
  else some (.shared, true)

/-- One more cell of a space is charged to a stored frame, in the next bank of the rotation (R232, R233). -/
def Dev.addCell (d : Dev) (id : Nat) (k : Space) : Dev :=
  let b := d.nextPlace
  let add (h : Held) : Held :=
    if h.id == id then { h with cells := h.cells ++ [k], banks := h.banks ++ [d.bankOf b] } else h
  { d with sw := { d.sw with store := d.sw.store.map add, bank := (b + 1) % 48 } }

/-- A frame begins to hold cells: none so far. -/
def Dev.openHeld (d : Dev) (id port cls start : Nat) : Dev :=
  { d with sw := { d.sw with store := d.sw.store ++
      [{ id := id, port := port, cls := cls, start := start, cells := [], banks := [], bad := false }] } }

/-- A cell set aside for class `c` is taken from its credit: one of the reservation first (R239). The answer is its space. -/
def Dev.takeAside (d : Dev) (p c : Nat) : Space × Dev :=
  let x := d.credit p c
  if x.lent < x.aside then (.rsv, d.setCredit p c { x with aside := x.aside - 1 })
  else (.shared, d.setCredit p c { x with aside := x.aside - 1, lent := x.lent - 1 })

/-! Arrival (R52, R228). -/

/-- A frame waits for the spreader (R228). -/
def Dev.awaitPipe (d : Dev) (f : Frame) : Dev :=
  { d with sw := { d.sw with nextId := d.sw.nextId + 1, arrive := d.sw.arrive ++ [{ f with id := d.sw.nextId }] } }

/-- A frame received on port p during a loss of ROOT lock goes into the headroom of an Ethernet port or the cells set aside for
its class on an Isazu port, and waits for recovery (R52, R239). One for which they do not suffice finds no cell and is discarded as
R235 discards (DEDUCED: log entry 79). -/
def Dev.arriveFault (d : Dev) (f : Frame) : Dev :=
  let p := f.port
  let c := f.cls.getD 0
  let n := cellsOf f.octets.length
  if (if d.ethernet p then d.hdrmFree p else (d.credit p c).aside) < n then
    ((d.addSat (R.SW_HDRM_BORROW p) F.SW_HDRM_BORROW_count 1).raise R.SW_ALARM F.SW_ALARM_flow_violation).count (portCtr p 18)
  else
    let id := d.sw.nextId
    (List.range n).foldl (fun d _ =>
      if d.ethernet p then d.addCell id .hdrm
      else
        let (k, d1) := d.takeAside p c
        d1.addCell id k) ((d.awaitPipe f).openHeld id p c c)

/-- A frame, FCS included, arrives at its ingress port (R52, R228). -/
def Dev.arrive (d : Dev) (f : Frame) : Dev := if d.inFault && decide (f.port < 64) then d.arriveFault f else d.awaitPipe f

/-- A frame without error arrives and is counted. -/
def Dev.inject (d : Dev) (f : Frame) : Dev := (d.countRx f.port f.octets.length).arrive f

/-- A first-pass frame of an internal port, stamped now. -/
def Dev.ownFrame (d : Dev) (port : Nat) (cls : Option Nat) (octets : List Byte) : Frame :=
  { id := 0, port := port, octets := octets ++ fcs octets, cls := cls, stamp := d.now, te := d.te,
    invalid := !d.timeValid, second := none, direct := none, tx := none, err := false }

/-- A frame that the device builds itself, given without its FCS, enters an internal port in a class. -/
def Dev.injectOwn (d : Dev) (port cls : Nat) (octets : List Byte) : Dev :=
  d.inject (d.ownFrame port (some cls) octets)

/-! Back-pressure (R236, R237). -/

/-- Hidden state of port p. -/
def Dev.port (d : Dev) (p : Nat) : Port := sGet Port.reset d.ports p
/-- Hidden state of port p replaced. -/
def Dev.setPort (d : Dev) (p : Nat) (x : Port) : Dev := { d with ports := sPut Port.reset d.ports p x }

/-- Back-pressure is asserted on ingress port p in a class (R236), or on every class from FAULT until the port's link is
active again (R51, R56). -/
def Dev.backPressured (d : Dev) (p cls : Nat) : Bool := d.sw.bp.contains (p, cls) || (d.port p).held

/-- Classes held off on port p, as a mask. -/
def Dev.xoff (d : Dev) (p : Nat) : Nat :=
  (List.range 8).foldl (fun m c => if d.backPressured p c then m + 2 ^ c else m) 0

/-- The transmission in progress on port p. -/
def Dev.txRun (d : Dev) (p : Nat) : Option TxRun := sGet none d.sw.tx p

/-- The flow-control frame of port p: 0xFFFF quanta for the classes held off, 0 for the others of the mask `off`; a PAUSE frame
speaks for the whole port (R109, R237). -/
def Dev.pfcEmit (d : Dev) (p off : Nat) : Dev :=
  let x := d.xoff p
  let d1 := d.count (portCtr p 19)
  if d.fld (R.LK_ETH_CFG p) F.LK_ETH_CFG_fc = 1 then d1.emit (.pause p ((d.port p).mac) (if x = 0 then 0 else 0xFFFF))
  else d1.emit (.pfc p ((d.port p).mac) (off ||| x) ((List.range 8).map fun c => if bit x c then 0xFFFF else 0))

/-- Port p has a flow-control frame to send, with the classes of `off` released: it leaves at once, or after the frame in
transmission (R237). -/
def Dev.pfcSend (d : Dev) (p : Nat) (off : List Nat) : Dev :=
  if !d.ethernet p || !d.carrying p || d.txIdle p then d
  else
    let m := off.foldl (fun m c => m ||| 2 ^ c) ((sGet none d.sw.fcDue p).getD 0)
    if (d.txRun p).isSome then { d with sw := { d.sw with fcDue := sPut none d.sw.fcDue p (some m) } }
    else d.pfcEmit p m

/-- The frame in transmission on port p has ended: the flow-control frame that waited for it leaves (R237). -/
def Dev.pfcFlush (d : Dev) (p : Nat) : Dev :=
  match sGet none d.sw.fcDue p with
  | none => d
  | some m => ({ d with sw := { d.sw with fcDue := sPut none d.sw.fcDue p none } } : Dev).pfcEmit p m

/-- Back-pressure of (p, c) is asserted (R236, R237). -/
def Dev.assertBp (d : Dev) (p c : Nat) : Dev :=
  if d.sw.bp.contains (p, c) then d
  else ({ d with sw := { d.sw with bp := d.sw.bp ++ [(p, c)] } } : Dev).pfcSend p []

/-- The frames held in the resequencer for ingress port p (R231). -/
def Dev.orderCount (d : Dev) (p : Nat) : Nat := (d.sw.order.filter fun f => f.frame.port == p).length

/-- The shared cells of (p, c) are below α × F − xon_gap, and the resequencer can hold its frames (R231, R236). -/
def Dev.mayRelease (d : Dev) (p c : Nat) : Bool :=
  decide (d.sharedOf p c * 16 + 16 * d.fld R.SW_POOL_CFG F.SW_POOL_CFG_xon_gap <
      2 ^ d.fld (R.SW_TC_CFG p c) F.SW_TC_CFG_alpha * d.sharedFree) &&
    decide (d.orderCount p < 256)

/-! Credit (R239–R242). -/

/-- credit_init of port p: the least reservation of its classes (R240) (DESIGN CHOICE: log entry 81). -/
def Dev.creditInit (d : Dev) (p : Nat) : Nat :=
  min 65535 ((List.range 8).foldl (fun m c => min m (d.rsv p c)) 65535)

/-- At link_up every class's count, consumption and set-aside cells restart (R240, R242)
(DESIGN CHOICE: log entry 81). -/
def Dev.creditStart (d : Dev) (p partner : Nat) : Dev :=
  let n := d.creditInit p
  (List.range 8).foldl (fun d c => d.setCredit p c
    { aside := n, lent := 0, granted := n, received := 0, partner := partner, consumed := 0 }) d

/-- The link of port p is lost: the cells set aside for its partner are free, until its counts restart (R242)
(DESIGN CHOICE: log entry 81). -/
def Dev.creditEnd (d : Dev) (p : Nat) : Dev :=
  (List.range 8).foldl (fun d c => d.setCredit p c { d.credit p c with aside := 0, lent := 0 }) d

/-- Cells that the class can set aside now: the rest of its reservation, then cells of the shared pool up to the limit of R235, as
many as are free and at most 65,535 in all (R239, R240) (DESIGN CHOICE: log entry 81). -/
def Dev.creditRoom (d : Dev) (p c : Nat) : Nat × Nat :=
  let x := d.credit p c
  let a := 2 ^ d.fld (R.SW_TC_CFG p c) F.SW_TC_CFG_alpha
  let top := min (65535 - x.aside) d.cellsFree
  let r := min top (d.rsv p c - d.used p c)
  let k := if d.used p c + r < d.rsv p c then 0 else (a * d.sharedFree - 16 * d.sharedOf p c + 15 + a) / (16 + a)
  (r, min (top - r) k)

/-- The class's count is raised for cells that it sets aside (R239, R242); not while the class is held off
(R236), and during a credit resynchronisation no count changes (R412). -/
def Dev.creditRaise (d : Dev) (p c : Nat) : Dev :=
  let x := d.credit p c
  let (r, k) := d.creditRoom p c
  if d.isazu p && d.linkUp p && !d.ps.resync && !d.backPressured p c && decide (0 < r + k) then
    d.setCredit p c { x with aside := x.aside + r + k, lent := x.lent + k, granted := (x.granted + r + k) % 65536 }
  else d

/-- The cells of a frame received on an Isazu link are counted (R410, R412) (DEDUCED: log entry 82). -/
def Dev.creditCount (d : Dev) (p c n : Nat) : Dev :=
  if d.isazu p then d.setCredit p c { d.credit p c with received := ((d.credit p c).received + n) % 65536 } else d

/-- A frame received on an Isazu port is not kept: its cells leave those set aside and are free at once (R239, R242)
(DEDUCED: log entry 82). -/
def Dev.creditReturn (d : Dev) (p c n : Nat) : Dev :=
  let x := d.credit p c
  if d.isazu p then (d.setCredit p c { x with aside := x.aside - n, lent := x.lent - n }).creditRaise p c else d

/-- Credit available to send (R241) (DEDUCED: log entry 84). -/
def Credit.avail (x : Credit) : Nat := (x.partner + 65536 - x.consumed) % 65536

/-- Back-pressure is released wherever R236 allows, and the partners are told (R237, R239). -/
def Dev.releaseBp (d : Dev) : Dev :=
  let go := d.sw.bp.filter fun x => d.mayRelease x.1 x.2
  let d1 : Dev := { d with sw := { d.sw with bp := d.sw.bp.filter fun x => !go.contains x } }
  let d2 := (go.map (·.1)).eraseDups.foldl (fun d p => d.pfcSend p ((go.filter fun x => x.1 == p).map (·.2))) d1
  go.foldl (fun d x => d.creditRaise x.1 x.2) d2

/-! The end of a frame's stay. -/

/-- The cells of frame `id` are freed: credit is raised and back-pressure released (R233, R236, R242). -/
def Dev.freeFrame (d : Dev) (id : Nat) : Dev :=
  match d.sw.store.find? (fun h => h.id == id) with
  | none => d
  | some h =>
    ((({ d with sw := { d.sw with store := d.sw.store.filter fun h => h.id != id
                                  targets := sPut 0 d.sw.targets id 0 } } : Dev).creditRaise h.port h.start)).releaseBp

/-- The cells of frame `id` are charged to the class that its present pass resolved (R233, R273). -/
def Dev.recharge (d : Dev) (id cls : Nat) : Dev :=
  if d.sw.store.any fun h => h.id == id && h.cls != cls then
    ({ d with sw := { d.sw with
        store := d.sw.store.map fun h => if h.id == id then { h with cls := cls } else h } } : Dev).releaseBp
  else d

/-- One target of frame `id` is done; the last frees its cells (R246). -/
def Dev.targetDone (d : Dev) (id : Nat) : Dev :=
  let n := sGet 0 d.sw.targets id
  if n ≤ 1 then d.freeFrame id else { d with sw := { d.sw with targets := sPut 0 d.sw.targets id (n - 1) } }

/-! Egress queues. -/

/-- The queue of port p in class c. -/
def Dev.queue (d : Dev) (p c : Nat) : List QEntry := sGet [] d.sw.queues (pcKey p c)
/-- The queue of port p in class c replaced. -/
def Dev.setQueue (d : Dev) (p c : Nat) (q : List QEntry) : Dev :=
  { d with sw := { d.sw with queues := sPut [] d.sw.queues (pcKey p c) q } }
/-- The transmission of port p replaced. -/
def Dev.setTx (d : Dev) (p : Nat) (x : Option TxRun) : Dev := { d with sw := { d.sw with tx := sPut none d.sw.tx p x } }

/-- Port p discards the frames switched to it: its link is lost and the grace over, or port 64 is in decision mode
(R249, R321). -/
def Dev.downed (d : Dev) (p : Nat) : Bool :=
  d.sw.downed.contains p || (p == 64 && d.flag R.PL_CFG F.PL_CFG_po_mode)

/-- A frame for a lost link is discarded, or the port removed as its target (R249, R321). -/
def Dev.downDiscard (d : Dev) (p : Nat) (e : QEntry) : Dev :=
  (if e.multi then
    ((d.addSat (R.SW_MC_REMOVED p) F.SW_MC_REMOVED_count 1).count (portCtr p 14)).raise R.SW_ALARM F.SW_ALARM_mc_removed
  else
    ((d.addSat (R.SW_DOWN_DISCARD p) F.SW_DOWN_DISCARD_count 1).count (portCtr p 16)).raise R.SW_ALARM
      F.SW_ALARM_down_discard).targetDone e.id

/-- A descriptor joins the queue of port p in its class (R243, R249); no frame is forwarded to the pair port (R406)
(DEDUCED: log entry 87). -/
def Dev.enqueue (d : Dev) (p : Nat) (e : QEntry) : Dev :=
  if d.isPairPort p then d.targetDone e.id
  else if d.downed p then d.downDiscard p e else d.setQueue p e.cls (d.queue p e.cls ++ [e])

/-- What is queued to port p is discarded (R249, R321). -/
def Dev.dropQueued (d : Dev) (p : Nat) : Dev :=
  let es := (List.range 8).flatMap fun c => d.queue p c
  es.foldl (fun d e => d.downDiscard p e) ((List.range 8).foldl (fun d c => d.setQueue p c []) d)

/-- The grace of port p is over: what is queued to it is discarded, and what comes is too (R249). -/
def Dev.dropPort (d : Dev) (p : Nat) : Dev :=
  ({ d with sw := { d.sw with lost := d.sw.lost.filter (· != p), downed := p :: d.sw.downed.filter (· != p) } } :
    Dev).dropQueued p

/-- Every frame in the device is discarded; the links and their credit counts go on, raised for the cells that are free again
(R347, R412). -/
def Dev.switchClear (d : Dev) : Dev :=
  d.sw.credit.foldl (fun d x => d.creditRaise (x.1 / 8) (x.1 % 8))
    { d with sw := { Sw.reset with nextId := d.sw.nextId, groups := d.sw.groups, seqNo := d.sw.seqNo
                                   rotate := d.sw.rotate, bank := d.sw.bank, paused := d.sw.paused, lost := d.sw.lost
                                   downed := d.sw.downed, credit := d.sw.credit } }

/-- Frames that the device holds (R412) (DEDUCED: log entry 151). -/
def Dev.framesHeld (d : Dev) : Nat :=
  ((d.sw.store.map (·.id)) ++ (d.sw.arrive.map (·.id)) ++ (d.sw.fly.map (·.frame.id)) ++
    (d.sw.order.map (·.frame.id))).eraseDups.length

end Sys2Proof.Machine
end

