-- ==== Sys2Proof/Machine/EdgeOps.lean ====
section
/-! DEFINITION. Edge channels: records and queues, windows, scale, live time, schedules, and how a channel leaves and
enters OFF (R165–R187). -/

namespace Sys2Proof.Machine

/-- Hidden state of channel c. -/
def Dev.chan (d : Dev) (c : Nat) : Chan := sGet Chan.reset d.chans c
/-- Hidden state of channel c replaced. -/
def Dev.setChan (d : Dev) (c : Nat) (x : Chan) : Dev := { d with chans := sPut Chan.reset d.chans c x }
/-- EC_CTRL[c].state. -/
def Dev.chanState (d : Dev) (c : Nat) : Nat := d.fld (R.EC_CTRL c) F.EC_CTRL_state
/-- Channel c is a DTC output. -/
def Dev.isDtc (d : Dev) (c : Nat) : Bool := d.fld (R.EC_PAD c) F.EC_PAD_dir == 1
/-- Channel c is a TDC input in ON. -/
def Dev.tdcOn (d : Dev) (c : Nat) : Bool := d.chanState c == enOn && !d.isDtc c
/-- Channel c is privileged (R174). -/
def Dev.privileged (d : Dev) (c : Nat) : Bool := decide (c < 8) && d.flag (R.EC_CTRL c) F.EC_CTRL_privileged
/-- EC_WIN_CFG[c].mode. -/
def Dev.winMode (d : Dev) (c : Nat) : Nat := d.fld (R.EC_WIN_CFG c) F.EC_WIN_CFG_mode

/-- EC_STATUS[c].live: a TDC channel under R175; a DTC output while executing entries is possible (R191). -/
def Dev.chanLive (d : Dev) (c : Nat) : Bool :=
  d.chanState c == enOn && d.timeValid && (if d.isDtc c then !d.inFault else (d.chan c).dead.isEmpty)

/-- `f` over all channels in ascending order. -/
def Dev.forChans (d : Dev) (f : Dev → Nat → Dev) : Dev := (List.range 128).foldl f d

/-! Records. -/

/-- The 128 bits of an edge record (R176). -/
def EdgeRec.encode (r : EdgeRec) : Nat :=
  let b (x : Bool) : Nat := if x then 1 else 0
  r.kind * 2 ^ 124 + r.aux % 2 ^ 24 * 2 ^ 96 + r.window % 256 * 2 ^ 88 + r.chan % 128 * 2 ^ 80 +
    r.seq % 65536 * 2 ^ 64 + b r.late * 2 ^ 59 + b r.stale * 2 ^ 58 + b r.invalid * 2 ^ 57 + b r.fall * 2 ^ 56 +
    r.te % 256 * 2 ^ 48 + r.t48 % 2 ^ 48

/-- The PAD record that fills a stream frame (R177). -/
def EdgeRec.pad : EdgeRec :=
  { kind := 0, aux := 0, window := 0, chan := 0, seq := 0, late := false, stale := false, invalid := false,
    fall := false, te := 0, t48 := 0, dest := .none, made := 0 }

/-- An opening known for 2^25 ticks, 53.7 ms: its window, at most 16.8 ms after a delay of at most 16.8 ms, has passed. -/
def Dev.passed (d : Dev) (w : Opening) : Bool := decide (w.known + 2 ^ 25 < d.ticks)

/-- An opening lies at or before an instant of epoch te; one that a time step closed lies before every instant of another epoch. -/
def Dev.opened (d : Dev) (te t : Nat) (w : Opening) : Bool :=
  d.passed w || decide (0 ≤ t48Sub t w.at_) ||
    (match w.shut with
     | some s => s.2 != te
     | none => false)

/-- The window count of channel c at an instant (R170, R178); 0 in mode 0. -/
def Dev.windowAt (d : Dev) (c te t : Nat) : Nat :=
  if d.winMode c = 0 then 0
  else
    let x := d.chan c
    match x.wins.find? (d.opened te t) with
    | some w => w.count
    | none =>
      match x.wins.getLast? with
      | some w => (w.count + 255) % 256
      | none => x.winCount

/-- The instant of a record made now: the counter, or the instant of the channel's last record of this epoch where that is later,
so that instants never decrease (R178) (DEDUCED: log entry 61). -/
def Dev.recAt (d : Dev) (c : Nat) : Nat :=
  match (d.chan c).latest with
  | some l => if l.te = d.te ∧ d.ticks < l.tick + 2 ^ 20 ∧ 0 < t48Sub l.t48 d.now then l.t48 else d.now
  | none => d.now

/-- A record of channel c for an instant of the present epoch, flags as of now (DEDUCED: log entry 61). -/
def Dev.mkRec (d : Dev) (c kind aux t : Nat) : EdgeRec :=
  { kind := kind, aux := aux, window := d.windowAt c d.te t, chan := c, seq := 0, late := false,
    stale := d.flag (R.EC_STATUS c) F.EC_STATUS_stale, invalid := !d.timeValid, fall := false, te := d.te, t48 := t
    dest := .none, made := d.ticks }

/-- The destinations that EC_OUT_CFG[c] selects now (R189). -/
def Dev.destOf (d : Dev) (c : Nat) : EdgeDest :=
  { hist := d.flag (R.EC_OUT_CFG c) F.EC_OUT_CFG_hist, stream := d.fld (R.EC_OUT_CFG c) F.EC_OUT_CFG_stream
    target := d.fld (R.EC_OUT_CFG c) F.EC_OUT_CFG_target }

/-- A record takes the next position and sequence number of the stream queue, with its destinations (R178, R189). -/
def Chan.enter (x : Chan) (o : EdgeDest) (r : EdgeRec) : Chan :=
  { x with queue := x.queue ++ [{ r with seq := x.seq, dest := o }], seq := (x.seq + 1) % 65536 }

/-- The stream queue takes no record now. -/
def Chan.queueFull (x : Chan) : Bool := decide (512 ≤ x.queue.length)

/-- A marker or PULSE record enters the queue, or is held for the first free position (R180). -/
def Dev.enterMark (d : Dev) (c : Nat) (r : EdgeRec) : Dev :=
  let x := d.chan c
  d.setChan c (if x.queueFull then { x with held := x.held ++ [r] } else x.enter (d.destOf c) r)

/-- Channel c has records that wait for a window decision. -/
def Dev.hasWaits (d : Dev) (c : Nat) : Bool := d.ec.waits.any fun w => w.chan == c

/-- A record of channel c waits until 16 TIME ticks, 25.6 ns, from now (R169, R170). -/
def Dev.awaitRec (d : Dev) (c : Nat) (r : EdgeRec) : Dev :=
  { d with ec := { d.ec with waits := d.ec.waits ++ [⟨c, d.ticks + 16, r⟩] } }

/-- The last record of channel c is noted (R178). -/
def Dev.noteRec (d : Dev) (c : Nat) (r : EdgeRec) : Dev :=
  d.setChan c { d.chan c with latest := some ⟨r.t48, r.te, d.ticks⟩ }

/-- A marker or PULSE record follows the edges of its channel that wait for their decision (R178–R180). -/
def Dev.pushMark (d : Dev) (c : Nat) (r : EdgeRec) : Dev :=
  let d1 := d.noteRec c r
  if d.hasWaits c then d1.awaitRec c r else d1.enterMark c r

/-- An edge refused at the full queue: counted, and a LOST record with the first refused instant is pending (R180). -/
def Dev.refuseEdge (d : Dev) (c : Nat) (r : EdgeRec) : Dev :=
  let d1 := ((d.addSat (R.EC_OVERFLOW c) F.EC_OVERFLOW_count 1).raise (R.EC_ALARM c) F.EC_ALARM_overflow).count
    (chanCtr c 2)
  let x := d1.chan c
  let more (h : EdgeRec) : EdgeRec := if h.kind = 4 then { h with aux := min (h.aux + 1) 0xFFFFFF } else h
  d1.setChan c
    { x with held := if x.held.any (fun h => h.kind == 4) then x.held.map more
                     else x.held ++ [{ r with kind := 4, aux := 1, fall := false }] }

/-- The head record leaves the queue, and the first held record takes the free position (R179). -/
def Chan.pop (x : Chan) (o : EdgeDest) : Chan :=
  let y := { x with queue := x.queue.drop 1 }
  match y.held with
  | [] => y
  | h :: hs => ({ y with held := hs }).enter o h

/-! Live time (R175). -/

/-- Channel c makes records: it has left OFF and STARTING. -/
def Dev.recording (d : Dev) (c : Nat) : Bool := d.chanState c == enOn || d.chanState c == enStopping

/-- A not-live interval with a reason begins: a DEAD_START record. -/
def Dev.deadOpen (d : Dev) (c reason : Nat) : Dev :=
  let x := d.chan c
  if x.dead.contains reason || !d.recording c then d
  else (d.setChan c { x with dead := reason :: x.dead }).pushMark c (d.mkRec c 2 reason (d.recAt c))

/-- A not-live interval with a reason ends: a DEAD_END record. One that ends while the channel is OFF or STARTING stays open until
the channel is ON again (DEDUCED: log entry 61). -/
def Dev.deadClose (d : Dev) (c reason : Nat) : Dev :=
  let x := d.chan c
  if x.dead.contains reason && d.recording c then
    (d.setChan c { x with dead := x.dead.erase reason }).pushMark c (d.mkRec c 3 reason (d.recAt c))
  else d

/-! Scale (R172). -/

/-- A tap-scale measurement is applied or discarded. -/
def Dev.applyScale (d : Dev) (c : Nat) (m : ScaleMeas) : Dev :=
  let x := d.chan c
  let s := m.c2 - m.c1
  if m.crossed then d
  else if 256 < (s - x.scd).natAbs then
    (d.raise (R.EC_ALARM c) F.EC_ALARM_scale_reject).count (chanCtr c 10)
  else
    (d.setFld (R.EC_CAL_STAT c) F.EC_CAL_STAT_scale s.toNat).setChan c { x with offset := 2 * m.c1 - m.c2 }

/-- Position of a tap code in the nonlinearity table, 2^-6 tap: uniform taps until a table is built
(DEDUCED: log entry 70). -/
def Chan.tap (x : Chan) (code : Nat) : Int :=
  match x.table[code]? with
  | some w => w.toNat
  | none => 64 * code

/-- The interpolated part f of a stamp, in 2^-16/100 ns: 0 to 320 ps (R168, R172) (DEDUCED: log entry 70). -/
def Dev.interp (d : Dev) (c code : Nat) : Nat :=
  let x := d.chan c
  let s := d.fld (R.EC_CAL_STAT c) F.EC_CAL_STAT_scale
  (clampI 0 2097152 (divNear ((x.tap code - x.offset) * 2097152) s)).toNat

/-- The stamp of R168: counter at the last tick, k TDCREF periods and f later, less the input delay, rounded to 2^-16 ns, with the
TE and the invalid flag of that instant (DEDUCED: log entry 61). -/
def Dev.stampOf (d : Dev) (c k code : Nat) : Stamp :=
  d.stampAt (((2 * (k * 2097152 + d.interp c code) + 100) / 200 : Nat) - ((d.reg (R.EC_IN_DELAY c)).toNat : Int))

/-- A stamp that lies before the last record of its channel and epoch, which was a marker: the channel was not live then (R175,
R178) (DEDUCED: log entry 61). -/
def Dev.beforeLive (d : Dev) (c : Nat) (t : Stamp) : Bool :=
  match (d.chan c).latest with
  | some l => decide (l.te = t.te) && decide (d.ticks < l.tick + 2 ^ 20) && decide (t48Sub t.t48 l.t48 < 0)
  | none => false

/-! Windows (R170). -/

/-- Openings without those that no undecided instant can fall under: all older than the newest one not after t, but for one. -/
def pruneWins (t : Nat) : List Opening → List Opening
  | [] => []
  | w :: ws => if 0 ≤ t48Sub t w.at_ ∧ w.shut = none then w :: ws.take 1 else w :: pruneWins t ws

/-- A window of channel c opens at an instant; its count is the next one, modulo 256. Instants up to the input delay and 64 ns
before the counter are still to be decided (DEDUCED: log entry 62). -/
def Dev.openWin (d : Dev) (c t : Nat) : Dev :=
  let x := d.chan c
  let n := (x.winCount + 1) % 256
  let old := t48Add d.now (-(((d.reg (R.EC_IN_DELAY c)).toNat + ns 64 : Nat) : Int))
  let kept := x.wins.filter fun w => !d.passed w
  d.setChan c { x with wins := pruneWins old (⟨t, n, d.ticks, none⟩ :: kept), winCount := n }

/-- Does channel c accept an edge with this stamp? -/
def Dev.inWindow (d : Dev) (c te t : Nat) : Bool :=
  let mode := d.winMode c
  let ref := d.fld (R.EC_WIN_CFG c) F.EC_WIN_CFG_ref
  if mode = 0 then true
  else if mode = 1 && !d.tdcOn ref then false
  else
    match (d.chan c).wins.find? (d.opened te t) with
    | some w =>
      !d.passed w && decide (0 ≤ t48Sub t w.at_) &&
        decide (t48Sub t w.at_ < ((d.reg (R.EC_WIN_LEN c)).toNat * 256 : Nat)) &&
        (match w.shut with
         | some s => s.2 == te && decide (t48Sub t s.1 < 0)
         | none => true)
    | none => false

/-- First instant of a series of a period that lies after `now` (R61, R171); the value as it stands when the period
is 0 (DEDUCED: log entry 69). -/
def seriesAfter (next period now : Nat) : Nat :=
  if period = 0 then next
  else
    let d := t48Sub next now
    if 0 < d then t48Add next (-(((d - 1) / (period : Int)) * period))
    else t48Add next ((((-d) / (period : Int)) + 1) * period)

/-! Schedules (R184–R186). -/

/-- An entry of 16 little-endian octets (R184). -/
def dtcEntryOf (bs : List Byte) : DtcEntry :=
  let v := leNat (bs.take 16)
  { tag := bits v 127 120, period := bits v 119 88, width := bits v 87 64, count := bits v 63 48,
    t48 := bits v 47 0, due := none }

/-- A late entry is counted (R185). -/
def Dev.countLate (d : Dev) (c : Nat) : Dev :=
  ((d.addSat (R.EC_DTC_LATE c) F.EC_DTC_LATE_count 1).raise (R.EC_ALARM c) F.EC_ALARM_dtc_late).count (chanCtr c 4)

/-- Does `a` run before `b`, both read as the instants nearest the counter? Equal instants keep their order. -/
def DtcEntry.before (now : Nat) (a b : DtcEntry) : Bool := decide (t48Sub a.t48 now < t48Sub b.t48 now)

/-- An entry reaches channel c: refused under R184, or queued in order of instant, shifted when it comes less than
51.2 ns before its first edge (R185). The answer says whether it was accepted. -/
def Dev.dtcSubmit (d : Dev) (c : Nat) (e : DtcEntry) : Dev × Bool :=
  let x := d.chan c
  if d.chanState c != enOn || !d.isDtc c || decide (64 ≤ x.sched.length) || decide (e.width < 960) ||
      (e.count != 1 && decide (e.period < e.width + 960)) then
    (((d.addSat (R.EC_DTC_REFUSED c) F.EC_DTC_REFUSED_count 1).raise (R.EC_ALARM c) F.EC_ALARM_dtc_refused).count
      (chanCtr c 5), false)
  else
    let late := decide (gridSub (toGrid e.t48) (toGrid d.now) < 40960)
    let e1 := if late then { e with due := some (gridAdd (toGrid d.now) 40960) } else e
    let d1 := d.setChan c { x with sched := insertBy (DtcEntry.before d.now) e1 x.sched }
    (if late then d1.countLate c else d1, true)

/-- The start of a running entry on the counter's present scale: a train keeps its period through any step (R186). -/
def DtcRun.origin (r : DtcRun) : Nat := gridAdd r.start r.moved

/-- The running entry of channel c ends with the pulses it has placed; a PULSE record when report is set (R184). -/
def Dev.endRun (d : Dev) (c placed : Nat) : Dev :=
  let x := d.chan c
  match x.running with
  | none => d
  | some r =>
    let fall := gridAdd r.origin ((placed - 1) * r.entry.period + r.entry.width)
    let d1 := (d.setChan c { x with running := none, lastFall := some (fall, d.ticks) }).count (chanCtr c 7) placed
    if d.flag (R.EC_OUT_CFG c) F.EC_OUT_CFG_report then
      d1.pushMark c { d.mkRec c 5 (min placed 0xFFFF * 256 + r.entry.tag) (ofGrid r.start) with
                      late := r.late, te := r.te, invalid := r.invalid, stale := r.stale }
    else d1

/-- Pulses whose rising edges a running entry has placed by a grid instant, which it counts. -/
def DtcRun.placedBy (r : DtcRun) (g : Nat) : Nat :=
  let t := gridSub g r.origin
  if t < 0 then 0
  else
    let n := if r.entry.count = 1 ∨ r.entry.period = 0 then 1 else t.toNat / r.entry.period + 1
    let m := if r.entry.count = 0 then n else min n r.entry.count
    min m (r.limit.getD m)

/-- The last grid instant of the present TIME tick, 1.6 ns long. -/
def Dev.tickEnd (d : Dev) : Nat := gridAdd (toGrid d.now) 1279

/-- The running entry of channel c goes no further than the pulse in progress; an entry whose first edge is still to come waits in
the schedule again (R167, R186) (DEDUCED: log entry 68). -/
def Dev.cutRun (d : Dev) (c : Nat) : Dev :=
  let x := d.chan c
  match x.running with
  | none => d
  | some r =>
    let n := r.placedBy d.tickEnd
    if n = 0 then
      d.setChan c { x with running := none, sched := { r.entry with due := some r.origin } :: x.sched }
    else d.setChan c { x with running := some { r with limit := some n } }

/-- Has a running entry a pulse edge between two grid instants? -/
def DtcRun.edgeIn (r : DtcRun) (lo hi : Nat) : Bool :=
  let has (off : Nat) : Bool :=
    let l := gridSub lo r.origin - off
    let h := gridSub hi r.origin - off
    let p : Int := r.entry.period
    if r.entry.count = 1 ∨ r.entry.period = 0 then decide (l ≤ 0) && decide (0 ≤ h)
    else
      let k := if l ≤ 0 then 0 else (l + p - 1) / p
      (r.entry.count == 0 || decide (k < (r.entry.count : Int))) && decide (k * p ≤ h)
  has 0 || has r.entry.width

/-! Time validity and steps. -/

/-- TIME_VALID has fallen: TDC channels stop stamping (R175), and running entries end after their pulse in progress (R186). -/
def Dev.edgeTimeFall (d : Dev) : Dev :=
  d.forChans fun d c => if d.isDtc c then d.cutRun c else d.deadOpen c 2

/-- Entry to FAULT: running entries end at once, whatever TIME_VALID and the channel's state (R51, R186). -/
def Dev.edgeFault (d : Dev) : Dev :=
  d.forChans fun d c =>
    let d1 := d.cutRun c
    match (d1.chan c).running with
    | some r => d1.endRun c (r.placedBy d1.tickEnd)
    | none => d1

/-- Entries whose instants satisfy `p` are due `lead` grid steps from this instant, and late (DEDUCED: log entry 68). -/
def Dev.makeDue (d : Dev) (c lead : Nat) (p : DtcEntry → Bool) : Dev :=
  let x := d.chan c
  let hit (e : DtcEntry) : Bool := e.due.isNone && p e
  let d1 := d.setChan c
    { x with sched := x.sched.map fun e => if hit e then { e with due := some (gridAdd (toGrid d.now) lead) } else e }
  (x.sched.filter hit).foldl (fun d _ => d.countLate c) d1

/-- Entries late before TIME_VALID rose, whose time has passed, are due `lead` grid steps from this instant
(DEDUCED: log entry 68). -/
def Dev.dueAgain (d : Dev) (c lead : Nat) : Dev :=
  let x := d.chan c
  let again (g : Nat) : Nat := if gridSub g (toGrid d.now) < 0 then gridAdd (toGrid d.now) lead else g
  d.setChan c { x with sched := x.sched.map fun e => { e with due := e.due.map again } }

/-- A step of the counter moves by `by_` grid steps what a channel holds in elapsed time: entries already late, the running
train, and the last falling edge (R186) (DEDUCED: log entry 68). -/
def Chan.moveGrid (x : Chan) (by_ : Int) : Chan :=
  { x with sched := x.sched.map fun e => { e with due := e.due.map fun g => gridAdd g by_ }
           running := x.running.map fun r => { r with moved := r.moved + by_ }
           lastFall := x.lastFall.map fun g => (gridAdd g.1 by_, g.2) }

/-- TIME_VALID has risen: stamping resumes, and entries whose instants have passed are placed late (R186)
(DEDUCED: log entry 68). -/
def Dev.edgeTimeRise (d : Dev) : Dev :=
  d.forChans fun d c =>
    if !d.isDtc c then d.deadClose c 2
    else if d.chanState c != enOn then d
    else (d.dueAgain c 40960).makeDue c 40960 (fun e => decide (t48Sub e.t48 d.now < 0))

/-- An accepted step from `old` to the present counter: open windows close, series shift, skipped entries are due
(R171, R186). -/
def Dev.edgeStep (d : Dev) (old : Nat) : Dev :=
  d.forChans fun d c =>
    if d.chanState c == enOff then d
    else if d.isDtc c then
      (d.setChan c ((d.chan c).moveGrid (gridSub (toGrid d.now) (toGrid old)))).makeDue c 0
        (fun e => decide (0 ≤ t48Sub e.t48 old) && decide (t48Sub e.t48 d.now < 0))
    else
      let x := d.chan c
      let shut (w : Opening) : Opening :=
        if w.shut.isSome || (decide (0 < t48Sub w.at_ old) && decide (0 < t48Sub w.at_ d.now)) then w
        else { w with shut := some (old, (d.te + 255) % 256) }
      d.setChan c
        { x with
          wins := x.wins.map shut
          nextOpen := if d.winMode c = 2 then
              seriesAfter x.nextOpen ((d.reg (R.EC_WIN_PERIOD c)).toNat * 256) d.now else x.nextOpen }

/-! Enable (R167). -/

/-- EC_CTRL[c].state set. -/
def Dev.setChanState (d : Dev) (c st : Nat) : Dev := d.setFld (R.EC_CTRL c) F.EC_CTRL_state st

/-- Channel c enters STARTING. A TDC input is not live for reason 3; a reason left open when the channel stopped is open still,
and records of a DTC output that have not drained stay in the queue (R167, R175, R184). -/
def Dev.chanStart (d : Dev) (c : Nat) : Dev :=
  let x := d.chan c
  (d.setChanState c enStarting).setChan c
    { x with lastEdge := none, latest := none, wins := [], winCount := 0, postponed := 0
             dead := if d.isDtc c then [] else if x.dead.contains 3 then x.dead else 3 :: x.dead
             seq := 0, sched := [], running := none, lastFall := none }

/-- Channel c enters STOPPING: stamping ends with a DEAD_START of reason 3; a DTC output takes no new entry, and its running entry
ends with the pulse in progress. -/
def Dev.chanStop (d : Dev) (c : Nat) : Dev :=
  (if d.isDtc c then d.cutRun c else d.deadOpen c 3).setChanState c enStopping

/-- Channel c is OFF with an empty schedule; what its queue still holds drains (R167, R184) (DEDUCED: log entry 68). -/
def Dev.chanOff (d : Dev) (c : Nat) : Dev :=
  let x := d.chan c
  (((d.setChanState c enOff).setFlag (R.EC_STATUS c) F.EC_STATUS_stale false).setFlag (R.EC_STATUS c)
    F.EC_STATUS_cal false).setChan c
    { x with lastEdge := none, latest := none, wins := [], winCount := 0, postponed := 0
             sched := [], running := none, lastFall := none }

/-- Channel c is OFF at once, and its records are gone (R339). -/
def Dev.chanCut (d : Dev) (c : Nat) : Dev :=
  let d1 : Dev := { d with ec := { d.ec with waits := d.ec.waits.filter fun w => w.chan != c } }
  (d1.chanOff c).setChan c { (d1.chanOff c).chan c with queue := [], held := [] }

/-- Entries discarded as a DTC output stops (R167). -/
def Dev.dtcFlush (d : Dev) (c : Nat) : Dev :=
  let n := (d.chan c).sched.length
  if n = 0 then d
  else ((d.addSat (R.EC_DTC_FLUSHED c) F.EC_DTC_FLUSHED_count n).count (chanCtr c 6) n).setChan c
    { d.chan c with sched := [] }

/-! Stream templates and the history store (R181, R182). -/

/-- The first `n` octets of stream template t (R182, R192). -/
def Dev.templateBytes (d : Dev) (t n : Nat) : List Byte :=
  ((List.range 16).flatMap fun w => beBytes 4 (d.reg (R.EC_TPL t w)).toNat).take n

/-- Template octets in use. -/
def Dev.tplLen (d : Dev) (t : Nat) : Nat := min 64 (d.fld (R.EC_STREAM_CFG t) F.EC_STREAM_CFG_tpl_len)
/-- Records per frame. -/
def Dev.batch (d : Dev) (t : Nat) : Nat := d.fld (R.EC_STREAM_CFG t) F.EC_STREAM_CFG_batch + 1
/-- Traffic class of the template's frames. -/
def Dev.tplClass (d : Dev) (t : Nat) : Nat := d.fld (R.EC_STREAM_CFG t) F.EC_STREAM_CFG_tc

/-- The line of the history store that holds record position n of channel c: 2 records of 16 bytes a line (R181). -/
def histLine (c n : Nat) : Nat := c * 2048 + n % 4096 / 2

end Sys2Proof.Machine
end

