-- ==== Sys2Proof/Machine/CalOps.lean ====
section
/-! DEFINITION. Calibration items: keys, layers, cone sets and interpolation (R371–R376). -/

namespace Sys2Proof.Machine

/-- Key of an item: kind, index, rate code (R372). -/
def itemKey (kind index rate : Nat) : Nat := kind * 2048 + index * 8 + rate

/-- Key of an item's value for one cone set. -/
def setKey (item set : Nat) : Nat := item * 8 + set

/-- Largest delta of a kind (R372). -/
def deltaLimit (kind : Nat) : Nat :=
  match kind with
  | 2 | 3 | 6 | 9 => 31
  | 7 => 127
  | _ => 32768

/-- Items of a kind: indices and rate codes (R372). -/
def kindCount (kind : Nat) : Nat × Nat :=
  match kind with
  | 0 | 1 | 2 | 3 => (64, 6)
  | 4 | 5 | 6 | 7 => (128, 1)
  | 8 | 9 => (4, 1)
  | 10 => (2, 1)
  | _ => (0, 0)

/-- A kind whose value is a trim code. -/
def isTrim (kind : Nat) : Bool := kind == 2 || kind == 3 || kind == 6 || kind == 7 || kind == 9

/-- The sensor of an item (R373). -/
def sensorOf (kind index : Nat) : Nat :=
  if kind ≤ 3 then index / 8 else if kind ≤ 7 then 8 + index / 32 else 12

/-- Die temperatures of cone sets 0 to 7, in 1/16 °C (R373). -/
def coneTemp : List Int := [-640, -320, 0, 400, 720, 1040, 1360, 1520]

/-- The delta in force of an item and set: pending where one exists, otherwise stored (R372). -/
def Dev.deltaInForce (d : Dev) (item set : Nat) : Int :=
  match d.ca.pending.find? (fun e => e.1 == setKey item set) with
  | some e => e.2
  | none => sGet 0 d.ca.stored (setKey item set)

/-- Every delta in force. -/
def Dev.deltasInForce (d : Dev) : Sparse Int :=
  d.ca.pending.foldl (fun m e => sPut 0 m e.1 e.2) d.ca.stored

/-- An update: from now on the values in effect follow the deltas in force (R375, R386) (DEDUCED: log entry 139). -/
def Dev.takeDeltas (d : Dev) : Dev := { d with ca := { d.ca with live := d.deltasInForce } }

/-- Factory value plus delta of an item and set, as the last update found them (R372, R386) (DEDUCED: log entry 139). -/
def Dev.setValue (d : Dev) (item set : Nat) : Int :=
  sGet 0 d.nv.factory (setKey item set) + sGet 0 d.ca.live (setKey item set)

/-- CA_TEMP[s].temp, in 1/16 °C. -/
def Dev.temp (d : Dev) (s : Nat) : Int := d.sfld (R.CA_TEMP s) F.CA_TEMP_temp

/-- The median of a list of temperatures: the mean of the middle two of an even number, rounded down
(DEDUCED: log entry 140). -/
def median (xs : List Int) : Int :=
  let ys := xs.foldr (fun a ys => ys.takeWhile (fun b => decide (b < a)) ++ a :: ys.dropWhile fun b => decide (b < a)) []
  let n := ys.length
  if n = 0 then 0
  else if n % 2 = 1 then ys.getD (n / 2) 0
  else (ys.getD (n / 2 - 1) 0 + ys.getD (n / 2) 0) / 2

/-- The temperature an item uses: its sensor's, or the median of the sensors that have not failed (R373). -/
def Dev.itemTemp (d : Dev) (kind index : Nat) : Int :=
  let s := sensorOf kind index
  if d.flag (R.CA_TEMP s) F.CA_TEMP_failed then
    median (((List.range 16).filter fun i => !d.flag (R.CA_TEMP i) F.CA_TEMP_failed).map d.temp)
  else d.temp s

/-- An item's value at a temperature: interpolated between cone sets, extrapolated to −55 °C and 110 °C and held beyond,
rounded to the nearest unit or code (R374); a trim code stays in its range (R376). -/
def Dev.itemValue (d : Dev) (kind index rate : Nat) : Int :=
  let t := clampI (-880) 1760 (d.itemTemp kind index)
  let i := if t < -320 then 0 else ((List.range 7).filter fun k => decide (coneTemp.getD k 0 ≤ t)).getLastD 0
  let t0 := coneTemp.getD i 0
  let t1 := coneTemp.getD (i + 1) 0
  let item := itemKey kind index rate
  let v0 := d.setValue item i
  let v1 := d.setValue item (i + 1)
  let v := divNear (v0 * (t1 - t0) + (v1 - v0) * (t - t0)) (t1 - t0).toNat
  if isTrim kind then clampI (-(deltaLimit kind : Int)) (deltaLimit kind) v else v

/-- Does the user calibration in progress name channel c (R380)? -/
def Dev.opNames (d : Dev) (c : Nat) : Bool :=
  match d.ca.op with
  | none => false
  | some o =>
    match o.op with
    | 1 | 2 => o.target == c
    | 3 | 4 => o.target == c || o.ref == c
    | 5 | 6 => o.ref == c
    | _ => false

/-- The user calibration in progress is measuring and names channel c. -/
def Dev.opHolds (d : Dev) (c : Nat) : Bool :=
  d.opNames c && (match d.ca.op with
    | some o => !o.waits
    | none => false)

/-- The repeat-agreement rule for delay constants and trims: within 131 units of 2^-16 ns (R379). -/
def agreeDelay (a b : Int) : Bool := decide ((a - b).natAbs ≤ 131)
/-- The repeat-agreement rule for tap scales: within 25 units of 2^-6 tap (R379). -/
def agreeScale (a b : Int) : Bool := decide ((a - b).natAbs ≤ 25)

/-- An accepted result: the mean of A and B, rounded (R379). -/
def meanOf (a b : Int) : Int := divNear (a + b) 2

/-- A DTC delay-trim error in 2^-16 ns as trim codes of 0.5 ps (R376, R380) (DEDUCED: log entry 142). -/
def trimCodes (e : Int) : Int := divNear (e * 1000) 32768

/-! Recomputation (R374, R375). -/

/-- An item without a register moves with its interpolated value. -/
def Dev.moveItem (d : Dev) (kind index rate : Nat) : Dev :=
  let k := itemKey kind index rate
  let v := d.itemValue kind index rate
  let n := sGet 0 d.ca.inForce k + (v - sGet 0 d.ca.base k)
  let m := if isTrim kind then clampI (-(deltaLimit kind : Int)) (deltaLimit kind) n else n
  { d with ca := { d.ca with inForce := sPut 0 d.ca.inForce k m, base := sPut 0 d.ca.base k v } }

/-- A reported delay constant as a 32-bit word. -/
def delayWord (v : Int) : Word := BitVec.ofNat 32 (unsigned 32 v)

/-- LN_STATUS[n].rate_now. -/
def Dev.rateNow (d : Dev) (n : Nat) : Nat := d.fld (R.LN_STATUS n) F.LN_STATUS_rate_now

/-- The delay constants and trims of lane n at its present rate take effect (R97). -/
def Dev.laneDelays (d : Dev) (n : Nat) : Dev :=
  let r := d.rateNow n
  let d1 := (d.setReg (R.LN_TX_DELAY n) (delayWord (d.itemValue 0 n r))).setReg (R.LN_RX_DELAY n)
    (delayWord (d.itemValue 1 n r))
  { (d1.moveItem 2 n r).moveItem 3 n r with ca := { ((d1.moveItem 2 n r).moveItem 3 n r).ca with
      laneNew := sPut 0 d.ca.laneNew n 0 } }

/-- The trim in effect of a DTC channel moves by an accepted trim error (R173, R376). -/
def Dev.moveTrim (d : Dev) (c : Nat) (e : Int) : Dev :=
  let k := itemKey 7 c 0
  { d with ca := { d.ca with inForce := sPut 0 d.ca.inForce k (clampI (-127) 127 (sGet 0 d.ca.inForce k + trimCodes e)) } }

/-- The items of lane n are recomputed and wait for the next delay-window boundary. -/
def Dev.laneRecompute (d : Dev) (n : Nat) : Dev :=
  { d with ca := { d.ca with laneNew := sPut 0 d.ca.laneNew n 1 } }

/-- The items of channel c are recomputed: they take effect at once while the channel is not in use, and wait for an idle
instant otherwise. -/
def Dev.chanRecompute (d : Dev) (c : Nat) : Dev :=
  let i := d.itemValue 4 c 0
  let o := d.itemValue 5 c 0
  if d.chanState c = enOff then
    (((d.setReg (R.EC_IN_DELAY c) (delayWord i)).setReg (R.EC_OUT_DELAY c) (delayWord o)).moveItem 6 c 0).moveItem 7 c 0
  else
    let x := d.chan c
    let w := match x.waiting with
      | some w => w
      | none => { table := x.table, scale := x.scd, inDelay := 0, outDelay := 0, turn := false, trim := none }
    d.setChan c { x with waiting := some { w with inDelay := (delayWord i).toNat, outDelay := (delayWord o).toNat } }

/-- A user calibration of REFIN k (op 5) or of PPS_OUT m (op 6) is in progress, and its updates wait (R375). -/
def Dev.opOn (d : Dev) (op target : Nat) : Bool :=
  match d.ca.op with
  | some o => o.op == op && o.target == target
  | none => false

/-- Waiting items of REFIN k take effect after an edge it captures. -/
def Dev.refApply (d : Dev) (k : Nat) : Dev :=
  let key := itemKey 8 k 0
  if sGet 0 d.ca.refNew key = 0 ∨ d.opOn 5 k then d
  else
    let d1 := (d.moveItem 8 k 0).moveItem 9 k 0
    { d1 with ca := { d1.ca with refNew := sPut 0 d1.ca.refNew key 0 } }

/-- Waiting values of PPS_OUT m take effect at the end of a pulse. -/
def Dev.ppsApply (d : Dev) (m : Nat) : Dev :=
  let key := itemKey 10 m 0
  if sGet 0 d.ca.refNew key = 0 ∨ d.opOn 6 m then d
  else
    let d1 := d.moveItem 10 m 0
    { d1 with ca := { d1.ca with refNew := sPut 0 d1.ca.refNew key 0 } }

/-- The items of REFIN k are recomputed: they wait for the next edge the input captures, which for an active frequency reference
comes at once (DEDUCED: log entry 139). -/
def Dev.refRecompute (d : Dev) (k : Nat) : Dev :=
  let d1 : Dev := { d with ca := { d.ca with refNew := sPut 0 d.ca.refNew (itemKey 8 k 0) 1 } }
  if d1.flag (R.CK_REF_STATUS k) F.CK_REF_STATUS_active ∧ d1.fld (R.CK_REF_CFG k) F.CK_REF_CFG_freq ≠ 0 then d1.refApply k
  else d1

/-- The item of PPS_OUT m is recomputed: it waits for the end of the next pulse. -/
def Dev.ppsRecompute (d : Dev) (m : Nat) : Dev :=
  { d with ca := { d.ca with refNew := sPut 0 d.ca.refNew (itemKey 10 m 0) 1 } }

/-- Every item whose sensor satisfies `p` is recomputed. -/
def Dev.recompute (d : Dev) (p : Nat → Bool) : Dev :=
  let d1 := (List.range 64).foldl (fun d n => if p (sensorOf 0 n) then d.laneRecompute n else d) d.takeDeltas
  let d2 := (List.range 128).foldl (fun d c => if p (sensorOf 4 c) then d.chanRecompute c else d) d1
  if p 12 then
    (List.range 2).foldl (fun d m => d.ppsRecompute m) ((List.range 4).foldl (fun d k => d.refRecompute k) d2)
  else d2

/-- The items as bisque reads them: every value takes effect (R333). -/
def Dev.calStart (d : Dev) : Dev :=
  let d1 := (List.range 64).foldl (fun d n => d.laneDelays n) d.takeDeltas
  let d2 := (List.range 128).foldl (fun d c => d.chanRecompute c) d1
  let d3 := (List.range 4).foldl (fun d k => (d.moveItem 8 k 0).moveItem 9 k 0) d2
  (List.range 2).foldl (fun d m => d.moveItem 10 m 0) d3

/-! User calibration (R380–R382). -/

/-- The device pulses channel c at 1 MHz for op 4, while the op lasts. R380 gives neither the first instant nor the width: both
are free values (DESIGN CHOICE: log entry 173). -/
def Dev.opPulses (d : Dev) (c : Nat) : Dev :=
  let (at_, d1) := d.freeBytes 6
  let (width, d2) := d1.freeBytes 2
  d2.emit (.pulses c (leNat at_) (leNat width) 800000 0)

/-- What the start of an op does to the channels it names. -/
def Dev.opBegin (d : Dev) (o : CalOp) : Dev :=
  match o.op with
  | 1 =>
    let d1 := d.setFlag (R.EC_STATUS o.target) F.EC_STATUS_cal true
    if d.privileged o.target then d1.setFlag (R.EC_STATUS o.target) F.EC_STATUS_stale true else d1.deadOpen o.target 1
  | 2 => d.setFlag (R.EC_STATUS o.target) F.EC_STATUS_cal true
  | 3 => (d.deadOpen o.target 1).deadOpen o.ref 1
  | 4 => (d.opPulses o.target).deadOpen o.ref 1
  | _ => d.deadOpen o.ref 1

/-- The channels of an op are live again. -/
def Dev.opRelease (d : Dev) (o : CalOp) : Dev :=
  match o.op with
  | 1 =>
    let d1 := d.setFlag (R.EC_STATUS o.target) F.EC_STATUS_cal false
    if !d.privileged o.target then d1.deadClose o.target 1
    else if (d.chan o.target).waiting.any (·.turn) then d1
    else d1.setFlag (R.EC_STATUS o.target) F.EC_STATUS_stale false
  | 2 => d.setFlag (R.EC_STATUS o.target) F.EC_STATUS_cal false
  | 3 => (d.deadClose o.target 1).deadClose o.ref 1
  | _ => d.deadClose o.ref 1

/-- The op in progress ends with a result code. -/
def Dev.opEnd (d : Dev) (result : Nat) : Dev :=
  match d.ca.op with
  | none => d
  | some o =>
    let d1 : Dev := { (if o.waits then d else d.opRelease o) with ca := { d.ca with op := none } }
    (d1.setFld R.CA_STATUS F.CA_STATUS_state 0).setFld R.CA_STATUS F.CA_STATUS_result result

/-- A measurement in progress is cut off: result 4 (R382) (DEDUCED: log entry 144). -/
def Dev.calAbort (d : Dev) : Dev :=
  if d.ca.op.isSome then (d.opEnd 4).raise R.CA_ALARM F.CA_ALARM_timeout else d

end Sys2Proof.Machine
end

