-- ==== Sys2Proof/Machine/PailOps.lean ====
section
/-! DEFINITION. Operations on the pail port's FIFOs (R312, R316, R318, R319). -/

namespace Sys2Proof.Machine

/-- Ones among the low `n` bits. -/
def ones (v : Nat) (n : Nat) : Nat := ((List.range n).filter fun i => v.testBit i).length

/-- Odd parity over data and sideband together (R312). -/
def pailParity (data : Word64) (sb : Byte) : Bool := (ones data.toNat 64 + ones sb.toNat 8) % 2 == 1

/-- Sideband bits above the parity bit: eop, valid octets minus one, err. -/
def pailSb (eop : Bool) (nb : Nat) (err : Bool) : Nat :=
  (if eop then 128 else 0) + nb % 8 * 16 + (if err then 8 else 0)

/-- A word as the device sends it, with its parity bit. -/
def pailWord (data : Word64) (sb : Nat) : PailWord :=
  let par := if (ones data.toNat 64 + ones sb 8) % 2 = 1 then 0 else 1
  { data := data, sb := BitVec.ofNat 8 (sb + par), bad := false }

/-- The word ends a packet or a group. -/
def PailWord.eop (w : PailWord) : Bool := w.sb.toNat.testBit 7

/-- The words of a frame without its FCS; a stomped frame carries err in its last word (R312, R316). -/
def pailWordsFrom (err : Bool) : Nat → List Byte → List PailWord
  | 0, _ => []
  | n + 1, bs =>
    let head := bs.take 8
    let v : Word64 := BitVec.ofNat 64 (beNat (head ++ List.replicate (8 - head.length) 0))
    if bs.length ≤ 8 then [pailWord v (pailSb true (head.length - 1) err)]
    else pailWord v (pailSb false 0 false) :: pailWordsFrom err n (bs.drop 8)

/-- The words of a packet. -/
def pailWords (bs : List Byte) (err : Bool) : List PailWord := pailWordsFrom err (bs.length / 8 + 1) bs

/-- PL_CTRL.state. -/
def Dev.pailState (d : Dev) : Nat := d.fld R.PL_CTRL F.PL_CTRL_state

/-- The watermark states follow the FIFO levels (R319). -/
def Dev.pailLevels (d : Dev) : Dev :=
  let set (d : Dev) (f : Field) (n high low : Nat) : Dev :=
    if high ≤ n then d.setFlag R.PL_STATUS f true else if n ≤ low then d.setFlag R.PL_STATUS f false else d
  let d1 := set d F.PL_STATUS_pi_xoff d.pl.inq.length (d.fld R.PL_PI_WM F.PL_PI_WM_high)
    (d.fld R.PL_PI_WM F.PL_PI_WM_low)
  set d1 F.PL_STATUS_po_xoff d.pl.outq.length (d.fld R.PL_PO_WM F.PL_PO_WM_high) (d.fld R.PL_PO_WM F.PL_PO_WM_low)

/-- Free positions of the outbound FIFO. -/
def Dev.pailFree (d : Dev) : Nat := 16384 - d.pl.outq.length

/-- Words written into the outbound FIFO. -/
def Dev.pailPush (d : Dev) (ws : List PailWord) : Dev :=
  ({ d with pl := { d.pl with outq := d.pl.outq ++ ws } } : Dev).pailLevels

/-- The last word of the outbound FIFO carries err (R250, R312). -/
def Dev.pailMarkErr (d : Dev) : Dev :=
  match d.pl.outq.getLast? with
  | some w =>
    let sb := w.sb.toNat / 16 * 16 + 8
    { d with pl := { d.pl with outq := d.pl.outq.dropLast ++ [pailWord w.data sb] } }
  | none => d

/-- Can egress port 64 hand over a frame of `n` octets without FCS now (R316, R319)? -/
def Dev.pailTakes (d : Dev) (n : Nat) : Bool :=
  d.pailState == enOn && !d.flag R.PL_CFG F.PL_CFG_po_mode && !d.flag R.PL_STATUS F.PL_STATUS_po_xoff &&
    decide ((n + 7) / 8 ≤ d.pailFree)

/-- A decision written to the outbound FIFO at the start of its execution, or lost (R318) (DEDUCED: log entry 114). -/
def Dev.pailDecision (d : Dev) (words : Nat) : Dev :=
  if d.pailState == enOn && d.flag R.PL_CFG F.PL_CFG_po_mode && decide (2 ≤ d.pailFree) then
    d.pailPush [pailWord (BitVec.ofNat 64 (words / 2 ^ 64)) (pailSb false 0 false),
                pailWord (BitVec.ofNat 64 words) (pailSb true 7 false)]
  else
    ((d.addSat R.PL_PO_DEC_LOST F.PL_PO_DEC_LOST_count 1).raise R.PL_ALARM F.PL_ALARM_dec_lost).count (portCtr 64 31)

/-- The pail port enters STARTING: both FIFOs empty, training begins (R320). -/
def Dev.pailStart (d : Dev) : Dev :=
  ({ d with pl := { Pl.reset with training := true } } : Dev).pailLevels.setFld R.PL_CTRL F.PL_CTRL_state enStarting

/-- The partial packet at the inbound tail is discarded and counted (R320, R322, R323) (DEDUCED: log entry 112). -/
def Dev.pailPartial (d : Dev) : Dev :=
  let whole := (d.pl.inq.reverse.dropWhile fun w => !w.eop).reverse
  if whole.length = d.pl.inq.length then { d with pl := { d.pl with skipping := false } }
  else
    ((({ d with pl := { d.pl with inq := whole, skipping := false } } : Dev).addSat R.PL_PI_PARTIAL
      F.PL_PI_PARTIAL_count 1).count (portCtr 64 27)).pailLevels

/-- The pail port enters STOPPING: PI_READY is launched low from now on, and words still transfer at the edges already governed
(R313, R320). -/
def Dev.pailStop (d : Dev) : Dev := d.setFld R.PL_CTRL F.PL_CTRL_state enStopping

/-- The pail port is OFF, what it held discarded. -/
def Dev.pailOff (d : Dev) : Dev :=
  ((({ d with pl := Pl.reset } : Dev).pailLevels).setFlag R.PL_STATUS F.PL_STATUS_pi_aligned false).setFld R.PL_CTRL
    F.PL_CTRL_state enOff

/-- Recovery from FAULT: PO_CLK restarts with training, and inbound alignment runs again (R322). -/
def Dev.pailRecover (d : Dev) : Dev :=
  if d.pailState = enOff then d
  else ({ d with pl := { d.pl with training := true, edges := 0 } } : Dev).setFlag R.PL_STATUS F.PL_STATUS_pi_aligned false

end Sys2Proof.Machine
end

