-- ==== Sys2Proof/Machine/TrigOps.lean ====
section
/-! DEFINITION. The trigger plane: words, engine input, coincidence units, the scheduler, and the execution of
decisions (R193–R222). -/

namespace Sys2Proof.Machine

/-! Words. -/

/-- The 64-bit word of a primitive, CRC included (R194, R196). -/
def Prim.word (p : Prim) : Nat :=
  let v := 2 ^ 60 + p.srcId % 65536 * 2 ^ 44 + (if p.pol then 2 ^ 43 else 0) + p.t32p % 2 ^ 32 * 256
  v + crc8 56 (v / 256)

/-- The fields of a primitive word. -/
def primOf (w : Nat) : Prim := { srcId := bits w 59 44, pol := bit w 43, t32p := bits w 39 8 }

/-- A word's CRC holds over its upper 56 bits (R194). -/
def primCrcOk (w : Nat) : Bool := crc8 56 (w / 256 % 2 ^ 56) == w % 256

/-- A decision's 128 bits with the sender's TE, CRC included (R195). -/
def Dec.word (x : Dec) (te : Nat) : Nat :=
  let v := 2 * 2 ^ 124 + x.action % 4096 * 2 ^ 112 + x.origin % 2 ^ 24 * 2 ^ 88 + te % 256 * 2 ^ 80 +
    x.srcId % 65536 * 2 ^ 64 + 3 * 2 ^ 60 + x.dclass % 16 * 2 ^ 56 + x.tExec % 2 ^ 48 * 256
  v + crc8 120 (v / 256)

/-- A decision's CRC holds over its upper 120 bits. -/
def decCrcOk (v : Nat) : Bool := crc8 120 (v / 256 % 2 ^ 120) == v % 256

/-- The fields of a decision of 128 bits. -/
def decOf (v : Nat) : Dec :=
  { action := bits v 123 112, origin := bits v 111 88, srcId := bits v 79 64, dclass := bits v 59 56,
    tExec := bits v 55 8, tDec := 0, loc := false, down := false, rcvd := false, unit := none, host := none }

/-! Links as the trigger plane sees them. -/

/-- TG_CTRL.state reads ON. -/
def Dev.engineOn (d : Dev) : Bool := d.fld R.TG_CTRL F.TG_CTRL_state == enOn

/-- LK_STATUS[p].share_now. -/
def Dev.shareNow (d : Dev) (p : Nat) : Nat := d.fld (R.LK_STATUS p) F.LK_STATUS_share_now
/-- Port p carries trigger slots. -/
def Dev.trigLink (d : Dev) (p : Nat) : Bool := d.linkUp p && d.shareNow p != 0
/-- Port p is an Isazu port whose link runs version 1 or 2: trigger words travel in band (R129, R197). -/
def Dev.inBandLink (d : Dev) (p : Nat) : Bool :=
  let v := d.fld (R.LK_STATUS p) F.LK_STATUS_ver
  d.linkUp p && (v == 1 || v == 2)
/-- Trigger words can leave on port p: in trigger slots, or in band. R209 and R212 ask for share_now ≠ 0, which a version-1 or
version-2 link never has, and R129, R197 and R215 send the same words there in band (DESIGN CHOICE: log entry 50). -/
def Dev.trigPort (d : Dev) (p : Nat) : Bool := d.trigLink p || d.inBandLink p
/-- Lanes of port p (R104). -/
def Dev.portLanes (d : Dev) (p : Nat) : Nat :=
  match d.fld (R.LK_PORT_CFG p) F.LK_PORT_CFG_width with
  | 0 => 0
  | w => 2 ^ (min w 4 - 1)
/-- Trigger-word capacity of port p, in units of one lane's words at 53.125 GBd and 1 in 32 (R210)
(DEDUCED: log entry 72). -/
def Dev.trigCapacity (d : Dev) (p : Nat) : Nat :=
  if d.trigLink p then
    d.portLanes p * 2 ^ (d.shareNow p - 1) * (if d.fld (R.LN_STATUS p) F.LN_STATUS_rate_now = 0 then 2 else 1)
  else 0
/-- The port TG_UPLINK names, when valid. -/
def Dev.uplink (d : Dev) : Option Nat :=
  if d.flag R.TG_UPLINK F.TG_UPLINK_valid then some (d.fld R.TG_UPLINK F.TG_UPLINK_port) else none

/-- Bit p of a pair of 32-bit port registers. -/
def Dev.portBit (d : Dev) (lo hi p : Nat) : Bool := if p < 32 then bit (d.reg lo).toNat p else bit (d.reg hi).toNat (p - 32)

/-- Ports named in TG_RELAY_MASK that carry trigger slots, and whether each is admitted to relay, in port order while
the capacities sum to no more than the uplink's (R210) (DEDUCED: log entry 72). -/
def Dev.relayPick (d : Dev) (cap : Nat) : List (Nat × Bool) :=
  let masked := (List.range 64).filter fun p =>
    d.portBit R.TG_RELAY_MASK_LO R.TG_RELAY_MASK_HI p && d.trigLink p && d.uplink != some p
  (masked.foldl (fun (acc : Nat × List (Nat × Bool)) p =>
    let c := d.trigCapacity p
    if acc.1 + c ≤ cap then (acc.1 + c, acc.2 ++ [(p, true)]) else (acc.1, acc.2 ++ [(p, false)])) (0, [])).2

/-- Relay admission is evaluated anew: TG_RELAY_NOW, and relay_excluded when a masked port does not fit (R210). -/
def Dev.relayAdmit (d : Dev) : Dev :=
  let cap := match d.uplink with
    | some u => d.trigCapacity u
    | none => 0
  let picks := d.relayPick cap
  let mask := picks.foldl (fun m x => if x.2 then m + 2 ^ x.1 else m) 0
  let d1 := (d.setFld R.TG_RELAY_NOW_LO F.TG_RELAY_NOW_LO_ports_lo mask).setFld R.TG_RELAY_NOW_HI
    F.TG_RELAY_NOW_HI_ports_hi (mask / 2 ^ 32)
  if picks.any (fun x => !x.2) then d1.raise R.TG_ALARM F.TG_ALARM_relay_excluded else d1

/-- eff_gap: the larger of the node's own gap and its parent's (R211). -/
def Dev.effGap (d : Dev) : Nat :=
  max (d.fld R.TG_DEC_CFG F.TG_DEC_CFG_min_gap) (d.fld R.TG_UPLINK F.TG_UPLINK_parent_gap)

/-! Engine input. -/

/-- A primitive is on its way from source s to the engine input (R198) (DESIGN CHOICE: log entry 71). -/
def Dev.fly (d : Dev) (s : Nat) (p : Prim) : Dev := { d with tg := { d.tg with flight := d.tg.flight ++ [(s, p)] } }

/-- A primitive arrives at the engine input: it waits in the merge buffer, or is lost with 32 waiting; with the engine
not ON nothing is admitted (R199) (DESIGN CHOICE: log entry 71). -/
def Dev.engineArrive (d : Dev) (s : Nat) (p : Prim) : Dev :=
  let d0 : Dev := { d with tg := { d.tg with flight := dropFirst (fun x => x == (s, p)) d.tg.flight } }
  if !d0.engineOn then d0
  else if 32 ≤ d0.tg.merge.length then
    ((d0.addSat (R.TG_IN_LOSS s) F.TG_IN_LOSS_count 1).raise R.TG_ALARM F.TG_ALARM_in_loss).count (lossCtr s)
  else { d0 with tg := { d0.tg with merge := d0.tg.merge ++ [(s, p)] } }

/-! Coincidence units. -/

/-- Bits of word i of an entry. -/
def entryBits (e : List Word) (i hi lo : Nat) : Nat := bits (e.getD i 0).toNat hi lo

/-- Window length in T48 units: len + 1 units of 2^-8 ns (R201). -/
def unitLen (e : List Word) : Nat := (entryBits e 8 27 0 + 1) * 256
/-- Window spacing in T48 units. -/
def unitStep (e : List Word) : Nat := 2 ^ entryBits e 9 24 20 * 256
/-- settle in T48 units. -/
def unitSettle (e : List Word) : Nat := ns (entryBits e 9 19 0)
/-- dead in T48 units. -/
def unitDead (e : List Word) : Nat := ns (entryBits e 11 19 0)

/-- Role of slot i: 1 input, 2 veto, otherwise unused (R201). -/
def slotRole (e : List Word) (i : Nat) : Nat := entryBits e i 31 30

/-- The parameters of R201 and R202 hold. -/
def unitEntryOk (e : List Word) : Bool :=
  decide (entryBits e 9 24 20 ≤ 28) && decide (unitStep e ≤ unitLen e) &&
    decide ((unitLen e + unitSettle e + unitStep e - 1) / unitStep e + 1 ≤ 64)

/-- A unit that is not OFF; none otherwise. -/
def Dev.unitRun? (d : Dev) (u : Nat) : Option UnitRun := (d.tg.run.find? (fun x => x.1 == u)).map (·.2)

/-- The running state of a unit replaced. -/
def Dev.setUnitRun (d : Dev) (u : Nat) (x : UnitRun) : Dev :=
  { d with tg := { d.tg with run := sIns (sDel d.tg.run u) u x } }

/-- The unit has no running state: it is OFF. -/
def Dev.delUnitRun (d : Dev) (u : Nat) : Dev := { d with tg := { d.tg with run := sDel d.tg.run u } }

/-- TG_CU_CTRL[u].state set. -/
def Dev.setUnitState (d : Dev) (u st : Nat) : Dev := d.setFld (R.TG_CU_CTRL u) F.TG_CU_CTRL_state st

/-- The first start of the series that lies after an instant (R202, R208). -/
def seriesStart (step now : Nat) : Nat := (now / step + 1) * step % t48Mod

/-- Slots of an entry that name a group, with input or veto role. -/
def slotsOf (e : List Word) (g : Nat) : List Nat :=
  (List.range 8).filter fun i => (slotRole e i == 1 || slotRole e i == 2) && entryBits e i 23 12 == g

/-- A window counts a primitive of stamp t for the slots given (R203, R204). -/
def Win.add (w : Win) (e : List Word) (slots : List Nat) (p : Prim) (t : Nat) : Win :=
  let counts := (List.range 8).map fun i =>
    let c := w.counts.getD i 0
    if slots.contains i then min 255 (c + 1) else c
  let isInput := slots.any fun i => slotRole e i == 1
  let first := if !isInput then w.first else
    match w.first with
    | none => some (t, p.pol, p.srcId)
    | some f => if t48Sub t f.1 < 0 then some (t, p.pol, p.srcId) else some f
  { w with counts := counts, first := first }

/-- The close instant of a window, start + length + settle (R202). -/
def closeAt (e : List Word) (start : Nat) : Nat := t48Add start ((unitLen e + unitSettle e : Nat) : Int)

/-- A window still counts: its close instant has not come (R202), whether or not the unit holds its evaluation (R207). -/
def Win.counting (w : Win) (e : List Word) (now : Nat) : Bool := w.tDec.isNone && decide (t48Sub now (closeAt e w.start) < 0)

/-- An admitted primitive of a group reaches one unit: it counts in every open window whose range holds its stamp; after
the close of the last such window it is late (R203). -/
def Dev.unitCount (d : Dev) (g : Nat) (p : Prim) (u : Nat) (x : UnitRun) : Dev :=
  let slots := slotsOf x.entry g
  if slots.isEmpty then d
  else
    let t := t32pNear d.now p.t32p
    let inside (w : Win) : Bool := decide (0 ≤ t48Sub t w.start) && decide (t48Sub t w.start < (unitLen x.entry : Nat))
    let lastStart := t / unitStep x.entry * unitStep x.entry
    let d1 := d.setUnitRun u
      { x with wins := x.wins.map fun w => if inside w && w.counting x.entry d.now then w.add x.entry slots p t else w }
    if 0 ≤ t48Sub d.now (closeAt x.entry lastStart) then
      d1.count (unitCtr u 5)
    else d1

/-- The oldest waiting primitive is admitted (R199, R200, R203, R214). -/
def Dev.admitPrims (d : Dev) : Dev :=
  match d.tg.merge with
  | [] => d
  | (_, p) :: rest =>
    let d1 := ({ d with tg := { d.tg with merge := rest } } : Dev).count (devCtr 2)
    if !d1.timeValid then d1.count (devCtr 16)
    else
      let e := sGet 0 d1.tg.chanMap p.srcId
      if !bit e 15 || d1.mi.diverted.contains (6, p.srcId / 16) then
        (d1.addSat R.TG_UNMAPPED F.TG_UNMAPPED_count 1).count (devCtr 3)
      else d1.tg.run.foldl (fun d x => d.unitCount (e % 4096) p x.1 x.2) d1

/-- A window's condition (R204). -/
def windowHolds (e : List Word) (w : Win) : Bool :=
  let c (i : Nat) : Nat := w.counts.getD i 0
  let sat (i : Nat) : Bool := decide (max 1 (entryBits e i 7 0) ≤ c i)
  let inputs := (List.range 8).filter fun i => slotRole e i == 1
  let level := entryBits e 10 27 16
  if bit (e.getD 10 0).toNat 31 then
    decide (level ≤ inputs.foldl (fun a i => a + entryBits e i 29 26 * min (c i) 15) 0)
  else decide (max 1 level ≤ (inputs.filter sat).length)

/-- A veto slot of the window is satisfied. -/
def windowVetoed (e : List Word) (w : Win) : Bool :=
  (List.range 8).any fun i => slotRole e i == 2 && decide (max 1 (entryBits e i 7 0) ≤ w.counts.getD i 0)

/-- Does a start lie in the open interval that a firing window cancels (R205)? The interval ends at most `dead`, 1.05 ms, after the
evaluation: 2^21 ticks, 3.4 ms, after it no later window lies in it (DEDUCED: log entry 73). -/
def cancelled (c : Option Cancel) (ticks start : Nat) : Bool :=
  match c with
  | none => false
  | some f => decide (ticks < f.tick + 2 ^ 21) && decide (0 < t48Sub start f.start) && decide (t48Sub start f.start < (f.len : Nat))

/-- The oldest open window of unit u is evaluated, at its own t_dec where it has closed before: it fires, is vetoed or produces
nothing (R204, R205, R207). -/
def Dev.closeWin (d : Dev) (u tDec : Nat) : Dev :=
  match d.unitRun? u with
  | none => d
  | some x =>
    match x.wins with
    | [] => d
    | w :: ws =>
      let y := { x with wins := ws }
      if !windowHolds x.entry w then d.setUnitRun u y
      else if windowVetoed x.entry w then (d.setUnitRun u y).count (unitCtr u 1)
      else
        let can := some ⟨w.start, unitLen x.entry + unitDead x.entry, d.ticks⟩
        let z := { y with wins := ws.filter (fun v => !cancelled can d.ticks v.start), cancel := can }
        let d1 := d.count (unitCtr u 0)
        if x.prescale + 1 < entryBits x.entry 10 15 0 then
          (d1.setUnitRun u { z with prescale := x.prescale + 1 }).count (unitCtr u 2)
        else
          (d1.setUnitRun u { z with prescale := 0, outs := z.outs ++ [{ tDec := w.tDec.getD tDec, first := w.first }] }).count
            (unitCtr u 3)

/-- The first stamp of an output. A window that fires on no input primitive has none, and the manual gives no value:
it is then a free value (DEDUCED: log entry 74). -/
def Dev.firstStamp (d : Dev) (o : UnitOut) : (Nat × Bool × Nat) × Dev :=
  match o.first with
  | some f => (f, d)
  | none =>
    let (bs, d1) := d.freeBytes 7
    let (b, d2) := d1.freeBool
    ((leNat (bs.take 5) % 2 ^ 40, b, leNat (bs.drop 5)), d2)

/-- Own decisions wait in the order of t_dec (R211). -/
def Dev.schedule (d : Dev) (x : Dec) : Dev :=
  let xs := insertBy (fun a b => decide (t48Sub a.tDec b.tDec < 0)) x d.tg.own
  { d with tg := { d.tg with own := xs } }

/-- Positions of the upward staging that relayed primitives may need before the next output: one trigger block of every lane
admitted to relay (R209, R210) (DEDUCED: log entry 72). -/
def Dev.relayNeed (d : Dev) : Nat :=
  ((List.range 64).filter fun p => d.portBit R.TG_RELAY_NOW_LO R.TG_RELAY_NOW_HI p).foldl (fun n p => n + 4 * d.portLanes p) 0

/-- An output of unit u is placed: an upward primitive, a decision for the scheduler, or both; none when it cannot be
placed now (R206, R207, R209). A standby's outputs go nowhere (R410) (DEDUCED: log entry 76). -/
def Dev.placeOut (d : Dev) (u : Nat) (x : UnitRun) (o : UnitOut) : Option Dev :=
  let wantUp := bit (x.entry.getD 12 0).toNat 15
  let loc := bit (x.entry.getD 12 0).toNat 13
  let down := bit (x.entry.getD 12 0).toNat 12
  let upOk := match d.uplink with
    | some p => d.trigPort p
    | none => false
  let up := wantUp && upOk
  if d.standby then some d
  else if up && decide (256 ≤ d.tg.upward.length + d.relayNeed) then none
  else if (loc || down) && (d.tg.own.any (fun e => e.unit == some u) || decide (32768 ≤ d.tg.pending.length)) then none
  else
    let (f, d0) := d.firstStamp o
    let d1 := if up then
        let src := if bit (x.entry.getD 12 0).toNat 14 then f.2.2 else entryBits x.entry 12 31 16
        let q : Prim := { srcId := src, pol := f.2.1, t32p := f.1 / 256 % 2 ^ 32 }
        { d0 with tg := { d0.tg with upward := d0.tg.upward ++ [BitVec.ofNat 64 q.word] } }
      else if wantUp && d.uplink.isSome then d0.count (unitCtr u 4) else d0
    some (if loc || down then
        d1.schedule
          { action := entryBits x.entry 12 11 0, origin := d.fld R.GL_ADDR F.GL_ADDR_addr,
            srcId := entryBits x.entry 12 31 16, dclass := entryBits x.entry 13 3 0,
            tExec := t48Add o.tDec (ns (d.fld R.TG_BUDGET F.TG_BUDGET_budget)), tDec := o.tDec,
            loc := loc, down := down, rcvd := false, unit := some u, host := none }
      else d1)

/-! Decisions. -/

/-- The action entry in force. -/
def Dev.action (d : Dev) (a : Nat) : List Word := sGet [] d.tg.actTab a

/-- The action line is diverted (R354). -/
def Dev.actionDiverted (d : Dev) (a : Nat) : Bool := d.mi.diverted.contains (8, a)

/-- Channels from base on, n of them, stopping at 127 (R216). -/
def chanSpan (base n : Nat) : List Nat := ((List.range n).map (· + base)).filter (· < 128)

/-- The schedule entries of an action are submitted (R217). -/
def Dev.submitAction (d : Dev) (x : Dec) (act : List Word) : Dev :=
  if !bit (act.getD 0 0).toNat 31 then d
  else
    let ofs := signed 32 (act.getD 1 0).toNat
    let e : DtcEntry :=
      { tag := x.action % 256, period := (act.getD 4 0).toNat, width := entryBits act 2 23 0,
        count := entryBits act 3 31 16, t48 := t48Add x.tExec (divNear (ofs * 8192) 100), due := none }
    (chanSpan (entryBits act 0 6 0) (entryBits act 0 15 8)).foldl (fun d c => (d.dtcSubmit c e).1) d

/-- A late decision is counted (R213). -/
def Dev.countLateDec (d : Dev) : Dev :=
  ((d.addSat R.TG_LATE F.TG_LATE_count 1).raise R.TG_ALARM F.TG_ALARM_late).count (devCtr 1)

/-- A decision enters the pending store: exact when at least 102.4 ns before its t_exec, otherwise LATE (R213); the
schedule entries of an exact decision are submitted now (R217). -/
def Dev.enterPending (d : Dev) (x : Dec) : Dev :=
  let late := decide (t48Sub x.tExec d.now * 10 < 67108864)
  let doDtc := !late && !d.standby && !d.actionDiverted x.action
  let d1 := if late then d.countLateDec else d
  let d2 := if doDtc then d1.submitAction x (d.action x.action) else d1
  let y : PendDec := { dec := x, entered := d.now, late := late, dtcDone := doDtc, started := false, tStart := 0,
                       teStart := 0, act := [], readout := [] }
  { d2 with tg := { d2.tg with pending := d2.tg.pending ++ [y] } }

/-- Ports on which a decision of a class goes down: class bit set, trigger slots carried, not refused by enumeration,
not the uplink, the pair port or a forerunner (R212, R343, R344, R406) (DESIGN CHOICE: log entry 78). -/
def Dev.downPorts (d : Dev) (cls : Nat) : List Nat :=
  (List.range 64).filter fun p =>
    d.portBit (R.TG_CLASS_DOWN_LO cls) (R.TG_CLASS_DOWN_HI cls) p && d.trigPort p && !d.en.refused.contains p &&
      d.uplink != some p && !d.isPairPort p && d.fld (R.LK_STATUS p) F.LK_STATUS_family != 1

/-- The scheduler releases a decision: to the stagings of its class's ports, and to the pending store when this node
executes it; a host's command completes (R211, R212, R298). -/
def Dev.release (d : Dev) (x : Dec) : Dev :=
  let stage (d : Dev) (p : Nat) : Dev :=
    { d with tg := { d.tg with staged := sPut [] d.tg.staged p (sGet [] d.tg.staged p ++ [x]) } }
  let d1 := if (x.down || x.rcvd) && !d.standby then (d.downPorts x.dclass).foldl stage d else d
  let here := if x.rcvd then d.flag (R.TG_CLASS_CFG x.dclass) F.TG_CLASS_CFG_exec else x.loc
  let d2 := if here then d1.enterPending x else d1
  match x.host with
  | none => d2
  | some o =>
    d2.finish o 0 (x.tExec % 2 ^ 32) (x.tExec / 2 ^ 32)

/-- The instant at which a pending decision is due to start: t_exec, or 102.4 ns after entry when LATE (R213). -/
def PendDec.due (x : PendDec) : Nat := if x.late then t48Add x.entered 6710886 else x.dec.tExec

/-- The pending decision to start next: the first due, late ones in the order of t_exec (R213, R214)
(DEDUCED: log entry 75). -/
def Dev.nextPending (d : Dev) : Option PendDec :=
  d.tg.pending.foldl (fun best x =>
    if x.started then best
    else match best with
      | none => some x
      | some b =>
        if x.late == b.late then (if t48Sub x.dec.tExec b.dec.tExec < 0 then some x else best)
        else if t48Sub x.due b.due < 0 then some x else best) none

/-- Pending decisions that have not started and satisfy `p` become LATE (R214) (DEDUCED: log entry 75). -/
def Dev.makeLate (d : Dev) (p : PendDec → Bool) : Dev :=
  let hit (x : PendDec) : Bool := !x.started && !x.late && p x
  let mark (x : PendDec) : PendDec :=
    if hit x then { x with late := true, entered := t48Add d.now (-6710886) } else x
  let d1 : Dev := { d with tg := { d.tg with pending := d.tg.pending.map mark } }
  (d.tg.pending.filter hit).foldl (fun d _ => d.countLateDec) d1

/-- A DEC notification is written, or lost (R299). -/
def Dev.notifyHost (d : Dev) (x : PendDec) : Dev :=
  let r := d.fld R.HR_CTRL F.HR_CTRL_dec_ring
  if d.ringState r == enOn && d.ringType r == 6 && !d.ringFull r then
    let flags := (if x.late then 1 else 0) + (if x.dec.rcvd || x.dec.host.isSome then 0 else 2) +
      (if x.dec.host.isSome then 4 else 0)
    d.ringWrite r (leBytes 16 (x.dec.word x.teStart) ++ leBytes 6 x.tStart ++ leBytes 1 x.teStart ++
      leBytes 1 flags ++ leBytes 8 0)
  else
    let q := d.ring r
    (((d.setRing r { q with lost := (q.lost + 1) % 2 ^ 32 }).raise R.HR_ALARM F.HR_ALARM_dec_lost).count
      (devCtr 5)).writeStatus r

/-- Pending decisions whose work is complete leave the store (R221). -/
def Dev.sweepPending (d : Dev) : Dev :=
  let xs := d.tg.pending.filter fun x => !(x.started && x.readout.isEmpty)
  { d with tg := { d.tg with pending := xs } }

/-- A pending decision starts: its schedule entries when not yet submitted, its notifications and its readout; with its
action line diverted it executes no action (R213, R217, R220, R354). -/
def Dev.startDecision (d : Dev) (x : PendDec) : Dev :=
  let d0 := d.count (devCtr 0)
  let tS := if x.late then d.now else x.dec.tExec
  let put (d : Dev) (y : PendDec) : Dev :=
    let ps := insertBy (fun a b => decide (t48Sub a.dec.tExec b.dec.tExec < 0)) y (d.tg.pending.erase x)
    { d with tg := { d.tg with pending := ps } }
  if d.actionDiverted x.dec.action then
    (put d0 { x with started := true, tStart := tS, teStart := d.te, readout := [] }).recDecision 1 d.te x.dec.action
      x.dec.tExec x.dec.origin |>.sweepPending
  else
    let act := d.action x.dec.action
    let w0 := (act.getD 0 0).toNat
    let ro := if bit w0 30 then chanSpan (entryBits act 5 6 0) (entryBits act 5 15 8) else []
    let y : PendDec :=
      { x with started := true, tStart := tS, teStart := d.te, act := act, dtcDone := true, readout := ro }
    let d1 := if x.dtcDone then d0 else d0.submitAction x.dec act
    let d2 := if bit w0 29 then d1.notifyHost y else d1
    let d3 := if bit w0 28 then d2.pailDecision (x.dec.word d.te) else d2
    (put d3 y).sweepPending

/-! Time validity and steps (R214). -/

/-- TIME_VALID has fallen: open windows are cancelled and counted as skipped; one that has closed while its unit holds waits for its
evaluation. -/
def Dev.trigTimeFall (d : Dev) : Dev :=
  d.tg.run.foldl (fun d x =>
    let isOpen := x.2.wins.filter fun w => w.tDec.isNone
    (if isOpen.isEmpty then d else d.count (unitCtr x.1 6) isOpen.length).setUnitRun x.1
      { x.2 with wins := x.2.wins.filter fun w => w.tDec.isSome }) d

/-- TIME_VALID has risen: series resume after the counter, and decisions whose t_exec has passed execute LATE. -/
def Dev.trigTimeRise (d : Dev) : Dev :=
  let d1 := d.tg.run.foldl (fun d x =>
    d.setUnitRun x.1 { x.2 with next := seriesStart (unitStep x.2.entry) d.now }) d
  d1.makeLate fun x => decide (t48Sub x.dec.tExec d.now < 0)

/-- An accepted step from `old`: every open window closes with that tick as t_dec and is evaluated, in a unit that holds once it can
be; series continue on the new scale, and decisions that a forward step skips are LATE (R207, R214). -/
def Dev.trigStep (d : Dev) (old : Nat) : Dev :=
  let d1 := d.tg.run.foldl (fun d x =>
    let e := if x.2.heldAt.isSome then
        d.setUnitRun x.1 { x.2 with wins := x.2.wins.map fun w => { w with tDec := some (w.tDec.getD d.now) } }
      else (List.range x.2.wins.length).foldl (fun d _ => d.closeWin x.1 d.now) d
    match e.unitRun? x.1 with
    | some y => e.setUnitRun x.1 { y with next := seriesStart (unitStep y.entry) d.now }
    | none => e) d
  d1.makeLate fun x => decide (0 ≤ t48Sub x.dec.tExec old) && decide (t48Sub x.dec.tExec d.now < 0)

/-! Enable (R208, R222). -/

/-- Unit u enters STARTING. -/
def Dev.unitStart (d : Dev) (u : Nat) : Dev := d.setUnitState u enStarting

/-- Unit u enters STOPPING. -/
def Dev.unitStop (d : Dev) (u : Nat) : Dev := d.setUnitState u enStopping

/-- Unit u is OFF at once. -/
def Dev.unitOff (d : Dev) (u : Nat) : Dev := (d.delUnitRun u).setUnitState u enOff

/-- The engine enters STARTING: merge buffer, stagings and pending store are cleared. -/
def Dev.engineStart (d : Dev) : Dev :=
  ({ d with tg := { d.tg with flight := [], merge := [], upward := [], staged := [], received := [], own := [],
                              pending := [] } } : Dev).setFld R.TG_CTRL F.TG_CTRL_state enStarting

/-- Units not OFF: a state other than the reset value is listed in the register store. -/
def Dev.unitsActive (d : Dev) : List Nat :=
  (d.regs.filterMap fun e =>
    if R.TG_CU_CTRL 0 ≤ e.1 ∧ e.1 < R.TG_CU_CTRL 4096 then some ((e.1 - R.TG_CU_CTRL 0) / 4) else none).filter
    fun u => d.fld (R.TG_CU_CTRL u) F.TG_CU_CTRL_state != enOff

/-- The engine enters STOPPING: admission and relay stop, every unit in ON stops (R222). -/
def Dev.engineStop (d : Dev) : Dev :=
  d.unitsActive.foldl (fun d u => if d.fld (R.TG_CU_CTRL u) F.TG_CU_CTRL_state == enOn then d.unitStop u else d)
    (({ d with tg := { d.tg with flight := [], merge := [] } } : Dev).setFld R.TG_CTRL F.TG_CTRL_state enStopping)

/-- The engine and every unit are OFF at once, and what they held is discarded (R347). -/
def Dev.engineOff (d : Dev) : Dev :=
  d.unitsActive.foldl (fun d u => d.unitOff u)
    (({ d with tg := { d.tg with flight := [], merge := [], upward := [], staged := [], received := [], own := [],
                                 pending := [], run := [] } } : Dev).setFld R.TG_CTRL F.TG_CTRL_state enOff)

end Sys2Proof.Machine
end

