-- ==== Sys2Proof/Machine/Edge.lean ====
section
/-! DEFINITION. The commands of the edge channels (R165–R192). -/

namespace Sys2Proof.Machine

/-- A stamp of channel c opens a window of every mode 1 channel in ON that references it. For a channel that reaches ON later the
stamp opens none, even where stamp + delay lies after it (R170) (DESIGN CHOICE: log entry 174). -/
def Dev.openReferenced (d : Dev) (c t : Nat) : Dev :=
  if !d.tdcOn c then d
  else d.forChans fun d e =>
    if d.winMode e = 1 ∧ d.fld (R.EC_WIN_CFG e) F.EC_WIN_CFG_ref = c ∧ d.tdcOn e then
      d.openWin e (t48Add t (((d.reg (R.EC_WIN_DELAY e)).toNat * 256 : Nat)))
    else d

/-- An accepted edge: its record enters the queue and its primitive the trigger plane, or it is refused at the full
queue (R180, R183). -/
def Dev.acceptEdge (d : Dev) (c : Nat) (r : EdgeRec) : Dev :=
  let d1 := d.count (chanCtr c 0)
  let x := d1.chan c
  if x.queueFull then d1.refuseEdge c r
  else
    let d2 := d1.setChan c (x.enter (d.destOf c) r)
    if d.flag (R.EC_OUT_CFG c) F.EC_OUT_CFG_trig then
      d2.fly c { srcId := d.fld (R.EC_OUT_CFG c) F.EC_OUT_CFG_src_id, pol := r.fall, t32p := r.t48 / 256 % 2 ^ 32 }
    else d2

/-- Does a crossing of the given direction at the balls count after `invert` and `edges` (R168)? -/
def Dev.selected (d : Dev) (c : Nat) (fall : Bool) : Bool :=
  let f := fall != d.flag (R.EC_PAD c) F.EC_PAD_invert
  match d.fld (R.EC_PAD c) F.EC_PAD_edges with
  | 0 => !f
  | 1 => f
  | _ => true

/-- The window decision on an edge: accepted, or rejected and counted (R170). -/
def Dev.judge (d : Dev) (c : Nat) (r : EdgeRec) : Dev :=
  if d.inWindow c r.te r.t48 then d.acceptEdge c { r with window := d.windowAt c r.te r.t48 }
  else (d.addSat (R.EC_REJECT c) F.EC_REJECT_count 1).count (chanCtr c 3)

/-- A record that waited reaches its decision; a marker behind the edges of its channel enters the queue. -/
def Dev.decideWait (d : Dev) (w : EdgeWait) : Dev :=
  if w.rec_.kind = 1 then d.judge w.chan w.rec_ else d.enterMark w.chan w.rec_

/-- The records whose 25.6 ns have passed reach their decision, oldest first (R169, R170). -/
def Dev.decideDue (d : Dev) : Dev :=
  let due (w : EdgeWait) : Bool := decide (w.due ≤ d.ticks)
  (d.ec.waits.takeWhile due).foldl (fun d w => d.decideWait w)
    { d with ec := { d.ec with waits := d.ec.waits.dropWhile due } }

/-- EDGE_CROSSING: a selected crossing at a live channel is stamped, unless it falls within 2.4 ns of the last stamped one; its
stamp opens windows of channels that reference it. In mode 1 the window decision waits 25.6 ns, until every reference stamp is
known; in modes 0 and 2 nothing that is still to come can change it, and it is taken here (R168–R170) (DEDUCED: log entry 62). -/
def execEdgeCrossing (c : Fin 128) (fall : Bool) (k : Fin 5) (code : Byte) (s : State) : Result :=
  running s fun d =>
    let x := d.chan c
    if !d.tdcOn c || !d.chanLive c || !d.selected c fall then d
    else
      let e := d.ticks * 10485760 + k.val * 2097152 + d.interp c code.toNat
      if (match x.lastEdge with
          | some l => decide (e < l + 15728640)
          | none => false) then
        ((d.addSat (R.EC_PILEUP c) F.EC_PILEUP_count 1).raise (R.EC_ALARM c) F.EC_ALARM_pileup).count (chanCtr c 1)
      else
        let t := d.stampOf c k code.toNat
        if d.beforeLive c t then d
        else
          let r : EdgeRec := { d.mkRec c 1 0 t.t48 with
                               fall := fall != d.flag (R.EC_PAD c) F.EC_PAD_invert, te := t.te, invalid := t.invalid }
          let d1 := ((d.setChan c { x with lastEdge := some e }).noteRec c r).openReferenced c t.t48
          if d.winMode c = 1 then d1.awaitRec c r else d1.judge c r

/-- WINDOW_OPENING: a mode 2 window opens and the window count advances; in modes 1 and 2 the scale measurement of the
opening is applied or discarded (R170, R172). -/
def execWindowOpening (c : Fin 128) (m : ScaleMeas) (s : State) : Result :=
  running s fun d =>
    if !d.tdcOn c || d.winMode c == 0 then d
    else if d.winMode c == 2 then
      let t := (d.chan c).nextOpen
      let d1 := d.openWin c t
      (d1.setChan c
        { d1.chan c with nextOpen := t48Add t (((d.reg (R.EC_WIN_PERIOD c)).toNat * 256 : Nat)) }).applyScale c m
    else if (d.chan c).wins.isEmpty then d
    else d.applyScale c m

/-- A code-density turn is in progress on some channel. -/
def Dev.turnRuns (d : Dev) : Bool := (List.range 128).any fun c => d.flag (R.EC_STATUS c) F.EC_STATUS_cal

/-- No pulse edge of DTC channel c falls within 1 µs before the turn, in it, or within 1 µs after it (R173). -/
def Dev.turnClear (d : Dev) (c : Nat) : Bool :=
  let x := d.chan c
  let g := toGrid d.now
  let lo := gridAdd g (-800000)
  let hi := gridAdd g 144800000
  let within (t : Nat) : Bool := decide (0 ≤ gridSub t lo) && decide (gridSub t hi ≤ 0)
  !(match x.running with
    | some r => r.edgeIn lo hi
    | none => false) &&
  !(match x.lastFall with
    | some f => within f.1 && decide (d.ticks < f.2 + 2 ^ 24)
    | none => false) &&
  x.sched.all fun e => decide (0 < gridSub (e.due.getD (toGrid e.t48)) hi)

/-- The turn that falls due on channel c. A non-privileged TDC input is not live for it; a privileged channel goes to its replica
line and is stale; a non-privileged DTC output takes it only where no pulse edge is near, and is stale after 4 postponements. A
channel that is not ON has nothing to calibrate and its turn does nothing (R173, R174) (DESIGN CHOICE: log entry 64). -/
def Dev.takeTurn (d : Dev) (c : Nat) : Dev :=
    if d.chanState c != enOn then d
    else if d.privileged c then
      (d.setFlag (R.EC_STATUS c) F.EC_STATUS_cal true).setFlag (R.EC_STATUS c) F.EC_STATUS_stale true
    else if !d.isDtc c then (d.setFlag (R.EC_STATUS c) F.EC_STATUS_cal true).deadOpen c 1
    else if d.turnClear c then d.setFlag (R.EC_STATUS c) F.EC_STATUS_cal true
    else
      let x := d.chan c
      let d1 := d.setChan c { x with postponed := x.postponed + 1 }
      if 4 ≤ x.postponed + 1 then d1.setFlag (R.EC_STATUS c) F.EC_STATUS_stale true else d1

/-- CAL_TURN_START: turns fall due in order 0 to 127, from channel 0 at entry to glaze; one of another channel does nothing. A turn
waits while a user calibration runs (R173, R382) (DESIGN CHOICE: log entry 64). -/
def execCalTurnStart (c : Fin 128) (s : State) : Result :=
  running s fun d =>
    if !(d.stage == .glaze || d.stage == .yielded) || d.fld R.EC_GL_CAL F.EC_GL_CAL_period == 0 || d.ec.turn != c.val ||
        d.turnRuns || d.ca.op.isSome then d
    else ({ d with ec := { d.ec with turn := (d.ec.turn + 1) % 128 } } : Dev).takeTurn c

/-- Waiting values of a channel: as they are, or the values now reported. -/
def Dev.chanWaiting (d : Dev) (c : Nat) : ChanNew :=
  match (d.chan c).waiting with
  | some w => w
  | none => { table := (d.chan c).table, scale := (d.chan c).scd, inDelay := (d.reg (R.EC_IN_DELAY c)).toNat,
              outDelay := (d.reg (R.EC_OUT_DELAY c)).toNat, turn := false, trim := none }

/-- An accepted code-density result of channel c, with the trim error of a DTC output: a privileged channel applies it at its first
idle instant, another at once (R173, R174). -/
def Dev.takeTable (d : Dev) (c : Nat) (table : List (BitVec 16)) (scale : Int) (trim : Option Int) : Dev :=
  let x := d.chan c
  if d.privileged c then
    d.setChan c { x with waiting := some { d.chanWaiting c with table := table, scale := scale, turn := true, trim := trim } }
  else
    let d1 := d.setChan c { x with table := table, scd := scale }
    match trim with
    | some e => (d1.moveTrim c e).setFlag (R.EC_STATUS c) F.EC_STATUS_stale false
    | none => d1

/-- CAL_TURN_END: the turn's two measurements agree and the result is accepted, or it is refused; the channel is live
again; a user calibration that waited for it starts (R173, R379, R382) (DESIGN CHOICE: log entry 64). -/
def execCalTurnEnd (c : Fin 128) (a b : TurnMeas) (table : List (BitVec 16)) (s : State) : Result :=
  running s fun d =>
    if !d.flag (R.EC_STATUS c) F.EC_STATUS_cal || d.opHolds c then d
    else
      let ok := agreeScale a.scale b.scale && (!d.isDtc c || agreeDelay a.trim b.trim)
      let scale := meanOf a.scale b.scale
      let trim := meanOf a.trim b.trim
      let d0 := ((d.setFlag (R.EC_STATUS c) F.EC_STATUS_cal false).setChan c { d.chan c with postponed := 0 }).count (chanCtr c 8)
      let x := d0.chan c
      let d1 :=
        if !ok then
          let d2 := ((d0.raise R.CA_ALARM F.CA_ALARM_disagree).raise (R.EC_ALARM c) F.EC_ALARM_cal_refused).count (chanCtr c 9)
          if x.waiting.any (·.turn) then d2 else d2.setFlag (R.EC_STATUS c) F.EC_STATUS_stale false
        else d0.takeTable c table scale (if d.isDtc c then some trim else none)
      let d2 := if d.privileged c || d.isDtc c then d1 else d1.deadClose c 1
      match d2.ca.op with
      | some o =>
        if o.waits && d2.opNames c then
          ({ d2 with ca := { d2.ca with op := some { o with waits := false } } } : Dev).opBegin o
        else d2
      | none => d2

/-- Waiting values of channel c take effect. -/
def Dev.applyWaiting (d : Dev) (c : Nat) (w : ChanNew) : Dev :=
  let x := d.chan c
  let d1 := ((d.setChan c { x with table := w.table, scd := w.scale, waiting := none }).setReg (R.EC_IN_DELAY c)
    (BitVec.ofNat 32 w.inDelay)).setReg (R.EC_OUT_DELAY c) (BitVec.ofNat 32 w.outDelay)
  let d2 := (d1.moveItem 6 c 0).moveItem 7 c 0
  (match w.trim with
   | some e => d2.moveTrim c e
   | none => d2).setFlag (R.EC_STATUS c) F.EC_STATUS_stale false

/-- PRIVILEGED_APPLY: an idle instant of a privileged channel; accepted values apply and stale clears (R174). -/
def execPrivilegedApply (c : Fin 128) (s : State) : Result :=
  running s fun d =>
    match (d.chan c).waiting with
    | some w => if d.privileged c && w.turn then d.applyWaiting c w else d
    | none => d

/-- CHANNEL_VALUE_APPLY: an idle instant of a channel; recomputed temperature values apply. They wait during a
code-density turn or a user calibration of the channel, and a privileged channel holds them (R375). -/
def execChannelValueApply (c : Fin 128) (s : State) : Result :=
  running s fun d =>
    match (d.chan c).waiting with
    | some w =>
      if d.privileged c || d.flag (R.EC_STATUS c) F.EC_STATUS_cal || d.opNames c || d.inFault then d
      else d.applyWaiting c w
    | none => d

/-- STALE_TIMEOUT: no idle instant came within 1 s of an update of a non-privileged channel (R375). -/
def execStaleTimeout (c : Fin 128) (s : State) : Result :=
  running s fun d =>
    if (d.chan c).waiting.isSome && !d.privileged c then d.setFlag (R.EC_STATUS c) F.EC_STATUS_stale true else d

/-! The collector (R179–R182). -/

/-- The gathered records of template t leave as one frame, completed with PAD records (R182)
(DESIGN CHOICE: log entry 66). -/
def Dev.sendGathered (d : Dev) (t : Nat) : Dev :=
  let x := d.chan t
  let recs := x.gather ++ List.replicate (d.batch t - x.gather.length) EdgeRec.pad
  (d.setChan t { x with gather := [] }).injectOwn 66 (d.tplClass t)
    (d.templateBytes t (d.tplLen t) ++ recs.flatMap fun r => beBytes 16 r.encode)

/-- A record joins the frame being gathered for template t (DESIGN CHOICE: log entry 66). -/
def Dev.gatherRec (d : Dev) (t : Nat) (r : EdgeRec) : Dev :=
  let x := d.chan t
  let d1 := d.setChan t { x with gather := x.gather ++ [r] }
  if d.batch t ≤ x.gather.length + 1 then d1.sendGathered t else d1

/-- A streaming destination accepts a record; a STAMP ring that is full or not ON takes none (R179, R182, R301), and nor does a
target above 63 or a ring of another type, for which the record waits in the same way (DESIGN CHOICE: log entry 65). -/
def Dev.streamReady (d : Dev) (o : EdgeDest) : Bool :=
  match o.stream with
  | 1 => decide (o.target < 64) && d.ringState o.target == enOn && d.ringType o.target == 5 && !d.ringFull o.target
  | 2 => !d.backPressured 66 (d.tplClass o.target)
  | _ => true

/-- Channel c has a record that all its destinations accept. -/
def Dev.drainable (d : Dev) (c : Nat) : Bool :=
  match (d.chan c).queue with
  | r :: _ => d.streamReady r.dest
  | [] => false

/-- The collector serves channel c next: it is the first in its round, from the channel after the last one served, that has a
record to drain (R179) (DESIGN CHOICE: log entry 65). -/
def Dev.serves (d : Dev) (c : Nat) : Bool :=
  d.drainable c &&
    (List.range ((c + 128 - d.ec.collector % 128) % 128)).all fun i => !d.drainable ((d.ec.collector + i) % 128)

/-- A drained record is written to the channel's history ring; the write clears an uncorrectable line (R181, R359). -/
def Dev.writeHist (d : Dev) (c : Nat) (r : EdgeRec) : Dev :=
  let x := d.chan c
  let recent := x.overwritten.takeWhile fun e => decide (d.ticks < e.2 + 2 ^ 30)
  let lost := (x.hist.drop 4095).map (fun r => (r.t48, d.ticks)) ++ recent
  let y := { x with hist := (r :: x.hist).take 4096, histPos := x.histPos + 1, overwritten := lost }
  let l := (10, histLine c x.histPos)
  ({ d.setChan c y with mi := { d.mi with diverted := d.mi.diverted.filter (· != l) } } : Dev).count (chanCtr c 11)

/-- A record lost in both copies is replaced in place by a LOST record with aux 0 and the instant of the record ahead of
it; with no record ahead, the manual gives no instant and a free value stands for it (R361)
(DESIGN CHOICE: log entry 67). -/
def Dev.lostRecord (d : Dev) (c : Nat) (r : EdgeRec) : EdgeRec × Dev :=
  match (d.chan c).drained with
  | some t => ({ r with kind := 4, aux := 0, fall := false, t48 := t }, d)
  | none =>
    let (bs, d1) := d.freeBytes 6
    ({ r with kind := 4, aux := 0, fall := false, t48 := leNat bs }, d1)

/-- COLLECTOR_DRAIN: the oldest record of channel c's queue leaves in its turn of the round, when every destination selected for it
accepts it; a held record takes the free position (R179–R182, R189, R361) (DESIGN CHOICE: log entry 65). -/
def execCollectorDrain (c : Fin 128) (dup : DupRead) (s : State) : Result :=
  running s fun d =>
    match (d.chan c).queue with
    | [] => d
    | r0 :: _ =>
      if !d.serves c then d
      else
        let (da, lost) := ({ d with ec := { d.ec with collector := (c.val + 1) % 128 } } : Dev).readDup 12 dup
        let (r, db) := if lost then da.lostRecord c r0 else (r0, da)
        let d1 := db.setChan c { (db.chan c).pop (d.destOf c) with drained := some r.t48 }
        let d2 := if r.dest.hist then d1.writeHist c r else d1
        match r.dest.stream with
        | 1 => (d2.ringWrite r.dest.target (leBytes 16 r.encode)).count (chanCtr c 12)
        | 2 => (d2.gatherRec r.dest.target r).count (chanCtr c 12)
        | _ => d2

/-- STREAM_FRAME_FLUSH: flush µs have passed since the frame's first record; it leaves, completed with PAD, when port 66 accepts
frames of its class (R182, R236). -/
def execStreamFrameFlush (t : Fin 128) (s : State) : Result :=
  running s fun d => if (d.chan t).gather.isEmpty || d.backPressured 66 (d.tplClass t) then d else d.sendGathered t

/-! Enable (R167). -/

/-- A channel that has reached OFF starts again when its enable reads 1 and the stage permits (R346, R347). -/
def Dev.chanAgain (d : Dev) (c : Nat) : Dev :=
  if d.flag (R.EC_CTRL c) F.EC_CTRL_enable && d.inGlaze then d.chanStart c else d

/-- CHANNEL_STARTING_END: the interpolator is locked, the present trims are applied and the first scale is taken; the channel is ON,
a TDC input with a DEAD_END record of reason 3 first, or goes to STOPPING when its enable reads 0 (R167, R175, R346). -/
def execChannelStartingEnd (c : Fin 128) (m : ScaleMeas) (s : State) : Result :=
  running s fun d =>
    if d.chanState c != enStarting || d.inFault then d
    else if !d.flag (R.EC_CTRL c) F.EC_CTRL_enable || !d.inGlaze then d.setChanState c enStopping
    else
      let d1 := ((d.setChanState c enOn).applyWaiting c (d.chanWaiting c)).applyScale c m
      if d.isDtc c then d1
      else
        let x := d1.chan c
        let d2 := (d1.setChan c
          { x with nextOpen := seriesAfter x.winBase ((d.reg (R.EC_WIN_PERIOD c)).toNat * 256) d.now }).deadClose c 3
        let d3 := if d2.flag (R.EC_STATUS c) F.EC_STATUS_cal || d2.opHolds c then d2 else d2.deadClose c 1
        if d3.timeValid then d3.deadClose c 2 else d3.deadOpen c 2

/-- CHANNEL_STOPPING_END: a TDC queue has drained, or a DTC output completes its pulse and flushes its entries; the
channel is OFF (R167). -/
def execChannelStoppingEnd (c : Fin 128) (s : State) : Result :=
  running s fun d =>
    let x := d.chan c
    if d.chanState c != enStopping || d.inFault then d
    else if d.isDtc c then
      let d1 := match x.running with
        | some r => d.endRun c (r.limit.getD (r.placedBy d.tickEnd))
        | none => d
      ((d1.dtcFlush c).chanOff c).chanAgain c
    else if x.queue.isEmpty && x.held.isEmpty && !d.hasWaits c then (d.chanOff c).chanAgain c
    else d

/-! Schedules (R185). -/

/-- DTC_ENTRY_START: the next entry begins. It takes over from the running one, and it is shifted to 1.2 ns after the
falling edge of the pulse in progress where it would come sooner; an entry lost in both copies is not placed and counts as
flushed (R185, R361). -/
def execDtcEntryStart (c : Fin 128) (dup : DupRead) (s : State) : Result :=
  running s fun d0 =>
    match (d0.chan c).sched with
    | [] => d0
    | e :: rest =>
      if d0.chanState c != enOn || !d0.isDtc c || !d0.timeValid || d0.inFault then d0
      else if (d0.readDup 13 dup).2 then
        let d := (d0.readDup 13 dup).1
        ((d.addSat (R.EC_DTC_FLUSHED c) F.EC_DTC_FLUSHED_count 1).count (chanCtr c 6)).setChan c
          { d.chan c with sched := rest }
      else
        let d := (d0.readDup 13 dup).1
        let x := d.chan c
        let g0 := e.due.getD (toGrid e.t48)
        let d1 := match x.running with
          | some r => d.endRun c (max 1 (r.placedBy (gridAdd g0 (-1))))
          | none => d
        let x1 := d1.chan c
        let (g, gap) := match x1.lastFall with
          | some f => if gridSub g0 f.1 < 960 ∧ d.ticks < f.2 + 2 ^ 24 then (gridAdd f.1 960, true) else (g0, false)
          | none => (g0, false)
        let d2 := if gap && e.due.isNone then d1.countLate c else d1
        let d3 := d2.setChan c
          { d2.chan c with sched := rest
                           running := some { entry := e, start := g, late := gap || e.due.isSome, moved := 0
                                             te := d.te, invalid := !d.timeValid
                                             stale := d.flag (R.EC_STATUS c) F.EC_STATUS_stale, limit := none } }
        if d3.standby then d3 else d3.emit (.pulses c (ofGrid g) e.width e.period e.count)

/-- DTC_ENTRY_END: the running entry has placed its pulses, or ends after the pulse in progress at a stop or at the fall of
TIME_VALID (R184, R186). -/
def execDtcEntryEnd (c : Fin 128) (placed : Nat) (s : State) : Result :=
  running s fun d =>
    match (d.chan c).running with
    | some r => d.endRun c (min placed (r.limit.getD placed))
    | none => d

end Sys2Proof.Machine
end

