-- ==== Sys2Proof/Machine/RecordOps.lean ====
section
/-! DEFINITION. The kiln log in the MRAM: where records lie, storing, clearing, and the reading cursor (R387–R395); MRAM
block writes (R331). -/

namespace Sys2Proof.Machine

/-- Bytes used, padding included, once a record of `n` bytes follows `pos` bytes: it never crosses a 256-byte block
(R389). -/
def placeRecord (pos n : Nat) : Nat :=
  if 256 < pos % 256 + n then (pos / 256 + 1) * 256 + n else pos + n

/-- Bytes used by the records of the log (R402). -/
def Nv.klogUsed (nv : Nv) : Nat := nv.klog.foldl (fun pos r => placeRecord pos r.length) 0

/-- First logical MRAM block of the kiln log: the regions of R331 in the order of the table, 256 bytes a block
(DESIGN CHOICE: log entry 137). -/
def klogBase : Nat := 256 + 13568 + 512

/-- The physical block in which a logical block lies (R331). -/
def Nv.blockOf (nv : Nv) (block : Nat) : Nat := sGet block nv.place block

/-- Physical blocks in which no logical block lies, replaced ones left out: the blocks whose logical block has moved, and the
820 spares (R331). -/
def Nv.freeBlocks (nv : Nv) : List Nat :=
  (nv.place.map Prod.fst ++ (List.range 820).map (15564 + ·)).filter fun p =>
    !(nv.place.map Prod.snd).contains p && !nv.bad.contains p

/-- The least-written free physical block, the lowest of equal ones (R331) (DESIGN CHOICE: log entry 137). -/
def Nv.leastWritten (nv : Nv) : Option Nat :=
  nv.freeBlocks.foldl (fun best p =>
    match best with
    | none => some p
    | some q =>
      if sGet 0 nv.worn p < sGet 0 nv.worn q ∨ (sGet 0 nv.worn p = sGet 0 nv.worn q ∧ p < q) then some p else best) none

/-- A logical block moves to a physical block. -/
def Nv.movedTo (nv : Nv) (block p : Nat) : Nv :=
  { nv with place := sPut block nv.place block p, worn := sPut 0 nv.worn p (sGet 0 nv.worn p + 1) }

/-- A write to a logical block that verifies: every 4,096th moves the block to the least-written physical block (R331). -/
def Nv.wrote (nv : Nv) (block : Nat) : Nv :=
  let p := nv.blockOf block
  let n := sGet 0 nv.wear block + 1
  let nv1 : Nv := { nv with wear := sPut 0 nv.wear block n, worn := sPut 0 nv.worn p (sGet 0 nv.worn p + 1) }
  if n % 4096 ≠ 0 then nv1
  else
    match nv1.leastWritten with
    | some q => if sGet 0 nv1.worn q < sGet 0 nv1.worn p then nv1.movedTo block q else nv1
    | none => nv1

/-- The physical block of a logical block is found to fail its verification from here on (R331) (DESIGN CHOICE: log entry
137). -/
def Nv.wornOut (nv : Nv) (block : Nat) : Nv := { nv with bad := nv.blockOf block :: nv.bad }

/-- A write to a logical MRAM block: a physical block that fails its verification is replaced by a spare. The answer says
whether the write took place; `told` that a refusal is recorded (R331) (DESIGN CHOICE: log entry 137). -/
def Dev.mramWrite (d : Dev) (block : Nat) (told : Bool) : Dev × Bool :=
  if !d.nv.bad.contains (d.nv.blockOf block) then ({ d with nv := d.nv.wrote block }, true)
  else if d.nv.spares = 0 then (if told then d.recMram 2 block else d, false)
  else
    let nv1 : Nv := { d.nv with spares := d.nv.spares - 1 }
    let nv2 := match nv1.leastWritten with
      | some q => { nv1 with place := sPut block nv1.place block q }
      | none => nv1
    (({ d with nv := nv2.wrote block } : Dev).recMram 1 block, true)

/-- Blocks that fail their verification from here on. -/
def Dev.wornBlocks (d : Dev) (blocks : List Nat) : Dev := { d with nv := blocks.foldl Nv.wornOut d.nv }

/-- Several logical blocks are written in order, until one is refused (R331). -/
def Dev.mramWrites (d : Dev) (blocks : List Nat) : Dev × Bool :=
  blocks.foldl (fun acc b => if acc.2 then acc.1.mramWrite b true else acc) (d, true)

/-- The log header takes new counts, where the MRAM does not refuse its block (R331, R387). -/
def Dev.headerWrite (d : Dev) (f : Nv → Nv) : Dev :=
  let (d1, ok) := ({ d with nv := f d.nv } : Dev).mramWrite klogBase true
  if ok then d1 else (d.mramWrite klogBase true).1

/-- The record registers report what the MRAM holds (R402). -/
def Dev.klogReport (d : Dev) : Dev :=
  ((((d.setFld R.ER_STATUS F.ER_STATUS_records d.nv.klog.length).setFld R.ER_USED F.ER_USED_bytes
    d.nv.klogUsed).setFld R.ER_CLEARS F.ER_CLEARS_count d.nv.clears).setFld R.ER_PWR_CYCLES F.ER_PWR_CYCLES_count
    d.nv.pwr).setFld R.ER_MINUTES F.ER_MINUTES_count d.nv.minutes

/-- A record is refused (R391) (DEDUCED: log entry 138). -/
def Dev.refuseRecord (d : Dev) : Dev :=
  let d1 := (d.addSat R.ER_REFUSED F.ER_REFUSED_count 1).count (devCtr 15)
  if d.flag R.ER_STATUS F.ER_STATUS_full then d1
  else (d1.setFlag R.ER_STATUS F.ER_STATUS_full true).raise R.ER_ALARM F.ER_ALARM_full

/-- The oldest queued record leaves the queue for the MRAM, or is refused (R390, R391) (DEDUCED: log entry 138). -/
def Dev.storeRecord (d : Dev) (needsSpare : Bool) : Dev :=
  match d.klogQueue with
  | [] => d
  | r :: rest =>
    let d0 : Dev := { d with klogQueue := rest }
    let pos := placeRecord d.nv.klogUsed r.length
    if d.flag R.ER_STATUS F.ER_STATUS_full || decide (1023 * 256 < pos) then d0.refuseRecord
    else
      let block := klogBase + 1 + (pos - r.length) / 256
      let d1 : Dev := if needsSpare then { d0 with nv := d0.nv.wornOut block } else d0
      let (d1, ok) := d1.mramWrite block (r.getD 3 0 != 0x07#8)
      if ok then ({ d1 with nv := { d1.nv with klog := d1.nv.klog ++ [r] } } : Dev).klogReport
      else (d1.addSat R.ER_REFUSED F.ER_REFUSED_count 1).count (devCtr 15)

/-- Steps 3 and 4 of a clear: the CLEAR record is record 0 and the mark is removed (R395). -/
def Dev.finishClear (d : Dev) (m : ClearMark) : Dev :=
  let r := recordBytes d.nv 0x01 (leBytes 4 d.nv.clears ++ leBytes 4 m.records ++ leBytes 4 m.refused ++
    leBytes 1 m.slot ++ leBytes 3 0)
  let d1 := (d.mramWrite (klogBase + 1) true).1.headerWrite fun nv => nv
  ((({ d1 with nv := { d1.nv with klog := [r], clearing := none } } : Dev).setFld R.ER_REFUSED F.ER_REFUSED_count
    0).setFlag R.ER_STATUS F.ER_STATUS_full false).klogReport

/-- Step 2 of a clear: the counter and the mark are written with the counts of the old log (R395) (DESIGN CHOICE: log entry
137). -/
def Dev.beginClear (d : Dev) (slot : Nat) : Dev :=
  let m : ClearMark := { records := d.nv.klog.length, refused := d.fld R.ER_REFUSED F.ER_REFUSED_count, slot := slot }
  ((({ d with nv := { d.nv with clears := d.nv.clears + 1, clearing := some m } } : Dev).mramWrite klogBase true).1.setFlag
    R.ER_STATUS F.ER_STATUS_clearing true).setFld R.ER_CLEARS F.ER_CLEARS_count (d.nv.clears + 1)

/-- A read through the window starts at the cursor's index (R393). -/
def Dev.cursorStart (d : Dev) : Dev :=
  ({ d with curReading := true } : Dev).setFlag R.ER_CURSOR F.ER_CURSOR_ready false

/-- The cursor moves on by one and reads (R393). -/
def Dev.cursorNext (d : Dev) : Dev :=
  (d.setFld R.ER_CURSOR F.ER_CURSOR_index (d.fld R.ER_CURSOR F.ER_CURSOR_index + 1)).cursorStart

end Sys2Proof.Machine
end

