-- ==== Sys2Proof/Machine/Calib.lean ====
section
/-! DEFINITION. The commands of calibration (R371–R386). -/

namespace Sys2Proof.Machine

/-- SENSOR_UPDATE: the means of the 16 sensors, in 1/16 °C, are reported; the items of a sensor whose reading has changed,
or all after a change of deltas, are recomputed, except in FAULT (R373–R375, R383). -/
def execSensorUpdate (temps : List Int) (s : State) : Result :=
  running s fun d =>
    let new (i : Nat) : Int := signed 16 (unsigned 16 (temps.getD i 0))
    let changed (i : Nat) : Bool := !d.flag (R.CA_TEMP i) F.CA_TEMP_valid || d.temp i != new i
    let d1 := (List.range 16).foldl (fun d i =>
      (d.setSigned (R.CA_TEMP i) F.CA_TEMP_temp (new i)).setFlag (R.CA_TEMP i) F.CA_TEMP_valid true) d
    let hot := (List.range 13).any fun i =>
      !d1.flag (R.CA_TEMP i) F.CA_TEMP_failed && (decide (new i < -880) || decide (1760 < new i))
    let d2 := if hot then d1.raise R.CA_ALARM F.CA_ALARM_temp_range else d1
    if d2.inFault then d2
    else
      let all := d2.ca.dirty || (List.range 16).any fun i => changed i && d2.flag (R.CA_TEMP i) F.CA_TEMP_failed
      let failedMoved (i : Nat) : Bool :=
        d2.flag (R.CA_TEMP i) F.CA_TEMP_failed && (List.range 16).any fun j => changed j
      ({ d2 with ca := { d2.ca with dirty := false } } : Dev).recompute fun i => all || changed i || failedMoved i

/-! User calibration. -/

/-- Temperature of the op's item lies within 2 °C of its cone set, where one set is named (R381)
(DEDUCED: log entry 143). -/
def Dev.opTempOk (d : Dev) (o : CalOp) : Bool :=
  if o.allSet || o.op == 1 then true
  else
    let kind := match o.op with
      | 2 => 7 | 3 => 4 | 4 => 5 | 5 => 8 | _ => 10
    decide ((d.temp (sensorOf kind o.target) - coneTemp.getD o.set 0).natAbs ≤ 32)

/-- The op's arguments name what R380 asks (DEDUCED: log entry 143). -/
def Dev.opArgsOk (d : Dev) (o : CalOp) : Bool :=
  match o.op with
  | 1 => d.tdcOn o.target
  | 2 => d.isDtc o.target && d.chanState o.target == enOn && d.turnClear o.target
  | 3 => d.tdcOn o.target && d.tdcOn o.ref
  | 4 => d.isDtc o.target && d.chanState o.target == enOn && d.tdcOn o.ref
  | 5 =>
    decide (o.target ≤ 3) && d.fld (R.CK_REF_CFG o.target) F.CK_REF_CFG_rank == 0 && d.tdcOn o.ref &&
      !(d.fld R.TC_SRC_CFG F.TC_SRC_CFG_source == 1 && d.fld R.TC_SRC_CFG F.TC_SRC_CFG_refin == o.target)
  | 6 =>
    decide (o.target ≤ 1) && d.fld (R.CK_PPS_CFG o.target) F.CK_PPS_CFG_state == enOn &&
      decide ((d.reg (R.CK_PPS_PERIOD o.target)).toNat ≤ 24000) && d.tdcOn o.ref
  | _ => false

/-- A write of CA_CMD (R380–R382, R385). -/
def Dev.calCommand (d : Dev) (w : Word) : Dev :=
  if !d.inGlaze || d.fld R.CA_STATUS F.CA_STATUS_state != 0 then d.raise R.CA_ALARM F.CA_ALARM_cfg_reject
  else
    let d1 := d.setReg R.CA_CMD (w &&& 0x7F807F7F#32)
    if getField w F.CA_CMD_go = 0 then d1
    else
      let o : CalOp := { op := getField w F.CA_CMD_op, set := getField w F.CA_CMD_set,
                         allSet := getField w F.CA_CMD_all_sets == 1, target := getField w F.CA_CMD_target,
                         ref := getField w F.CA_CMD_ref, a := none, waits := false }
      let d2 := (d1.setReg R.CA_RESULT_A 0x80000000#32).setReg R.CA_RESULT_B 0x80000000#32
      if !d2.opArgsOk o then d2.setFld R.CA_STATUS F.CA_STATUS_result 5
      else if !d2.opTempOk o then
        (d2.setFld R.CA_STATUS F.CA_STATUS_result 3).raise R.CA_ALARM F.CA_ALARM_temp_window
      else
        let d3 : Dev := { d2 with ca := { d2.ca with op := some o } }
        let wait := (List.range 128).any fun c => d3.opNames c && d3.flag (R.EC_STATUS c) F.EC_STATUS_cal
        let d4 := if wait then { d3 with ca := { d3.ca with op := some { o with waits := true } } } else d3.opBegin o
        (d4.setFld R.CA_STATUS F.CA_STATUS_state 1).setFld R.CA_STATUS F.CA_STATUS_result 0

/-- A delta is pending for an item and set (R372). -/
def Dev.setPending (d : Dev) (item set : Nat) (v : Int) : Dev :=
  let k := setKey item set
  { d with ca := { d.ca with pending := sIns (sDel d.ca.pending k) k v, dirty := true } }

/-- D is added to the delta of an item and set. The manual gives no value for a sum outside the item's range: it is then
a free value within it (DESIGN CHOICE: log entry 141). -/
def Dev.addDelta (d : Dev) (kind item set : Nat) (v : Int) : Dev :=
  let n := d.deltaInForce item set + v
  let lim : Int := deltaLimit kind
  if -lim ≤ n ∧ n ≤ lim then d.setPending item set n
  else
    let (bs, d1) := d.freeBytes 4
    d1.setPending item set ((leNat bs : Int) % (2 * lim + 1) - lim)

/-- The result of an op is accepted (R379–R381). -/
def Dev.opAccept (d : Dev) (o : CalOp) (mean : Int) (table : List (BitVec 16)) : Dev :=
  let add (kind : Nat) (v : Int) : Dev :=
    let item := itemKey kind o.target 0
    (if o.allSet then List.range 8 else [o.set]).foldl (fun d s => d.addDelta kind item s v) d
  match o.op with
  | 1 => d.takeTable o.target table mean none
  | 2 => add 7 (trimCodes mean)
  | 3 => add 4 mean
  | 4 => add 5 mean
  | 5 => add 8 mean
  | _ => add 10 mean

/-- CAL_MEASUREMENT_END: measurement A ends and B starts, or B ends and the two are compared (R379–R381). -/
def execCalMeasurementEnd (value : Int) (table : List (BitVec 16)) (s : State) : Result :=
  running s fun d =>
    match d.ca.op with
    | none => d
    | some o =>
      if o.waits then d
      else
        match o.a with
        | none =>
          let d1 := ({ d with ca := { d.ca with op := some { o with a := some value } } } : Dev).setReg R.CA_RESULT_A
            (delayWord value)
          if d1.opTempOk o then d1.setFld R.CA_STATUS F.CA_STATUS_state 2
          else (d1.opEnd 3).raise R.CA_ALARM F.CA_ALARM_temp_window
        | some a =>
          let d1 := d.setReg R.CA_RESULT_B (delayWord value)
          if (if o.op = 1 then agreeScale a value else agreeDelay a value) then
            (d1.opAccept o (meanOf a value) table).opEnd 1
          else (d1.opEnd 2).raise R.CA_ALARM F.CA_ALARM_disagree

/-- CAL_OP_TIMEOUT: 4,096 pairs were not gathered within 100 ms (R380). -/
def execCalOpTimeout (s : State) : Result := running s fun d => d.calAbort

/-! Deltas (R372, R383, R386). -/

/-- A write of CA_DELTA_VAL. -/
def Dev.deltaWrite (d : Dev) (w : Word) : Dev :=
  let kind := d.fld R.CA_DELTA_SEL F.CA_DELTA_SEL_kind
  let index := d.fld R.CA_DELTA_SEL F.CA_DELTA_SEL_index
  let rate := if kind ≤ 3 then d.fld R.CA_DELTA_SEL F.CA_DELTA_SEL_rate else 0
  let v := signed 32 w.toNat
  let n := kindCount kind
  if d.fld R.CA_STATUS F.CA_STATUS_state ≠ 0 ∨ n.1 ≤ index ∨ n.2 ≤ rate ∨ deltaLimit kind < v.natAbs then
    d.raise R.CA_ALARM F.CA_ALARM_cfg_reject
  else d.setPending (itemKey kind index rate) (d.fld R.CA_DELTA_SEL F.CA_DELTA_SEL_set) v

/-- A write of CA_STORE.discard = 1 (DEDUCED: log entry 145). -/
def Dev.deltaDiscard (d : Dev) : Dev := { d with ca := { d.ca with pending := [], dirty := true } }

/-- A write of CA_STORE.store = 1: accepted in FIRING, GLAZE and YIELDED while no op or store runs. -/
def Dev.deltaStore (d : Dev) : Dev :=
  if (d.stage == .firing || d.stage == .glaze || d.stage == .yielded) && d.fld R.CA_STATUS F.CA_STATUS_state == 0 then
    ({ d with ca := { d.ca with storing := true } } : Dev).setFld R.CA_STATUS F.CA_STATUS_state 3
  else d

/-- A write of CA_STORE: each bit that reads 1 acts. -/
def Dev.caStore (d : Dev) (w : Word) : Dev :=
  let d1 := if getField w F.CA_STORE_discard = 1 then d.deltaDiscard else d
  if getField w F.CA_STORE_store = 1 then d1.deltaStore else d1

/-- First logical MRAM block of the delta region, and the blocks of one copy (R331, R383) (DESIGN CHOICE: log entry 137). -/
def deltaBase : Nat := 256 + 13568
/-- Blocks of one copy of the delta region. -/
def deltaBlocks : Nat := 256

/-- DELTA_STORE_END, with the blocks of the copy that fail their verification: the older copy holds the deltas in force under
the next sequence number, and pending deltas are stored; or the MRAM refused the store (R331, R383)
(DEDUCED: log entry 145). -/
def execDeltaStoreEnd (fails : List (Fin 256)) (s : State) : Result :=
  awake s fun d =>
    if !d.ca.storing then d
    else
      let d0 := ({ d with ca := { d.ca with storing := false } } : Dev).setFld R.CA_STATUS F.CA_STATUS_state 0
      let second := d.nv.copyB.good && (!d.nv.copyA.good || decide (d.nv.copyA.seq < d.nv.copyB.seq))
      let newest := if second then d.nv.copyB.seq else d.nv.copyA.seq
      let from_ := deltaBase + (if second then 0 else deltaBlocks)
      let (d1, ok) := (d0.wornBlocks (fails.map fun i => from_ + i.val)).mramWrites ((List.range deltaBlocks).map (from_ + ·))
      if !ok then d1.raise R.CA_ALARM F.CA_ALARM_store_fail
      else
        let x : DeltaCopy := { seq := newest + 1, good := true, deltas := d.deltasInForce }
        let d2 : Dev := { d1 with nv := if second then { d1.nv with copyA := x } else { d1.nv with copyB := x }
                                  ca := { d1.ca with stored := d.deltasInForce, pending := [] } }
        ((d2.setFld R.CA_DELTA_STAT F.CA_DELTA_STAT_seq (newest + 1)).setFlag R.CA_DELTA_STAT F.CA_DELTA_STAT_copy
          (!second)).recCal 2 0 0 0xFF (newest + 1)

end Sys2Proof.Machine
end

