-- ==== Sys2Proof/Machine/Crypto.lean ====
section
/-! DEFINITION. The cryptography of the saggar: SHA-384, HMAC-SHA-384 and ECDSA over P-384 (R414, R416, R417). The manual
names the algorithms only; their definitions are those of FIPS 180-4, FIPS 198-1 and FIPS 186-5. -/

namespace Sys2Proof.Machine.Crypto

/-! SHA-384. -/

/-- A 64-bit word of the hash. -/
abbrev W64 := BitVec 64

/-- The round constants of SHA-384. -/
def roundWords : List Nat :=
  [0x428A2F98D728AE22, 0x7137449123EF65CD, 0xB5C0FBCFEC4D3B2F, 0xE9B5DBA58189DBBC] ++
  [0x3956C25BF348B538, 0x59F111F1B605D019, 0x923F82A4AF194F9B, 0xAB1C5ED5DA6D8118] ++
  [0xD807AA98A3030242, 0x12835B0145706FBE, 0x243185BE4EE4B28C, 0x550C7DC3D5FFB4E2] ++
  [0x72BE5D74F27B896F, 0x80DEB1FE3B1696B1, 0x9BDC06A725C71235, 0xC19BF174CF692694] ++
  [0xE49B69C19EF14AD2, 0xEFBE4786384F25E3, 0x0FC19DC68B8CD5B5, 0x240CA1CC77AC9C65] ++
  [0x2DE92C6F592B0275, 0x4A7484AA6EA6E483, 0x5CB0A9DCBD41FBD4, 0x76F988DA831153B5] ++
  [0x983E5152EE66DFAB, 0xA831C66D2DB43210, 0xB00327C898FB213F, 0xBF597FC7BEEF0EE4] ++
  [0xC6E00BF33DA88FC2, 0xD5A79147930AA725, 0x06CA6351E003826F, 0x142929670A0E6E70] ++
  [0x27B70A8546D22FFC, 0x2E1B21385C26C926, 0x4D2C6DFC5AC42AED, 0x53380D139D95B3DF] ++
  [0x650A73548BAF63DE, 0x766A0ABB3C77B2A8, 0x81C2C92E47EDAEE6, 0x92722C851482353B] ++
  [0xA2BFE8A14CF10364, 0xA81A664BBC423001, 0xC24B8B70D0F89791, 0xC76C51A30654BE30] ++
  [0xD192E819D6EF5218, 0xD69906245565A910, 0xF40E35855771202A, 0x106AA07032BBD1B8] ++
  [0x19A4C116B8D2D0C8, 0x1E376C085141AB53, 0x2748774CDF8EEB99, 0x34B0BCB5E19B48A8] ++
  [0x391C0CB3C5C95A63, 0x4ED8AA4AE3418ACB, 0x5B9CCA4F7763E373, 0x682E6FF3D6B2B8A3] ++
  [0x748F82EE5DEFB2FC, 0x78A5636F43172F60, 0x84C87814A1F0AB72, 0x8CC702081A6439EC] ++
  [0x90BEFFFA23631E28, 0xA4506CEBDE82BDE9, 0xBEF9A3F7B2C67915, 0xC67178F2E372532B] ++
  [0xCA273ECEEA26619C, 0xD186B8C721C0C207, 0xEADA7DD6CDE0EB1E, 0xF57D4F7FEE6ED178] ++
  [0x06F067AA72176FBA, 0x0A637DC5A2C898A6, 0x113F9804BEF90DAE, 0x1B710B35131C471B] ++
  [0x28DB77F523047D84, 0x32CAAB7B40C72493, 0x3C9EBE0A15C9BEBC, 0x431D67C49C100D4C] ++
  [0x4CC5D4BECB3E42B6, 0x597F299CFC657E2A, 0x5FCB6FAB3AD6FAEC, 0x6C44198C4A475817]

/-- The initial hash value of SHA-384. -/
def initWords : List Nat :=
  [0xCBBB9D5DC1059ED8, 0x629A292A367CD507, 0x9159015A3070DD17, 0x152FECD8F70E5939] ++
  [0x67332667FFC00B31, 0x8EB44A8768581511, 0xDB0C2E0D64F98FA7, 0x47B5481DBEFA4FA4]

/-- The message schedule grows by one word: words are kept newest first. -/
def scheduleStep (ws : List W64) : List W64 :=
  let w (i : Nat) : W64 := ws.getD (i - 1) 0
  let s0 := (w 15).rotateRight 1 ^^^ (w 15).rotateRight 8 ^^^ (w 15) >>> 7
  let s1 := (w 2).rotateRight 19 ^^^ (w 2).rotateRight 61 ^^^ (w 2) >>> 6
  (w 16 + s0 + w 7 + s1) :: ws

/-- The 80 words of the schedule of a block of 16, in order. -/
def schedule (block : List W64) : List W64 :=
  ((List.range 64).foldl (fun ws _ => scheduleStep ws) block.reverse).reverse

/-- One round on the eight working words. -/
def round (h : List W64) (kw : W64) : List W64 :=
  match h with
  | [a, b, c, d, e, f, g, i] =>
    let s1 := e.rotateRight 14 ^^^ e.rotateRight 18 ^^^ e.rotateRight 41
    let ch := (e &&& f) ^^^ (~~~e &&& g)
    let t1 := i + s1 + ch + kw
    let s0 := a.rotateRight 28 ^^^ a.rotateRight 34 ^^^ a.rotateRight 39
    let mj := (a &&& b) ^^^ (a &&& c) ^^^ (b &&& c)
    [t1 + s0 + mj, a, b, c, d + t1, e, f, g]
  | _ => h

/-- The compression of one block into the hash value. -/
def compress (h block : List W64) : List W64 :=
  let kws := List.zipWith (fun k w => BitVec.ofNat 64 k + w) roundWords (schedule block)
  List.zipWith (· + ·) h (kws.foldl round h)

/-- The 64-bit words of octets, most significant octet first. -/
def wordsOf : Nat → List Byte → List W64
  | 0, _ => []
  | n + 1, bs => BitVec.ofNat 64 (beNat (bs.take 8)) :: wordsOf n (bs.drop 8)

/-- Blocks of 16 words, folded into the hash value. -/
def blocks (h : List W64) : Nat → List Byte → List W64
  | 0, _ => h
  | n + 1, bs => blocks (compress h (wordsOf 16 (bs.take 128))) n (bs.drop 128)

/-- SHA-384 of octets. -/
def sha384 (bs : List Byte) : List Byte :=
  let zeros := (239 - bs.length % 128) % 128
  let msg := bs ++ [0x80] ++ List.replicate zeros 0 ++ beBytes 16 (8 * bs.length)
  ((blocks (initWords.map (BitVec.ofNat 64)) (msg.length / 128) msg).take 6).flatMap fun w => beBytes 8 w.toNat

/-- HMAC-SHA-384 with a key of at most 128 octets. -/
def hmac384 (key msg : List Byte) : List Byte :=
  let k := key ++ List.replicate (128 - key.length) 0
  sha384 (k.map (· ^^^ 0x5C) ++ sha384 (k.map (· ^^^ 0x36) ++ msg))

/-! P-384. -/

/-- The field prime. -/
def prime : Nat := 2 ^ 384 - 2 ^ 128 - 2 ^ 96 + 2 ^ 32 - 1
/-- The order of the base point. -/
def order : Nat :=
  0xFFFFFFFFFFFFFFFFFFFFFFFFFFFFFFFFFFFFFFFFFFFFFFFFC7634D81F4372DDF581A0DB248B0A77AECEC196ACCC52973
/-- The curve constant b; a is −3. -/
def curveB : Nat :=
  0xB3312FA7E23EE7E4988E056BE3F82D19181D9C6EFE8141120314088F5013875AC656398D8A2ED19D2A85C8EDD3EC2AEF
/-- The base point. -/
def baseX : Nat :=
  0xAA87CA22BE8B05378EB1C71EF320AD746E1D3B628BA79B9859F741E082542A385502F25DBF55296C3A545E3872760AB7
/-- Ordinate of the base point. -/
def baseY : Nat :=
  0x3617DE4A96262C6F5D9E98BF9292DC29F8F41DBD289A147CE9DA3113B5F0B8C00A60B1CE1D7E819D7A431D7C90EA0E5F

/-- `a` to the power given by the `n` low bits of `e`, modulo `m`. -/
def powMod (m a e : Nat) : Nat → Nat
  | 0 => 1 % m
  | n + 1 =>
    let r := powMod m (a * a % m) (e / 2) n
    if e % 2 = 1 then a * r % m else r

/-- The inverse modulo a prime. -/
def invMod (m a : Nat) : Nat := powMod m a (m - 2) 384

/-- `a − b` in the field. -/
def subP (a b : Nat) : Nat := (a + prime - b % prime) % prime

/-- A point in Jacobian coordinates: (x / z², y / z³); z = 0 is the neutral point. -/
structure Point where
  x : Nat
  y : Nat
  z : Nat
  deriving DecidableEq, Repr

/-- The neutral point. -/
def Point.zero : Point := { x := 1, y := 1, z := 0 }

/-- Twice a point. -/
def Point.double (p : Point) : Point :=
  if p.z = 0 ∨ p.y = 0 then Point.zero
  else
    let zz := p.z * p.z % prime
    let yy := p.y * p.y % prime
    let s := 4 * p.x * yy % prime
    let m := 3 * subP p.x zz * (p.x + zz) % prime
    let x := subP (m * m) (2 * s)
    { x := x, y := subP (m * subP s x) (8 * yy * yy), z := 2 * p.y * p.z % prime }

/-- The sum of two points. -/
def Point.add (p q : Point) : Point :=
  if p.z = 0 then q
  else if q.z = 0 then p
  else
    let zp := p.z * p.z % prime
    let zq := q.z * q.z % prime
    let u1 := p.x * zq % prime
    let u2 := q.x * zp % prime
    let s1 := p.y * q.z * zq % prime
    let s2 := q.y * p.z * zp % prime
    if u1 = u2 then (if s1 = s2 then p.double else Point.zero)
    else
      let h := subP u2 u1
      let r := subP s2 s1
      let hh := h * h % prime
      let hhh := h * hh % prime
      let v := u1 * hh % prime
      let x := subP (r * r) (hhh + 2 * v)
      { x := x, y := subP (r * subP v x) (s1 * hhh), z := h * p.z * q.z % prime }

/-- The multiple of a point by the `n` low bits of `k`. -/
def Point.mul (p : Point) (k : Nat) : Nat → Point
  | 0 => Point.zero
  | n + 1 =>
    let r := p.double.mul (k / 2) n
    if k % 2 = 1 then p.add r else r

/-- The coordinates satisfy the curve's equation. -/
def onCurve (x y : Nat) : Bool :=
  decide (x < prime) && decide (y < prime) && y * y % prime == (subP (x * x % prime * x) (3 * x) + curveB) % prime

/-- An ECDSA signature (r, s) over a digest holds under the public key (x, y) (PRESUMED: log entry 154). -/
def verify (x y r s : Nat) (digest : List Byte) : Bool :=
  if r = 0 ∨ order ≤ r ∨ s = 0 ∨ order ≤ s ∨ !onCurve x y then false
  else
    let w := invMod order s
    let u1 := beNat digest * w % order
    let u2 := r * w % order
    let p := (({ x := baseX, y := baseY, z := 1 } : Point).mul u1 384).add
      (({ x := x, y := y, z := 1 } : Point).mul u2 384)
    let zi := invMod prime p.z
    p.z != 0 && (p.x * (zi * zi % prime) % prime) % order == r

end Sys2Proof.Machine.Crypto
end

