-- ==== Sys2Proof/Machine/RegOps.lean ====
section
/-! DEFINITION. How a write stores a register's fields by their access types (R8, R423). -/

namespace Sys2Proof.Machine

/-- A word of field values. -/
def wordOf (w : Word) (fs : List (Field × Nat)) : Word := fs.foldl (fun x f => putField x f.1 f.2) w

/-- The value that an RW field stores; a reserved code or one above the limit leaves it. -/
def WRule.store (r : WRule) (old new : Nat) : Nat :=
  match r with
  | .any => new
  | .reserved codes => if codes.contains new then old else new
  | .ignoreAbove limit => if limit < new then old else new
  | .within least most => max least (min most new)

/-- One field of a register after a write. -/
def FieldSpec.store (f : FieldSpec) (written held : Word) : Word :=
  match f.acc with
  | .rw => putField held f.fld (f.rule.store (getField held f.fld) (getField written f.fld))
  | .w1c => putField held f.fld (getField held f.fld &&& ((2 ^ (f.fld.hi + 1 - f.fld.lo) - 1) ^^^ getField written f.fld))
  | .ro | .wo | .rs | .rc => held

/-- The word that register `o` holds after a write, each field by its own type. -/
def Dev.fieldsStored (d : Dev) (o : Nat) (w : Word) : Word :=
  match regSpec o with
  | some r => r.fields.foldl (fun held f => f.store w held) (d.reg o)
  | none => d.reg o

/-- A write of a register that has no effect beyond its fields (DEDUCED: log entry 162). -/
def Dev.store (d : Dev) (o : Nat) (w : Word) : Dev := d.setReg o (d.fieldsStored o w)

end Sys2Proof.Machine
end

