-- ==== Sys2Proof/Machine/TimeOps.lean ====
section
/-! DEFINITION. The time core: validity, steps, the servo and offset samples, the series of PPS outputs, and the advance of
the counter by one TIME tick (R61, R137–R148). -/

namespace Sys2Proof.Machine

/-- The cleaner state code (R40). -/
def Dev.cleaner (d : Dev) : Nat := d.fld R.CK_STATUS F.CK_STATUS_state
/-- The selected reference. -/
def Dev.selRef (d : Dev) : Nat := d.fld R.CK_STATUS F.CK_STATUS_sel_ref
/-- LOCKED, as R147 reads it: SWITCHING counts as LOCKED. -/
def Dev.locked (d : Dev) : Bool := d.cleaner == 4 || d.cleaner == 5
/-- The time source in force: TC_SRC_CFG.source, or in STANDBY the pair port as source 2 (R145, R410)
(DEDUCED: log entry 59). -/
def Dev.timeSource (d : Dev) : Nat := if d.standby then 2 else d.fld R.TC_SRC_CFG F.TC_SRC_CFG_source
/-- The port of source 2. -/
def Dev.sourcePort (d : Dev) : Nat :=
  if d.standby then d.fld R.PS_PAIR_CFG F.PS_PAIR_CFG_port else d.fld R.TC_SRC_CFG F.TC_SRC_CFG_port
/-- TC_STATUS.state (R147): 0 INVALID, 1 ALIGNING, 2 VALID, 3 HOLD. -/
def Dev.validity (d : Dev) : Nat := d.fld R.TC_STATUS F.TC_STATUS_state
/-- Reference n is QUALIFIED. -/
def Dev.qualified (d : Dev) (n : Nat) : Bool := d.fld (R.CK_REF_STATUS n) F.CK_REF_STATUS_qual == 3

/-- Hidden state of lane n. -/
def Dev.lane (d : Dev) (n : Nat) : Lane := sGet Lane.reset d.lanes n
/-- Hidden state of lane n replaced. -/
def Dev.setLane (d : Dev) (n : Nat) (x : Lane) : Dev := { d with lanes := sPut Lane.reset d.lanes n x }

/-- The selected reference is a lane of port p (R146), which STANDBY does not ask (R410). -/
def Dev.follows (d : Dev) (p : Nat) : Bool :=
  d.standby || decide (4 ≤ d.selRef) && decide (d.selRef < 68) && (d.lane (d.selRef - 4)).port == some p

/-- The time source is present (R147). -/
def Dev.sourcePresent (d : Dev) : Bool :=
  match d.timeSource with
  | 1 => d.qualified (d.fld R.TC_SRC_CFG F.TC_SRC_CFG_refin)
  | 2 =>
    let p := d.sourcePort
    d.linkUp p && d.flag (R.LK_STATUS p) F.LK_STATUS_timing && !(d.port p).invalid && d.follows p
  | 3 => d.flag R.TC_CTRL F.TC_CTRL_host_valid
  | _ => false

/-! Validity (R147). -/

/-- A validity state is entered; TIME_VALID is high in VALID and HOLD, and its edges reach the edge channels and the trigger
plane, and its fall ends a user calibration (R382). -/
def Dev.setValidity (d : Dev) (st : Nat) : Dev :=
  let was := d.timeValid
  let now := decide (2 ≤ st)
  let d1 := (d.setFld R.TC_STATUS F.TC_STATUS_state st).setFlag R.TC_STATUS F.TC_STATUS_time_valid now
  let d2 : Dev := { d1 with tc := { d1.tc with goodRun := 0, badRun := 0
                                               marks := if was == now then d1.tc.marks else d.marked 0 } }
  if was && !now then d2.edgeTimeFall.trigTimeFall.calAbort
  else if !was && now then d2.edgeTimeRise.trigTimeRise
  else d2

/-- The fall from VALID or HOLD to ALIGNING. -/
def Dev.validLost (d : Dev) : Dev := (d.setValidity 1).raise R.TC_ALARM F.TC_ALARM_valid_lost

/-- HOLD becomes VALID: the source is present and the cleaner LOCKED again. -/
def Dev.holdReturn (d : Dev) : Dev := if d.sourcePresent && d.locked then d.setValidity 2 else d

/-- The rows of R147 that rest on the presence of the source and the cleaner's state, FAULT apart
(DEDUCED: log entry 56). -/
def Dev.validCheck (d : Dev) : Dev :=
  match d.validity with
  | 1 =>
    if d.timeSource = 3 then (if d.sourcePresent && d.locked then d.setValidity 2 else d)
    else if d.sourcePresent && d.locked then d
    else { d with tc := { d.tc with goodRun := 0 } }
  | 2 =>
    if d.cleaner = 1 ∨ d.cleaner = 2 then d.validLost
    else if !d.sourcePresent then (d.setValidity 3).raise R.TC_ALARM F.TC_ALARM_src_lost
    else if d.cleaner = 6 then d.setValidity 3
    else d
  | 3 => if d.cleaner = 1 then d.validLost else d.holdReturn
  | _ => d

/-! Series of PPS outputs (R60, R61). -/

/-- Hidden state of PPS output m. -/
def Dev.ppsOut (d : Dev) (m : Nat) : PpsOut := sGet PpsOut.reset d.ck.pps m
/-- Hidden state of PPS output m replaced. -/
def Dev.setPpsOut (d : Dev) (m : Nat) (x : PpsOut) : Dev :=
  { d with ck := { d.ck with pps := sPut PpsOut.reset d.ck.pps m x } }
/-- Period of PPS output m on the T48 scale. -/
def Dev.ppsPeriod (d : Dev) (m : Nat) : Nat := ns (d.reg (R.CK_PPS_PERIOD m)).toNat

/-- Whole periods are added until the value lies after the counter. A period of half the wrap or more acts as a step back
by the rest of the wrap (DESIGN CHOICE: log entry 26) (DEDUCED: log entry 60). -/
def carryForward (next period now : Nat) : Nat :=
  let d := t48Sub next now
  if 0 < d then next
  else if period < t48Mod / 2 then seriesAfter next period now
  else
    let q := t48Mod - period
    if q = 0 then next else t48Add next (-(((d + (t48Mod / 2 : Nat)) / (q : Int) + 1) * q))

/-- The first instant of the series after the counter, on either side of the value (R61) (DEDUCED: log entry 60). -/
def ppsShift (next period now : Nat) : Nat :=
  if 0 < t48Sub next now ∧ period < t48Mod / 2 then seriesAfter next period now else carryForward next period now

/-- A step of the counter by a change: every PPS output holds the first instant of its series after the counter, and a pulse
in progress completes its width (R61). -/
def Dev.ppsStep (d : Dev) (change : Int) : Dev :=
  (List.range 2).foldl (fun d m =>
    d.setPpsOut m { d.ppsOut m with
      next := ppsShift (d.ppsOut m).next (d.ppsPeriod m) d.now
      fall := if (d.ppsOut m).pulsing then t48Add (d.ppsOut m).fall change else (d.ppsOut m).fall }) d

/-! Steps (R140–R144). -/

/-- A step is refused: alarm, count, TIME_STEP record; VALID falls to ALIGNING (R141, R144, R147). -/
def Dev.stepRefuse (d : Dev) (cause : Nat) (change : Int) : Dev :=
  let d1 := ((d.raise R.TC_ALARM F.TC_ALARM_step_refused).count (devCtr 12)).recStep 2 d.te cause change
  if d1.validity = 2 then d1.validLost else d1

/-- The change that a request stands for at this tick (R140). -/
def StepReq.change (r : StepReq) (now : Nat) : Int :=
  if r.absolute then t48Sub (unsigned 48 r.value) now else r.value

/-- A step request: refused while another is pending, which stays pending with step_busy at 1 (R141). The answer says whether
it was taken (DESIGN CHOICE: log entry 54). -/
def Dev.stepRequest (d : Dev) (r : StepReq) : Dev × Bool :=
  if d.tc.step.isSome then (d.stepRefuse 3 (r.change d.now), false)
  else (({ d with tc := { d.tc with step := some r } } : Dev).setFlag R.TC_STATUS F.TC_STATUS_step_busy true, true)

/-- Lane n sends disturb for the rest of its window, which it does not publish itself (R127). -/
def Dev.disturbLane (d : Dev) (n : Nat) : Dev :=
  let x := d.lane n
  d.setLane n { x with disturb := true, cur := { x.cur with spoilt := true } }

/-- Lane n is a lane of an Isazu port, whatever its bring-up has reached: a version-3 lane sends management blocks from SYMLOCK
on, and versions 1 and 2 exchange delays in band (R120, R129). -/
def Dev.exchangeLane (d : Dev) (n : Nat) : Bool := (d.lane n).port.isSome && !(d.lane n).ethernet

/-- Every lane of an Isazu port sends disturb for the rest of its window (R127, R143). -/
def Dev.disturbAll (d : Dev) : Dev :=
  (List.range 64).foldl (fun d n => if d.exchangeLane n then d.disturbLane n else d) d

/-- The step tick: the pending step is refused, or applied with all that follows from it at the same tick (R141–R144, R61,
R171, R186, R214). -/
def Dev.stepNow (d : Dev) : Dev :=
  match d.tc.step with
  | none => d
  | some r =>
    let d0 := ({ d with tc := { d.tc with step := none } } : Dev).setFlag R.TC_STATUS F.TC_STATUS_step_busy false
    let ch := r.change d.now
    let large := decide (ns (d.reg R.TC_STEP_LIMIT).toNat < ch.natAbs)
    if d0.inFault then d0.stepRefuse 2 ch
    else if ch = 0 then d0.stepRefuse 4 ch
    else if large && !r.force then d0.stepRefuse 1 ch
    else
      let acc := ((d0.tc.acc : Int) + ch * 2 ^ 24) % (2 ^ 72 : Nat)
      let expect := if r.onPps then d0.tc.expect else t48Add d0.tc.expect ch
      let d1 := ((({ d0 with tc := { d0.tc with acc := acc.toNat, expect := expect, marks := d0.marked ch } } : Dev).setFld
        R.TC_STATUS F.TC_STATUS_te (d0.te + 1)).raise R.TC_ALARM F.TC_ALARM_step_applied).count (devCtr 11)
      let d2 := if large then d1.recStep 1 d1.te 0 ch else d1
      ((((d2.ppsStep ch).disturbAll).edgeStep d.now).trigStep d.now).calAbort

/-! Offset samples and the servo (R145–R148). -/

/-- a >> n on a signed value. -/
def shiftRight (a : Int) (n : Nat) : Int := a / (2 ^ n : Nat)

/-- One run of the servo on an offset sample (R148) (DESIGN CHOICE: log entry 22) (DEDUCED: log entry 55). -/
def Dev.servo (d : Dev) (ofs : Int) (onPps : Bool) : Dev :=
  let thresh := max 1 (d.fld R.TC_SERVO_CFG F.TC_SERVO_CFG_step_thresh)
  if ns thresh < ofs.natAbs then
    let r : StepReq := { value := -ofs, absolute := false, onPps := onPps,
                         force := d.validity == 1 && d.flag R.TC_SERVO_CFG F.TC_SERVO_CFG_realign }
    let d1 := (d.stepRequest r).1
    { d1 with tc := { d1.tc with integ := 0 } }
  else
    let integ := clampI (-(2 ^ 30 : Nat)) (2 ^ 30 : Nat) (d.tc.integ + ofs)
    let sp := d.tc.sp - shiftRight ofs (d.fld R.TC_SERVO_CFG F.TC_SERVO_CFG_kp_shift) -
      shiftRight integ (d.fld R.TC_SERVO_CFG F.TC_SERVO_CFG_ki_shift)
    let held := clampI (-0x7FFFFFFF) 0x7FFFFFFF sp
    let d1 := if held = sp then d else d.raise R.TC_ALARM F.TC_ALARM_sp_clamp
    ({ d1 with tc := { d1.tc with integ := integ, sp := held } } : Dev).setSigned R.CK_PHASE_SP F.CK_PHASE_SP_value held

/-- An offset sample: published, given to the device's servo, and counted as good or not good (R145, R147, R148)
(DEDUCED: log entry 55). -/
def Dev.sample (d : Dev) (ofs : Int) (onPps : Bool) : Dev :=
  let d1 := d.setSigned R.TC_OFS_LAST F.TC_OFS_LAST_value (clampI (-0x7FFFFFFF) 0x7FFFFFFF ofs)
  let d2 := if d.flag R.TC_CTRL F.TC_CTRL_servo_mode then d1.servo ofs onPps else d1
  let good := decide (ofs.natAbs * 1000 ≤ d.fld R.TC_VALID_CFG F.TC_VALID_CFG_thresh * 65536)
  let need := max 1 (d.fld R.TC_VALID_CFG F.TC_VALID_CFG_windows)
  match d2.validity with
  | 1 =>
    let n := if good && d2.locked && d2.sourcePresent then d2.tc.goodRun + 1 else 0
    if need ≤ n then d2.setValidity 2 else { d2 with tc := { d2.tc with goodRun := n } }
  | 2 =>
    let n := if good then 0 else d2.tc.badRun + 1
    if need ≤ n then d2.validLost else { d2 with tc := { d2.tc with badRun := n } }
  | _ => d2

/-! The tick (R137, R138, R47, R48). -/

/-- Increment of a tick: the nominal sequence, or TC_INCR. -/
def nominalIncr (pos : Nat) : Nat := if pos = 0 ∨ pos = 2 then 1759218604441 else 1759218604442

/-- One TIME tick of the counter; a committed TC_INCR takes effect first. -/
def Tc.tick (t : Tc) (fromReg : Bool) : Tc :=
  let incr := t.incrNext.getD t.incr
  { t with
    acc := (t.acc + (if fromReg then incr else nominalIncr t.pos)) % 2 ^ 72
    pos := t.pos + 1
    incr := incr
    incrNext := none }

/-- The applied setpoint follows CK_PHASE_SP at 10 ps per ms in NARROW, LOCKED and SWITCHING (R48)
(DESIGN CHOICE: log entry 22). -/
def Ck.slewSp (k : Ck) (target : Int) (on : Bool) : Ck :=
  if !on || k.spNow == target then { k with spAcc := 0 }
  else if 62500000 ≤ k.spAcc + 65536 then
    { k with spAcc := k.spAcc + 65536 - 62500000, spNow := if k.spNow < target then k.spNow + 1 else k.spNow - 1 }
  else { k with spAcc := k.spAcc + 65536 }

/-- The DCO frequency moves by 1 ppt every 100 ns toward the frequency in force (R47) (DESIGN CHOICE: log entry 21). -/
def Ck.slewDco (k : Ck) : Ck :=
  if k.dcoNow = k.dcoTarget then { k with dcoAcc := 0 }
  else if 125 ≤ k.dcoAcc + 2 then
    { k with dcoAcc := k.dcoAcc + 2 - 125, dcoNow := if k.dcoNow < k.dcoTarget then k.dcoNow + 1 else k.dcoNow - 1 }
  else { k with dcoAcc := k.dcoAcc + 2 }

/-- One TIME tick of the device (DESIGN CHOICE: log entry 3) (DEDUCED: log entry 53). -/
def Dev.tick (d : Dev) : Dev :=
  let st := d.cleaner
  { d with
    ticks := d.ticks + 1
    tc := d.tc.tick (d.flag R.TC_CTRL F.TC_CTRL_incr_src)
    ck := (d.ck.slewSp (d.sfld R.CK_PHASE_SP F.CK_PHASE_SP_value) (st == 3 || st == 4 || st == 5)).slewDco }

end Sys2Proof.Machine
end

