-- ==== Sys2Proof/Machine/ClockOps.lean ====
section
/-! DEFINITION. The clock tree: qualification of references, ranks and selection, the cleaner's states, holdover and
free-run frequencies, and the alignment of clock outputs (R29–R61). -/

namespace Sys2Proof.Machine

/-! References (R32–R36). -/

/-- Hidden state of reference n. -/
def Dev.refH (d : Dev) (n : Nat) : RefH := sGet RefH.reset d.ck.refs n
/-- Hidden state of reference n replaced. -/
def Dev.setRefH (d : Dev) (n : Nat) (x : RefH) : Dev := { d with ck := { d.ck with refs := sPut RefH.reset d.ck.refs n x } }
/-- CK_REF_STATUS[n].qual: 0 DISQUALIFIED, 1 QUALIFYING, 2 WTR, 3 QUALIFIED (R35). -/
def Dev.qual (d : Dev) (n : Nat) : Nat := d.fld (R.CK_REF_STATUS n) F.CK_REF_STATUS_qual
/-- CK_REF_STATUS[n].qual set. -/
def Dev.setQual (d : Dev) (n q : Nat) : Dev := d.setFld (R.CK_REF_STATUS n) F.CK_REF_STATUS_qual q
/-- Reference n is a REFIN set to 1 Hz (R33). -/
def Dev.isPps (d : Dev) (n : Nat) : Bool := decide (n < 4) && d.fld (R.CK_REF_CFG n) F.CK_REF_CFG_freq == 0
/-- The rank of reference n; a 1PPS input has none (R33). -/
def Dev.rank (d : Dev) (n : Nat) : Nat := if d.isPps n then 0 else d.fld (R.CK_REF_CFG n) F.CK_REF_CFG_rank

/-- The criteria of R34 that hold now. -/
def Dev.critOk (d : Dev) (n : Nat) : Bool :=
  d.flag (R.CK_REF_STATUS n) F.CK_REF_STATUS_active && d.flag (R.CK_REF_STATUS n) F.CK_REF_STATUS_freq_ok &&
    (decide (n < 4) || (d.refH n).laneOk)

/-- The agreement run of a pair, lower number first. -/
def pairKey (a b : Nat) : Nat := if a < b then a * 128 + b else b * 128 + a

/-- The conflict history of reference n ends: it is disqualified, or its rank changes (R38). -/
def Dev.dropPairs (d : Dev) (n : Nat) : Dev :=
  { d with ck := { d.ck with pairs := d.ck.pairs.filter fun x => x.1 / 128 != n && x.1 % 128 != n } }

/-- A violation: the reference is DISQUALIFIED and the sequence starts over (R35). -/
def Dev.disqualify (d : Dev) (n : Nat) : Dev :=
  if d.qual n = 0 then d
  else ((d.setQual n 0).setRefH n { d.refH n with disqOnce := true, held := false }).dropPairs n

/-- The reference is QUALIFIED. -/
def Dev.qualify (d : Dev) (n : Nat) : Dev := (d.setQual n 3).setRefH n { d.refH n with held := false }

/-- The wait-to-restore timer of a reference starts; of 0 s it ends at once (R35, R44). -/
def Dev.enterWtr (d : Dev) (n : Nat) : Dev :=
  let t := d.fld R.CK_TIMER_CFG F.CK_TIMER_CFG_wtr_time
  if t = 0 then d.qualify n
  else (d.setQual n 2).setRefH n { d.refH n with held := false, wtrEnd := d.ticks + tickSeconds t }

/-- Seconds left in WTR, a part of a second counted as a whole one (R71, whose words give no rounding)
(DESIGN CHOICE: log entry 164). -/
def Dev.wtrRemain (d : Dev) (n : Nat) : Nat :=
  let x := d.refH n
  if d.qual n = 2 ∧ !x.held then min 0xFFF ((x.wtrEnd - d.ticks + 624999999) / 625000000) else 0

/-! Selection (R37–R39). -/

/-- References a and b disagree (R38). -/
def Dev.disagree (d : Dev) (a b : Nat) : Bool := (sGet { disagree := false, run := 0 } d.ck.pairs (pairKey a b)).disagree

/-- The reference that the mode in force selects, and whether references conflict (DEDUCED: log entry 18). -/
def Dev.choose (d : Dev) : Option Nat × Bool :=
  match d.fld R.CK_CLN_CFG F.CK_CLN_CFG_sel_mode with
  | 2 => (none, false)
  | 1 =>
    let n := d.fld R.CK_CLN_CFG F.CK_CLN_CFG_forced_ref
    (if decide (n < 68) && d.qualified n && !d.isPps n then some n else none, false)
  | _ =>
    let cands := (List.range 68).filter fun n => d.qualified n && d.rank n != 0
    let best := cands.foldl (fun m n => min m (d.rank n)) 16
    let top := cands.filter fun n => d.rank n == best
    let conflict := top.any fun a => top.any fun b => decide (a < b) && d.disagree a b
    if top.contains d.selRef then (some d.selRef, conflict)
    else if conflict then (none, true)
    else (top.head?, false)

/-- CK_STATUS.conflict follows; its rise is an alarm (R38). -/
def Dev.showConflict (d : Dev) (c : Bool) : Dev :=
  let d1 := if c && !d.flag R.CK_STATUS F.CK_STATUS_conflict then d.raise R.CK_ALARM F.CK_ALARM_ref_conflict else d
  d1.setFlag R.CK_STATUS F.CK_STATUS_conflict c

/-! Frequencies in force (R44–R47). -/

/-- The frequency of HOLDOVER or FREERUN, clamped; the answer says whether the clamp acted. -/
def Dev.steered (d : Dev) (hold : Bool) : Int × Bool :=
  let age := d.sfld R.CK_AGE F.CK_AGE_rate
  let base := if hold then d.sfld R.CK_HOLD_FREQ F.CK_HOLD_FREQ_value + divNear (age * d.ck.holdSecs) 86400
    else d.sfld R.CK_FREERUN F.CK_FREERUN_offset +
      divNear (age * ((d.nv.minutes : Int) - (d.reg R.CK_FREERUN_MIN).toNat)) 1440
  let f := base + d.sfld R.CK_STEER F.CK_STEER_value
  let g := clampI (-100000000) 100000000 f
  (g, f != g)

/-- The cleaner runs at the frequency of R45 or R46: in HOLDOVER, in FREERUN, and in SWITCHING once the new reference is
lost. -/
def Dev.steeredState (d : Dev) : Bool := d.cleaner == 6 || d.cleaner == 1 || (d.cleaner == 5 && d.ck.swLost)

/-- The frequency in force is computed anew (DESIGN CHOICE: log entry 21). -/
def Dev.retarget (d : Dev) : Dev :=
  if d.steeredState then
    let (f, clamped) := d.steered (d.cleaner == 6 || (d.cleaner == 5 && d.flag R.CK_STATUS F.CK_STATUS_hold_valid))
    let d1 : Dev := { d with ck := { d.ck with dcoTarget := f } }
    if clamped then d1.raise R.CK_ALARM F.CK_ALARM_steer_clamp else d1
  else d

/-! Cleaner states (R40–R44). -/

/-- CK_STATUS.state and sel_ref set (R40, R67). -/
def Dev.setCleaner (d : Dev) (st sel : Nat) : Dev :=
  (d.setFld R.CK_STATUS F.CK_STATUS_state st).setFld R.CK_STATUS F.CK_STATUS_sel_ref sel

/-- CK_STATUS.bw_now set (R67) (DESIGN CHOICE: log entry 20). -/
def Dev.setBw (d : Dev) (k : Nat) : Dev := d.setFld R.CK_STATUS F.CK_STATUS_bw_now k

/-- bw_acq (R65). -/
def Dev.bwAcq (d : Dev) : Nat := d.fld R.CK_CLN_CFG F.CK_CLN_CFG_bw_acq

/-- bw_final as LOCKED, SWITCHING and HOLDOVER use it: the code applied at the last entry to NARROW, never below bw_acq
(R43). -/
def Dev.bwFinal (d : Dev) : Nat := max d.bwAcq d.ck.bwFinal

/-- ACQUIRE on reference r, its build-out begun. -/
def Dev.enterAcquire (d : Dev) (r : Nat) : Dev :=
  ({ d with ck := { d.ck with buildOut := true } } : Dev).setCleaner 2 r |>.setBw d.bwAcq

/-- SWITCHING onto reference r, its build-out begun. -/
def Dev.enterSwitching (d : Dev) (r : Nat) : Dev :=
  (({ d with ck := { d.ck with buildOut := true, swClose := false, swLost := false } } : Dev).setCleaner 5 r).setBw
    d.bwFinal

/-- FREERUN: no reference. -/
def Dev.enterFreerun (d : Dev) : Dev :=
  (((({ d with ck := { d.ck with buildOut := false } } : Dev).setCleaner 1 0x7F).raise R.CK_ALARM
    F.CK_ALARM_freerun)).retarget

/-- HOLDOVER at bw_final (R43), or FREERUN while the holdover average is not valid. -/
def Dev.enterHold (d : Dev) : Dev :=
  if d.flag R.CK_STATUS F.CK_STATUS_hold_valid then
    ((((({ d with ck := { d.ck with buildOut := false, holdSecs := 0 } } : Dev).setCleaner 6 0x7F).setBw d.bwFinal).raise
      R.CK_ALARM F.CK_ALARM_holdover)).retarget
  else d.enterFreerun

/-- NARROW: the first step of the bandwidth is taken at once (R43). -/
def Dev.enterNarrow (d : Dev) : Dev :=
  let a := d.bwAcq
  let f := max a (d.fld R.CK_CLN_CFG F.CK_CLN_CFG_bw_final)
  (({ d with ck := { d.ck with bwFinal := f } } : Dev).setCleaner 3 d.selRef).setBw (min f (a + 1))

/-- LOCKED. -/
def Dev.enterLocked (d : Dev) : Dev := (d.setCleaner 4 d.selRef).setBw d.bwFinal

/-- Selection is evaluated by the rows of R41; during SWITCHING only a conflict with the new reference and its loss count
(R37, R38, R44) (DEDUCED: log entry 18). -/
def Dev.reselect (d : Dev) : Dev :=
  let st := d.cleaner
  if st = 0 ∨ st = 7 then d
  else if st = 5 then
    let (sel, conflict) := d.choose
    let d1 := d.showConflict (conflict && sel.isSome)
    if d1.ck.swLost || d1.qualified d1.selRef then d1
    else (({ d1 with ck := { d1.ck with swLost := true, holdSecs := 0 } } : Dev).raise R.CK_ALARM
      F.CK_ALARM_sel_lost).retarget
  else
    let (sel, conflict) := d.choose
    let d1 := d.showConflict conflict
    let host := d.fld R.CK_CLN_CFG F.CK_CLN_CFG_sel_mode == 2
    if st = 1 ∨ st = 6 then
      match sel with
      | some r => d1.enterAcquire r
      | none => if st == 6 && host then d1.enterFreerun else if st == 1 && conflict then d1.enterHold else d1
    else
      let d2 := if d.qualified d.selRef then d1 else d1.raise R.CK_ALARM F.CK_ALARM_sel_lost
      match sel with
      | some r => if r = d.selRef then d2 else d2.enterSwitching r
      | none => if host then d2.enterFreerun else d2.enterHold

/-- What follows a change of references, ranks or modes: selection, and the validity of the time counter (R147). -/
def Dev.refsChanged (d : Dev) : Dev := d.reselect.validCheck

/-- The qualification of reference n is suspended by a user calibration of its input delay (R380). -/
def Dev.suspended (d : Dev) (n : Nat) : Bool := d.opOn 5 n

/-- The criteria of reference n have changed: a violation disqualifies it; all of them holding starts QUALIFYING (R34,
R35). -/
def Dev.refEval (d : Dev) (n : Nat) : Dev :=
  if d.suspended n then d
  else (if d.critOk n then (if d.qual n = 0 then d.setQual n 1 else d) else d.disqualify n).refsChanged

/-- The lane criterion of reference 4 + k (R34). -/
def Dev.laneCriterion (d : Dev) (k : Nat) (ok : Bool) : Dev :=
  let x := d.refH (4 + k)
  if x.laneOk == ok then d else (d.setRefH (4 + k) { x with laneOk := ok }).refEval (4 + k)

/-- What SWITCHING held back is done: references that completed QUALIFYING enter WTR, and those whose timer expired are
QUALIFIED (R44). -/
def Dev.switchRelease (d : Dev) : Dev :=
  (List.range 68).foldl (fun d n =>
    if (d.refH n).held then (if d.qual n = 1 then d.enterWtr n else if d.qual n = 2 then d.qualify n else d) else d) d

/-! Holdover samples (R45). -/

/-- CK_HOLD_FREQ and hold_valid follow the samples and hold_avg (DESIGN CHOICE: log entry 19). -/
def Dev.holdUpdate (d : Dev) : Dev :=
  let n := max 1 (d.fld R.CK_TIMER_CFG F.CK_TIMER_CFG_hold_avg)
  let xs := (d.ck.samples.drop 2).take n
  let d1 := if xs.isEmpty then d
    else d.setSigned R.CK_HOLD_FREQ F.CK_HOLD_FREQ_value (divNear (xs.foldl (· + ·) 0) xs.length)
  if n + 2 ≤ d.ck.taken then d1.setFlag R.CK_STATUS F.CK_STATUS_hold_valid true else d1

/-! Oscillator setting (R29, R30). -/

/-- The default pd_mode of a declared frequency. -/
def defaultPd (freq : Nat) : Nat := if freq = 2 then 2 else 1

/-- Four times the phase-detector frequency of a setting, MHz. -/
def pdFreq4 (freq pd : Nat) : Nat := (if freq = 0 then 100 else if freq = 1 then 25 else 10) * 8 / 2 ^ pd

/-- ROOT lock is declared. -/
def Dev.rootLocked (d : Dev) : Bool := d.flag R.CK_SYN_STATUS F.CK_SYN_STATUS_locked

/-! Clock outputs (R57–R59). -/

/-- CK_OUT_CFG[n].state. -/
def Dev.outState (d : Dev) (n : Nat) : Nat := d.fld (R.CK_OUT_CFG n) F.CK_OUT_CFG_state
/-- CK_OUT_CFG[n].state set. -/
def Dev.setOutState (d : Dev) (n st : Nat) : Dev := d.setFld (R.CK_OUT_CFG n) F.CK_OUT_CFG_state st
/-- An alignment instant, in ROOT cycles counted as 20 a TIME tick, for the outputs of a mask (R58). -/
def Dev.alignOutputs (d : Dev) (mask instant : Nat) : Dev :=
  (List.range 8).foldl (fun d n =>
    if bit mask n then
      { d with ck := { d.ck with align := sPut 0 d.ck.align n instant
                                 alignOld := sPut 0 d.ck.alignOld n (sGet 0 d.ck.align n) } }
    else d) d

/-- CK_OUT_DIV[n].div: the period of CLKOUTn in ROOT cycles of 80 ps (R57). -/
def Dev.clkDiv (d : Dev) (n : Nat) : Nat := (d.reg (R.CK_OUT_DIV n)).toNat

/-- ROOT cycles of a period in which CLKOUTn is high: half the divisor, rounded up (R57). -/
def Dev.clkHigh (d : Dev) (n : Nat) : Nat := (d.clkDiv n + 1) / 2

/-- The ROOT cycle of rising edge j of the series of CLKOUTn that counts from an alignment instant (R58). -/
def Dev.clkRiseFrom (d : Dev) (n instant j : Nat) : Nat :=
  instant + d.fld (R.CK_OUT_CFG n) F.CK_OUT_CFG_phase + j * d.clkDiv n

/-- The ROOT cycle of rising edge j of CLKOUTn, counted from its latest alignment instant (R58). -/
def Dev.clkRise (d : Dev) (n j : Nat) : Nat := d.clkRiseFrom n (sGet 0 d.ck.align n) j

/-- The level of the series that counts from an alignment instant, in ROOT cycle t: high in the first ⌈div/2⌉ cycles of
every period, low before the first rising edge (R57, R58). -/
def Dev.clkSeries (d : Dev) (n instant t : Nat) : Bool :=
  decide (d.clkRiseFrom n instant 0 ≤ t) && decide ((t - d.clkRiseFrom n instant 0) % d.clkDiv n < d.clkHigh n)

/-- The level that the divider of CLKOUTn gives in ROOT cycle t: its series, and after a capture the series before it up to
9.6 ns ahead of the new alignment instant and low from there to the first new edge (R57–R59). -/
def Dev.clkLevel (d : Dev) (n t : Nat) : Bool :=
  let a := sGet 0 d.ck.align n
  if t + 120 < a then d.clkSeries n (sGet 0 d.ck.alignOld n) t else d.clkSeries n a t

/-- Output n enters STARTING; the first start after reset release aligns all eight (R58). -/
def Dev.outStart (d : Dev) (n : Nat) : Dev :=
  let d1 := if d.ck.started then d
    else ({ d with ck := { d.ck with started := true } } : Dev).alignOutputs 0xFF (d.ticks * 20)
  d1.setOutState n enStarting

/-- CK_PPS_CFG[m].state. -/
def Dev.ppsState (d : Dev) (m : Nat) : Nat := d.fld (R.CK_PPS_CFG m) F.CK_PPS_CFG_state
/-- CK_PPS_CFG[m].state set. -/
def Dev.setPpsState (d : Dev) (m st : Nat) : Dev := d.setFld (R.CK_PPS_CFG m) F.CK_PPS_CFG_state st
/-- PPS output m enters STARTING: the value in force is carried forward (R60). -/
def Dev.ppsStart (d : Dev) (m : Nat) : Dev :=
  (d.setPpsOut m { d.ppsOut m with next := carryForward (d.ppsOut m).next (d.ppsPeriod m) d.now }).setPpsState m
    enStarting

/-- The width of a pulse of PPS output m, on the T48 scale: the programmed one, or the period less 1 µs where that is
smaller (R60). -/
def Dev.ppsWidth (d : Dev) (m : Nat) : Nat :=
  ns (min (d.fld (R.CK_PPS_CFG m) F.CK_PPS_CFG_width * 1000) ((d.reg (R.CK_PPS_PERIOD m)).toNat - 1000))

/-- The instant at which PPS output m launches the edge of its next pulse: earlier than the counter value by its output
delay constant, kind 10 (R60, R372). -/
def Dev.ppsRise (d : Dev) (m : Nat) : Nat := t48Add (d.ppsOut m).next (-(sGet 0 d.ca.inForce (itemKey 10 m 0)))

/-- Is CK_ALARM_B asserted (R62)? -/
def Dev.ckAlarmPin (d : Dev) : Bool :=
  let m := (d.reg R.CK_ALARM_MASK).toNat
  (bit m 0 && d.cleaner == 7) || (bit m 1 && d.cleaner == 6) || (bit m 2 && d.flag R.CK_STATUS F.CK_STATUS_conflict) ||
    (bit m 3 && d.cleaner == 1)

end Sys2Proof.Machine
end

