-- ==== Sys2Proof/Machine/EnumOps.lean ====
section
/-! DEFINITION. Enumeration: message bodies, the walk over downlink ports, and what received messages and link changes do
(R341–R345, R410). -/

namespace Sys2Proof.Machine

/-! Message bodies (R341): bit b of a body is bit b + 16 of the management block. -/

/-- A body of its fields. -/
def enumBody (op addr acc budget gap seq : Nat) (mismatch : Bool) : BitVec 108 :=
  BitVec.ofNat 108 (op % 16 * 2 ^ 104 + addr % 2 ^ 24 * 2 ^ 80 + acc % 2 ^ 24 * 2 ^ 56 + budget % 2 ^ 21 * 2 ^ 35 +
    gap % 2 ^ 16 * 2 ^ 19 + seq % 256 * 2 ^ 11 + (if mismatch then 2 ^ 8 else 0))

/-- op of a body. -/
def enumOp (b : BitVec 108) : Nat := bits b.toNat 107 104
/-- addr of a body. -/
def enumAddr (b : BitVec 108) : Nat := bits b.toNat 103 80
/-- acc of a body. -/
def enumAcc (b : BitVec 108) : Nat := bits b.toNat 79 56
/-- budget of a body. -/
def enumBudget (b : BitVec 108) : Nat := bits b.toNat 55 35
/-- gap of a body. -/
def enumGap (b : BitVec 108) : Nat := bits b.toNat 34 19
/-- seq of a body. -/
def enumSeq (b : BitVec 108) : Nat := bits b.toNat 18 11
/-- mismatch of a body. -/
def enumMismatch (b : BitVec 108) : Bool := bit b.toNat 8

/-! The node. -/

/-- This node is the enumeration root. -/
def Dev.enumRoot (d : Dev) : Bool := d.flag R.GL_CTRL F.GL_CTRL_enum_root
/-- The present walk number. -/
def Dev.enumSeqNow (d : Dev) : Nat := d.fld R.GL_ENUM_STAT F.GL_ENUM_STAT_seq
/-- TG_BUDGET, ns. -/
def Dev.budget (d : Dev) : Nat := d.fld R.TG_BUDGET F.TG_BUDGET_budget
/-- A walk runs on this node. -/
def Dev.walking (d : Dev) : Bool := d.flag R.GL_ENUM_STAT F.GL_ENUM_STAT_walking
/-- A node of a pair walks only when ACTIVE (R345, R410) (DEDUCED: log entry 129). -/
def Dev.mayWalk (d : Dev) : Bool := d.pairState == 0 || d.pairState == 3

/-- A downlink port: link up, the local end timing master; the uplink and the pair port are none (R342, R406). -/
def Dev.isDownlink (d : Dev) (p : Nat) : Bool :=
  d.linkUp p && (d.port p).role == 1 && d.en.up != some p && !d.isPairPort p

/-- The downlink ports in ascending order. -/
def Dev.downlinks (d : Dev) : List Nat := (List.range 64).filter d.isDownlink

/-- The partner on port p is a forerunner (R344). -/
def Dev.isForerunner (d : Dev) (p : Nat) : Bool := d.fld (R.LK_STATUS p) F.LK_STATUS_family == 1

/-- A message is repeated on port p from now on (DEDUCED: log entry 128). -/
def Dev.sayDown (d : Dev) (p : Nat) (b : BitVec 108) : Dev :=
  { d with en := { d.en with sendDown := sPut 0 d.en.sendDown p b } }

/-- A message is repeated upward from now on. -/
def Dev.sayUp (d : Dev) (b : BitVec 108) : Dev := { d with en := { d.en with sendUp := some b } }

/-- A message without further fields. -/
def Dev.plainBody (d : Dev) (op : Nat) : BitVec 108 := enumBody op 0 0 0 0 d.enumSeqNow false

/-- The lane whose delay measurement stands for port p (DEDUCED: log entry 124). -/
def Dev.timeLane (d : Dev) (p : Nat) : Nat := d.fld (R.LK_PORT_CFG p) F.LK_PORT_CFG_time_lane

/-- A delay window of port p has been published (R342). -/
def Dev.delayKnown (d : Dev) (p : Nat) : Bool := (d.reg (R.LK_DLY_OFS p (d.timeLane p))).toNat != 0x80000000

/-- LK_DLY_RTT of port p, 2^-16 ns. -/
def Dev.roundTrip (d : Dev) (p : Nat) : Nat :=
  (d.reg (R.LK_DLY_RTT_LO p (d.timeLane p))).toNat +
    2 ^ 32 * d.fld (R.LK_DLY_RTT_HI p (d.timeLane p)) F.LK_DLY_RTT_HI_value_hi

/-- Accumulated latency at the node below port p, 2^-4 ns, rounded up (R343, R123, R130, R215)
(DEDUCED: log entry 124). -/
def Dev.accChild (d : Dev) (p : Nat) : Nat :=
  let hop : Nat := match d.fld (R.LK_STATUS p) F.LK_STATUS_ver with
    | 1 => 13540 * 16 * 51200
    | 2 => 5510 * 16 * 51200
    | _ =>
      let s := 64 / 2 ^ d.fld (R.LK_STATUS p) F.LK_STATUS_share_now
      if d.fld (R.LN_STATUS p) F.LN_STATUS_rate_now = 0 then s * 1048576 + 1024 * 51200 else s * 2097152 + 1792 * 51200
  let half := (d.roundTrip p * 25 + 3) / 4
  (d.en.acc + (hop + half + 51199) / 51200) + (if d.enumRoot then 0 else 205)

/-- The node below port p lies beyond the latency budget (R343). -/
def Dev.tooFar (d : Dev) (p : Nat) : Bool := decide (d.budget * 160 < d.accChild p * 10 + 57344)

/-- GL_PORT_RANGE[p] and its end. -/
def Dev.setRange (d : Dev) (p : Nat) (valid : Bool) (first last : Nat) : Dev :=
  ((d.setFlag (R.GL_PORT_RANGE p) F.GL_PORT_RANGE_valid valid).setFld (R.GL_PORT_RANGE p) F.GL_PORT_RANGE_first
    first).setFld (R.GL_PORT_RANGE_END p) F.GL_PORT_RANGE_END_end last

/-- Port p is, or is no longer, refused for triggering (R343). -/
def Dev.markRefused (d : Dev) (p : Nat) (on : Bool) : Dev :=
  let rest := d.en.refused.filter (· != p)
  { d with en := { d.en with refused := if on then p :: rest else rest } }

/-- What a walk does with a port whose turn has come: it refuses it, sends ASSIGN, or waits for its first delay window.
The answer says whether the walk goes on to the next port at once (R342–R344) (DEDUCED: log entry 125). -/
def Dev.offerPort (d : Dev) (p : Nat) : Dev × Bool :=
  let assign := enumBody 1 d.en.next (d.accChild p) d.budget d.effGap d.enumSeqNow false
  if d.isForerunner p then
    if 0xFFFF < d.en.next then ((d.setRange p false 0 0).recEnum p 2 (d.accChild p), true)
    else (d.sayDown p assign, false)
  else if !d.delayKnown p then (d, false)
  else if d.tooFar p then
    ((((d.sayDown p (d.plainBody 3)).setRange p false 0 0).markRefused p true).recEnum p 1 (d.accChild p), true)
  else ((d.markRefused p false).sayDown p assign, false)

/-- The walk moves to the next port that needs an answer; the answer is false once it has no port left. -/
def Dev.walkPorts (d : Dev) : List Nat → Dev × Bool
  | [] => ({ d with en := { d.en with ports := [], cur := none } }, false)
  | p :: ps =>
    let (d1, more) := ({ d with en := { d.en with ports := ps, cur := some p } } : Dev).offerPort p
    if more then d1.walkPorts ps else (d1, true)

/-- A walk of the root starts: a new walk number, address 1 (R342). -/
def Dev.rootBegin (d : Dev) : Dev :=
  let d1 := (d.setFld R.GL_ENUM_STAT F.GL_ENUM_STAT_seq (d.enumSeqNow + 1)).setFlag R.GL_ENUM_STAT
    F.GL_ENUM_STAT_walking true
  let d2 := (((d1.setFlag R.GL_ADDR F.GL_ADDR_valid true).setFlag R.GL_ADDR F.GL_ADDR_refused false).setFld R.GL_ADDR
    F.GL_ADDR_port 0).setFld R.GL_ADDR F.GL_ADDR_addr 1
  let gone := (List.range 64).filter fun p => !d2.isDownlink p
  let d3 := gone.foldl (fun d p => d.setRange p false 0 0) d2
  { d3 with en := { d3.en with acc := 0, up := none, next := 2, sendDown := [], sendUp := none, mismatch := false,
                               armed := false, again := false } }

/-- The walk goes on; at its end the root's walk is over, or a further one starts, and any other node answers DONE
upward (R342, R435) (DEDUCED: log entry 128). -/
def Dev.walkOn (d : Dev) (ps : List Nat) : Dev :=
  match d.walkPorts ps with
  | (d1, true) => d1
  | (d1, false) =>
    let d2 := d1.setFlag R.GL_ENUM_STAT F.GL_ENUM_STAT_walking false
    if d2.enumRoot then
      (if d2.en.again then
        let d3 := d2.rootBegin
        match d3.walkPorts d3.downlinks with
        | (d4, true) => d4
        | (d4, false) => d4.setFlag R.GL_ENUM_STAT F.GL_ENUM_STAT_walking false
      else d2)
    else d2.sayUp (enumBody 2 d2.en.next 0 0 0 d2.enumSeqNow d2.en.mismatch)

/-- The root starts a walk. -/
def Dev.rootWalk (d : Dev) : Dev :=
  let d1 := d.rootBegin
  d1.walkOn d1.downlinks

/-- A walk is asked for: one walk, or one further walk after the running one (R435). -/
def Dev.askWalk (d : Dev) : Dev :=
  if d.walking then { d with en := { d.en with again := true } } else d.rootWalk

/-- GL_CTRL.enum_go = 1 (R435). -/
def Dev.enumGo (d : Dev) : Dev :=
  if d.inGlaze && d.enumRoot && d.mayWalk then d.askWalk else d.raise R.GL_ALARM F.GL_ALARM_stage_reject

/-! Received messages. -/

/-- A receiver acts once per seq and op of a port (R341). -/
def Dev.actOnce (d : Dev) (p : Nat) (b : BitVec 108) (f : Dev → Dev) : Dev :=
  let key := (p, enumOp b, enumSeq b)
  if d.en.acted.contains key then d
  else
    let rest := d.en.acted.filter fun x => !(x.1 == p && x.2.1 == enumOp b)
    f { d with en := { d.en with acted := key :: rest } }

/-- GL_ADDR.valid falls (R345). -/
def Dev.addrLost (d : Dev) : Dev :=
  if d.flag R.GL_ADDR F.GL_ADDR_valid then
    (d.setFlag R.GL_ADDR F.GL_ADDR_valid false).raise R.GL_ALARM F.GL_ALARM_addr_lost
  else d

/-- ASSIGN on port p (R342, R343, R410) (DEDUCED: log entry 129). -/
def Dev.onAssign (d : Dev) (p : Nat) (b : BitVec 108) : Dev :=
  if d.enumRoot || d.isPairPort p then d
  else
    let addr := enumAddr b
    let d1 := (((d.setFlag R.GL_ADDR F.GL_ADDR_valid true).setFlag R.GL_ADDR F.GL_ADDR_refused false).setFld R.GL_ADDR
      F.GL_ADDR_port p).setFld R.GL_ADDR F.GL_ADDR_addr addr
    let bad := enumBudget b != d.budget
    let d2 := ((d1.setFld R.TG_UPLINK F.TG_UPLINK_parent_gap (enumGap b)).setFld R.GL_ENUM_STAT F.GL_ENUM_STAT_seq
      (enumSeq b)).setFlag R.GL_ENUM_STAT F.GL_ENUM_STAT_mismatch bad
    let d3 : Dev := { d2 with en := { d2.en with acc := enumAcc b, up := some p, next := addr + 1, mismatch := bad,
                                                 sendDown := [] } }
    if d3.mayWalk then
      let gone := (List.range 64).filter fun q => !d3.isDownlink q
      let d4 := gone.foldl (fun d q => d.setRange q false 0 0) d3
      let d5 := (d4.setFlag R.GL_ENUM_STAT F.GL_ENUM_STAT_walking true).sayUp (d4.plainBody 5)
      d5.walkOn d5.downlinks
    else d3

/-- DONE on port p: its range ends where the next free address begins (R342–R344, R410) (DEDUCED: log entry 125). -/
def Dev.onDone (d : Dev) (p : Nat) (b : BitVec 108) : Dev :=
  let a := enumAddr b
  let past := d.isForerunner p && (decide (a ≤ d.en.next) || decide (0x10000 < a))
  if d.mayWalk then
    if d.en.cur != some p || enumSeq b != d.enumSeqNow then d
    else
      let d0 := d.sayDown p 0
      let d1 := if past then (d0.setRange p false 0 0).recEnum p 2 (d.accChild p)
        else ({ d0.setRange p true d.en.next a with en := { d0.en with next := a } } : Dev)
      let d2 := if enumMismatch b && !past then (d1.markRefused p true).recEnum p 3 (d.accChild p) else d1
      d2.walkOn d2.en.ports
  else
    let first := if d.enumRoot && enumSeq b != d.enumSeqNow then 2 else d.en.next
    let d1 := (d.setFld R.GL_ENUM_STAT F.GL_ENUM_STAT_seq (enumSeq b)).setRange p true first a
    { d1 with en := { d1.en with next := a } }

/-- A message is passed to every downlink. -/
def Dev.passDown (d : Dev) (op : Nat) : Dev := d.downlinks.foldl (fun d p => d.sayDown p (d.plainBody op)) d

/-- A walk in progress on a node that loses its place ends. -/
def Dev.stopWalk (d : Dev) : Dev :=
  ({ d with en := { d.en with ports := [], cur := none, sendUp := none, sendDown := [] } } : Dev).setFlag
    R.GL_ENUM_STAT F.GL_ENUM_STAT_walking false

/-- REFUSE on port p (R343). -/
def Dev.onRefuse (d : Dev) (p : Nat) (b : BitVec 108) : Dev :=
  if d.enumRoot || d.isPairPort p then d
  else
    let d1 := ((d.stopWalk.addrLost.setFlag R.GL_ADDR F.GL_ADDR_refused true).setFld R.GL_ENUM_STAT
      F.GL_ENUM_STAT_seq (enumSeq b)).raise R.GL_ALARM F.GL_ALARM_refused
    let d2 : Dev := { d1 with en := { d1.en with up := some p } }
    if d2.mayWalk then d2.passDown 3 else d2

/-- RELEASE on port p: the subtree's addresses are cleared (R342). -/
def Dev.onRelease (d : Dev) (p : Nat) (b : BitVec 108) : Dev :=
  if d.enumRoot || d.isPairPort p then d
  else
    let d1 := (d.stopWalk.addrLost.setFlag R.GL_ADDR F.GL_ADDR_refused false).setFld R.GL_ENUM_STAT
      F.GL_ENUM_STAT_seq (enumSeq b)
    let d2 := (List.range 64).foldl (fun d q => d.setRange q false 0 0) d1
    let d3 : Dev := { d2 with en := { d2.en with up := some p } }
    if d3.mayWalk then d3.passDown 4 else d3

/-- What a CHANGE, or a change on its own downlinks, does at a node: the root walks again 1 s later or tells the host;
any other node that holds an address sends CHANGE upward 16 times (R345) (DEDUCED: log entry 126). -/
def Dev.noteChange (d : Dev) : Dev :=
  if !d.mayWalk then d
  else if d.enumRoot then
    if d.flag R.GL_CTRL F.GL_CTRL_enum_auto then { d with en := { d.en with armed := true } }
    else d.raise R.GL_ALARM F.GL_ALARM_enum_change
  else if d.en.up.isSome then { d with en := { d.en with changes := 16 } }
  else d

/-- An ENUM message on port p; other op values are ignored (R341) (DEDUCED: log entry 127). -/
def Dev.enumMessage (d : Dev) (p : Nat) (b : BitVec 108) : Dev :=
  match enumOp b with
  | 1 => d.actOnce p b fun d => d.onAssign p b
  | 2 => d.actOnce p b fun d => d.onDone p b
  | 3 => d.actOnce p b fun d => d.onRefuse p b
  | 4 => d.actOnce p b fun d => d.onRelease p b
  | 6 => d.actOnce p b fun d => d.noteChange
  | _ => d

/-- No message of the walk came from port p for 1 ms: it is released, its range empty (R342). -/
def Dev.portSilent (d : Dev) (p : Nat) : Dev :=
  if d.en.cur = some p ∧ d.walking then
    let d1 := (d.sayDown p (d.plainBody 4)).setRange p false 0 0
    d1.walkOn d1.en.ports
  else d

/-- A delay window of port p was published: a walk that waited for it goes on (R342). -/
def Dev.enumWindow (d : Dev) (p : Nat) : Dev :=
  if d.en.cur = some p ∧ d.walking ∧ sGet 0 d.en.sendDown p = 0 then d.walkOn (p :: d.en.ports) else d

/-- link_up of port p has changed (R345). `down` tells that the port was a downlink before the change
(DEDUCED: log entry 126). -/
def Dev.enumLink (d : Dev) (p : Nat) (up down : Bool) : Dev :=
  let holds := d.flag R.GL_ADDR F.GL_ADDR_valid
  let d1 := if (down || (up && d.isDownlink p)) && holds then d.noteChange else d
  if !up && d1.en.up == some p then d1.addrLost else d1

/-- The ENUM body that the next management block on port p carries; none when it has nothing to say. -/
def Dev.enumSend (d : Dev) (p : Nat) : Option (BitVec 108) × Dev :=
  if d.en.up = some p then
    if 0 < d.en.changes then
      (some (d.plainBody 6), { d with en := { d.en with changes := d.en.changes - 1 } })
    else (d.en.sendUp, d)
  else
    let b := sGet 0 d.en.sendDown p
    (if b = 0 then none else some b, d)

end Sys2Proof.Machine
end

