-- ==== Sys2Proof/Machine/Parse.lean ====
section
/-! DEFINITION. The parse graph and the parsed field vector (R255–R259, R268). -/

namespace Sys2Proof.Machine

/-- What the parser finds: offsets of the headers present, and the facts that the vector reports. -/
structure Parsed where
  outer   : Option Nat
  inner   : Option Nat
  etype   : Nat
  ip4     : Option Nat
  ip6     : Option Nat
  proto   : Nat
  frag    : Bool
  later   : Bool
  badSum  : Bool
  options : Bool
  arp     : Option Nat
  ptp     : Option Nat
  slow    : Option Nat
  tcp     : Option Nat
  udp     : Option Nat
  icmp    : Option Nat
  payload : Option Nat
  cut     : Bool
  deriving DecidableEq, Repr

/-- Nothing parsed. -/
def Parsed.none_ : Parsed :=
  { outer := none, inner := none, etype := 0, ip4 := none, ip6 := none, proto := 0, frag := false, later := false,
    badSum := false, options := false, arp := none, ptp := none, slow := none, tcp := none, udp := none,
    icmp := none, payload := none, cut := false }

/-- The L4 header that a protocol number names at an offset; it must end within the window of `n` octets
(DEDUCED: log entry 89). -/
def parseL4 (bs : List Byte) (n off : Nat) (x : Parsed) : Parsed :=
  let ends (len : Nat) (ok : Parsed) : Parsed := if off + len ≤ n then ok else { x with cut := true }
  if x.proto = 6 then
    let len := octet bs (off + 12) / 16 * 4
    if n < off + 13 then { x with cut := true } else ends len { x with tcp := some off, payload := some (off + len) }
  else if x.proto = 17 then
    ends 8
      (let y := { x with udp := some off, payload := some (off + 8) }
       let dst := wire bs (off + 2) 2
       if dst = 319 ∨ dst = 320 then
         if off + 42 ≤ n then { y with ptp := some (off + 8) } else { y with cut := true }
       else y)
  else if x.proto = 1 ∨ x.proto = 58 then ends 4 { x with icmp := some off, payload := some (off + 4) }
  else x

/-- Sum of `n` 16-bit words with end-around carry, as the IPv4 checksum forms it. -/
def onesSum (bs : List Byte) (off n : Nat) : Nat :=
  (List.range n).foldl (fun a i => let s := a + wire bs (off + 2 * i) 2; s % 65536 + s / 65536) 0

/-- The IPv4 header (R256, R257) (DEDUCED: log entry 89). -/
def parseIp4 (bs : List Byte) (n off : Nat) (x : Parsed) : Parsed :=
  let ihl := octet bs off % 16
  if n ≤ off then { x with cut := true }
  else if octet bs off / 16 ≠ 4 ∨ ihl < 5 then x
  else if n < off + 4 * ihl then { x with cut := true }
  else
    let fr := wire bs (off + 6) 2
    let y := { x with ip4 := some off, proto := octet bs (off + 9), frag := bit fr 13 || fr % 8192 != 0,
                      later := fr % 8192 != 0, badSum := onesSum bs off (2 * ihl) != 65535,
                      options := decide (5 < ihl) }
    if y.later then y else parseL4 bs n (off + 4 * ihl) y

/-- The IPv6 extension headers, at most `k` more of them (R256). -/
def parseExt (bs : List Byte) (n : Nat) : Nat → Nat → Parsed → Parsed
  | 0, off, x => if x.later then x else parseL4 bs n off x
  | k + 1, off, x =>
    if x.proto = 0 ∨ x.proto = 43 ∨ x.proto = 60 then
      let len := (octet bs (off + 1) + 1) * 8
      if n < off + len ∨ n < off + 2 then { x with cut := true }
      else parseExt bs n k (off + len) { x with proto := octet bs off, options := true }
    else if x.proto = 44 then
      if n < off + 8 then { x with cut := true }
      else
        let fr := wire bs (off + 2) 2
        parseExt bs n k (off + 8)
          { x with proto := octet bs off, options := true, frag := x.frag || fr / 8 != 0 || bit fr 0,
                   later := x.later || fr / 8 != 0 }
    else if x.later then x
    else parseL4 bs n off x

/-- The IPv6 header. -/
def parseIp6 (bs : List Byte) (n off : Nat) (x : Parsed) : Parsed :=
  if n ≤ off then { x with cut := true }
  else if octet bs off / 16 ≠ 6 then x
  else if n < off + 40 then { x with cut := true }
  else parseExt bs n 3 (off + 40) { x with ip6 := some off, proto := octet bs (off + 6) }

/-- Dispatch on the EtherType after the tags. -/
def parseType (bs : List Byte) (n off : Nat) (x : Parsed) : Parsed :=
  if n < off + 2 then { x with cut := true }
  else
    let y := { x with etype := wire bs off 2 }
    let o := off + 2
    let ends (len : Nat) (ok : Parsed) : Parsed := if o + len ≤ n then ok else { y with cut := true }
    match y.etype with
    | 0x0800 => parseIp4 bs n o y
    | 0x86DD => parseIp6 bs n o y
    | 0x0806 => ends 28 { y with arp := some o }
    | 0x88F7 => ends 34 { y with ptp := some o }
    | 0x8809 => ends 1 { y with slow := some o }
    | _ => y

/-- The parse of a frame: its first 256 octets, or the whole frame (R255–R257). -/
def parse (bs : List Byte) : Parsed :=
  let n := min 256 bs.length
  if n < 14 then { Parsed.none_ with cut := true }
  else
    let t := wire bs 12 2
    if t = 0x88A8 ∨ t = 0x8100 then
      if n < 18 then { Parsed.none_ with cut := true }
      else if wire bs 16 2 = 0x8100 then
        if n < 22 then { Parsed.none_ with outer := some 12, cut := true }
        else parseType bs n 20 { Parsed.none_ with outer := some 12, inner := some 16 }
      else parseType bs n 16 { Parsed.none_ with outer := some 12 }
    else parseType bs n 12 Parsed.none_

/-- The L4 header's offset. -/
def Parsed.l4 (x : Parsed) : Option Nat := x.tcp <|> x.udp <|> x.icmp

/-- The offset an anchor code names (R268). -/
def Parsed.anchor (x : Parsed) (code : Nat) : Option Nat :=
  match code with
  | 0 => some 0
  | 1 => some 12
  | 2 => x.outer
  | 3 => x.inner
  | 4 => x.ip4 <|> x.ip6
  | 5 => x.l4
  | 6 => x.payload
  | _ => none

/-- The presence bits of word 1 (R258). -/
def Parsed.presence (x : Parsed) : Nat :=
  let b (c : Bool) (k : Nat) : Nat := if c then 2 ^ k else 0
  b x.outer.isSome 0 + b x.inner.isSome 1 + b x.ip4.isSome 2 + b x.ip6.isSome 3 + b x.arp.isSome 4 +
    b x.ptp.isSome 5 + b x.slow.isSome 6 + b x.tcp.isSome 7 + b x.udp.isSome 8 + b x.icmp.isSome 9 + b x.frag 10 +
    b x.later 11 + b x.badSum 12 + b x.options 13 + b x.cut 14

/-- 16 bits at an offset from an optional header; 0 without it. -/
def fieldAt (bs : List Byte) (o : Option Nat) (k : Nat) : Nat :=
  match o with
  | some a => wire bs (a + k) 2
  | none => 0

/-- A word of the parsed field vector but for words 0, 39 and the user fields (R258). -/
def Parsed.word (x : Parsed) (bs : List Byte) (w : Nat) : Nat :=
  let byte (o : Option Nat) (k : Nat) : Nat := match o with
    | some a => octet bs (a + k)
    | none => 0
  let v6 := fieldAt bs x.ip6 0
  if w = 1 then x.presence
  else if w = 2 then x.proto * 256 + (if x.ip6.isSome then v6 / 16 % 256 else byte x.ip4 1)
  else if w = 3 then
    (if x.ip6.isSome then byte x.ip6 7 else byte x.ip4 8) * 256 + (byte x.ip6 1) % 16
  else if w = 4 then fieldAt bs x.ip6 2
  else if w = 5 ∨ w = 6 ∨ w = 7 then wire bs (2 * (w - 5)) 2
  else if w = 8 ∨ w = 9 ∨ w = 10 then wire bs (6 + 2 * (w - 8)) 2
  else if w = 11 then fieldAt bs x.outer 2
  else if w = 12 then fieldAt bs x.inner 2
  else if w = 13 then x.etype
  else if w = 14 ∨ w = 15 then fieldAt bs x.ip4 (12 + 2 * (w - 14))
  else if w = 16 ∨ w = 17 then fieldAt bs x.ip4 (16 + 2 * (w - 16))
  else if 18 ≤ w ∧ w ≤ 25 then fieldAt bs x.ip6 (8 + 2 * (w - 18))
  else if 26 ≤ w ∧ w ≤ 33 then fieldAt bs x.ip6 (24 + 2 * (w - 26))
  else if w = 34 then fieldAt bs x.l4 0
  else if w = 35 then fieldAt bs (x.tcp <|> x.udp) 2
  else if w = 36 then fieldAt bs x.tcp 12 % 512
  else if w = 37 then byte x.ptp 0 % 16 * 4096 + byte x.ptp 0 / 16 * 256 + byte x.ptp 4
  else if w = 38 then bs.length
  else 0

end Sys2Proof.Machine
end

