-- ==== Sys2Proof/Machine/LookupOps.lean ====
section
/-! DEFINITION. Keys, lookups, actions, edits and the whey limiters of the classifier (R258–R275). -/

namespace Sys2Proof.Machine

/-! Keys (R258–R260). -/

/-- User field k (R259). -/
def Dev.userField (d : Dev) (x : Parsed) (bs : List Byte) (k : Nat) : Nat :=
  match x.anchor (d.fld (R.CL_UDF_CFG k) F.CL_UDF_CFG_anchor) with
  | none => 0
  | some a =>
    let o := a + d.fld (R.CL_UDF_CFG k) F.CL_UDF_CFG_offset
    if o + 2 ≤ min 256 bs.length then wire bs o 2 else 0

/-- Word w of the parsed field vector of a frame in an entry class (R258). -/
def Dev.pfv (d : Dev) (f : Frame) (x : Parsed) (entry w : Nat) : Nat :=
  if w = 0 then
    f.port * 512 + (match f.second with
      | some s => 256 + s.tag
      | none => 0)
  else if w = 39 then entry
  else if 40 ≤ w ∧ w ≤ 47 then d.userField x f.octets (w - 40)
  else x.word f.octets w

/-- The key of a profile over its first `n` selectors, selector 0 most significant (R260). -/
def Dev.key (d : Dev) (f : Frame) (x : Parsed) (entry prof n : Nat) : Nat :=
  (List.range n).foldl (fun k i =>
    let sel := (d.reg (R.CL_KEY_PROF prof (i / 5))).toNat / 2 ^ (6 * (i % 5)) % 64
    k * 65536 + d.pfv f x entry sel) 0

/-! Exact match (R262). -/

/-- The bucket of a key in a way: bits 15:0 of CRC-32C over the profile number and the key (PRESUMED: log entry 91). -/
def emBucket (way prof key : Nat) : Nat :=
  (([BitVec.ofNat 8 prof] ++ beBytes 24 key).foldl (crcOctet 0x82F63B78)
    (if way = 0 then 0xFFFFFFFF else 0x5A5A5A5A)) % 65536

/-- Line, and store key, of a slot of a bucket of a way. -/
def emLine (way bucket slot : Nat) : Nat := (way * 65536 + bucket) * 4 + slot

/-- Fields of an exact-match entry. -/
def emValid (e : Nat) : Bool := bit e 255
/-- Banks the entry belongs to. -/
def emBanks (e : Nat) : Nat := bits e 254 253
/-- Profile of the entry. -/
def emProf (e : Nat) : Nat := bits e 252 249
/-- Key of the entry. -/
def emKey (e : Nat) : Nat := bits e 248 57

/-- The eight lines that a key can lie in. -/
def emLines (prof key : Nat) : List Nat :=
  (List.range 2).flatMap fun w => (List.range 4).map fun s => emLine w (emBucket w prof key) s

/-- The line that holds a key, if any. -/
def Dev.emFind (d : Dev) (prof key : Nat) : Option Nat :=
  (emLines prof key).find? fun l =>
    let e := sGet 0 d.cl.em l
    emValid e && emProf e == prof && emKey e == key

/-! Ternary (R264). -/

/-- The winning ternary entry of a bank for a key: the lowest index that hits. -/
def Dev.ternFind (d : Dev) (bank prof key : Nat) : Option Nat :=
  (d.cl.tern.find? fun e =>
    let v := e.2
    let mask := v / 2 ^ 640 % 2 ^ 640
    e.1 / 16384 == bank && bit v 1311 && bits v 1309 1306 == prof && (key &&& mask) == ((v % 2 ^ 640) &&& mask)).map
    (·.2)

/-! Actions (R266, R267). -/

/-- Word k of an action entry. -/
def actWord (a k : Nat) : Nat := a / 2 ^ (32 * k) % 2 ^ 32

/-- What a lookup resolved to. -/
inductive Hit
  | action (a : Nat) (inline : Bool) (line : Option Nat)
  | miss
  deriving DecidableEq, Repr

/-- The action that an entry names by its table's mode. -/
def Dev.resolve (d : Dev) (inline : Bool) (bank v : Nat) : Hit :=
  if inline then .action (v % 2 ^ 32) true none
  else
    let i := bank * 65536 + v % 65536
    .action (sGet 0 d.cl.act i) false (some i)

/-- The rule that gives the action (R265). -/
def Dev.lookup (d : Dev) (tern em : Option Nat) (bank : Nat) : Hit :=
  let te := d.flag R.CL_TBL_CFG F.CL_TBL_CFG_tcam_mode
  let ee := d.flag R.CL_TBL_CFG F.CL_TBL_CFG_em_mode
  match tern, em with
  | some t, some e => if bit t 1310 then d.resolve te bank (bits t 1343 1312) else d.resolve ee bank (bits e 31 0)
  | some t, none => d.resolve te bank (bits t 1343 1312)
  | none, some e => d.resolve ee bank (bits e 31 0)
  | none, none => .miss

/-! Edits (R269). -/

/-- Octets `bs` put over those at offset `o`. -/
def overwrite (all : List Byte) (o : Nat) (bs : List Byte) : List Byte :=
  all.take o ++ bs ++ all.drop (o + bs.length)

/-- The IPv4 checksum after one 16-bit word changed from `a` to `b`. -/
def sumUpdate (sum a b : Nat) : Nat :=
  let s := (65535 - sum) + (65535 - a) + b
  let t := s % 65536 + s / 65536
  65535 - (t % 65536 + t / 65536)

/-- A 16-bit word of the IPv4 header at `off + k` becomes `v`, and the checksum follows. -/
def setIp4 (bs : List Byte) (off k v : Nat) : List Byte :=
  let a := wire bs (off + k) 2
  let s := sumUpdate (wire bs (off + 10) 2) a v
  if a = v then bs else overwrite (overwrite bs (off + k) (beBytes 2 v)) (off + 10) (beBytes 2 s)

/-- Field rewrites, in the frame's own offsets. -/
def rewriteFields (x : Parsed) (a : Nat) (bs : List Byte) : List Byte :=
  let w1 := actWord a 1
  let b1 := if bit w1 31 then overwrite bs 0 (beBytes 6 (actWord a 2 * 65536 + actWord a 3 / 65536)) else bs
  let b2 := if bit w1 30 then overwrite b1 6 (beBytes 6 (actWord a 3 % 65536 * 2 ^ 32 + actWord a 4)) else b1
  let b3 := match x.outer with
    | some o => if bit w1 29 then
        overwrite b2 (o + 2) (beBytes 2 (wire b2 (o + 2) 2 / 4096 * 4096 + bits w1 11 0)) else b2
    | none => b2
  let b4 := if !bit w1 28 then b3 else
    match x.ip4, x.ip6 with
    | some o, _ => setIp4 b3 o 0 (octet b3 o * 256 + bits w1 27 22 * 4 + octet b3 (o + 1) % 4)
    | none, some o =>
      let v := wire b3 o 2
      overwrite b3 o (beBytes 2 (v / 4096 * 4096 + bits w1 27 22 * 64 + v % 64))
    | none, none => b3
  if !bit (actWord a 0) 24 then b4 else
    match x.ip4, x.ip6 with
    | some o, _ => setIp4 b4 o 8 (wire b4 (o + 8) 2 - 256)
    | none, some o => overwrite b4 (o + 7) (beBytes 1 (octet b4 (o + 7) - 1))
    | none, none => b4

/-- The time to live, or hop limit, of the parsed IP header. -/
def ttlOf (x : Parsed) (bs : List Byte) : Option Nat :=
  match x.ip4, x.ip6 with
  | some o, _ => some (octet bs (o + 8))
  | none, some o => some (octet bs (o + 7))
  | none, none => none

/-- The edited body: rewrites, pop and push; none when an anchor is absent or the popped range does not fit. -/
def editBody (x : Parsed) (a : Nat) (tpl : List Byte) (body : List Byte) : Option (List Byte) :=
  let w5 := actWord a 5
  let popAt := bits w5 31 29
  let pushAt := bits w5 15 13
  let popLen := if popAt = 7 then 0 else min 64 (bits w5 23 16)
  let pushLen := if pushAt = 7 then 0 else min 64 (bits w5 7 0)
  let p := if popAt = 7 then some 0 else x.anchor popAt
  let q := if pushAt = 7 then some 0 else x.anchor pushAt
  match p, q with
  | some p, some q =>
    if min 256 body.length < p + popLen then none
    else
      let b := rewriteFields x a body
      let at_ := if p ≤ q ∧ q < p + popLen then p else q
      let ins := tpl.take pushLen
      some (if at_ ≤ p then b.take at_ ++ ins ++ (b.take p).drop at_ ++ b.drop (p + popLen)
            else b.take p ++ (b.take at_).drop (p + popLen) ++ ins ++ b.drop at_)
  | _, _ => none

/-- A body with padding to 60 octets and a fresh FCS. -/
def withFcs (body : List Byte) : List Byte :=
  let b := body ++ List.replicate (60 - body.length) 0
  b ++ fcs b

/-- The 64 octets of a push template. -/
def Dev.template (d : Dev) (bank i : Nat) : List Byte := leBytes 64 (sGet 0 d.cl.tpl (bank * 256 + i))

/-! The whey path (R274, R275). -/

/-- The level of a bucket now, in 1/625,000 token: it refills at rate thousand frames a second
(DESIGN CHOICE: log entry 92). -/
def Dev.bucket (d : Dev) (r : Nat) : Nat :=
  let full := max 1 (d.fld (R.CL_WHEY_LIM r) F.CL_WHEY_LIM_burst) * 625000
  match sGet none d.cl.tokens r with
  | none => full
  | some (level, t) => min full (level + (d.ticks - t) * d.fld (R.CL_WHEY_LIM r) F.CL_WHEY_LIM_rate)

/-- A whey frame of a reason asks for a token. The answer says whether it passes (DESIGN CHOICE: log entry 92). -/
def Dev.wheyTake (d : Dev) (r : Nat) : Dev × Bool :=
  let pass := (d.addSat (R.CL_WHEY_CNT r) F.CL_WHEY_CNT_count 1).count (wheyCtr r 0)
  if d.fld (R.CL_WHEY_LIM r) F.CL_WHEY_LIM_rate = 0 then (pass, true)
  else
    let n := d.bucket r
    if 625000 ≤ n then
      ({ pass with cl := { pass.cl with tokens := sPut none pass.cl.tokens r (some (n - 625000, d.ticks)) } }, true)
    else
      (((d.addSat (R.CL_WHEY_DROP r) F.CL_WHEY_DROP_count 1).count (wheyCtr r 1)).raise R.CL_ALARM
        F.CL_ALARM_whey_drop, false)

/-- Class of a whey frame on port 65. -/
def Dev.wheyClass (d : Dev) (r : Nat) : Nat :=
  if r = 3 then d.fld R.CL_WHEY_CFG F.CL_WHEY_CFG_ptp_tc else d.fld R.CL_WHEY_CFG F.CL_WHEY_CFG_tc

/-! Entry class and PTP (R151, R273). -/

/-- The entry traffic class of a first pass (R273); the frames that the device builds for port 66 enter in the class of
their template (R182, R218). -/
def Dev.entryClass (d : Dev) (f : Frame) (x : Parsed) : Nat :=
  let dflt := f.cls.getD (d.fld (R.CL_PORT_CFG f.port) F.CL_PORT_CFG_tc_default)
  if f.port = 66 then dflt else
  match d.fld (R.CL_PORT_CFG f.port) F.CL_PORT_CFG_tc_mode with
  | 1 => match x.outer with
    | some o => (d.fld (R.CL_PCP_MAP f.port) F.CL_PCP_MAP_map) / 2 ^ (3 * (octet f.octets (o + 2) / 32)) % 8
    | none => dflt
  | 2 => match x.ip4, x.ip6 with
    | some o, _ => octet f.octets (o + 1) / 32
    | none, some o => wire f.octets o 2 / 512 % 8
    | none, none => dflt
  | _ => dflt

/-- PTP on a transport that TC_PTP_CFG recognises on an Ethernet port (R151). -/
def Dev.ptpKnown (d : Dev) (p : Nat) (x : Parsed) : Bool :=
  d.ethernet p && x.ptp.isSome &&
    (if x.udp.isNone then d.flag (R.TC_PTP_CFG p) F.TC_PTP_CFG_l2
     else if x.ip4.isSome then d.flag (R.TC_PTP_CFG p) F.TC_PTP_CFG_udp4
     else d.flag (R.TC_PTP_CFG p) F.TC_PTP_CFG_udp6)

end Sys2Proof.Machine
end

