-- ==== Sys2Proof/Machine/Classifier.lean ====
section
/-! DEFINITION. CLASSIFY: what the pipelines resolve for a frame (R255–R275, R282). -/

namespace Sys2Proof.Machine

/-- The outcome of a classification: verdict, the rule_id of the action that applied, class and octets on leaving the pass. -/
structure Resolved where
  verdict : Verdict
  rule    : Nat
  cls     : Nat
  octets  : List Byte
  deriving DecidableEq, Repr

/-- Pass of a frame: 0 first, 1 second. -/
def Frame.pass (f : Frame) : Nat := if f.second.isSome then 1 else 0

/-- A classifier drop (R272). -/
def Dev.classDrop (d : Dev) (f : Frame) (cls : Nat) : Dev × Resolved :=
  (d.count (portCtr f.port 12), { verdict := .discard, rule := 0, cls := cls, octets := f.octets })

/-- The frame goes to the whey path by a reason, or its limiter refuses it (R272, R274, R275). -/
def Dev.divert (d : Dev) (x : Fly) (reason ruleId cls : Nat) : Dev × Resolved :=
  let d0 := if reason = 10 then d.raise R.CL_ALARM F.CL_ALARM_bad_action
    else if reason = 11 then d.raise R.CL_ALARM F.CL_ALARM_stale_epoch else d
  let (d1, ok) := d0.wheyTake reason
  if ok then
    (d1, { verdict := .whey { reason := reason, ruleId := ruleId, bank := x.bank, epoch := x.epoch,
                              pass := x.frame.pass },
           rule := ruleId, cls := cls, octets := x.frame.octets })
  else d1.classDrop x.frame cls

/-- A unicast frame is forwarded, unless it is longer than its target takes (R270). -/
def Dev.sendTo (d : Dev) (x : Fly) (port ruleId cls : Nat) (bs : List Byte) : Dev × Resolved :=
  if port ≤ 64 ∧ d.maxFrame port < bs.length then d.divert x 6 ruleId cls
  else (d, { verdict := .unicast port, rule := ruleId, cls := cls, octets := bs })

/-- The action of a hit is carried out; `bad` tells whether a line of a memory is uncorrectable (R266–R272)
(DEDUCED: log entry 93). -/
def Dev.perform (d : Dev) (x : Fly) (q : Parsed) (a : Nat) (inline : Bool) (cls0 : Nat) (bad : Nat × Nat → Bool) :
    Dev × Resolved :=
  let f := x.frame
  let w0 := actWord a 0
  let rule := if inline then 0 else actWord a 7
  let cls := if bit w0 28 then bits w0 27 25 else cls0
  let fwd := bits w0 31 29
  let target := w0 % 65536
  let body := f.octets.take (f.octets.length - 4)
  let edits := !inline && (decide (actWord a 1 / 2 ^ 28 ≠ 0) || bit w0 24 || bits (actWord a 5) 31 29 != 7 ||
    bits (actWord a 5) 15 13 != 7)
  let tpl := bits (actWord a 6) 7 0
  let pushes := !inline && bits (actWord a 5) 15 13 != 7
  if pushes && bad (5, x.bank * 256 + tpl) then d.divert x 12 rule cls
  else if fwd = 0 then d.classDrop f cls
  else if fwd = 3 then d.divert x 2 rule cls
  else if 5 ≤ fwd ∨ (fwd = 1 ∧ 65 < target) ∨ (fwd = 2 ∧ 16383 < target) then d.divert x 10 rule cls
  else if fwd = 2 ∧ bad (9, target) then d.divert x 12 rule cls
  else if fwd = 4 ∧ f.second.isSome then d.divert x 9 rule cls
  else if !inline && bit w0 24 && (match ttlOf q f.octets with
      | some t => decide (t ≤ 1)
      | none => false) then d.divert x 5 rule cls
  else
    match (if edits then (editBody q a (d.template x.bank tpl) body).map withFcs else some f.octets) with
    | none => d.divert x 8 rule cls
    | some bs =>
      if 16384 < bs.length then d.divert x 7 rule cls
      else if fwd = 1 then d.sendTo x target rule cls bs
      else if fwd = 2 then (d, { verdict := .group target, rule := rule, cls := cls, octets := bs })
      else (d, { verdict := .recirculate (bits w0 23 16), rule := rule, cls := cls, octets := bs })

/-- A bank's ternary lines: is one of them uncorrectable? -/
def Dev.ternBad (d : Dev) (bank : Nat) (extra : List (Nat × Nat)) : Bool :=
  (d.mi.diverted ++ extra).any fun x => x.1 == 3 && x.2 / 49152 == bank

/-- The registers as they stood at the assignment of a frame's head cell, for CL_PORT_CFG, CL_PCP_MAP, CL_UDF_CFG and CL_KEY_PROF
(R285). -/
def Fly.assigned (x : Fly) (d : Dev) : Dev := { d with regs := x.config }

/-- The lookups of a frame and the action they resolve to (R261, R265, R282) (DEDUCED: log entry 93). -/
def Dev.classifyTables (d : Dev) (x : Fly) (q : Parsed) (cls : Nat) (extra : List (Nat × Nat)) : Dev × Resolved :=
  let f := x.frame
  let g := x.assigned d
  let o := R.CL_PORT_CFG f.port
  let second := f.second.isSome
  let ep := g.fld o (if second then F.CL_PORT_CFG_eprof1 else F.CL_PORT_CFG_eprof0)
  let tp := g.fld o (if second then F.CL_PORT_CFG_tprof1 else F.CL_PORT_CFG_tprof0)
  let emOn := g.flag o F.CL_PORT_CFG_em_en
  let tcOn := g.flag o F.CL_PORT_CFG_tcam_en
  let ek := g.key f q cls ep 12
  let bad (l : Nat × Nat) : Bool := d.diverted l.1 l.2 || extra.contains l
  if emOn && (emLines ep ek).any (fun l => bad (1, l)) then d.divert x 12 0 cls
  else if tcOn && d.ternBad x.bank extra then d.divert x 12 0 cls
  else
    let em := if emOn then
        (match d.emFind ep ek with
         | some l => let e := sGet 0 d.cl.em l
                     if bit (emBanks e) x.bank then some e else none
         | none => none)
      else none
    let tern := if tcOn then d.ternFind x.bank tp (g.key f q cls tp 40) else none
    match d.lookup tern em x.bank with
    | .action a inline line =>
      (match line with
       | some l => if bad (4, l) then d.divert x 12 0 cls else d.perform x q a inline cls bad
       | none => d.perform x q a inline cls bad)
    | .miss =>
      match g.fld o F.CL_PORT_CFG_miss with
      | 1 => d.classDrop f cls
      | 2 =>
        let t := g.fld o F.CL_PORT_CFG_miss_port
        if 65 < t then d.divert x 10 0 cls else d.sendTo x t 0 cls f.octets
      | _ => d.divert x 1 0 cls

/-- The classification of a frame (R265, R274, R295). A standby parses and counts, then discards (R410). -/
def Dev.classifyFrame (d : Dev) (x : Fly) (extra : List (Nat × Nat)) : Dev × Resolved :=
  let f := x.frame
  let q := parse f.octets
  let cls := match f.second with
    | some s => s.cls
    | none => (x.assigned d).entryClass f q
  if d.standby then (d, { verdict := .discard, rule := 0, cls := cls, octets := f.octets })
  else
    match f.direct with
    | some p => (d, { verdict := .unicast p, rule := 0, cls := f.cls.getD 0, octets := f.octets })
    | none =>
      let stale := match f.second with
        | some s => s.epoch != (if s.bank = 0 then d.cl.epochs.1 else d.cl.epochs.2)
        | none => false
      if stale then d.divert x 11 0 cls
      else if (match q.slow with
          | some o => octet f.octets o == 0x0A
          | none => false) then d.divert x 4 0 cls
      else if d.ptpKnown f.port q then d.divert x 3 0 cls
      else d.classifyTables x q cls extra

end Sys2Proof.Machine
end

