-- ==== Sys2Proof/Machine/FrameOps.lean ====
section
/-! DEFINITION. Version-3 framing: the blocks of a frame and what a receiver makes of them, the positions that the framing
counter fixes, and the alignment marker (R116–R121). A block is 257 bits, its kind bit first. -/

namespace Sys2Proof.Machine

/-- The CRC-16 of capability words, training words, management blocks and markers, over the bits above bit 15. -/
def crc16 (n v : Nat) : Nat := crcMsb 16 0x1021 0xFFFF (v / 2 ^ 16 % 2 ^ (n - 16)) (n - 16)

/-! Blocks at data positions (R118). -/

/-- A block of its kind bit and its 256 bits. -/
def blockOf (payload : Bool) (v : Nat) : BitVec 257 := BitVec.ofNat 257 ((if payload then 2 ^ 256 else 0) + v % 2 ^ 256)

/-- Octets from bit 8n − 1 downward, zeros where there are none. -/
def octetField (n : Nat) (bs : List Byte) : Nat := beNat (bs.take n ++ List.replicate (n - bs.length) 0)

/-- IDLE. -/
def idleBlock : BitVec 257 := blockOf false 0

/-- START: the traffic class and the first 30 octets of a frame. -/
def startBlock (cls : Nat) (bs : List Byte) : BitVec 257 :=
  blockOf false (0x10 * 2 ^ 248 + cls % 8 * 2 ^ 245 + octetField 30 bs)

/-- A payload block: the next 32 octets. -/
def payloadBlock (bs : List Byte) : BitVec 257 := blockOf true (octetField 32 bs)

/-- END: how many octets are valid, and the last octets of a frame. -/
def endBlock (bs : List Byte) : BitVec 257 := blockOf false (0x20 * 2 ^ 248 + min 30 bs.length * 2 ^ 240 + octetField 30 bs)

/-- CREDIT: eight cumulative counts, class 0 first. -/
def creditBlock (counts : List Nat) : BitVec 257 :=
  blockOf false (0x40 * 2 ^ 248 +
    (List.range 8).foldl (fun a c => a + counts.getD c 0 % 65536 * 2 ^ (224 - 16 * c)) 0)

/-- The blocks after START: payload blocks of 32 octets, then END with the rest. A rest of 31 octets has no form in R118, whose
END holds 30 at most: it leaves in a payload block whose last octet is 0, and END holds none
(DESIGN CHOICE: log entry 169). -/
def restBlocks : Nat → List Byte → List (BitVec 257)
  | 0, bs => [endBlock bs]
  | k + 1, bs => if bs.length ≤ 30 then [endBlock bs] else payloadBlock (bs.take 32) :: restBlocks k (bs.drop 32)

/-- A frame, FCS included, as START, payload blocks and END. -/
def frameBlocks (cls : Nat) (bs : List Byte) : List (BitVec 257) :=
  startBlock cls bs :: restBlocks bs.length (bs.drop 30)

/-- The messages of a lane's RS(544,514) codewords: 20 consecutive blocks each, 5,140 bits or 514 symbols of 10; what is left has
not filled one. They do not follow the framing counter, so `blocks` begins at any codeword boundary. The
parity is IEEE 802.3's (R116) (DESIGN CHOICE: log entry 175). -/
def codewordMessages (blocks : List (BitVec 257)) : List (List (BitVec 257)) :=
  (List.range (blocks.length / 20)).map fun k => (blocks.drop (20 * k)).take 20

/-- A frame in reception: its class and octets so far, and whether it has met a control block of another code (R118). -/
structure RxFrame where
  cls    : Nat
  octets : List Byte
  bad    : Bool
  deriving DecidableEq, Repr

/-- `n` octets of a block from bit `hi` downward. -/
def blockOctets (v hi n : Nat) : List Byte := beBytes n (bits v hi (hi + 1 - 8 * n))

/-- One block at a data position: the frame in reception after it, and the frame that ends with it, which FRAME_RECEIVED then
brings: with a decode error when a control block of another code was discarded inside it (R110, R118). IDLE and CREDIT may
stand between the blocks of a frame. -/
def receiveBlock (open_ : Option RxFrame) (b : BitVec 257) : Option RxFrame × Option RxFrame :=
  let v := b.toNat % 2 ^ 256
  let add (n : Nat) (hi : Nat) : Option RxFrame :=
    open_.map fun f => { f with octets := f.octets ++ blockOctets v hi n }
  if bit b.toNat 256 then (add 32 255, none)
  else
    match bits v 255 248 with
    | 0x00 | 0x40 => (open_, none)
    | 0x10 => (some { cls := bits v 247 245, octets := blockOctets v 239 30, bad := false }, none)
    | 0x20 => (none, add (min 30 (bits v 247 240)) 239)
    | _ => (open_.map fun f => { f with bad := true }, none)

/-! Positions (R117). -/

/-- What a value of the framing counter is for. -/
inductive Position
  | marker | management | trigger | data
  deriving DecidableEq, Repr

/-- The position that the framing counter fixes, with a trigger block every `s` blocks; 0 for none. -/
def position (s c : Nat) : Position :=
  if c % 16384 = 0 then .marker
  else if c % 4096 = 2048 then .management
  else if 0 < s ∧ c % s = 1 then .trigger
  else .data

/-- The lane and the counter value at which the k-th data-position block after a marker goes on a port of `w` lanes: data
positions are filled in lane order at one value of c, then at the next value. -/
def dataSlot (s w : Nat) : Nat → Nat → Nat → Option (Nat × Nat)
  | 0, _, _ => none
  | n + 1, c, k =>
    if position s c = .data then (if k < w then some (k, c) else dataSlot s w n (c + 1) (k - w))
    else dataSlot s w n (c + 1) k

/-- The first value after c that is r modulo m, not reduced. -/
def nextAt (m r c : Nat) : Nat := c + 1 + (r + m - (c + 1) % m) % m

/-- How many values strictly between c and e are r modulo m. -/
def countAt (m r c e : Nat) : Nat := (e + m - 1 - r) / m - (c + m - r) / m

/-- How many values strictly between c and e are data positions. -/
def dataCount (s c e : Nat) : Nat :=
  (e - c - 1) - countAt 16384 0 c e - countAt 4096 2048 c e - (if s = 0 then 0 else countAt s 1 c e)

/-! The alignment marker (R121). -/

/-- The pattern in bits 255:192. -/
def markerPattern : Nat := 0xC3F05A960F3CA569

/-- The code of a port width in a training control word and a marker (R81). -/
def widthCode (w : Nat) : Nat := if w = 8 then 3 else if w = 4 then 2 else if w = 2 then 1 else 0

/-- A marker of lane index i of a port of w lanes, with its count. -/
def markerOf (i w count : Nat) : BitVec 256 :=
  let v := markerPattern * 2 ^ 192 + i % 8 * 2 ^ 189 + widthCode w * 2 ^ 187 + count % 256 * 2 ^ 176
  BitVec.ofNat 256 (v + crc16 256 v)

/-- A received block is a marker of lane index i and of width w: pattern, index, width, reserved and zero bits, and CRC. -/
def isMarker (i w : Nat) (mk : BitVec 256) : Bool :=
  let v := mk.toNat
  bits v 255 192 == markerPattern && bits v 191 189 == i && bits v 188 187 == widthCode w && bits v 186 184 == 0 &&
    bits v 175 16 == 0 && crc16 256 v == v % 2 ^ 16

end Sys2Proof.Machine
end

