-- ==== Sys2Proof/Machine/EgressOps.lean ====
section
/-! DEFINITION. Egress: which frame a port sends next, its transmit stamp and one-step correction, the start and the end of
its transmission (R152, R153, R241, R243–R250, R271). -/

namespace Sys2Proof.Machine

/-! Eligibility (R243, R244). -/

/-- Class c of port p is paused by the partner (R237). -/
def Dev.isPaused (d : Dev) (p c : Nat) : Bool := bit (sGet 0 d.sw.paused p) c

/-- The ON RXP ring of lowest number that takes the frames of class c (R296). -/
def Dev.rxpRing (d : Dev) (c : Nat) : Option Nat :=
  (List.range 64).find? fun r => d.ringType r == 4 && d.ringState r == enOn &&
    bit (d.fld (R.HR_RING_CFG r) F.HR_RING_CFG_cls) c

/-- The frame of ring r that waits for further buffers (R296). -/
def Dev.rxpPart (d : Dev) (r : Nat) : Option RxpPart := sGet none d.sw.parts r
/-- The frame of ring r that waits for further buffers replaced. -/
def Dev.setPart (d : Dev) (r : Nat) (x : Option RxpPart) : Dev :=
  { d with sw := { d.sw with parts := sPut none d.sw.parts r x } }

/-- Octets of an entry without its FCS. -/
def QEntry.body (e : QEntry) : List Byte := e.octets.take (e.octets.length - 4)

/-- Can port p start this entry now? -/
def Dev.canStart (d : Dev) (p : Nat) (e : QEntry) : Bool :=
  if p < 64 then
    d.carrying p && !d.txIdle p && !d.isPaused p e.cls &&
      (!d.isazu p || decide (cellsOf e.octets.length ≤ (d.credit p e.cls).avail))
  else if p = 64 then d.pailTakes e.body.length
  else if p = 65 then
    match d.rxpRing e.cls with
    | some r => !(d.ring r).posted.isEmpty && (d.rxpPart r).isNone
    | none => false
  else true

/-- The head of class c of port p, when it can start. -/
def Dev.eligible (d : Dev) (p c : Nat) : Option QEntry :=
  match d.queue p c with
  | e :: _ => if d.canStart p e then some e else none
  | [] => none

/-- The deficit of a class. -/
def Dev.deficit (d : Dev) (p c : Nat) : Nat := sGet 0 d.sw.deficit (pcKey p c)
/-- The deficit of a class replaced. -/
def Dev.setDeficit (d : Dev) (p c n : Nat) : Dev :=
  { d with sw := { d.sw with deficit := sPut 0 d.sw.deficit (pcKey p c) n } }
/-- Quantum of a class, octets (R243). -/
def Dev.quantum (d : Dev) (p c : Nat) : Nat := max 1 (d.fld (R.SW_TC_CFG p c) F.SW_TC_CFG_weight) * 256

/-- The turn of port p passes from class c to the next, which gains its quantum when it can send. An empty class keeps
no deficit (DEDUCED: log entry 88). -/
def Dev.passTurn (d : Dev) (p mask c : Nat) : Dev :=
  let d0 := if (d.queue p c).isEmpty then d.setDeficit p c 0 else d
  let n := (c + 1) % 8
  let d1 : Dev := { d0 with sw := { d0.sw with turn := sPut 0 d0.sw.turn p n } }
  if !bit mask n && (d1.eligible p n).isSome then d1.setDeficit p n (d1.deficit p n + d1.quantum p n) else d1

/-- Deficit round robin among the classes outside sp_mask: the class in turn goes while its deficit covers its head;
otherwise the turn passes on (DEDUCED: log entry 88). -/
def Dev.drr (d : Dev) (p mask : Nat) : Nat → Dev × Option Nat
  | 0 => (d, none)
  | k + 1 =>
    let c := sGet 0 d.sw.turn p
    match (if bit mask c then none else d.eligible p c) with
    | some e =>
      if e.octets.length ≤ d.deficit p c then (d.setDeficit p c (d.deficit p c - e.octets.length), some c)
      else (d.passTurn p mask c).drr p mask k
    | none => (d.passTurn p mask c).drr p mask k

/-- The class that port p serves next: strict priority first, then deficit round robin (R243). -/
def Dev.pickClass (d : Dev) (p : Nat) : Dev × Option Nat :=
  let mask := d.fld (R.SW_PORT_CFG p) F.SW_PORT_CFG_sp_mask
  match ((List.range 8).reverse.find? fun c => bit mask c && (d.eligible p c).isSome) with
  | some c => (d, some c)
  | none =>
    if (List.range 8).any fun c => !bit mask c && (d.eligible p c).isSome then d.drr p mask 1024 else (d, none)

/-! Transmit stamps (R149, R152, R153). -/

/-- Where the stamped symbol of a frame that starts is loaded: the lane index that carries it, and 2^-16 ns from the last TIME
tick to the instant at which that lane's serializer loads it, its place in the PCS and in the FEC codeword included (R149). -/
structure TxLoad where
  lane : Nat
  at_  : Nat
  deriving DecidableEq, Repr

/-- The transmit stamp of a frame that starts now on port p: the counter at the load instant plus that lane's transmit delay. On
ports 64 and 65 R149 names no edge: the stamp is the counter (DESIGN CHOICE: log entry 168). -/
def Dev.txStamp (d : Dev) (p : Nat) (l : TxLoad) : Nat :=
  if p < 64 then t48Add d.now ((l.at_ + (d.reg (R.LN_TX_DELAY (p + l.lane))).toNat : Nat) : Int) else d.now

/-- A transmit stamp enters the queue, or is lost with 64 entries present (R152). -/
def Dev.tsqPush (d : Dev) (id : BitVec 16) (p t : Nat) : Dev :=
  if 64 ≤ d.tc.tsq.length then
    ((({ d with tc := { d.tc with tsqSeq := (d.tc.tsqSeq + 1) % 65536 } } : Dev).addSat R.TC_TSQ_STAT F.TC_TSQ_STAT_lost
      1).raise R.TC_ALARM F.TC_ALARM_tsq_overflow).count (devCtr 7)
  else
    let e : TsqEntry := { id := id, port := p, invalid := !d.timeValid, te := d.te, t48 := t, seq := d.tc.tsqSeq }
    { d with tc := { d.tc with tsq := d.tc.tsq ++ [e], tsqSeq := (d.tc.tsqSeq + 1) % 65536 } }

/-- The one-step correction of a frame whose PTP header is at an offset: the correction field grows by t_tx − ts_ref,
the UDP checksum over IPv4 becomes 0, and the FCS follows (R153). -/
def oneStepEdit (q : Parsed) (o : Nat) (delta : Int) (bs : List Byte) : List Byte :=
  let body := bs.take (bs.length - 4)
  let cf := signed 64 (wire body (o + 8) 8)
  let b1 := overwrite body (o + 8) (beBytes 8 (unsigned 64 (cf + delta)))
  let b2 := match q.udp with
    | some u => overwrite b1 (u + 6) [0, 0]
    | none => b1
  b2 ++ fcs b2

/-- What a frame's transmit request asks at its start: a stamp, a one-step correction, or both; one-step over IPv6 is
not performed, and the frame then has a queue entry (R152, R153). The manual does not say what a request does on ports 64 and 65,
nor whether one_step is among the PTP bits that an Isazu port ignores: an entry with that port number is queued, and the
correction is performed on Isazu ports (DESIGN CHOICE: log entry 168). -/
def Dev.txRequest (d : Dev) (p : Nat) (e : QEntry) (l : TxLoad) : Dev × QEntry :=
  match e.frame.tx with
  | none => (d, e)
  | some r =>
    let t := d.txStamp p l
    let q := parse e.octets
    let want := if decide (p < 64) && d.flag (R.TC_PTP_CFG p) F.TC_PTP_CFG_one_step then r.oneStep else none
    match want, q.ptp with
    | some ref, some o =>
      if q.udp.isSome && q.ip6.isSome then ((d.tsqPush r.id p t).count (portCtr p 21), e)
      else (if r.stamp then d.tsqPush r.id p t else d, { e with octets := oneStepEdit q o (t48Sub t ref) e.octets })
    | _, _ => (if r.stamp then d.tsqPush r.id p t else d, e)

/-! Transmission. -/

/-- A frame's octets shared out among posted buffers, in order. -/
def shareOut : List RxpBuf → List Byte → List (RxpBuf × List Byte)
  | [], _ => []
  | b :: bs, xs =>
    if xs.length ≤ b.len.toNat then [(b, xs)] else (b, xs.take b.len.toNat) :: shareOut bs (xs.drop b.len.toNat)

/-- An RXP entry as the device writes it back (R296). -/
def Dev.rxpEntry (d : Dev) (e : QEntry) (bad sop eop : Bool) (b : RxpBuf) (xs : List Byte) (total : Nat) : List Byte :=
  let stamped := decide (e.frame.port < 64) && d.flag (R.TC_PTP_CFG e.frame.port) F.TC_PTP_CFG_rx_stamp
  let v (c : Bool) (k : Nat) : Nat := if c then k else 0
  let flags := v sop 1 + v eop 2 + v bad 4 + v e.whey.isSome 8 + v e.frame.invalid 16
  let reason := match e.whey with
    | some w => w.reason
    | none => 0
  let head := b.addr.toNat
  let v2 := leBytes 8 head ++ leBytes 2 xs.length ++ leBytes 1 flags ++ leBytes 1 e.frame.port ++
    leBytes 2 (v sop total) ++ leBytes 1 e.cls ++ leBytes 1 reason ++ leBytes 6 (v stamped e.frame.stamp)
  if d.v3 then
    let info := match e.whey with
      | some w => w.bank + 2 * w.epoch + 32 * w.pass
      | none => 0
    let rule := match e.whey with
      | some w => w.ruleId
      | none => 0
    v2 ++ leBytes 1 (v stamped e.frame.te) ++ leBytes 1 info ++ leBytes 4 rule ++ List.replicate 36 0
  else v2 ++ List.replicate 10 0

/-- Octets of a frame are written into the posted buffers of ring r, and the entries back into the same slots; the answer holds the
octets for which there is no buffer yet (R296, R302). -/
def Dev.rxpWrite (d : Dev) (r : Nat) (e : QEntry) (bad first : Bool) (bs : List Byte) : Dev × List Byte :=
  let parts := shareOut (d.ring r).posted bs
  let n := parts.length
  let rest := bs.drop (parts.foldl (fun a x => a + x.2.length) 0)
  let d1 := ((List.range n).zip parts).foldl (fun d x =>
    (d.toHost x.2.1.addr.toNat x.2.2).toHost (d.entryAddr r (d.didx r + x.1))
      (d.rxpEntry e bad (first && x.1 == 0) (rest.isEmpty && x.1 + 1 == n) x.2.1 x.2.2 e.body.length)) d
  let q := d1.ring r
  ((d1.setRing r { q with posted := q.posted.drop n }).advance r n, rest)

/-- A cell of frame `id` has been read uncorrectable. -/
def Dev.frameBad (d : Dev) (id : Nat) : Bool := d.sw.store.any fun h => h.id == id && h.bad

/-- Octets with the FCS inverted (R250). -/
def stompFcs (bs : List Byte) : List Byte :=
  let body := bs.take (bs.length - 4)
  body ++ (fcs body).map fun b => b ^^^ 0xFF

/-- Port p is an Isazu port whose link runs version-3 framing. -/
def Dev.framed3 (d : Dev) (p : Nat) : Bool := d.isazu p && d.fld (R.LK_STATUS p) F.LK_STATUS_ver == 3

/-- The entry leaves its queue and its transmission on port p starts: credit is consumed, a frame for port 64 is written
into the outbound FIFO, and one for port 65 into the host's buffers (R241, R296, R316). -/
def Dev.beginTx (d : Dev) (p : Nat) (e : QEntry) (bad : Bool) (l : TxLoad) : Dev :=
  let (d1, e1) := d.txRequest p e l
  let d2 := if d1.isazu p then
      let x := d1.credit p e.cls
      d1.setCredit p e.cls { x with consumed := (x.consumed + cellsOf e1.octets.length) % 65536 }
    else d1
  let wire := if bad then stompFcs e1.octets else e1.octets
  let run : TxRun := { entry := e, sent := e1.octets, bad := bad
                       left := if d2.framed3 p then frameBlocks e.cls wire else [] }
  let d3 := if p = 64 then d2.pailPush (pailWords e1.body bad)
    else if p = 65 then
      (match d2.rxpRing e.cls with
       | some r =>
         let (d3, rest) := d2.rxpWrite r e1 bad true e1.body
         if rest.isEmpty then d3 else d3.setPart r (some { run := run, rest := rest, ended := false })
       | none => d2)
    else d2
  d3.setTx p (some run)

/-- A frame on port 66 has its edits written back, taking at most one more cell, and enters its second pass (R235,
R271). -/
def Dev.recirculate (d : Dev) (e : QEntry) : Dev :=
  let d0 := if d.sw.store.any fun h => h.id == e.id && decide (h.cells.length < cellsOf e.octets.length)
    then d.addCell e.id .recirc else d
  let f := { e.frame with octets := e.octets
                          second := some { cls := e.cls, tag := e.tag, bank := e.bank, epoch := e.epoch, order := e.cls } }
  let d1 := (((d0.count (portCtr 66 2)).count (portCtr 66 3) e.octets.length).count (portCtr 66 (40 + e.cls)))
  { d1 with sw := { d1.sw with arrive := d1.sw.arrive ++ [f] } }

/-- The copies of frame `id` in transmission end stomped: on an external port by their FCS, on port 64 by the error mark of their
last word. What has left the device, and a copy written to the host's buffers, stays as it is (R250)
(DEDUCED: log entry 105). -/
def Dev.stompCopies (d : Dev) (id : Nat) : Dev :=
  (List.range 65).foldl (fun d p =>
    match d.txRun p with
    | some x =>
      if x.entry.id != id || x.bad then d
      else
        let all := frameBlocks x.entry.cls (stompFcs x.sent)
        (if p = 64 then d.pailMarkErr else d).setTx p
          (some { x with bad := true, left := all.drop (all.length - x.left.length) })
    | none => d) d

/-- The next frame of port p starts, if one may (R243). `bad` tells that the read found an uncorrectable cell, which
stomps every copy of the frame (R250) (DEDUCED: log entry 105). -/
def Dev.schedulePort (d : Dev) (p : Nat) (bad : Bool) (l : TxLoad) : Dev :=
  if (d.txRun p).isSome then d
  else
    match d.pickClass p with
    | (d1, none) => d1
    | (d1, some c) =>
      match d1.queue p c with
      | [] => d1
      | e :: es =>
        let mark (h : Held) : Held := if h.id == e.id then { h with bad := true } else h
        let d2 := (if bad then ({ d1 with sw := { d1.sw with store := d1.sw.store.map mark } } : Dev).stompCopies e.id
          else d1).setQueue p c es
        if p = 66 then d2.recirculate e else d2.beginTx p e (bad || d2.frameBad e.id) l

/-- A stomped transmission is counted (R250). -/
def Dev.countStomp (d : Dev) (p : Nat) : Dev :=
  ((d.addSat (R.SW_STOMP p) F.SW_STOMP_count 1).count (portCtr p 13)).raise R.SW_ALARM F.SW_ALARM_stomp

/-- The blocks that a frame in transmission on a version-3 port has still to send leave in the data positions that follow the
framing counter (R117, R118). -/
def Dev.flushBlocks (d : Dev) (p : Nat) (x : TxRun) : Dev :=
  if x.left.isEmpty then d
  else
    let q := d.port p
    (d.setPort p { q with filled := q.filled + x.left.length }).emit (.data p q.c q.c q.filled x.left)

/-- The trigger words that waited on a version-1 or version-2 port for the end of the frame leave ahead of all waiting frames
(R129). -/
def Dev.flushTrigger (d : Dev) (p : Nat) : Dev :=
  let q := d.port p
  if q.waiting.isEmpty then d
  else q.waiting.foldl (fun d w => d.emit (.inBand p w)) (d.setPort p { q with waiting := [] })

/-- The frame in transmission on port p has left it, and a flow-control frame that waited for its end follows (R129, R233, R237,
R397). -/
def Dev.endTx (d : Dev) (p : Nat) (x : TxRun) : Dev :=
  let e := x.entry
  let d1 := ((((d.flushBlocks p x).setTx p none).count (portCtr p 2)).count (portCtr p 3) x.sent.length).count (portCtr p (40 + e.cls))
  let d2 := if x.bad then d1.countStomp p else d1
  let d3 := if p < 64 then (d2.emit (.frame p e.cls (if x.bad then stompFcs x.sent else x.sent) x.bad)).pfcFlush p else d2
  (d3.targetDone e.id).flushTrigger p

/-- The frame in transmission on port 65 has left it, unless it still waits for buffers, which its end then waits for too
(R296). -/
def Dev.endTxHost (d : Dev) (x : TxRun) : Dev :=
  match (List.range 64).find? fun r => (d.rxpPart r).any fun q => q.run == x && !q.ended with
  | some r =>
    match d.rxpPart r with
    | some q => (d.setTx 65 none).setPart r (some { q with ended := true })
    | none => d
  | none => d.endTx 65 x

/-- What is left of a frame goes into the buffers that ring r has read since (R296). -/
def Dev.rxpContinue (d : Dev) (r : Nat) : Dev :=
  match d.rxpPart r with
  | none => d
  | some q =>
    let (d1, rest) := d.rxpWrite r q.run.entry q.run.bad false q.rest
    if !rest.isEmpty then d1.setPart r (some { q with rest := rest })
    else if q.ended then
      let tx := d1.txRun 65
      ((d1.setPart r none).endTx 65 q.run).setTx 65 tx
    else d1.setPart r none

/-- Ring r stops: a frame of which it has not written the whole goes back to the head of its queue
(DESIGN CHOICE: log entry 172). -/
def Dev.rxpAbandon (d : Dev) (r : Nat) : Dev :=
  match d.rxpPart r with
  | none => d
  | some q =>
    let e := q.run.entry
    let d1 := (d.setPart r none).setQueue 65 e.cls (e :: d.queue 65 e.cls)
    if q.ended then d1 else d1.setTx 65 none

/-- The frame in transmission on external port p is cut off: it ends stomped and is counted, and goes back whole to the
head of its queue; the transmitter is idle from here on, and no flow-control frame follows (R51, R52). -/
def Dev.cutTx (d : Dev) (p : Nat) : Dev :=
  match d.txRun p with
  | none => d
  | some x =>
    let c := x.entry.cls
    let d0 : Dev := { d with sw := { d.sw with fcDue := sPut none d.sw.fcDue p none } }
    (((d0.setTx p none).countStomp p).emit (.frame p c (stompFcs x.sent) true)).setQueue p c (x.entry :: d.queue p c)

end Sys2Proof.Machine
end

