-- ==== Sys2Proof/Machine/Switch.lean ====
section
/-! DEFINITION. The commands of the switch core: spreading, admission, resequencing, egress, flow control and credit
(R228–R250). -/

namespace Sys2Proof.Machine

/-! Spreading. -/

/-- The active bank and its epoch (R278). -/
def Dev.activeBank (d : Dev) : Nat := d.fld R.CL_BANK_STAT F.CL_BANK_STAT_active
/-- The epoch of the active bank. -/
def Dev.epoch (d : Dev) : Nat := d.fld R.CL_BANK_STAT F.CL_BANK_STAT_epoch

/-- The registers of which a head cell takes the values that they have at its assignment (R285). -/
def headConfig (o : Nat) : Bool :=
  (decide (R.CL_UDF_CFG 0 ≤ o) && decide (o < R.CL_UDF_CFG 8)) ||
    (decide (R.CL_PORT_CFG 0 ≤ o) && decide (o < R.CL_PORT_CFG 67)) ||
    (decide (R.CL_KEY_PROF 0 0 ≤ o) && decide (o < R.CL_KEY_PROF 16 0))

/-- The resequencer would have no place for a further frame of port p behind a recirculating one: its first passes in the
pipelines and those it holds are 256 (R231) (DEDUCED: log entry 79). -/
def Dev.orderBlocked (d : Dev) (p : Nat) : Bool :=
  decide (256 ≤ d.orderCount p + (d.sw.fly.filter fun x => x.frame.port == p && x.frame.second.isNone).length)

/-- The frame that the spreader takes next: the first whose head cell was complete, second passes and the ports with a place in the
resequencer. -/
def Dev.nextHead (d : Dev) : Option Frame :=
  d.sw.arrive.find? fun f => f.second.isSome || !d.orderBlocked f.port

/-- HEAD_CELL_ASSIGN: the frame whose head cell was complete first takes the next pipeline and sequence number, the
active bank and epoch, and the configuration in force; a second pass keeps its bank and epoch (R228, R229, R231, R271, R278, R285)
(DEDUCED: log entry 79). -/
def execHeadCellAssign (s : State) : Result :=
  running s fun d =>
    match d.nextHead with
    | none => d
    | some f =>
      if !d.inGlaze || d.inFault then d
      else
        let stamp := match f.second with
          | some x => (x.bank, x.epoch)
          | none => (d.activeBank, d.epoch)
        let x : Fly := { frame := f, seq := d.sw.seqNo, pipe := d.sw.rotate, bank := stamp.1, epoch := stamp.2,
                         config := d.regs.filter fun e => headConfig e.1,
                         verdict := none, rule := 0, cls := 0, edited := f.octets }
        { d with sw := { d.sw with arrive := d.sw.arrive.erase f, seqNo := (d.sw.seqNo + 1) % 4096
                                   rotate := (d.sw.rotate + 1) % 16, fly := d.sw.fly ++ [x] } }

/-! Admission (R235, R236, R239). -/

/-- The cells that frame `id` holds. -/
def Dev.heldOf (d : Dev) (id : Nat) : Option Held := d.sw.store.find? fun h => h.id == id

/-- The class whose credit a frame consumed: that of its START block (R118, R241). -/
def Fly.start (x : Fly) : Nat := x.frame.cls.getD x.cls

/-- One more cell of a space is charged to a frame (R232, R233). -/
def Dev.charge (d : Dev) (x : Fly) (k : Space) : Dev :=
  let id := x.frame.id
  (if (d.heldOf id).isSome then d else d.openHeld id x.frame.port x.cls x.start).addCell id k

/-- The cells of a frame in flight are all admitted. -/
def Dev.stored (d : Dev) (x : Fly) : Bool :=
  match d.heldOf x.frame.id with
  | some h => decide (cellsOf x.frame.octets.length ≤ h.cells.length)
  | none => false

/-- A frame needs cells: a first pass that goes somewhere. -/
def Fly.needsCells (x : Fly) : Bool :=
  x.frame.second.isNone && x.verdict.isSome && x.verdict != some .discard

/-- The verdict of the frame `id` in flight becomes discard. -/
def Dev.voidFly (d : Dev) (id : Nat) : Dev :=
  { d with sw := { d.sw with
      fly := d.sw.fly.map fun x => if x.frame.id == id then { x with verdict := some .discard } else x } }

/-- A frame that finds the buffer full is discarded whole (R235). -/
def Dev.bufferFull (d : Dev) (x : Fly) : Dev :=
  let p := x.frame.port
  (((((d.addSat (R.SW_HDRM_BORROW p) F.SW_HDRM_BORROW_count 1).raise R.SW_ALARM F.SW_ALARM_flow_violation).count
    (portCtr p 18)).voidFly x.frame.id)).freeFrame x.frame.id

/-- CELL_ADMIT: the next cell of frame `id` is admitted from the cells set aside for the class of an Isazu frame's START block, or
from the first space of R235 that has room; headroom and borrowed cells assert back-pressure (R235–R237, R239, R241). -/
def execCellAdmit (id : Nat) (s : State) : Result :=
  running s fun d =>
    match d.sw.fly.find? (fun x => x.frame.id == id) with
    | none => d
    | some x =>
      if !x.needsCells || d.stored x then d
      else
        let p := x.frame.port
        let c := x.cls
        if d.isazu p && decide (0 < (d.credit p x.start).aside) then
          let (k, d1) := d.takeAside p x.start
          d1.charge x k
        else
          match d.space p c with
          | none => d.bufferFull x
          | some (k, borrowed) =>
            let d1 := d.charge x k
            let d2 := if borrowed then
                ((d1.addSat (R.SW_HDRM_BORROW p) F.SW_HDRM_BORROW_count 1).raise R.SW_ALARM
                  F.SW_ALARM_hdrm_borrow).count (portCtr p 17)
              else d1
            if borrowed || k == .hdrm then d2.assertBp p c else d2

/-! Resequencing and enqueue (R229–R231, R245–R247, R270). -/

/-- Payload rate of an external port in units of 1/64 Mb/s: an Ethernet mode's rate, or an Isazu link's data positions. -/
def Dev.payloadRate (d : Dev) (p : Nat) : Nat :=
  if d.ethernet p then
    64 * (match d.fld (R.LK_ETH_CFG p) F.LK_ETH_CFG_eth_mode with
      | 1 => 1000 | 2 => 10000 | 3 => 25000 | 4 => 50000
      | 5 | 6 => 100000
      | 7 | 8 | 9 => 200000
      | 10 | 11 | 12 => 400000
      | 13 | 14 => 800000
      | _ => 0)
  else
    match d.fld (R.LK_STATUS p) F.LK_STATUS_ver with
    | 1 => 64 * 10000
    | 2 => 64 * 25000
    | 3 =>
      let lane := if d.fld (R.LN_STATUS p) F.LN_STATUS_rate_now = 0 then 200000 else 100000
      let n := lane * 2 ^ (min (max 1 (d.fld (R.LK_PORT_CFG p) F.LK_PORT_CFG_width)) 4 - 1)
      n * (64 - 2 ^ d.fld (R.LK_STATUS p) F.LK_STATUS_share_now) - n * 5 / 256
    | _ => 0

/-- The entry that a frame becomes in the queue of a port. -/
def Fly.entry (x : Fly) (cls : Nat) (octets : List Byte) (multi : Bool) (whey : Option Whey) (tag : Nat) : QEntry :=
  { id := x.frame.id, cls := cls, octets := octets, frame := x.frame, multi := multi, whey := whey, bank := x.bank,
    epoch := x.epoch, tag := tag }

/-- A unicast frame goes cut-through (R245); on an Isazu port the sender requires the cells of max_frame (R241)
(DEDUCED: log entry 80). -/
def Dev.cutThrough (d : Dev) (x : Fly) (p : Nat) (e : QEntry) : Bool :=
  decide (p < 64) && !d.inFault && !d.isPairPort p && x.frame.second.isNone && d.flag (R.SW_PORT_CFG p) F.SW_PORT_CFG_ct_en && d.canStart p e &&
    (d.txRun p).isNone && (List.range 8).all (fun c => (d.queue p c).isEmpty) && !d.downed p &&
    (!d.isazu p || decide (cellsOf (d.maxFrame p) ≤ (d.credit p e.cls).avail)) &&
    decide (x.frame.port < 64) && decide (d.payloadRate p ≤ d.payloadRate x.frame.port)

/-- The number of targets of a stored frame. -/
def Dev.setTargets (d : Dev) (id n : Nat) : Dev := { d with sw := { d.sw with targets := sPut 0 d.sw.targets id n } }

/-- The targets of a group entry for an ingress port (R247). -/
def groupPorts (e ingress : Nat) : List Nat :=
  let ps := (List.range 66).filter fun p => bit e p
  if ps == [ingress] then ps else ps.filter (· != ingress)

/-- A multicast frame is enqueued to every target of its group; targets whose max_frame is too small give way to one copy
to the host with reason mtu (R246, R247, R270) (DEDUCED: log entry 86). -/
def Dev.multicast (d : Dev) (x : Fly) (g : Nat) : Dev :=
  let e := sGet 0 d.sw.groups g
  let n := x.edited.length
  let ps := if bit e 127 then groupPorts e x.frame.port else []
  let small := ps.filter fun p => decide (p ≤ 64) && decide (d.maxFrame p < n)
  let ok := ps.filter fun p => !small.contains p
  let (d1, host) := if small.isEmpty || ok.contains 65 then (d, false) else d.wheyTake 6
  let total := ok.length + (if host then 1 else 0)
  if total = 0 then (d1.count (portCtr x.frame.port 12)).freeFrame x.frame.id
  else
    let d2 := ok.foldl (fun d p => d.enqueue p (x.entry x.cls x.edited true none 0)) (d1.setTargets x.frame.id total)
    if host then
      let w : Whey := { reason := 6, ruleId := x.rule, bank := x.bank, epoch := x.epoch,
                        pass := if x.frame.second.isSome then 1 else 0 }
      d2.enqueue 65 (x.entry (d2.wheyClass 6) x.frame.octets true (some w) 0)
    else d2

/-- A released frame joins its queues, or is forwarded cut-through (R245, R246, R271, R274); one whose ingress ended in an error
leaves only where it went cut-through, stomped (R230, R250). During a loss of ROOT lock no frame starts (R51)
(DEDUCED: log entry 80). -/
def Dev.deliver (d : Dev) (x : Fly) : Dev :=
  let id := x.frame.id
  match x.verdict with
  | some (.unicast p) =>
    let e := x.entry x.cls x.edited false none 0
    if d.cutThrough x p e then (d.setTargets id 1).beginTx p e x.frame.err { lane := 0, at_ := 0 }
    else if x.frame.err then d.freeFrame id
    else (d.setTargets id 1).enqueue p e
  | some (.group g) => if x.frame.err then d.freeFrame id else d.multicast x g
  | some (.recirculate tag) =>
    if x.frame.err then d.freeFrame id
    else
      let d1 : Dev := { d with sw := { d.sw with recirc := d.sw.recirc ++ [(id, x.frame.port, x.cls)] } }
      (d1.setTargets id 1).enqueue 66 (x.entry x.cls x.edited false none tag)
  | some (.whey w) =>
    if x.frame.err then d.freeFrame id
    else (d.setTargets id 1).enqueue 65 (x.entry (d.wheyClass w.reason) x.frame.octets false (some w) 0)
  | some .discard | none => d.freeFrame id

/-- The port and class of a frame in the order of R231. -/
def Fly.orderKey (x : Fly) : Nat × Nat :=
  (x.frame.port, match x.frame.second with
    | some y => y.order
    | none => x.cls)

/-- A recirculating frame of the same port and class is still out. -/
def Dev.orderHeld (d : Dev) (x : Fly) : Bool := d.sw.recirc.any fun r => (r.2.1, r.2.2) == x.orderKey

/-- The frames held behind recirculating frames leave in their own order, each until the next that recirculates. -/
def Dev.releaseOrder (d : Dev) : Nat → Dev
  | 0 => d
  | k + 1 =>
    match d.sw.order.find? fun x => !d.orderHeld x with
    | none => d
    | some x =>
      (({ d with sw := { d.sw with order := d.sw.order.filter fun y => y.frame.id != x.frame.id } } : Dev).deliver
        x).releaseOrder k

/-- A resequencer store of 256 frames for the port is full: its class is back-pressured (R231). -/
def Dev.orderFull (d : Dev) (x : Fly) : Dev :=
  if 256 ≤ d.orderCount x.frame.port then d.assertBp x.frame.port x.cls else d

/-- A descriptor leaves the resequencer. Behind a recirculating frame of its port and class it is held, whether or not its ingress
ended in an error; a frame that is not forwarded passes as a void (R229–R231). -/
def Dev.releaseFly (d : Dev) (x : Fly) : Dev :=
  match x.frame.second with
  | some _ =>
    let d1 : Dev := { d with sw := { d.sw with recirc := d.sw.recirc.filter fun r => r.1 != x.frame.id } }
    ((d1.deliver x).releaseOrder (d1.sw.order.length + 1)).releaseBp
  | none =>
    let plain := match x.verdict with
      | some (.whey _) | some .discard | none => true
      | _ => false
    if !plain && d.orderHeld x then
      ({ d with sw := { d.sw with order := d.sw.order ++ [x] } } : Dev).orderFull x
    else d.deliver x

/-- RESEQUENCER_RELEASE: the descriptor next in sequence leaves, when its pipeline has resolved it and its cells are
stored, in a loss of ROOT lock too; a descriptor lost in both copies passes as a void (R52, R229–R231, R361). -/
def execResequencerRelease (dup : DupRead) (s : State) : Result :=
  running s fun d =>
    match d.sw.fly with
    | [] => d
    | x :: xs =>
      if x.verdict.isNone || (x.needsCells && !d.stored x) then d
      else
        let (d1, lost) := d.readDup 14 dup
        let d2 : Dev := { d1 with sw := { d1.sw with fly := xs } }
        if lost then (d2.count (portCtr x.frame.port 11)).releaseFly { x with verdict := some .discard }
        else d2.releaseFly x

/-! Egress. -/

/-- EGRESS_SCHEDULE: a free port takes its next eligible frame, the reads of its cells
classified first (R149, R243, R250, R353). -/
def execEgressSchedule (p : Fin 67) (x : Departure) (s : State) : Result :=
  running s fun d =>
    if !d.inGlaze || d.inFault || (d.txRun p).isSome then d
    else
      let (d1, bad) := d.readErrs (x.errs.filter fun e => e.mem == 0)
      d1.schedulePort p (!bad.isEmpty) { lane := x.lane, at_ := x.load }

/-- FRAME_TRANSMIT_END: the frame in transmission has left port p (R233, R236, R242, R246). -/
def execFrameTransmitEnd (p : Fin 67) (s : State) : Result :=
  running s fun d =>
    match d.txRun p with
    | some x => if p.val = 65 then d.endTxHost x else d.endTx p x
    | none => d

/-- MC_HOLD_EXPIRY: the targets of a multicast frame that have not begun are abandoned (R248). -/
def execMcHoldExpiry (id : Nat) (s : State) : Result :=
  running s fun d =>
    (List.range 66).foldl (fun d p =>
      (List.range 8).foldl (fun d c =>
        let hit (e : QEntry) : Bool := e.id == id && e.multi
        let q := d.queue p c
        (q.filter hit).foldl (fun d e =>
          (((d.addSat (R.SW_MC_ABANDON p) F.SW_MC_ABANDON_count 1).count (portCtr p 15)).raise R.SW_ALARM
            F.SW_ALARM_mc_abandon).targetDone e.id) (if q.any hit then d.setQueue p c (q.filter fun e => !hit e) else d))
        d) d

/-- DOWN_GRACE_EXPIRY: the link of port p was lost and has not returned within the grace (R249). -/
def execDownGraceExpiry (p : Fin 64) (s : State) : Result :=
  running s fun d => if d.sw.lost.contains p.val then d.dropPort p else d

/-! Flow control (R237). -/

/-- The classes of port p that the partner has paused. -/
def Dev.setPaused (d : Dev) (p m : Nat) : Dev := { d with sw := { d.sw with paused := sPut 0 d.sw.paused p m } }

/-- A flow-control frame of the kind that the port obeys pauses, or with quanta 0 resumes, the classes it names; every such
frame is consumed (R109, R237). -/
def Dev.pfcTake (d : Dev) (p : Nat) (pfc : Bool) (classes : BitVec 8) (quanta : List (BitVec 16)) : Dev :=
  if !d.ethernet p || !d.carrying p then d
  else
    let d1 := d.count (portCtr p 20)
    if pfc != (d.fld (R.LK_ETH_CFG p) F.LK_ETH_CFG_fc == 2) then d1
    else
      d1.setPaused p ((List.range 8).foldl (fun m c =>
        let named := !pfc || bit classes.toNat c
        let q := (quanta.getD (if pfc then c else 0) 0).toNat
        let old := bit (sGet 0 d.sw.paused p) c
        if (if named then decide (0 < q) else old) then m + 2 ^ c else m) 0)

/-- PFC_RECEIVED (R109, R237). -/
def execPfcReceived (p : Fin 64) (pfc : Bool) (classes : BitVec 8) (quanta : List (BitVec 16)) (s : State) : Result :=
  running s fun d => d.pfcTake p pfc classes quanta

/-- PAUSE_EXPIRY: the advertised quanta of a class have run out (R237). -/
def execPauseExpiry (p : Fin 64) (c : Fin 8) (s : State) : Result :=
  running s fun d =>
    let m := sGet 0 d.sw.paused p
    if bit m c then d.setPaused p (m - 2 ^ c.val) else d

/-- PFC_REFRESH: the flow-control frame is sent again while back-pressure holds (R237). -/
def execPfcRefresh (p : Fin 64) (s : State) : Result :=
  running s fun d => if d.xoff p = 0 then d else d.pfcSend p []

/-! Credit (R240–R242). -/

/-- CREDIT_BLOCK: the partner's cumulative counts, class 0 first (R118, R240). -/
def execCreditBlock (p : Fin 64) (counts : BitVec 128) (s : State) : Result :=
  running s fun d =>
    if !d.isazu p || !d.linkUp p || d.inFault then d
    else (List.range 8).foldl (fun d c =>
      d.setCredit p c { d.credit p c with partner := bits counts.toNat (127 - 16 * c) (112 - 16 * c) }) d

/-- CREDIT_BLOCK_SEND: the port's own counts leave in the next data position, as `creditBlock` spells them; a port that is OFF grants nothing, and none leaves during a
resynchronisation (R107, R240, R412). -/
def execCreditBlockSend (p : Fin 64) (s : State) : Result :=
  running s fun d =>
    if !d.isazu p || !d.linkUp p || !d.portOn p || d.inFault || d.txIdle p || d.ps.resync then d
    else
      (if d.framed3 p then d.setPort p { d.port p with filled := (d.port p).filled + 1 } else d).emit
        (.credit p ((List.range 8).map fun c => (d.credit p c).granted))

end Sys2Proof.Machine
end

