-- ==== Sys2Proof/Machine/LaneOps.lean ====
section
/-! DEFINITION. Lanes and the links they carry: rates, bring-up states and failures, link_up, capability exchange, tap
requests, and how a lane leaves and enters OFF (R73–R97, R104–R115). -/

namespace Sys2Proof.Machine

/-! What a lane is. -/

/-- LN_STATUS[n].bringup (R78). -/
def Dev.bringup (d : Dev) (n : Nat) : Nat := d.fld (R.LN_STATUS n) F.LN_STATUS_bringup
/-- LN_STATUS[n].bringup set. -/
def Dev.setBringup (d : Dev) (n st : Nat) : Dev := d.setFld (R.LN_STATUS n) F.LN_STATUS_bringup st
/-- LN_CTRL[n].state. -/
def Dev.laneState (d : Dev) (n : Nat) : Nat := d.fld (R.LN_CTRL n) F.LN_CTRL_state
/-- LN_CTRL[n].state set. -/
def Dev.setLaneState (d : Dev) (n st : Nat) : Dev := d.setFld (R.LN_CTRL n) F.LN_CTRL_state st
/-- LN_CFG[n].mode (R92). -/
def Dev.laneMode (d : Dev) (n : Nat) : Nat := d.fld (R.LN_CFG n) F.LN_CFG_mode
/-- The port that lane n belongs to by the port configuration (R104) (DESIGN CHOICE: log entry 27). -/
def Dev.portOfLane (d : Dev) (n : Nat) : Option Nat :=
  (List.range 64).find? fun p => decide (p ≤ n) && decide (n < p + d.portLanes p)
/-- The lanes that behave as one with lane n: those of its port (R79). -/
def Dev.group (d : Dev) (n : Nat) : List Nat :=
  match (d.lane n).port with
  | some p => (List.range (d.lane n).width).map (· + p)
  | none => [n]
/-- Lane n runs the Ethernet bring-up: an Ethernet port in normal mode (R92). -/
def Dev.etherLane (d : Dev) (n : Nat) : Bool := (d.lane n).ethernet && d.laneMode n == 0

/-- Rate code of an Ethernet mode (R108). -/
def etherRate (mode : Nat) : Nat :=
  match mode with
  | 1 => 5 | 2 => 4 | 3 => 3
  | 4 | 6 | 9 | 12 => 2
  | 5 | 8 | 11 | 14 => 1
  | _ => 0
/-- Lanes of an Ethernet mode (R108). -/
def etherWidth (mode : Nat) : Nat :=
  match mode with
  | 6 | 8 | 10 => 2
  | 9 | 11 | 13 => 4
  | 12 | 14 => 8
  | _ => 1

/-- The rungs of an Isazu lane under a word of LN_RATE_CFG: of codes 0, 1, 3 and 4, all that are allowed with the ladder, else
the lowest (R84, R100). A test or loop path has a single rung (R92). -/
def Dev.isazuRungs (d : Dev) (n : Nat) (cfg : Word) : List Nat :=
  let rs := [0, 1, 3, 4].filter fun r => bit (getField cfg F.LN_RATE_CFG_allowed) r
  if getField cfg F.LN_RATE_CFG_ladder = 1 ∧ d.laneMode n = 0 then rs else rs.take 1

/-- The rates that lane n may bring up at under a word of LN_RATE_CFG, highest first (R84, R92). -/
def Dev.rungsOf (d : Dev) (n : Nat) (cfg : Word) : List Nat :=
  match (d.lane n).port with
  | some p =>
    if (d.lane n).ethernet then [etherRate (d.fld (R.LK_ETH_CFG p) F.LK_ETH_CFG_eth_mode)]
    else d.isazuRungs n cfg
  | none => d.isazuRungs n cfg

/-- The rates in force on lane n, as it last entered DETECT from FALLBACK, restart or enable (R103). -/
def Dev.rungs (d : Dev) (n : Nat) : List Nat := d.rungsOf n (d.lane n).rateCfg

/-- The rates that lane n takes at its next such entry (R103). -/
def Dev.rungsNext (d : Dev) (n : Nat) : List Nat := d.rungsOf n (d.reg (R.LN_RATE_CFG n))

/-! Port rules. -/

/-- The port's protocol and width go with its mode or rate (R105) (DESIGN CHOICE: log entry 33). -/
def Dev.comboOk (d : Dev) (p : Nat) : Bool :=
  if d.ethernet p then d.portLanes p == etherWidth (d.fld (R.LK_ETH_CFG p) F.LK_ETH_CFG_eth_mode)
  else
    match d.rateNow p with
    | 0 | 1 => true
    | 3 | 4 => d.portLanes p == 1
    | _ => false

/-- The version an Isazu lane rate implies (R113). -/
def versionOf (rate : Nat) : Nat := if rate ≤ 1 then 3 else if rate = 3 then 2 else if rate = 4 then 1 else 0

/-- LK_STATUS[p].lanes_active follows the lanes. -/
def Dev.lanesActive (d : Dev) (p : Nat) : Dev :=
  d.setFld (R.LK_STATUS p) F.LK_STATUS_lanes_active
    ((List.range (d.portLanes p)).foldl (fun m i => if d.bringup (p + i) = 6 then m + 2 ^ i else m) 0)

/-- The link of port p is up: its counts restart, back-pressure kept since FAULT is released, and what depends on the link
is evaluated anew (R56, R115, R210, R240, R345). -/
def Dev.linkRise (d : Dev) (p creditInit : Nat) : Dev :=
  let d1 := d.setFlag (R.LK_STATUS p) F.LK_STATUS_link_up true
  let d2 := d1.setPort p { d1.port p with held := false }
  let d3 : Dev := { d2 with sw := { d2.sw with lost := d2.sw.lost.filter (· != p)
                                               downed := d2.sw.downed.filter (· != p)
                                               paused := sPut 0 d2.sw.paused p 0 } }
  let d4 := if d3.ethernet p then d3.pfcSend p (List.range 8) else d3.creditStart p creditInit
  ((d4.relayAdmit).enumLink p true false).validCheck

/-- The link of port p is lost; a port that is ON starts its grace, but in a loss of ROOT lock every queue is held (R134, R210,
R249, R345). -/
def Dev.linkFall (d : Dev) (p : Nat) : Dev :=
  if !d.linkUp p then d
  else
    let down := d.isDownlink p
    let d1 := (d.setReg (R.LK_STATUS p) 0).raise (R.LK_ALARM p) F.LK_ALARM_link_down
    let d2 := d1.setPort p { d1.port p with partner := none, sentAck := false, invalid := true, half := none }
    let d3 : Dev := if d2.portOn p && !d2.inFault then
        { d2 with sw := { d2.sw with lost := p :: d2.sw.lost.filter (· != p) } }
      else d2
    ((((d3.creditEnd p).lanesActive p).relayAdmit).enumLink p false down).validCheck

/-! Bring-up states. -/

/-- A window with a disturbance is not published (R96, R126). -/
def Dev.spoilWindow (d : Dev) (n : Nat) : Dev :=
  let x := d.lane n
  d.setLane n { x with phSpoilt := true, cur := { x.cur with spoilt := true } }

/-- The lane is, or is no longer, active with CDR locked: the lane criterion of its reference (R34, R78). -/
def Dev.laneRef (d : Dev) (n : Nat) : Dev :=
  d.laneCriterion n (d.bringup n == 6 && d.flag (R.LN_STATUS n) F.LN_STATUS_cdr_lock)

/-- LN_STATUS[n].rate_now takes a rate, and the lane's delay constants follow it at the same instant (R97). -/
def Dev.setRate (d : Dev) (n r : Nat) : Dev :=
  if d.rateNow n = r then d else (d.setFld (R.LN_STATUS n) F.LN_STATUS_rate_now r).laneDelays n

/-- A bring-up state that begins from idle: nothing is received yet, and the checker of TEST and LOOP is off (R94). -/
def Dev.freshState (d : Dev) (n st : Nat) : Dev :=
  let x := d.lane n
  ((((d.setBringup n st).setFlag (R.LN_STATUS n) F.LN_STATUS_cdr_lock false).setFlag (R.LN_TEST n) F.LN_TEST_chk_sync
    false).setLane n
    { x with run := 0, ready := false, converged := false, leaving := false, further := 0, sinceTap := 16, reply := 0
             fast := false, retried := false, gap := false, gapEnd := none, regained := false, badMarks := 0 }).laneRef n

/-- Bring-up begins at a rate, by the path of the lane's mode (R92). -/
def Dev.bringUpAt (d : Dev) (n r : Nat) : Dev :=
  let st := match d.laneMode n with
    | 2 => 2 | 3 => 8 | _ => 1
  (d.setRate n r).freshState n st

/-- LN_RATE_CFG[n] takes effect (R103). -/
def Dev.takeRates (d : Dev) (n : Nat) : Dev := d.setLane n { d.lane n with rateCfg := d.reg (R.LN_RATE_CFG n) }

/-- Bring-up begins at the top rung; a lane without a rung stays in DETECT at its rate (R84, R100, R103). -/
def Dev.bringUpTop (d : Dev) (n : Nat) : Dev := (d.takeRates n).bringUpAt n ((d.rungsNext n).head?.getD (d.rateNow n))

/-- One lane fails a bring-up state: counted and in FALLBACK, or back in DETECT where the dormant fast path failed (R77,
R84) (DESIGN CHOICE: log entry 30). -/
def Dev.failOne (d : Dev) (n : Nat) : Dev :=
  if (d.lane n).fast then d.bringUpAt n (d.rateNow n)
  else
    let d1 := (((d.addSat (R.LN_FAIL n) F.LN_FAIL_count 1).setFld (R.LN_FAIL n) F.LN_FAIL_last_state
      (d.bringup n)).setFld (R.LN_FAIL n) F.LN_FAIL_last_rate (d.rateNow n)).count (laneCtr n 0)
    d1.freshState n 10

/-- Lane n fails; from SYMLOCK on the port behaves as one, and every lane of it in bring-up fails with it (R79)
(DESIGN CHOICE: log entry 30). -/
def Dev.laneFail (d : Dev) (n : Nat) : Dev :=
  if 4 ≤ d.bringup n then
    (d.group n).foldl (fun d m => if 1 ≤ d.bringup m && d.bringup m ≤ 5 then d.failOne m else d) d
  else d.failOne n

/-- The port of lane n fails TRAIN with a lane order error: so does each of its lanes that is past DETECT, those that have
advanced to BITLOCK or SYMLOCK included (R83). -/
def Dev.orderError (d : Dev) (n : Nat) : Dev :=
  (d.group n).foldl (fun d m =>
    let d1 := d.raise (R.LN_ALARM m) F.LN_ALARM_lane_order_err
    if 2 ≤ d1.bringup m ∧ d1.bringup m ≤ 5 then d1.failOne m else d1) d

/-- One lane's ACTIVE ends: it goes to the state given (R79, R86) (DESIGN CHOICE: log entry 32). -/
def Dev.dropOne (d : Dev) (n : Nat) (to_ : Dev → Nat → Dev) : Dev :=
  if d.bringup n = 6 then
    let d1 := ((d.raise (R.LN_ALARM n) F.LN_ALARM_loss).count (laneCtr n 1)).spoilWindow n
    to_ (d1.setLane n { d1.lane n with rx := none, sent := [], partnerTe := none }) n
  else d

/-- ACTIVE ends on lane n, and with it on every lane of its port: DETECT at the same rate (R79, R86). -/
def Dev.laneDrop (d : Dev) (n : Nat) : Dev :=
  let d1 := (d.group n).foldl (fun d m => d.dropOne m fun d m => d.bringUpAt m (d.rateNow m)) d
  match (d.lane n).port with
  | some p => (d1.linkFall p).lanesActive p
  | none => d1

/-- A lane enters ACTIVE; its window holds a part outside ACTIVE. -/
def Dev.enterActive (d : Dev) (n : Nat) : Dev :=
  let d1 := (d.setBringup n 6).spoilWindow n
  (d1.setLane n { d1.lane n with lastRate := some (d1.rateNow n), fast := false, gap := false, gapEnd := none
                                 regained := false }).laneRef n

/-- Every lane of port p enters ACTIVE. -/
def Dev.portActive (d : Dev) (p : Nat) : Dev :=
  ((List.range (d.portLanes p)).foldl (fun d i => d.enterActive (p + i)) d).lanesActive p

/-- All lanes of port p are in a bring-up state. -/
def Dev.allLanes (d : Dev) (p st : Nat) : Bool :=
  decide (0 < d.portLanes p) && (List.range (d.portLanes p)).all fun i => d.bringup (p + i) == st

/-! Capability exchange (R113–R115). -/

/-- The capability word that port p sends (R114). -/
def Dev.capWord (d : Dev) (p : Nat) : Word64 :=
  let f (x : Field) : Nat := d.fld (R.LK_ISZ_CFG p) x
  let v := 6 * 2 ^ 60 + f F.LK_ISZ_CFG_ver_mask * 2 ^ 57 + versionOf (d.rateNow p) * 2 ^ 55 +
    f F.LK_ISZ_CFG_time_role * 2 ^ 53 + f F.LK_ISZ_CFG_trig_share * 2 ^ 51 + 2 ^ 50 +
    (if (d.port p).partner.isSome then 2 ^ 49 else 0) + 2 * 2 ^ 40 + d.creditInit p * 2 ^ 24
  BitVec.ofNat 64 (v + crc16 64 v)

/-- A capability word is valid: its type and its CRC (R114). -/
def capOk (w : Word64) : Bool := bits w.toNat 63 60 == 6 && crc16 64 w.toNat == w.toNat % 2 ^ 16

/-- The two ends agree on the version (R115). -/
def Dev.versionOk (d : Dev) (p : Nat) (w : Word64) : Bool :=
  let own := versionOf (d.rateNow p)
  own != 0 && bits w.toNat 56 55 == own && bit (bits w.toNat 59 57) (own - 1) &&
    bit (d.fld (R.LK_ISZ_CFG p) F.LK_ISZ_CFG_ver_mask) (own - 1)

/-- The terms of the link follow from the two words, and the link is up (R115). -/
def Dev.linkTerms (d : Dev) (p : Nat) (w : Word64) : Dev :=
  let role := d.fld (R.LK_ISZ_CFG p) F.LK_ISZ_CFG_time_role
  let theirs := bits w.toNat 54 53
  let ver := versionOf (d.rateNow p)
  let share := if ver = 3 then max (d.fld (R.LK_ISZ_CFG p) F.LK_ISZ_CFG_trig_share) (bits w.toNat 52 51) else 0
  let d1 := d.setPort p { d.port p with role := role }
  let d2 := ((((d1.setFld (R.LK_STATUS p) F.LK_STATUS_family (bits w.toNat 47 40)).setFlag (R.LK_STATUS p)
    F.LK_STATUS_tc_partner (bit w.toNat 50)).setFld (R.LK_STATUS p) F.LK_STATUS_share_now share).setFld (R.LK_STATUS p)
    F.LK_STATUS_ver ver).setFlag (R.LK_STATUS p) F.LK_STATUS_timing
      ((role == 1 && theirs == 2) || (role == 2 && theirs == 1))
  let d3 := if role != 0 && role == theirs then d2.raise (R.LK_ALARM p) F.LK_ALARM_role_conflict else d2
  (d3.portActive p).linkRise p (bits w.toNat 39 24)

/-- The lanes of port p carry the link, but in a combination that R105 does not list the port has no link_up (R105). -/
def Dev.noLink (d : Dev) (p : Nat) : Dev := (d.portActive p).raise (R.LK_ALARM p) F.LK_ALARM_width_mismatch

/-- CAPEX ends once each end has sent and received ack = 1. A combination that R105 does not list is reported whatever the
versions are (R105, R115) (DEDUCED: log entries 43, 44). -/
def Dev.capexCheck (d : Dev) (p : Nat) : Dev :=
  match (d.port p).partner with
  | none => d
  | some w =>
    if !(d.port p).sentAck || !bit w.toNat 49 || !d.allLanes p 5 then d
    else if !d.versionOk p w then
      ((if d.comboOk p then d else d.raise (R.LK_ALARM p) F.LK_ALARM_width_mismatch).raise (R.LK_ALARM p)
        F.LK_ALARM_ver_fail).laneFail p
    else if !d.comboOk p then d.noLink p
    else d.linkTerms p w

/-- A capability word is received on port p in CAPEX; one that is not valid is ignored (R114). -/
def Dev.capReceived (d : Dev) (p : Nat) (w : Word64) : Dev :=
  if !capOk w || !d.allLanes p 5 then d else (d.setPort p { d.port p with partner := some w }).capexCheck p

/-- The capability word of port p leaves (R114, R115). -/
def Dev.capSent (d : Dev) (p : Nat) : Dev :=
  if (d.port p).partner.isSome then (d.setPort p { d.port p with sentAck := true }).capexCheck p else d

/-- Framing lock holds on all lanes of port p: CAPEX starts on an Isazu port, and an Ethernet port is up. In STANDBY the
receivers of the position follow the active's link without an exchange (R79, R410) (DEDUCED: log entry 44). -/
def Dev.framed (d : Dev) (p : Nat) : Dev :=
  if d.ethernet p then
    if d.comboOk p then (d.portActive p).linkRise p 0 else d.noLink p
  else if d.standby && !d.isPairPort p then
    if !d.comboOk p then d.noLink p
    else d.linkTerms p (BitVec.ofNat 64 ((3 - d.fld (R.LK_ISZ_CFG p) F.LK_ISZ_CFG_time_role) % 3 * 2 ^ 53))
  else
    let d1 := d.setPort p { d.port p with partner := none, sentAck := false }
    (List.range (d1.portLanes p)).foldl (fun d i => d.setBringup (p + i) 5) d1

/-! Equaliser (R89, R91). -/

/-- The taps in force fit: 24 or more is left for main. -/
def mainTap (pre2 pre1 post1 : Nat) : Option Nat :=
  if pre2 + pre1 + post1 ≤ 40 then some (64 - pre2 - pre1 - post1) else none

/-- LN_EQ_TX[n] takes taps. -/
def Dev.setTaps (d : Dev) (n pre2 pre1 post1 : Nat) : Dev :=
  (((d.setFld (R.LN_EQ_TX n) F.LN_EQ_TX_pre2 pre2).setFld (R.LN_EQ_TX n) F.LN_EQ_TX_pre1 pre1).setFld (R.LN_EQ_TX n)
    F.LN_EQ_TX_post1 post1).setFld (R.LN_EQ_TX n) F.LN_EQ_TX_main (64 - pre2 - pre1 - post1)

/-- A tap request of the partner acts on the transmitter of lane n; the answer is the reply (R81, R89). A request for main
acts as the opposite change on post1. -/
def Dev.tapRequest (d : Dev) (n sel act : Nat) : Dev × Nat :=
  let f (x : Field) : Nat := d.fld (R.LN_EQ_TX n) x
  if act = 3 then ((d.setTaps n 0 4 8).setFld (R.LN_EQ_TX n) F.LN_EQ_TX_swing 2, 1)
  else
    let grow := if sel = 2 then act == 2 else act == 1
    let tap := if sel = 2 then 3 else sel
    let old := if tap = 0 then f F.LN_EQ_TX_pre2 else if tap = 1 then f F.LN_EQ_TX_pre1 else f F.LN_EQ_TX_post1
    let most := if tap = 0 then 8 else if tap = 1 then 24 else 16
    if (grow && old == most) || (!grow && old == 0) then (d, 2)
    else
      let v := if grow then old + 1 else old - 1
      let pre2 := if tap = 0 then v else f F.LN_EQ_TX_pre2
      let pre1 := if tap = 1 then v else f F.LN_EQ_TX_pre1
      let post1 := if tap = 3 then v else f F.LN_EQ_TX_post1
      match mainTap pre2 pre1 post1 with
      | none => (d, 3)
      | some _ => (d.setTaps n pre2 pre1 post1, 1)

/-- An event that moves the lane's delay: the alarm, and disturb for the rest of the window (R91, R127)
(DESIGN CHOICE: log entry 34). -/
def Dev.delayDisturb (d : Dev) (n : Nat) : Dev :=
  let d1 := ((d.raise (R.LN_ALARM n) F.LN_ALARM_delay_disturb).count (laneCtr n 5)).spoilWindow n
  d1.setLane n { d1.lane n with disturb := true }

/-- A host write of LN_EQ_TX[n] or LN_EQ_RX[n] (R89, R91) (DESIGN CHOICE: log entry 34). -/
def Dev.eqWrite (d : Dev) (n : Nat) (tx : Bool) (w : Word) : Dev :=
  if tx then
    let pre2 := getField w F.LN_EQ_TX_pre2
    let pre1 := getField w F.LN_EQ_TX_pre1
    let post1 := getField w F.LN_EQ_TX_post1
    if d.bringup n = 2 ∧ !d.etherLane n then d
    else if 8 < pre2 ∨ 24 < pre1 ∨ 16 < post1 ∨ (mainTap pre2 pre1 post1).isNone then
      d.raise (R.LN_ALARM n) F.LN_ALARM_eq_reject
    else
      let d1 := (d.setFld (R.LN_EQ_TX n) F.LN_EQ_TX_swing (getField w F.LN_EQ_TX_swing)).setTaps n pre2 pre1 post1
      if d.bringup n = 6 then d1.delayDisturb n else d1
  else
    let d1 := d.store (R.LN_EQ_RX n) w
    if d.bringup n = 6 then d1.delayDisturb n else d1

/-! Enable and dormancy (R76, R77, R106). -/

/-- Lane n enters STARTING; it reads its port's protocol, its index and the width now (R106)
(DESIGN CHOICE: log entry 27). -/
def Dev.laneStart (d : Dev) (n : Nat) : Dev :=
  let x : Lane := match d.portOfLane n with
    | some p => { Lane.reset with port := some p, index := n - p, width := d.portLanes p, ethernet := d.ethernet p }
    | none => Lane.reset
  let d1 := (d.setLane n { x with windows := (d.lane n).windows }).setLaneState n enStarting
  match x.port with
  | some p => if x.ethernet && !d1.comboOk p then d1.raise (R.LK_ALARM p) F.LK_ALARM_width_mismatch else d1
  | none => d1

/-- Lane n leaves its bring-up: its link falls with its port's other lanes. -/
def Dev.laneLeave (d : Dev) (n : Nat) : Dev := if d.bringup n = 6 then d.laneDrop n else d

/-- Lane n enters STOPPING (R76). -/
def Dev.laneStop (d : Dev) (n : Nat) : Dev := ((d.laneLeave n).freshState n 0).setLaneState n enStopping

/-- What LN_STATUS reports of a lane that receives nothing and whose receiver and transmitter are off: its rate alone
(R97, R100). -/
def Dev.statusClear (d : Dev) (n : Nat) : Dev :=
  d.setReg (R.LN_STATUS n) (wordOf 0 [(F.LN_STATUS_rate_now, d.rateNow n), (F.LN_STATUS_bringup, d.bringup n)])

/-- Lane n is OFF. -/
def Dev.laneOff (d : Dev) (n : Nat) : Dev :=
  (((d.laneLeave n).freshState n 0).statusClear n).setLaneState n enOff

/-- The settings that DORMANT holds: rate, polarity, lane order, precoding and equaliser as at the end of the last completed
TRAIN; a lane that has completed none since it was enabled keeps its present ones (R77). -/
def Dev.heldSettings (d : Dev) (n : Nat) : Dev :=
  let x := d.lane n
  match x.trained with
  | none => d
  | some r =>
    let keep (d : Dev) (f : Field) : Dev := d.setFld (R.LN_STATUS n) f (getField x.trainStat f)
    let d1 := [F.LN_STATUS_rx_precode, F.LN_STATUS_tx_precode, F.LN_STATUS_lane_rx, F.LN_STATUS_reversed,
      F.LN_STATUS_rx_inverted].foldl keep (d.setRate n r)
    let d2 := d1.setReg (R.LN_EQ_TX n) x.trainTx
    [F.LN_EQ_RX_gain, F.LN_EQ_RX_ctle].foldl (fun d f => d.setFld (R.LN_EQ_RX n) f (getField x.trainRx f)) d2

/-- Lane n enters DORMANT from any bring-up state (R77) (DESIGN CHOICE: log entry 31). -/
def Dev.enterDormant (d : Dev) (n : Nat) : Dev :=
  if d.bringup n = 11 then d else ((d.laneLeave n).freshState n 9).heldSettings n

/-- Lane n leaves DORMANT: by the fast path when it has completed TRAIN at the held rate, otherwise through DETECT (R77)
(DESIGN CHOICE: log entry 31). -/
def Dev.leaveDormant (d : Dev) (n : Nat) : Dev :=
  let x := d.lane n
  if d.bringup n != 9 || x.fast then d
  else if x.trained = some (d.rateNow n) then d.setLane n { x with fast := true }
  else d.bringUpAt n (d.rateNow n)

/-- Bring-up of lane n restarts at the top rung (R84) (DESIGN CHOICE: log entry 40). -/
def Dev.laneRestart (d : Dev) (n : Nat) : Dev :=
  if d.bringup n = 11 ∨ d.bringup n = 0 then d
  else
    let d1 := if d.bringup n = 6 then d.laneDrop n else d
    d1.bringUpTop n

/-- Blocks whose enables act from the first ROOT lock on may leave OFF (R333, R347). -/
def Dev.lanesMayStart (d : Dev) : Bool :=
  d.stage == .firing || d.stage == .glaze || (d.stage == .bisque && d.rootLocked)

/-- A write of LN_CTRL[n] (R76, R77, R84, R346) (DESIGN CHOICE: log entry 40). -/
def Dev.laneCtrlWrite (d : Dev) (n : Nat) (w : Word) : Dev :=
  let d1 := d.store (R.LN_CTRL n) w
  let en := d1.flag (R.LN_CTRL n) F.LN_CTRL_enable
  match d.laneState n with
  | 0 => if en && d.lanesMayStart && !d.inFault then d1.laneStart n else d1
  | 2 =>
    if !en then (if d.inFault then d1 else d1.laneStop n)
    else
      let d2 := if getField w F.LN_CTRL_restart = 1 then d1.laneRestart n else d1
      if d2.flag (R.LN_CTRL n) F.LN_CTRL_dormant then d2.enterDormant n else d2.leaveDormant n
  | _ => d1

/-! FAULT (R51, R56, R86). -/

/-- Every lane that runs is HALTED at electrical idle; its ACTIVE has ended like any other (R86). -/
def Dev.haltLanes (d : Dev) : Dev :=
  (List.range 64).foldl (fun d n =>
    if d.bringup n = 0 ∨ d.bringup n = 11 then d
    else
      let was := d.bringup n == 6
      let d1 := (if was then d.dropOne n fun d m => d.freshState m 11 else d.freshState n 11).spoilWindow n
      match (d.lane n).port with
      | some p => if was then (d1.linkFall p).lanesActive p else d1
      | none => d1) d

/-- Every HALTED lane runs bring-up anew, at the rate at which it was last ACTIVE, or at its present one (R86). -/
def Dev.resumeLanes (d : Dev) : Dev :=
  (List.range 64).foldl (fun d n =>
    if d.bringup n = 11 then d.bringUpAt n ((d.lane n).lastRate.getD (d.rateNow n)) else d) d

end Sys2Proof.Machine
end

