-- ==== Sys2Proof/Machine/TableOps.lean ====
section
/-! DEFINITION. Table writes: the tables of R298, exact-match placement (R263), and the writes that a drain or a diverted
index line holds (R276–R280, R354). -/

namespace Sys2Proof.Machine

/-- Octets of an entry of a table, and its entries; none for a code without a table (R298). -/
def tableShape (t : Nat) : Option (Nat × Nat) :=
  match t with
  | 1 => some (2, 65536)
  | 2 => some (64, 4096)
  | 3 => some (32, 4096)
  | 4 => some (16, 16384)
  | 5 | 6 => some (192, 16384)
  | 7 | 8 => some (32, 65536)
  | 9 | 10 => some (64, 256)
  | _ => none

/-- The classifier bank that a table belongs to. -/
def tableBank (t : Nat) : Option Nat :=
  if t = 5 ∨ t = 7 ∨ t = 9 then some 0 else if t = 6 ∨ t = 8 ∨ t = 10 then some 1 else none

/-- The bank that drains, if one does (R279). -/
def Dev.drainBank (d : Dev) : Option Nat :=
  if d.flag R.CL_BANK_STAT F.CL_BANK_STAT_draining then some (1 - d.activeBank) else none

/-- Words of an entry; an entry of zeros is the empty one. -/
def entryWords (n : Nat) (bs : List Byte) : List Word :=
  let ws := (List.range n).map fun i => BitVec.ofNat 32 (little bs (4 * i) 4)
  if ws.all (· == 0) then [] else ws

/-- One entry of a table is written, and the lines it covers; none when the table refuses it (R201, R276). -/
def Dev.writeEntry (d : Dev) (t i : Nat) (bs : List Byte) (image : Bool) : Option Dev :=
  let v := leNat bs
  match t with
  | 1 => some (({ d with tg := { d.tg with chanMap := sPut 0 d.tg.chanMap i v } } : Dev).lineWritten 6 (i / 16) image)
  | 2 =>
    let e := entryWords 16 bs
    if unitEntryOk e && d.fld (R.TG_CU_CTRL i) F.TG_CU_CTRL_state == enOff then
      some (({ d with tg := { d.tg with unitTab := sPut [] d.tg.unitTab i e } } : Dev).lineWritten 7 i image)
    else none
  | 3 =>
    some (({ d with tg := { d.tg with actTab := sPut [] d.tg.actTab i (entryWords 8 bs) } } : Dev).lineWritten 8 i image)
  | 4 => some (({ d with sw := { d.sw with groups := sPut 0 d.sw.groups i v } } : Dev).lineWritten 9 i image)
  | 5 | 6 =>
    let k := (t - 5) * 16384 + i
    let d1 : Dev := { d with cl := { d.cl with tern := sPut 0 d.cl.tern k v } }
    some ((List.range 3).foldl (fun d j => d.lineWritten 3 (3 * k + j) image) d1)
  | 7 | 8 =>
    let k := (t - 7) * 65536 + i
    some (({ d with cl := { d.cl with act := sPut 0 d.cl.act k v } } : Dev).lineWritten 4 k image)
  | 9 | 10 =>
    let k := (t - 9) * 256 + i
    some (({ d with cl := { d.cl with tpl := sPut 0 d.cl.tpl k v } } : Dev).lineWritten 5 k image)
  | _ => none

/-- How a run of entries ended. -/
inductive Ended
  | all | refused | noRoom | badIndex
  /-- The entry waits for a drain or a diverted line. -/
  | waits
  deriving DecidableEq, Repr

/-- Status of a completion (R298). -/
def Ended.status : Ended → Nat
  | .refused => 1
  | .noRoom => 2
  | .badIndex => 4
  | .all | .waits => 0

/-- Entries of a table from index `first + k` on, in order, until one is refused or lies beyond the table. -/
def Dev.writeTable (d : Dev) (t size limit first : Nat) (bs : List Byte) (image : Bool) (k : Nat) :
    Nat → Dev × Nat × Ended
  | 0 => (d, k, .all)
  | n + 1 =>
    if limit ≤ first + k then (d, k, .badIndex)
    else
      match d.writeEntry t (first + k) (octets bs (size * k) size) image with
      | none => (d, k, .refused)
      | some e => e.writeTable t size limit first bs image (k + 1) n

/-! Exact match (R262, R263). -/

/-- An exact-match line takes an entry; the shadow image in host memory follows (R263, R277). -/
def Dev.writeEm (d : Dev) (line e : Nat) (image : Bool) : Dev :=
  let d1 := ({ d with cl := { d.cl with em := sPut 0 d.cl.em line e } } : Dev).lineWritten 1 line image
  match sGet none d.cl.shadow 0 with
  | some base => d1.toHost (base + 32 * line) (leBytes 32 e)
  | none => d1

/-- The entry at a line. -/
def Dev.emAt (d : Dev) (line : Nat) : Nat := sGet 0 d.cl.em line

/-- The first free line of a bucket. -/
def Dev.emFree (d : Dev) (way bucket : Nat) : Option Nat :=
  ((List.range 4).map fun s => emLine way bucket s).find? fun l => !emValid (d.emAt l)

/-- Lines of the other bucket of the entry at a line. -/
def Dev.emOther (d : Dev) (line : Nat) : List Nat :=
  let e := d.emAt line
  let way := 1 - line / 262144
  (List.range 4).map fun s => emLine way (emBucket way (emProf e) (emKey e)) s

/-- A breadth-first search for a path of displacements: each path lists its lines, the last first; at most `k` more moves.
The search never visits a line twice (DEDUCED: log entry 90). -/
def Dev.emSearch (d : Dev) (seen : List Nat) (paths : List (List Nat)) : Nat → Option (List Nat)
  | 0 => none
  | k + 1 =>
    let ends := paths.filterMap fun p =>
      match p with
      | l :: _ => ((d.emOther l).find? fun m => !emValid (d.emAt m)).map (· :: p)
      | [] => none
    match ends with
    | p :: _ => some p
    | [] =>
      let next := paths.flatMap fun p =>
        match p with
        | l :: _ => ((d.emOther l).filter fun m => !seen.contains m).map (· :: p)
        | [] => []
      let fresh := next.foldl (fun acc p =>
        if acc.any (fun q => q.head? == p.head?) then acc else acc ++ [p]) []
      if fresh.isEmpty then none else d.emSearch (seen ++ fresh.filterMap (·.head?)) fresh k

/-- The entries along a path move one place each, the last first; the line freed is the path's first (R263)
(DEDUCED: log entry 90). -/
def Dev.emMove (d : Dev) (image : Bool) : List Nat → Dev
  | dst :: src :: rest => (d.writeEm dst (d.emAt src) image).emMove image (src :: rest)
  | _ => d

/-- An entry is added or replaced by its key; none when no path of 16 moves frees a place (R263). -/
def Dev.emAdd (d : Dev) (e0 : Nat) (image : Bool) : Option Dev :=
  let e := if emValid e0 then e0 else e0 + 2 ^ 255
  let prof := emProf e
  let key := emKey e
  match d.emFind prof key with
  | some l => some (d.writeEm l e image)
  | none =>
    match d.emFree 0 (emBucket 0 prof key) <|> d.emFree 1 (emBucket 1 prof key) with
    | some l => some (d.writeEm l e image)
    | none =>
      let own := emLines prof key
      match d.emSearch own (own.map fun l => [l]) 16 with
      | none => none
      | some path =>
        match path.getLast? with
        | some l => some ((d.emMove image path).writeEm l e image)
        | none => none

/-- An entry is removed by its key: valid is cleared (R263). -/
def Dev.emRemove (d : Dev) (e : Nat) : Dev :=
  match d.emFind (emProf e) (emKey e) with
  | some l => d.writeEm l (d.emAt l - 2 ^ 255) false
  | none => d

/-- The lines of the derived index, memory 2, that a key uses. -/
def emIndexLines (prof key : Nat) : List Nat := (List.range 2).map fun w => (w * 65536 + emBucket w prof key) / 32

/-- An exact-match write is aimed at the draining bank: its old or new bank_mask includes it (R280). -/
def Dev.emAimed (d : Dev) (e : Nat) (add : Bool) : Bool :=
  let old := match d.emFind (emProf e) (emKey e) with
    | some l => emBanks (d.emAt l)
    | none => 0
  match d.drainBank with
  | some b => bit old b || (add && bit (emBanks e) b)
  | none => false

/-- An exact-match write waits: it is aimed at the draining bank, or an index line it needs is diverted (R280, R354). -/
def Dev.emWaits (d : Dev) (e : Nat) (add : Bool) : Bool :=
  d.emAimed e add || (emIndexLines (emProf e) (emKey e)).any fun l => d.diverted 2 l

/-- Exact-match entries from number k on, in order (R263, R298) (DESIGN CHOICE: log entry 95). -/
def Dev.runEm (d : Dev) (add : Bool) (bs : List Byte) (image : Bool) (k : Nat) : Nat → Dev × Nat × Ended
  | 0 => (d, k, .all)
  | n + 1 =>
    let e := leNat (octets bs (32 * k) 32)
    if !image && d.emWaits e add then (d, k, .waits)
    else if add then
      match d.emAdd e image with
      | some d1 => d1.runEm add bs image (k + 1) n
      | none => (d.raise R.CL_ALARM F.CL_ALARM_em_full, k, .noRoom)
    else (d.emRemove e).runEm add bs image (k + 1) n

/-! Commands that may wait (R279, R280). -/

/-- A held command is a write aimed at the draining bank, which CL_BANK_STAT.held reports (R280, R284). -/
def Dev.heldAimed (d : Dev) (h : HeldCmd) : Bool :=
  if h.op = 1 then d.drainBank.isSome && tableBank (h.desc.arg0.toNat / 2 ^ 24) == d.drainBank
  else h.op != 4 && d.emAimed (leNat (octets h.desc.data (32 * h.done) 32)) (h.op == 2)

/-- A command is held in its ring. -/
def Dev.hold (d : Dev) (h : HeldCmd) : Dev := { d with cl := { d.cl with held := d.cl.held ++ [h] } }

/-- The swap flips the active bank and makes the old one draining (R279, R281). -/
def Dev.swapBanks (d : Dev) (o : Origin) : Dev :=
  let b := 1 - d.activeBank
  let ep := (d.epoch + 1) % 16
  let d1 := ((d.setFld R.CL_BANK_STAT F.CL_BANK_STAT_active b).setFld R.CL_BANK_STAT F.CL_BANK_STAT_epoch ep).setFlag
    R.CL_BANK_STAT F.CL_BANK_STAT_draining true
  { d1 with cl := { d1.cl with epochs := if b = 0 then (ep, d1.cl.epochs.2) else (d1.cl.epochs.1, ep)
                               swap := some o, drainAt := d1.ticks } }

/-- A table, exact-match or swap command goes on: it completes, or is held where it stands
(DESIGN CHOICE: log entry 95). -/
def Dev.runHeld (d : Dev) (h : HeldCmd) : Dev :=
  let n := entriesOf h.desc
  let close (d : Dev) (k : Nat) (e : Ended) : Dev :=
    if e = .waits then d.hold { h with done := k } else d.finish h.origin e.status k
  if h.op = 4 then
    if d.drainBank.isSome then d.hold h else d.swapBanks h.origin
  else if h.op = 1 then
    let t := h.desc.arg0.toNat / 2 ^ 24
    match tableShape t with
    | none => d.finish h.origin 4
    | some (size, limit) =>
      if (tableBank t).isSome && tableBank t == d.drainBank then d.hold h
      else
        let (d1, k, e) := d.writeTable t size limit (h.desc.arg0.toNat % 2 ^ 24) h.desc.data false h.done (n - h.done)
        close d1 k e
  else
    let (d1, k, e) := d.runEm (h.op == 2) h.desc.data false h.done (n - h.done)
    close d1 k e

/-- The held commands are tried again, in order. -/
def Dev.retryHeld (d : Dev) : Dev :=
  d.cl.held.foldl (fun d h => d.runHeld h) { d with cl := { d.cl with held := [] } }

/-! The drain (R279). -/

/-- Frames stamped with a bank whose lookups are not complete: first passes in the pipelines, and recirculating frames
until their second lookup (DEDUCED: log entry 94). -/
def Dev.inflight (d : Dev) (b : Nat) : Nat :=
  let again (x : Fly) : Bool := match x.verdict with
    | none => true
    | some (.recirculate _) => true
    | _ => false
  ((d.sw.fly ++ d.sw.order).filter fun x => x.bank == b && again x).length +
    (((List.range 8).flatMap fun c => d.queue 66 c).filter fun e => e.bank == b).length +
    (d.sw.arrive.filter fun f => match f.second with
      | some s => s.bank == b
      | none => false).length

/-- Valid exact-match entries (R284). -/
def Dev.emCount (d : Dev) : Nat := (d.cl.em.filter fun e => emValid e.2).length

end Sys2Proof.Machine
end

