-- ==== Sys2Proof/Machine/StageOps.lean ====
section
/-! DEFINITION. Stages: the enable rule over every block, entry to the stages, the loss and return of ROOT lock, and the
states of an active-standby pair (R29, R50–R56, R326–R347, R405–R413). -/

namespace Sys2Proof.Machine

/-! The enable rule (R346, R347). -/

/-- The register that holds a block's enable field. -/
def enReg : EnTarget → Nat
  | .clkout n => R.CK_OUT_CFG n
  | .pps m => R.CK_PPS_CFG m
  | .lane n => R.LN_CTRL n
  | .port p => R.LK_PORT_CTRL p
  | .ring r => R.HR_RING_CTRL r
  | .chan c => R.EC_CTRL c
  | .engine => R.TG_CTRL
  | .unit u => R.TG_CU_CTRL u
  | .pail => R.PL_CTRL

/-- Its enable field, bit 0 in each of them. -/
def enField : Field := ⟨0, 0⟩

/-- Its state field. -/
def stField : EnTarget → Field
  | .lane _ => F.LN_CTRL_state
  | .chan _ => F.EC_CTRL_state
  | _ => ⟨2, 1⟩

/-- The state of a block: 0 OFF, 1 STARTING, 2 ON, 3 STOPPING. -/
def Dev.enState (d : Dev) (t : EnTarget) : Nat := d.fld (enReg t) (stField t)

/-- The stage lets a block leave OFF (R347). -/
def Dev.mayStart (d : Dev) (t : EnTarget) : Bool :=
  match t with
  | .clkout _ | .pps _ | .lane _ => d.lanesMayStart
  | .ring _ => d.ringsMayStart
  | .unit _ => d.inGlaze && d.engineOn
  | .port _ | .chan _ | .engine | .pail => d.inGlaze

/-- YIELDED keeps a block stopped (R347). -/
def Dev.stageStops (d : Dev) (t : EnTarget) : Bool :=
  d.stage == .yielded && (match t with
    | .lane _ | .ring _ => false
    | _ => true)

/-- A block enters STARTING. -/
def Dev.enStart (d : Dev) (t : EnTarget) : Dev :=
  match t with
  | .clkout n => d.outStart n
  | .pps m => d.ppsStart m
  | .lane n => d.laneStart n
  | .port p => d.setFld (R.LK_PORT_CTRL p) F.LK_PORT_CTRL_state enStarting
  | .ring r => d.ringStart r
  | .chan c => d.chanStart c
  | .engine => d.engineStart
  | .unit u => d.unitStart u
  | .pail => d.pailStart

/-- A block enters STOPPING. -/
def Dev.enStop (d : Dev) (t : EnTarget) : Dev :=
  match t with
  | .clkout n => d.setOutState n enStopping
  | .pps m => d.setPpsState m enStopping
  | .lane n => d.laneStop n
  | .port p => d.setFld (R.LK_PORT_CTRL p) F.LK_PORT_CTRL_state enStopping
  | .ring r => d.ringStop r
  | .chan c => d.chanStop c
  | .engine => d.engineStop
  | .unit u => d.unitStop u
  | .pail => d.pailStop

/-- The enable field of a block reads 1, and the stage does not keep the block stopped. -/
def Dev.enWanted (d : Dev) (t : EnTarget) : Bool := d.flag (enReg t) enField && !d.stageStops t

/-- What a block in OFF or ON does with its enable field; during a loss of ROOT lock no block changes state
(DEDUCED: log entry 120). -/
def Dev.enApply (d : Dev) (t : EnTarget) : Dev :=
  if d.inFault then d
  else if d.enState t = enOff then (if d.enWanted t && d.mayStart t then d.enStart t else d)
  else if d.enState t = enOn then (if d.enWanted t then d else d.enStop t)
  else d

/-- The end of a STARTING: ON, or STOPPING when the enable no longer holds. -/
def Dev.enStarted (d : Dev) (t : EnTarget) : Dev :=
  if d.enWanted t then d.setFld (enReg t) (stField t) enOn else d.enStop t

/-- The coincidence units with a control register away from reset. -/
def Dev.unitsNamed (d : Dev) : List Nat :=
  d.regs.filterMap fun e =>
    if R.TG_CU_CTRL 0 ≤ e.1 ∧ e.1 < R.TG_CU_CTRL 4096 then some ((e.1 - R.TG_CU_CTRL 0) / 4) else none

/-- Every block under the enable rule, in ascending order of base address (R337). -/
def Dev.enTargets (d : Dev) : List EnTarget :=
  (List.finRange 8).map .clkout ++ (List.finRange 2).map .pps ++ (List.finRange 64).map .lane ++
    (List.finRange 64).map .port ++ (List.finRange 128).map .chan ++ [.engine] ++
    (d.unitsNamed.map fun u => .unit (Fin.ofNat 4096 u)) ++ (List.finRange 64).map .ring ++ [.pail]

/-- Every block follows its enable field: where a stage begins, and after a FAULT (R337, R347)
(DEDUCED: log entry 120). -/
def Dev.applyEnables (d : Dev) : Dev := d.enTargets.foldl (fun d t => d.enApply t) d

/-- A write of the register that holds an enable field (R346). -/
def Dev.enableWrite (d : Dev) (t : EnTarget) (w : Word) : Dev :=
  match t with
  | .lane n => d.laneCtrlWrite n w
  | t => (d.store (enReg t) w).enApply t

/-! YIELDED (R347, R412, R413). -/

/-- PS_PAIR_STATUS.state set. -/
def Dev.setPair (d : Dev) (st : Nat) : Dev := d.setFld R.PS_PAIR_STATUS F.PS_PAIR_STATUS_state st

/-- An ACTIVE device yields: ACT_OUT falls, the frames it holds are counted, and the stage stops its blocks
(DEDUCED: log entry 151). -/
def Dev.yieldNow (d : Dev) (cause : Nat) : Dev :=
  if d.pairState != 3 then d
  else
    let d1 := ({ d with stage := .yielded } : Dev).setPair 4
    let d2 := (((d1.recStage 4 cause).raise R.PS_ALARM F.PS_ALARM_yielded).setReg R.PS_LOST
      (BitVec.ofNat 32 d.framesHeld)).stopWalk
    d2.applyEnables

/-- An ACTIVE device yields on a cause enabled in PS_YIELD_CFG (R413). -/
def Dev.yieldOn (d : Dev) (cause : Nat) : Dev :=
  if bit (d.fld R.PS_YIELD_CFG F.PS_YIELD_CFG_en) (cause - 16) then d.yieldNow cause else d

/-- The table condition of R413, after lines have been diverted. -/
def Dev.yieldTables (d : Dev) : Dev :=
  if d.fld R.PS_YIELD_CFG F.PS_YIELD_CFG_ue_limit < d.divertedCount then d.yieldOn 19 else d

/-! SAFE (R40, R327, R339, R347). -/

/-- Every block under the enable rule is OFF at once, its enable field unchanged, and its work is discarded. -/
def Dev.allOff (d : Dev) : Dev :=
  let d1 := (List.range 8).foldl (fun d n => d.setOutState n enOff) d
  let d2 := (List.range 2).foldl (fun d m => (d.setPpsOut m { d.ppsOut m with pulsing := false }).setPpsState m enOff) d1
  let d3 := (List.range 64).foldl (fun d p => d.setFld (R.LK_PORT_CTRL p) F.LK_PORT_CTRL_state enOff) d2
  let d4 := (List.range 64).foldl (fun d n => if d.laneState n = enOff then d else d.laneOff n) d3
  let d5 := (List.range 128).foldl (fun d c => if d.chanState c = enOff then d else d.chanCut c) d4
  let d6 := d5.engineOff.pailOff
  d6.ringsActive.foldl (fun d r =>
    (d.setRing r { Ring.reset with lost := (d.ring r).lost }).setRingState r enOff) d6

/-- The device enters SAFE with a cause (R327, R434). -/
def Dev.enterSafe (d : Dev) (cause : Nat) : Dev :=
  let d0 := (d.calAbort).setValidity 0
  let d1 : Dev := { d0 with stage := .safe, safeCause := cause, fireStep := 0, glazeWait := false, load := none
                            ck := { d0.ck with episode := none, buildOut := false } }
  let d2 := ((d1.setCleaner 7 0x7F).setFlag R.CK_SYN_STATUS F.CK_SYN_STATUS_locked false).setPair 0
  let d3 := (d2.allOff.switchClear).stopWalk.turnOver
  ({ d3 with cl := { d3.cl with held := [] } } : Dev).recStage 5 cause

/-! Loss of ROOT lock (R29, R50–R52). -/

/-- Relock attempt k begins. -/
def Dev.setAttempts (d : Dev) (k : Nat) : Dev := d.setFld R.CK_SYN_STATUS F.CK_SYN_STATUS_attempts k
/-- CK_SYN_STATUS.loss_count. -/
def Dev.lossCount (d : Dev) : Nat := d.fld R.CK_SYN_STATUS F.CK_SYN_STATUS_loss_count

/-- Every port that is not OFF is held off on all classes, while its link still stands (R51). -/
def Dev.holdPorts (d : Dev) : Dev :=
  (List.range 64).foldl (fun d p =>
    if d.portOff p then d else (d.setPort p { d.port p with held := true }).pfcSend p []) d

/-- PPS pulses in progress end low, at the counter of the loss (R51). -/
def Dev.gatePps (d : Dev) : Dev :=
  (List.range 2).foldl (fun d m =>
    if (d.ppsOut m).pulsing then (d.setPpsOut m { d.ppsOut m with pulsing := false }).emit (.pps m false (toGrid d.now))
    else d) d

/-- The period of every 1PPS input that holds this instant does not count (R36) (DESIGN CHOICE: log entry 24). -/
def Dev.spoilPps (d : Dev) : Dev :=
  (List.range 4).foldl (fun d n => d.setRefH n { d.refH n with spoilt := true }) d

/-- A declared loss of ROOT lock, or a controlled relock: FAULT (R29, R51)
(DEDUCED: log entry 23) (DESIGN CHOICE: log entry 39). -/
def Dev.loseLock (d : Dev) (controlled : Bool) : Dev :=
  if !d.rootLocked then d
  else
    let d1 := d.holdPorts
    let d2 : Dev := { d1 with pc := { d1.pc with telFault := true }
                              ck := { d1.ck with episode := some (if controlled then .controlled else .loss)
                                                 restart := false, idled := false, buildOut := false } }
    let d3 := ((d2.setFld R.CK_STATUS F.CK_STATUS_state 7).setFlag R.CK_SYN_STATUS F.CK_SYN_STATUS_locked
      false).setAttempts 1
    let d4 := if controlled then d3
      else ((d3.addSat R.CK_SYN_STATUS F.CK_SYN_STATUS_loss_count 1).count (devCtr 10)).raise R.CK_ALARM F.CK_ALARM_fault
    let d5 := d4.recClock (if controlled then 4 else 1) 0 d4.lossCount
    (((d5.edgeFault.setValidity 0).calAbort).gatePps.spoilPps).yieldOn 17

/-- 2,000 ns after the loss: lanes are idle and HALTED, and transmissions are cut off (R51, R52). -/
def Dev.faultIdle (d : Dev) : Dev :=
  let d1 := (List.range 64).foldl (fun d p => d.cutTx p) d
  let d2 := d1.haltLanes
  { d2 with ck := { d2.ck with idled := true } }

/-! The declaration of lock (R50, R56, R333). -/

/-- The cleaner leaves OFF or FAULT by selection: ACQUIRE, or no reference (R41, R56) (DESIGN CHOICE: log entry 39). -/
def Dev.cleanerStart (d : Dev) (recovery : Bool) : Dev :=
  let (sel, conflict) := d.choose
  let d1 := d.showConflict conflict
  match sel with
  | some r => d1.enterAcquire r
  | none =>
    if recovery && d.fld R.CK_CLN_CFG F.CK_CLN_CFG_sel_mode != 2 then d1.enterHold else d1.enterFreerun

/-- A time source is configured: INVALID becomes ALIGNING (R147). -/
def Dev.validBegin (d : Dev) : Dev := if d.timeSource = 0 then d else (d.setValidity 1).validCheck

/-- The outputs of a mask are captured at an instant in ROOT cycles: they align 25.6 ns after it, and those in STOPPING are
OFF (R56, R58, R59). -/
def Dev.captureOutputs (d : Dev) (mask instant : Nat) : Dev :=
  (List.range 8).foldl (fun d n => if bit mask n && d.outState n == enStopping then d.setOutState n enOff else d)
    (d.alignOutputs mask (instant + 320))

/-- Lock is declared: for the first time, or as the recovery of R56. -/
def Dev.lockDeclared (d : Dev) : Dev :=
  match d.ck.episode with
  | none => d
  | some .first =>
    let d1 := ({ d with ck := { d.ck with episode := none, restart := false } } : Dev).setFlag R.CK_SYN_STATUS
      F.CK_SYN_STATUS_locked true
    (d1.cleanerStart false).validBegin
  | some _ =>
    let d0 := if d.ck.idled then d else d.faultIdle
    let d1 := ({ d0 with ck := { d0.ck with episode := none, restart := false, idled := false } } : Dev).setFlag
      R.CK_SYN_STATUS F.CK_SYN_STATUS_locked true
    let d2 := d1.recClock 2 (d1.fld R.CK_SYN_STATUS F.CK_SYN_STATUS_attempts) d1.lossCount
    let d3 := ((d2.captureOutputs 0xFF (d2.ticks * 20)).cleanerStart true).resumeLanes
    ((d3.recompute fun _ => true).pailRecover.validBegin).applyEnables

/-- A relock attempt ends without lock: the next one starts, its count anew after a changed setting, or the eighth has
failed (R29, R54) (DEDUCED: log entry 23). -/
def Dev.attemptFail (d : Dev) : Dev :=
  if d.ck.episode.isNone then d
  else
    let k := d.fld R.CK_SYN_STATUS F.CK_SYN_STATUS_attempts
    if d.ck.restart then ({ d with ck := { d.ck with restart := false } } : Dev).setAttempts 1
    else if k < 8 then d.setAttempts (k + 1)
    else ((d.raise R.CK_ALARM F.CK_ALARM_relock_fail).recClock 3 8 d.lossCount).enterSafe 5

/-! The way to GLAZE (R327, R335–R337, R408). -/

/-- Entry to STANDBY: the time source is the pair port (R410). -/
def Dev.enterStandby (d : Dev) : Dev := (d.setPair 2).stopWalk.validCheck

/-- Entry to WAITING; ACT_IN high leads on to STANDBY (R408). -/
def Dev.enterWaiting (d : Dev) : Dev :=
  let d1 := ({ d with ps := { d.ps with claimAt := none } } : Dev).setPair 1
  if d.ps.actIn then d1.enterStandby else d1

/-- Entry to GLAZE: the calibration turns begin with channel 0 (R173, R337). -/
def Dev.enterGlaze (d : Dev) : Dev :=
  let d1 : Dev := { d with stage := .glaze, fireStep := 0, glazeWait := false, ec := { d.ec with turn := 0 } }
  let d2 := if d1.flag R.PS_PAIR_CFG F.PS_PAIR_CFG_enable then d1.enterWaiting else d1
  d2.applyEnables

/-- Firing step 4 ends with the root's walk; a node that is no root has none (R335, R342). -/
def Dev.fireCheck (d : Dev) : Dev :=
  if d.stage = .firing ∧ d.fireStep = 4 ∧ !(d.enumRoot && d.walking) then d.enterGlaze else d

/-- Firing step 3 ends, and step 4 begins. -/
def Dev.fireWalk (d : Dev) : Dev :=
  let d1 : Dev := { d with fireStep := 4, glazeWait := false }
  (if d1.enumRoot then d1.rootWalk else d1).fireCheck

/-- Firing step 3 waits for the host (R336). -/
def Dev.waitHost (d : Dev) : Dev := { d with glazeWait := true }

/-! Claim, takeover and return (R408–R412). -/

/-- TIE record: 1 won, 2 lost (DEDUCED: log entry 147). -/
def Dev.recTie (d : Dev) (outcome : Nat) : Dev :=
  d.record 0x11 (leBytes 1 outcome ++ leBytes 1 (if d.pins.pairRole then 1 else 0) ++ leBytes 2 0)

/-- The device claims by raising ACT_OUT. -/
def Dev.claim (d : Dev) : Dev := ({ d with ps := { d.ps with claimAt := some d.ticks } } : Dev).setPair 3

/-- ACT_IN has risen on an ACTIVE device; `e` TIME ticks have passed since its own claim. The command is the confirmed
rise, 100 ns after the ball's, so that claims within 20 ns of each other give 80 to 120 ns (R408, R409)
(DEDUCED: log entries 146, 147). -/
def Dev.tieResolve (d : Dev) (e : Nat) : Dev :=
  let lost := decide (e < 50) || (decide (e ≤ 75) && d.pins.pairRole)
  if lost then (d.recTie 2).enterStandby else d.recTie 1

/-- A root that takes over holds address 1 (R342, R410). -/
def Dev.rootAddress (d : Dev) : Dev :=
  if d.enumRoot then
    (((d.setFlag R.GL_ADDR F.GL_ADDR_valid true).setFlag R.GL_ADDR F.GL_ADDR_refused false).setFld R.GL_ADDR
      F.GL_ADDR_port 0).setFld R.GL_ADDR F.GL_ADDR_addr 1
  else d

/-- The takeover (R411, R412). The time that it took is measured by the device and stated nowhere: two free octets of its
record (DESIGN CHOICE: log entry 148) (DEDUCED: log entry 149). -/
def Dev.takeover (d : Dev) (phaseHit : Int) : Dev :=
  let d1 := (({ d with ps := { d.ps with resync := true, claimAt := some d.ticks } } : Dev).setPair 3).disturbAll
  let d2 := ((d1.rootAddress).validCheck).makeLate fun x => decide (t48Sub x.dec.tExec d1.now < 0)
  let (time, d3) := (d2.setReg R.PS_TAKE_STAT (BitVec.ofNat 32 (unsigned 32 phaseHit))).freeBytes 2
  (d3.raise R.PS_ALARM F.PS_ALARM_takeover).record 0x10 (leBytes 1 2 ++ leBytes 1 0 ++ time ++
    leBytes 4 (unsigned 32 phaseHit))

/-- The end of the credit resynchronisation: every Isazu class's count becomes the cells received plus those set aside, and
is sent (R412). -/
def Dev.creditResync (d : Dev) : Dev :=
  if !d.ps.resync then d
  else
    (List.range 64).foldl (fun d p =>
      if !d.isazu p || !d.linkUp p then d
      else
        let d1 := (List.range 8).foldl (fun d c =>
          let x := d.credit p c
          d.setCredit p c { x with granted := (x.received + x.aside) % 65536 }) d
        if d1.portOn p && !d1.inFault then d1.emit (.credit p ((List.range 8).map fun c => (d1.credit p c).granted)) else d1)
      ({ d with ps := { d.ps with resync := false } } : Dev)

/-- PS_CMD.rejoin on a YIELDED device: WAITING, the frames held discarded, and stopped blocks start again (R408, R412,
R413) (DEDUCED: log entry 150). -/
def Dev.rejoinNow (d : Dev) : Dev :=
  if d.pairState != 4 then d.raise R.PS_ALARM F.PS_ALARM_refused
  else (({ d.switchClear with stage := .glaze } : Dev).recStage 3 32).enterWaiting.applyEnables

/-- PS_CMD.yield (R413) (DEDUCED: log entry 150). -/
def Dev.yieldCommand (d : Dev) : Dev :=
  if d.pairState = 3 ∧ bit (d.fld R.PS_YIELD_CFG F.PS_YIELD_CFG_en) 4 then d.yieldNow 20
  else d.raise R.PS_ALARM F.PS_ALARM_refused

end Sys2Proof.Machine
end

