-- ==== Sys2Proof/Machine/Memory.lean ====
section
/-! DEFINITION. The commands of memory integrity and scan entry (R348–R370, R415). -/

namespace Sys2Proof.Machine

/-- Churn and online bank tests run (R362, R365). -/
def Dev.testsRun (d : Dev) : Bool := (d.stage == .glaze || d.stage == .yielded) && !d.inFault

/-- CHURN_STEP: the next line of memories 1 to 11 is read and classified (R351, R362). -/
def execChurnStep (r : LineRead) (s : State) : Result :=
  running s fun d =>
    if !d.testsRun then d
    else
      let (m, line) := walkLine 11 d.mi.churnLine
      let n := d.mi.churnLine + 1
      let (d0, _) := if d.diverted m line then (d, false) else d.readLine m line r true
      let d1 := d0.yieldTables
      if n < walkTotal then { d1 with mi := { d1.mi with churnLine := n } }
      else
        ({ d1 with mi := { d1.mi with churnLine := 0 } } : Dev).setFld R.MI_CHURN_STAT F.MI_CHURN_STAT_walks
          (d1.fld R.MI_CHURN_STAT F.MI_CHURN_STAT_walks + 1)

/-- CORRECTED_WRITE_BACK: a line read with a correctable error is written back corrected; another write came first where
the line no longer waits (R351). -/
def execCorrectedWriteBack (mem line : Nat) (s : State) : Result :=
  running s fun d => { d with mi := { d.mi with writeBack := d.mi.writeBack.filter (· != (mem, line)) } }

/-- Is the restoration of a line among the 16 that run (R356)? (DEDUCED: log entry 132) -/
def Dev.activeRestore (d : Dev) (mem line : Nat) : Option Restore :=
  (d.mi.restoring.take 16).find? fun r => r.mem == mem && r.line == line

/-- The content of a line taken from the host shadow (R355) (DEDUCED: log entry 131). -/
def Dev.shadowLine (d : Dev) (mem line v : Nat) : Dev :=
  let part (n : Nat) (m : Sparse Nat) (k pos : Nat) : Sparse Nat :=
    let old := sGet 0 m k
    let at_ := old / 2 ^ (n * pos) % 2 ^ n
    sPut 0 m k (old - at_ * 2 ^ (n * pos) + v % 2 ^ n * 2 ^ (n * pos))
  match mem with
  | 1 => { d with cl := { d.cl with em := sPut 0 d.cl.em line (v % 2 ^ 256) } }
  | 3 => { d with cl := { d.cl with tern := part 512 d.cl.tern (line / 3) (line % 3) } }
  | 4 => { d with cl := { d.cl with act := sPut 0 d.cl.act line (v % 2 ^ 256) } }
  | 5 => { d with cl := { d.cl with tpl := sPut 0 d.cl.tpl line (v % 2 ^ 512) } }
  | _ => d

/-- A recomputed line of the calibration RAM loses the pending deltas it held. The manual does not say which items a line
holds: it is a free choice for each pending delta (R382) (DESIGN CHOICE: log entry 136). -/
def Dev.losePending (d : Dev) : Dev :=
  let (keep, d1) := d.ca.pending.foldl (fun acc e =>
    let (b, d1) := acc.2.freeBool
    (if b then acc.1 else acc.1 ++ [e], d1)) (([] : Sparse Int), d)
  if keep.length = d.ca.pending.length then d1
  else ({ d1 with ca := { d1.ca with pending := keep, dirty := true } } : Dev).raise R.CA_ALARM F.CA_ALARM_pending_lost

/-- The line is whole again: its diversion ends, and what waited for it goes on (R355, R356). -/
def Dev.lineRestored (d : Dev) (r : Restore) : Dev :=
  let x := (r.mem, r.line)
  let d1 : Dev := { d with mi := { d.mi with
      diverted := d.mi.diverted.filter (· != x)
      restoring := d.mi.restoring.filter fun y => !(y.mem == r.mem && y.line == r.line)
      fresh := x :: d.mi.fresh.filter (· != x) } }
  let d2 := d1.recMem r.mem 1 r.src r.line
  if r.mem = 2 then d2.retryHeld else if r.mem = 11 then d2.losePending else d2

/-- LINE_RESTORE_DONE: the source of a diverted line has been read. A failed shadow read is tried again; otherwise the line
is rewritten. A line that a command has written since is no longer being restored (R355, R356, R360)
(DEDUCED: log entry 131). -/
def execLineRestoreDone (mem line : Nat) (readOk : Bool) (data : BitVec 512) (s : State) : Result :=
  running s fun d =>
    match d.activeRestore mem line with
    | none => d
    | some r =>
      if r.retry then d
      else if r.src = 1 ∧ !readOk then
        (({ d with mi := { d.mi with restoring := d.mi.restoring.map fun y =>
            if y.mem == mem && y.line == line then { y with retry := true } else y } } : Dev).raise R.MI_ALARM
          F.MI_ALARM_refetch_err).count (devCtr 9)
      else (if r.src = 1 then d.shadowLine mem line data.toNat else d).lineRestored r

/-- REFETCH_RETRY: 1 ms after a failed shadow read the read is tried again (R356). -/
def execRefetchRetry (mem line : Nat) (s : State) : Result :=
  running s fun d =>
    { d with mi := { d.mi with restoring := d.mi.restoring.map fun y =>
        if y.mem == mem && y.line == line then { y with retry := false } else y } }

/-- The correctable-error table and its overflow count are empty (R352). -/
def Dev.ceClear (d : Dev) : Dev :=
  (List.range 32).foldl (fun d i => (d.setReg (R.MI_CE_ENT_LO i) 0).setReg (R.MI_CE_ENT_HI i) 0)
    (d.setReg R.MI_CE_OVF 0)

/-! Bank tests (R365, R366). -/

/-- A buffer bank is retired (R232, R234, R366). -/
def Dev.retireBank (d : Dev) (b : Nat) : Dev :=
  if d.retired b then d
  else
    let o := if b < 32 then R.MI_RETIRED_LO else R.MI_RETIRED_HI
    let d1 := d.setReg o (d.reg o ||| BitVec.ofNat 32 (2 ^ (b % 32)))
    let d2 := (d1.setFld R.SW_BUF_STAT F.SW_BUF_STAT_banks_retired (d.fld R.SW_BUF_STAT F.SW_BUF_STAT_banks_retired +
      1)).setFld R.SW_BUF_STAT F.SW_BUF_STAT_cells_usable (d.cellsUsable - 8192)
    ((d2.raise R.SW_ALARM F.SW_ALARM_bank_retired).recBist 0 2 b).poolUpdate

/-- The spare bank has failed: no further turn starts until reset (R364, R366). -/
def Dev.spareFail (d : Dev) : Dev :=
  (({ d with mi := { d.mi with spareBad := true } } : Dev).raise R.MI_ALARM F.MI_ALARM_spare_fail).recBist 0 3 48

/-- The bank of the next turn: one taken ahead, or the next in ascending order that is not retired
(DEDUCED: log entry 134). -/
def Dev.nextTestBank (d : Dev) : Option Nat :=
  match d.mi.ahead.find? fun b => !d.retired b with
  | some b => some b
  | none => ((List.range 48).map fun i => (d.mi.nextBank + i) % 48).find? fun b => !d.retired b

/-- BANK_TEST_START: a turn on the next bank starts, once the spare bank holds no cell (R353, R365, R366). -/
def execBankTestStart (s : State) : Result :=
  running s fun d =>
    if !d.testsRun || !d.flag R.MI_BIST_CFG F.MI_BIST_CFG_online || d.mi.phase != 0 || d.mi.spareBad ||
        d.cellsIn 48 != 0 then d
    else
      match d.nextTestBank with
      | none => d
      | some b =>
        let taken := d.mi.ahead.contains b
        ({ d with mi := { d.mi with phase := 1, ahead := d.mi.ahead.filter (· != b)
                                    nextBank := if taken then d.mi.nextBank else (b + 1) % 48 } } : Dev).setFld
          R.MI_STATUS F.MI_STATUS_bank b

/-- BANK_TEST_PHASE_END: the next phase starts. In phase 2 the spare bank takes the place of the bank under test, whose cells are
in it at the end; in phase 4 the bank takes its place back, and its cells at the end. A spare that fails ends the turn, and a bank
that fails phase 3 is retired, its cells left in the spare bank (R365, R366). -/
def execBankTestPhaseEnd (failed : Bool) (s : State) : Result :=
  running s fun d =>
    let b := d.testBank
    if d.inFault then d
    else
      match d.mi.phase with
      | 0 => d
      | 1 => if failed then d.turnOver.spareFail else { d with mi := { d.mi with phase := 2 } }
      | 2 => { d.copyBank b 48 with mi := { d.mi with phase := 3 } }
      | 3 => if failed then (d.turnOver).retireBank b else { d with mi := { d.mi with phase := 4 } }
      | _ => (d.copyBank 48 b).turnOver

/-! Scan (R367, R415). -/

/-- PS_SEC_STATUS.filled follows the key slots. -/
def Dev.filledReport (d : Dev) : Dev :=
  d.setFld R.PS_SEC_STATUS F.PS_SEC_STATUS_filled
    ((List.range 8).foldl (fun m i => if (d.nv.keys.getD i none).isSome then m + 2 ^ i else m) 0)

/-- Every user key slot is written with zeros and read back, and a ZEROIZE record names the trigger and the outcome
(R415) (DESIGN CHOICE: log entry 152). -/
def Dev.zeroize (d : Dev) (trigger : Nat) (verified : Bool) : Dev :=
  let d1 : Dev := if verified then { d with nv := { d.nv with keys := List.replicate 8 none } } else d
  ((d1.filledReport).record 0x13 (leBytes 1 trigger ++ leBytes 1 (if verified then 0 else 1) ++ leBytes 2 0)).raise
    R.PS_ALARM F.PS_ALARM_zeroized

/-- The queued records go to the MRAM. -/
def Dev.flushRecords (d : Dev) : Dev := (List.range d.klogQueue.length).foldl (fun d _ => d.storeRecord false) d

/-- SCAN_ENTER: with TEST_MODE high the entry is logged, the saggar is zeroized and verified, and the scan chains are
connected; a full log refuses the entry. With TEST_MODE low it acts as BYPASS (R367). -/
def execScanEnter (s : State) : Result :=
  always s fun d =>
    if !d.pins.testMode || d.stage = .off then d
    else
      let d1 := d.flushRecords
      if d1.flag R.ER_STATUS F.ER_STATUS_full || decide (1023 * 256 < placeRecord d1.nv.klogUsed 8) then
        { d1 with mi := { d1.mi with tap := 2 } }
      else
        let d2 := ((d1.record 0x0C []).flushRecords.zeroize 2 true).flushRecords
        { d2 with mi := { d2.mi with scan := true } }

end Sys2Proof.Machine
end

