-- ==== Sys2Proof/Machine/ImageOps.lean ====
section
/-! DEFINITION. Images and the saggar: verification of an image, key slots, the open fuse, and the commands of PS_CMD
(R414–R418). -/

namespace Sys2Proof.Machine

/-- What the checks of R417 find of the octets of an image region: absent, wrong CRC, wrong signature, verified, or
accepted without a valid signature under the blown open fuse (R418). -/
inductive ImageCheck
  | absent | badCrc | badSignature | good | unsigned
  deriving DecidableEq, Repr

/-- Length field of an image header. -/
def imageLen (bs : List Byte) : Nat := little bs 4 4
/-- The records of an image. -/
def imageRecords (bs : List Byte) : List Byte := octets bs 256 (imageLen bs)
/-- The signature holds under the image's own key, whose digest the fuses hold (PRESUMED: log entry 154). -/
def imageSigned (digest bs : List Byte) : Bool :=
  Crypto.sha384 (octets bs 12 97) == digest && octet bs 12 == 4 &&
    Crypto.verify (wire bs 13 48) (wire bs 61 48) (wire bs 109 48) (wire bs 157 48)
      (Crypto.sha384 (octets bs 0 12 ++ imageRecords bs))

/-- The checks of an image of a kind, in the order of R333 (DEDUCED: log entry 155). -/
def Dev.checkImage (d : Dev) (kind : Nat) (bs : List Byte) : ImageCheck :=
  if bs.length < 256 ∨ little bs 0 4 ≠ kind ∨ bs.length < 256 + imageLen bs then .absent
  else if little bs 8 4 ≠ crc32c (imageRecords bs) then .badCrc
  else if imageSigned d.nv.digest bs then .good
  else if d.nv.openFuse then .unsigned
  else .badSignature

/-- Octets of an image region (R331). -/
def regionSize (kind : Nat) : Nat := if kind = 1 then 65536 else 3392 * 1024

/-- An IMAGE_STORE record: 0 stored, 1 signature, 2 MRAM refused (R415). -/
def Dev.recStore (d : Dev) (kind result : Nat) : Dev :=
  d.record 0x14 (leBytes 1 kind ++ leBytes 1 result ++ leBytes 2 0)

/-- PS_ALARM.refused. -/
def Dev.psRefuse (d : Dev) : Dev := d.raise R.PS_ALARM F.PS_ALARM_refused

/-- PS_CMD.img_store on the octets read from host memory: an image that verifies is written, one at a time (R417,
R418) (DEDUCED: log entries 155, 156). -/
def Dev.imageStore (d : Dev) (bs : List Byte) : Dev :=
  let xs := bs.take (d.fld R.PS_XFER_LEN F.PS_XFER_LEN_len)
  let kind := little xs 0 4
  if d.ps.storing.isSome then d.psRefuse
  else
    let ok := (kind == 1 || kind == 2) &&
      (d.checkImage kind xs == .good || d.checkImage kind xs == .unsigned)
    if !ok then (d.raise R.PS_ALARM F.PS_ALARM_sig_fail).recStore (kind % 256) 1
    else if regionSize kind < 256 + imageLen xs then d.recStore kind 2
    else { d with ps := { d.ps with storing := some (kind, xs.take (256 + imageLen xs)) } }

/-- A KEY record: 1 written, 2 refused (R415). -/
def Dev.recKey (d : Dev) (slot event : Nat) : Dev := d.record 0x12 (leBytes 1 slot ++ leBytes 1 event ++ leBytes 2 0)

/-- PS_CMD.key_write on the octets read from host memory: 32 bytes into an empty slot (R414)
(DEDUCED: log entry 153). -/
def Dev.writeKey (d : Dev) (key : List Byte) : Dev :=
  let slot := d.fld R.PS_CMD F.PS_CMD_slot
  let n := d.fld R.PS_XFER_LEN F.PS_XFER_LEN_len
  if n ≠ 32 ∨ key.length < 32 ∨ (d.nv.keys.getD slot none).isSome then (d.psRefuse).recKey slot 2
  else
    (({ d with nv := { d.nv with keys := d.nv.keys.set slot (some (key.take 32)) } } : Dev).filledReport).recKey slot 1

/-- A write of PS_CMD: each of its bits that reads 1 acts. `verified` is what the read-back of a zeroization finds, and
the octets are those that the device reads from host memory (R413–R417). -/
def Dev.psCommand (d : Dev) (w : Word) (verified : Bool) (key image : List Byte) : Dev :=
  let on (f : Field) (d : Dev) (g : Dev → Dev) : Dev := if getField w f = 1 then g d else d
  let d0 := d.setFld R.PS_CMD F.PS_CMD_slot (getField w F.PS_CMD_slot)
  let d1 := on F.PS_CMD_yield d0 Dev.yieldCommand
  let d2 := on F.PS_CMD_rejoin d1 Dev.rejoinNow
  let d3 := on F.PS_CMD_zeroize d2 fun d => d.zeroize 1 verified
  let d4 := on F.PS_CMD_key_write d3 fun d => d.writeKey key
  on F.PS_CMD_img_store d4 fun d => d.imageStore image

/-- A write of PS_OPEN.code: the second code of the sequence, within 1 s of the first in GLAZE, blows the open fuse; any
other write discards the sequence (R418) (DEDUCED: log entry 157). -/
def Dev.openWrite (d : Dev) (w : Word) : Dev :=
  let code := getField w F.PS_OPEN_code
  let first := code == 0x0F1E && d.inGlaze
  let second := match d.ps.openAt with
    | some t => code == 0xE1F0 && decide (d.ticks ≤ t + tickSeconds 1)
    | none => false
  { d with ps := { d.ps with openAt := if first then some d.ticks else none
                             blowing := d.ps.blowing || (second && !d.nv.openFuse) } }

end Sys2Proof.Machine
end

