-- ==== Sys2Proof/Machine/ReadOps.lean ====
section
/-! DEFINITION. What a read of a setup register returns, and what it does: latched groups, clearing fields, and the record
of accesses that are not served (R8, R421–R436). -/

namespace Sys2Proof.Machine

/-- The instance that offset `o` names in a family of `n` registers. -/
def inst (base stride n o : Nat) : Option Nat :=
  if base ≤ o ∧ (o - base) % stride = 0 ∧ (o - base) / stride < n then some ((o - base) / stride) else none

/-- 1 for a true value. -/
def one (b : Bool) : Nat := if b then 1 else 0

/-- A register of a latched group (R425) (DESIGN CHOICE: log entry 14). -/
def isLatched (o : Nat) : Bool :=
  o == R.TC_NOW_HI || o == R.TC_PPS_STAMP_HI || (inst (R.GL_PORT_RANGE_END 0) 8 64 o).isSome ||
    (decide (R.LK_PORT_CTRL 0 ≤ o) && decide (o < R.LK_PORT_CTRL 64) && decide (0x100 ≤ o % 0x400) &&
      decide (o % 0x400 < 0x200) && (o % 0x20 == 4 || o % 0x20 == 8 || o % 0x20 == 0x10))

/-! The present value of each register. Fields that report the state of a block are read from that state. -/

/-- Global block (R433, R434). -/
def Dev.viewGL (d : Dev) (o : Nat) : Word :=
  if o = R.GL_STAGE then
    wordOf 0 [(F.GL_STAGE_stage, d.stage.code), (F.GL_STAGE_fire_step, d.fireStep),
      (F.GL_STAGE_glaze_wait, one d.glazeWait), (F.GL_STAGE_safe_cause, d.safeCause)]
  else if o = R.GL_STRAP then
    wordOf 0 [(F.GL_STRAP_test_mode, one d.pins.testMode), (F.GL_STRAP_pair_role, one d.pins.pairRole)]
  else d.reg o

/-- Clock tree (R60, R71). -/
def Dev.viewCK (d : Dev) (o : Nat) : Word :=
  match inst (R.CK_REF_STATUS 0) 4 68 o with
  | some n => putField (d.reg o) F.CK_REF_STATUS_wtr_remain (d.wtrRemain n)
  | none =>
    match inst (R.CK_PPS_NEXT_LO 0) 0x10 2 o with
    | some m => (d.ppsOut m).heldLo.getD (BitVec.ofNat 32 (d.ppsOut m).next)
    | none =>
      match inst (R.CK_PPS_NEXT_HI 0) 0x10 2 o with
      | some m => BitVec.ofNat 32 ((d.ppsOut m).next / 2 ^ 32)
      | none => d.reg o

/-- Time core (R139, R145, R152). -/
def Dev.viewTC (d : Dev) (o : Nat) : Word :=
  if o = R.TC_NOW_LO then BitVec.ofNat 32 d.now
  else if o = R.TC_PPS_EXPECT_LO then d.tc.heldLo.getD (BitVec.ofNat 32 d.tc.expect)
  else if o = R.TC_PPS_EXPECT_HI then BitVec.ofNat 32 (d.tc.expect / 2 ^ 32)
  else if o = R.TC_TSQ_STAT then putField (d.reg o) F.TC_TSQ_STAT_count d.tc.tsq.length
  else d.reg o

/-- Lanes: a receiver in ACTIVE with adapt_cont = 1 goes on adapting its gain, whose code the manual does not give (R90)
(DESIGN CHOICE: log entry 166). -/
def Dev.viewLN (d : Dev) (o : Nat) : Word :=
  match inst (R.LN_EQ_RX 0) 0x400 64 o with
  | some n =>
    if d.bringup n = 6 ∧ d.flag o F.LN_EQ_RX_adapt_cont then
      putField (d.reg o) F.LN_EQ_RX_gain (Config.gain n d.ticks).toNat
    else d.reg o
  | none => d.reg o

/-- A link register of a lane index at or beyond the port's width, which reads 0 (R132). -/
def Dev.beyondWidth (d : Dev) (o : Nat) : Bool :=
  let q := o % 0x400
  decide (R.LK_PORT_CTRL 0 ≤ o) && decide (o < R.LK_PORT_CTRL 64) && decide (0x100 ≤ q) && decide (q < 0x200) &&
    decide (d.portLanes ((o - R.LK_PORT_CTRL 0) / 0x400) ≤ (q - 0x100) / 0x20)

/-- Links. -/
def Dev.viewLK (d : Dev) (o : Nat) : Word := if d.beyondWidth o then 0 else d.reg o

/-- Switch core (R252, R253). -/
def Dev.viewSW (d : Dev) (o : Nat) : Word :=
  if o = R.SW_BUF_FREE then BitVec.ofNat 32 (d.cellsUsable - d.cellsPlaced)
  else if o < R.SW_PORT_CFG 0 then d.reg o
  else
    let p := (o - R.SW_PORT_CFG 0) / 0x100
    if o = R.SW_PORT_STAT p then
      let paused := (List.range 8).foldl (fun m c =>
        if bit (sGet 0 d.sw.paused p) c || (d.isazu p && d.linkUp p && (d.credit p c).avail == 0) then m + 2 ^ c else m) 0
      wordOf 0 [(F.SW_PORT_STAT_xoff, d.xoff p), (F.SW_PORT_STAT_paused, paused),
        (F.SW_PORT_STAT_carrying, one (d.carrying p))]
    else if o = R.SW_OCC p then BitVec.ofNat 32 (d.cellsWhere (fun h => h.port == p) fun _ => true)
    else
      match inst (R.SW_CREDIT p 0) 4 8 o with
      | some c =>
        if d.isazu p && d.linkUp p then
          wordOf 0 [(F.SW_CREDIT_granted, min 65535 (d.credit p c).aside), (F.SW_CREDIT_avail, (d.credit p c).avail)]
        else 0
      | none => d.reg o

/-- Classifier (R284). -/
def Dev.viewCL (d : Dev) (o : Nat) : Word :=
  if o = R.CL_BANK_STAT then
    let n := match d.drainBank with
      | some b => min 0xFFF (d.inflight b)
      | none => 0
    wordOf (d.reg o) [(F.CL_BANK_STAT_inflight, n), (F.CL_BANK_STAT_held, one (d.cl.held.any fun h => d.heldAimed h))]
  else if o = R.CL_EM_STAT then BitVec.ofNat 32 d.emCount
  else d.reg o

/-- Edge channels (R191). -/
def Dev.viewEC (d : Dev) (o : Nat) : Word :=
  match inst (R.EC_STATUS 0) 0x200 128 o with
  | some c =>
    wordOf (d.reg o) [(F.EC_STATUS_sq_depth, (d.chan c).queue.length), (F.EC_STATUS_dtc_depth, (d.chan c).sched.length),
      (F.EC_STATUS_live, one (d.chanLive c))]
  | none => d.reg o

/-- Trigger plane (R224, R226). -/
def Dev.viewTG (d : Dev) (o : Nat) : Word :=
  if o = R.TG_STATUS then
    wordOf 0 [(F.TG_STATUS_pending, d.tg.pending.length), (F.TG_STATUS_eff_gap, d.effGap)]
  else
    match inst (R.TG_CU_CTRL 0) 4 4096 o with
    | some u =>
      match d.unitRun? u with
      | some x => wordOf (d.reg o) [(F.TG_CU_CTRL_open, x.wins.length), (F.TG_CU_CTRL_held, one x.heldAt.isSome)]
      | none => d.reg o
    | none => d.reg o

/-- Pail port (R314, R316). -/
def Dev.viewPL (d : Dev) (o : Nat) : Word :=
  let level (q : List PailWord) : Nat := (q.filter fun w => w.eop).length * 65536 + q.length
  if o = R.PL_PI_LEVEL then BitVec.ofNat 32 (level d.pl.inq)
  else if o = R.PL_PO_LEVEL then BitVec.ofNat 32 (level d.pl.outq)
  else d.reg o

/-- Memory integrity (R369). -/
def Dev.viewMI (d : Dev) (o : Nat) : Word :=
  if o = R.MI_STATUS then
    let ph := match d.mi.phase with
      | 0 => 0 | 1 | 2 => 1 | 3 => 2 | _ => 3
    wordOf (d.reg o) [(F.MI_STATUS_diverted, min 255 d.divertedCount), (F.MI_STATUS_phase, ph)]
  else if o = R.MI_CHURN_STAT then
    putField (d.reg o) F.MI_CHURN_STAT_mem
      (if d.stage == .glaze || d.stage == .yielded then (walkLine 11 d.mi.churnLine).1 else 0)
  else d.reg o

/-- The item that CA_DELTA_SEL names. -/
def Dev.selItem (d : Dev) : Nat :=
  let kind := d.fld R.CA_DELTA_SEL F.CA_DELTA_SEL_kind
  itemKey kind (d.fld R.CA_DELTA_SEL F.CA_DELTA_SEL_index)
    (if kind ≤ 3 then d.fld R.CA_DELTA_SEL F.CA_DELTA_SEL_rate else 0)

/-- Calibration (R385, R386). -/
def Dev.viewCA (d : Dev) (o : Nat) : Word :=
  if o = R.CA_STATUS then
    putField (d.reg o) F.CA_STATUS_pending (min 255 ((d.ca.pending.map fun e => e.1 / 8).eraseDups.length))
  else if o = R.CA_DELTA_VAL then
    delayWord (d.deltaInForce d.selItem (d.fld R.CA_DELTA_SEL F.CA_DELTA_SEL_set))
  else d.reg o

/-- The word that the register at offset `o` holds at this instant, a latched register's own value included. -/
def Dev.live (d : Dev) (o : Nat) : Word :=
  match o / 0x10000 with
  | 0 => d.viewGL o
  | 1 => d.viewCK o
  | 2 => d.viewTC o
  | 3 => d.viewLN o
  | 4 => d.viewLK o
  | 5 => d.viewSW o
  | 6 => d.viewCL o
  | 7 => d.viewEC o
  | 8 => d.viewTG o
  | 10 => d.viewPL o
  | 11 => d.viewMI o
  | 12 => d.viewCA o
  | _ => d.reg o

/-- The word that a read of offset `o` returns. -/
def Dev.view (d : Dev) (o : Nat) : Word :=
  if d.beyondWidth o then 0 else if isLatched o then sGet (resetWord o) d.latch o else d.live o

/-! BAR2 (R287). -/

/-- A word of the pending-bit array: bit v % 32 of word v / 32 is vector v's. -/
def Dev.pbaWord (d : Dev) (k : Nat) : Word :=
  BitVec.ofNat 32 ((List.range 32).foldl (fun m i => if d.hr.pba.contains (32 * k + i) then m + 2 ^ i else m) 0)

/-- The word that a read of a BAR2 offset returns: the MSI-X table, the pending-bit array from 0x2000 on, 0 elsewhere. -/
def Dev.viewBar2 (d : Dev) (o : Nat) : Word :=
  if o < 66 * 16 then d.msixWord (o / 4 * 4)
  else if 0x2000 ≤ o ∧ o < 0x2010 then d.pbaWord ((o - 0x2000) / 4)
  else 0

/-! PCI configuration space (R286). -/

/-- What the function offers (R286). -/
structure PcieFunction where
  lanes          : List Nat
  rates          : List Nat
  maxPayload     : Nat
  maxReadRequest : Nat
  tenBitTags     : Bool
  d3hot          : Bool
  aer            : Bool
  msixVectors    : Nat
  flr            : Bool
  sriov          : Bool
  ats            : Bool
  serialNumber   : Bool
  deriving DecidableEq, Repr

/-- The function: a single one of 8 lanes, which trains at fewer and slower too; rates by their code in HR_PCIE_STAT. -/
def pcieFunction : PcieFunction :=
  { lanes := [1, 2, 4, 8], rates := [1, 2, 3, 4, 5], maxPayload := 512, maxReadRequest := 4096, tenBitTags := true,
    d3hot := true, aer := true, msixVectors := 66, flr := true, sriov := false, ats := false, serialNumber := false }

/-- The identity words of configuration space by offset: Device ID and Vendor ID, Class Code and Revision ID, Subsystem ID and
Subsystem Vendor ID. Nothing writes them (R286, R433) (PRESUMED: log entry 170). -/
def Dev.configWord (d : Dev) (o : Nat) : Option Word :=
  match o with
  | 0x00 => some 0x64122A1C#32
  | 0x08 => some (BitVec.ofNat 32 (0x118000 * 256 +
      ((d.fld R.GL_VERSION F.GL_VERSION_rev_letter - 0x41) * 16 + d.fld R.GL_VERSION F.GL_VERSION_rev_digit)))
  | 0x2C => some 0x00002A1C#32
  | _ => none

/-! Accesses. -/

/-- An access recorded in GL_ACCESS_ERR (R422, R424, R430, R436). -/
def Dev.accessErr (d : Dev) (o kind : Nat) : Dev :=
  (((d.addSat R.GL_ACCESS_ERR F.GL_ACCESS_ERR_count 1).setFld R.GL_ACCESS_ERR F.GL_ACCESS_ERR_kind kind).setFld
    R.GL_ACCESS_ERR F.GL_ACCESS_ERR_offset o).raise R.GL_ALARM F.GL_ALARM_access_err

/-- A register's value is latched for the next read of it (DESIGN CHOICE: log entry 14). -/
def Dev.latchReg (d : Dev) (o : Nat) (w : Word) : Dev := { d with latch := sPut (resetWord o) d.latch o w }

/-- The registers that a read of offset `o` latches take their values of this instant (R425). -/
def Dev.latchGroup (d : Dev) (o : Nat) : Dev :=
  if o = R.TC_NOW_LO then
    d.latchReg R.TC_NOW_HI (wordOf 0 [(F.TC_NOW_HI_te, d.te), (F.TC_NOW_HI_invalid, one (!d.timeValid)),
      (F.TC_NOW_HI_t48_hi, d.now / 2 ^ 32)])
  else if o = R.TC_PPS_STAMP_LO then d.latchReg R.TC_PPS_STAMP_HI (d.reg R.TC_PPS_STAMP_HI)
  else if (inst (R.GL_PORT_RANGE 0) 8 64 o).isSome then d.latchReg (o + 4) (d.reg (o + 4))
  else if R.LK_PORT_CTRL 0 ≤ o ∧ o < R.LK_PORT_CTRL 64 ∧ 0x100 ≤ o % 0x400 ∧ o % 0x400 < 0x200 ∧ o % 0x20 = 0 then
    ((d.latchReg (o + 4) (d.live (o + 4))).latchReg (o + 8) (d.live (o + 8))).latchReg (o + 0x10) (d.live (o + 0x10))
  else d

/-- A register after its RC fields are read (R8). -/
def RegSpec.cleared (r : RegSpec) (w : Word) : Word :=
  r.fields.foldl (fun x f => if f.acc = .rc then putField x f.fld 0 else x) w

/-- A read of a BAR0 offset: what is returned, and the effects of the read (R8, R422, R424, R425). -/
def Dev.readAccess (d : Dev) (o : Nat) : Dev :=
  match regSpec o with
  | none => (d.emit (.readData .bar0 o 0)).accessErr o 1
  | some r => ((d.emit (.readData .bar0 o (d.view o))).latchGroup o).setReg o (r.cleared (d.reg o))

end Sys2Proof.Machine
end

