-- ==== Sys2Proof/Machine/SetupOps.lean ====
section
/-! DEFINITION. Writes of setup registers: the rule of each register that does more than store its fields, and the access
itself (R421–R431). -/

namespace Sys2Proof.Machine

/-! Clock tree. -/

/-- CK_XO_CFG: with pd_auto the device takes the default pd_mode. A change of freq or of the f_pd in use starts a controlled
relock, or is used from the next lock attempt (R29, R64). -/
def Dev.xoWrite (d : Dev) (w : Word) : Dev :=
  let d1 := d.store R.CK_XO_CFG w
  let freq := d1.fld R.CK_XO_CFG F.CK_XO_CFG_freq
  let auto := d1.flag R.CK_XO_CFG F.CK_XO_CFG_pd_auto
  let d2 := if auto then d1.setFld R.CK_XO_CFG F.CK_XO_CFG_pd_mode (defaultPd freq) else d1
  let f0 := d.fld R.CK_XO_CFG F.CK_XO_CFG_freq
  if f0 = freq ∧ pdFreq4 f0 (d.fld R.CK_XO_CFG F.CK_XO_CFG_pd_mode) =
      pdFreq4 freq (d2.fld R.CK_XO_CFG F.CK_XO_CFG_pd_mode) then d2
  else if d2.rootLocked then d2.loseLock true
  else { d2 with ck := { d2.ck with restart := d2.ck.episode.isSome } }

/-- A REFIN whose frequency is set anew is measured anew (DEDUCED: log entry 16). -/
def Dev.refFresh (d : Dev) (n : Nat) : Dev :=
  let d1 := (d.setReg (R.CK_REF_FOFF n) 0x80000000#32).setFlag (R.CK_REF_STATUS n) F.CK_REF_STATUS_freq_ok false
  d1.setRefH n { d1.refH n with lastEdge := none }

/-- CK_REF_CFG[n]: frequency, rank, range, and wtr_clear (R33, R35, R37, R38, R71) (DEDUCED: log entry 16). -/
def Dev.refCfgWrite (d : Dev) (n : Nat) (w : Word) : Dev :=
  let o := R.CK_REF_CFG n
  let d1 := d.store o w
  let d2 := if d1.fld o F.CK_REF_CFG_freq = d.fld o F.CK_REF_CFG_freq then d1 else (d1.refFresh n).disqualify n
  let d3 := if d2.fld o F.CK_REF_CFG_rank = d.fld o F.CK_REF_CFG_rank then d2 else d2.dropPairs n
  let d4 := if getField w F.CK_REF_CFG_wtr_clear = 1 ∧ d3.qual n = 2 then d3.qualify n else d3
  d4.refsChanged

/-- A commit of CK_PPS_NEXT[m] (R60, R425). -/
def Dev.ppsCommit (d : Dev) (m : Nat) (w : Word) : Dev :=
  let x := d.ppsOut m
  let lo := (x.heldLo.getD (BitVec.ofNat 32 x.next)).toNat
  let v := getField w F.CK_PPS_NEXT_HI_next_hi * 2 ^ 32 + lo
  d.setPpsOut m { x with next := carryForward v (d.ppsPeriod m) d.now, heldLo := none }

/-- Writes of the CK block. -/
def Dev.writeCK (d : Dev) (o : Nat) (w : Word) : Dev :=
  if o = R.CK_XO_CFG then d.xoWrite w
  else if o = R.CK_CLN_CFG then (d.store o w).refsChanged
  else if o = R.CK_TIMER_CFG then (d.store o w).holdUpdate
  else if o = R.CK_STEER ∨ o = R.CK_AGE ∨ o = R.CK_FREERUN ∨ o = R.CK_FREERUN_MIN then (d.store o w).retarget
  else if o = R.CK_PHASE_SP then
    (if d.flag R.TC_CTRL F.TC_CTRL_servo_mode then d
    else
      let d1 := d.store o w
      { d1 with tc := { d1.tc with sp := d1.sfld o F.CK_PHASE_SP_value } })
  else match inst (R.CK_REF_CFG 0) 4 68 o with
  | some n => d.refCfgWrite n w
  | none => match inst (R.CK_OUT_CFG 0) 8 8 o with
  | some n => d.enableWrite (.clkout (Fin.ofNat 8 n)) w
  | none => match inst (R.CK_OUT_DIV 0) 8 8 o with
  | some n => if d.outState n = enOff then d.store o w else d
  | none => match inst (R.CK_PPS_CFG 0) 0x10 2 o with
  | some m => d.enableWrite (.pps (Fin.ofNat 2 m)) w
  | none => match inst (R.CK_PPS_NEXT_LO 0) 0x10 2 o with
  | some m => d.setPpsOut m { d.ppsOut m with heldLo := some w }
  | none => match inst (R.CK_PPS_NEXT_HI 0) 0x10 2 o with
  | some m => d.ppsCommit m w
  | none => d.store o w

/-! Time core. -/

/-- A commit of TC_INCR: one beyond 1,000 ppm of 1.6 ns is ignored whole (R138). -/
def Dev.incrCommit (d : Dev) (w : Word) : Dev :=
  let v := getField w F.TC_INCR_HI_value_hi * 2 ^ 32 + (d.reg R.TC_INCR_LO).toNat
  let n : Nat := 8 * 2 ^ 40
  if n < (((5 * v : Nat) : Int) - (n : Int)).natAbs * 1000 then d.raise R.TC_ALARM F.TC_ALARM_incr_reject
  else
    let d1 := d.store R.TC_INCR_HI w
    { d1 with tc := { d1.tc with incrNext := some v } }

/-- A commit of TC_STEP (R140, R141) (DESIGN CHOICE: log entry 54). -/
def Dev.stepCommit (d : Dev) (w : Word) : Dev :=
  let v : Nat := getField w F.TC_STEP_HI_value_hi * 2 ^ 32 + (d.reg R.TC_STEP_LO).toNat
  let abs := getField w F.TC_STEP_HI_absolute == 1
  let value : Int := if abs then (v : Int) else signed 48 v
  let (d1, taken) := d.stepRequest { value := value, absolute := abs, onPps := false,
                                     force := getField w F.TC_STEP_HI_force == 1 }
  if taken then d1.store R.TC_STEP_HI w else d1

/-- TC_SRC_CFG (R147): a first source begins ALIGNING, another one passes through it, and none is INVALID. In STANDBY the
register is kept for the takeover (R410) (DEDUCED: log entries 58, 59). -/
def Dev.sourceWrite (d : Dev) (w : Word) : Dev :=
  let get (d : Dev) (f : Field) : Nat := d.fld R.TC_SRC_CFG f
  let d1 := d.store R.TC_SRC_CFG w
  let same (f : Field) : Bool := get d f == get d1 f
  if same F.TC_SRC_CFG_source && same F.TC_SRC_CFG_refin && same F.TC_SRC_CFG_port then d1
  else
    let d2 : Dev := { d1 with tc := { d1.tc with firstEdge := true } }
    if d2.standby then d2
    else if get d2 F.TC_SRC_CFG_source = 0 then (if d2.validity = 0 then d2 else d2.setValidity 0)
    else if d2.inFault then d2
    else if d2.validity = 0 then (d2.setValidity 1).validCheck
    else
      let d3 : Dev := { d2 with tc := { d2.tc with integ := 0 } }
      (if d3.validity = 1 then d3.setValidity 1 else d3.validLost).validCheck

/-- A commit of TC_PPS_EXPECT (R145, R425). -/
def Dev.expectCommit (d : Dev) (w : Word) : Dev :=
  let lo := (d.tc.heldLo.getD (BitVec.ofNat 32 d.tc.expect)).toNat
  { d with tc := { d.tc with expect := getField w F.TC_PPS_EXPECT_HI_next_hi * 2 ^ 32 + lo, heldLo := none } }

/-- Writes of the TC block. -/
def Dev.writeTC (d : Dev) (o : Nat) (w : Word) : Dev :=
  if o = R.TC_CTRL then (d.store o w).validCheck
  else if o = R.TC_INCR_HI then d.incrCommit w
  else if o = R.TC_STEP_HI then d.stepCommit w
  else if o = R.TC_SRC_CFG then d.sourceWrite w
  else if o = R.TC_PPS_EXPECT_LO then { d with tc := { d.tc with heldLo := some w } }
  else if o = R.TC_PPS_EXPECT_HI then d.expectCommit w
  else d.store o w

/-! Lanes. -/

/-- Writes of the LN block, lane n, offset q in its window. Without automatic polarity the polarity is LN_CFG.rx_invert, and no
correction is in effect (R82, R89, R92, R94, R99). -/
def Dev.writeLN (d : Dev) (o : Nat) (w : Word) : Dev :=
  let n := (o - R.LN_CTRL 0) / 0x400
  match o % 0x400 with
  | 0x00 => d.enableWrite (.lane (Fin.ofNat 64 n)) w
  | 0x04 =>
    let d1 := d.store o w
    let d2 := if d.laneState n = enOff then d1 else d1.setFld o F.LN_CFG_mode (d.fld o F.LN_CFG_mode)
    if d2.flag o F.LN_CFG_pol_auto then d2 else d2.setFlag (R.LN_STATUS n) F.LN_STATUS_rx_inverted false
  | 0x18 => d.eqWrite n true w
  | 0x1C => d.eqWrite n false w
  | 0x20 =>
    let d1 := d.store o w
    if d1.fld o F.LN_TEST_chk_pat = d.fld o F.LN_TEST_chk_pat ∧ d1.fld o F.LN_TEST_chk_inv = d.fld o F.LN_TEST_chk_inv
    then d1 else d1.setFlag o F.LN_TEST_chk_sync false
  | _ => d.store o w

/-! Links. -/

/-- LK_ALARM[p].cfg_reject. -/
def Dev.portReject (d : Dev) (p : Nat) : Dev := d.raise (R.LK_ALARM p) F.LK_ALARM_cfg_reject

/-- Every lane of a span is OFF (DESIGN CHOICE: log entry 37). -/
def Dev.lanesOff (d : Dev) (p n : Nat) : Bool := (List.range n).all fun i => d.laneState (p + i) == enOff

/-- LK_PORT_CFG[p] (R104, R133). The reserved sum follows the port's protocol (R234) (DESIGN CHOICE: log entry 37). -/
def Dev.portCfg (d : Dev) (p : Nat) (w : Word) : Dev :=
  let d1 := d.store (R.LK_PORT_CFG p) w
  let n := d1.portLanes p
  let aligned := n == 0 || p % n == 0
  let claims := (List.range 64).any fun q =>
    q != p && decide (0 < n) && decide (0 < d.portLanes q) && decide (p < q + d.portLanes q) && decide (q < p + n)
  if !d.lanesOff p (d.portLanes p) || !d.lanesOff p n || !aligned || claims then d.portReject p else d1.poolUpdate

/-- LK_ETH_CFG[p] (R133). -/
def Dev.ethCfg (d : Dev) (p : Nat) (w : Word) : Dev :=
  if d.lanesOff p (d.portLanes p) then d.store (R.LK_ETH_CFG p) w else d.portReject p

/-- A commit of LK_MAC[p] (R136). -/
def Dev.macCommit (d : Dev) (p : Nat) (w : Word) : Dev :=
  let d1 := d.store (R.LK_MAC_HI p) w
  d1.setPort p { d1.port p with
    mac := getField w F.LK_MAC_HI_mac_hi * 2 ^ 32 + (d.reg (R.LK_MAC_LO p)).toNat }

/-- Lane index i of port p, if it is an Isazu lane, sends disturb for the rest of the window, which it does not
publish itself (R127) (DEDUCED: log entry 47). -/
def Dev.laneDisturb (d : Dev) (p i : Nat) : Dev :=
  if d.exchangeLane (p + i) && decide (i < d.portLanes p) then d.disturbLane (p + i) else d

/-- LK_TC_CFG[p]: an enable that names one lane twice, or a lane beyond the width, is rejected whole (R128)
(DEDUCED: log entry 47). -/
def Dev.tcCfg (d : Dev) (p : Nat) (w : Word) : Dev :=
  let a := getField w F.LK_TC_CFG_lane_a
  let b := getField w F.LK_TC_CFG_lane_b
  if getField w F.LK_TC_CFG_enable = 1 ∧ (a = b ∨ d.portLanes p ≤ a ∨ d.portLanes p ≤ b) then
    d.raise (R.LK_ALARM p) F.LK_ALARM_tc_reject
  else
    let d1 := d.store (R.LK_TC_CFG p) w
    if d1.reg (R.LK_TC_CFG p) = d.reg (R.LK_TC_CFG p) then d1
    else (List.range 8).foldl (fun d i => d.laneDisturb p i) d1

/-- Writes of the LK block. -/
def Dev.writeLK (d : Dev) (o : Nat) (w : Word) : Dev :=
  let p := (o - R.LK_PORT_CTRL 0) / 0x400
  match o % 0x400 with
  | 0x00 => d.enableWrite (.port (Fin.ofNat 64 p)) w
  | 0x04 => d.portCfg p w
  | 0x08 => d.ethCfg p w
  | 0x1C => d.macCommit p w
  | 0x200 => d.tcCfg p w
  | q =>
    let d1 := d.store o w
    if 0x100 ≤ q ∧ q < 0x200 ∧ q % 0x20 = 0x0C ∧ d1.reg o ≠ d.reg o then d1.laneDisturb p ((q - 0x100) / 0x20) else d1

/-! Switch core and classifier. -/

/-- A write that changes reservations: ignored whole where the port is not OFF, or where it would bring the reserved sum
above the usable cells less 16,384 (R234, R254) (DESIGN CHOICE: log entry 85). -/
def Dev.reserveWrite (d : Dev) (off : Bool) (o : Nat) (w : Word) : Dev :=
  let d1 := d.store o w
  if off && (decide (d1.reservedSum + 16384 ≤ d.cellsUsable) || decide (d1.reservedSum ≤ d.reservedSum)) then d1.poolUpdate
  else d.raise R.SW_ALARM F.SW_ALARM_cfg_reject

/-- Writes of the SW block. -/
def Dev.writeSW (d : Dev) (o : Nat) (w : Word) : Dev :=
  if o = R.SW_RECIRC_CFG then d.reserveWrite true o w
  else if o < R.SW_PORT_CFG 0 then d.store o w
  else
    let p := (o - R.SW_PORT_CFG 0) / 0x100
    if o = R.SW_PORT_HDRM p then d.reserveWrite (d.portOff p) o w
    else match inst (R.SW_TC_CFG p 0) 4 8 o with
    | some _ =>
      if getField w F.SW_TC_CFG_rsv = d.fld o F.SW_TC_CFG_rsv then d.store o w else d.reserveWrite (d.portOff p) o w
    | none => d.store o w

/-- A commit of CL_SHADOW[t] (R277). -/
def Dev.shadowCommit (d : Dev) (t : Nat) (w : Word) : Dev :=
  let d1 := d.store (R.CL_SHADOW_HI t) w
  { d1 with cl := { d1.cl with
      shadow := sPut none d1.cl.shadow t (some ((d.reg (R.CL_SHADOW_LO t)).toNat + 2 ^ 32 * w.toNat)) } }

/-- Writes of the CL block (R275, R277, R284). -/
def Dev.writeCL (d : Dev) (o : Nat) (w : Word) : Dev :=
  if o = R.CL_TBL_CFG then
    (if d.stage == .bisque || d.stage == .firing then d.store o w else d.raise R.CL_ALARM F.CL_ALARM_cfg_reject)
  else match inst (R.CL_WHEY_LIM 0) 4 16 o with
  | some r =>
    ({ d with cl := { d.cl with tokens := sPut none d.cl.tokens r (some (d.bucket r, d.ticks)) } } : Dev).store o w
  | none => match inst (R.CL_SHADOW_HI 0) 8 4 o with
  | some t => d.shadowCommit t w
  | none => d.store o w

/-! Edge channels. -/

/-- EC_ALARM[c].cfg_reject. -/
def Dev.chanReject (d : Dev) (c : Nat) : Dev := d.raise (R.EC_ALARM c) F.EC_ALARM_cfg_reject

/-- Some channel streams to template t. -/
def Dev.tplInUse (d : Dev) (t : Nat) : Bool :=
  (List.range 128).any fun c => d.chanState c != enOff && d.fld (R.EC_OUT_CFG c) F.EC_OUT_CFG_stream == 2 &&
    d.fld (R.EC_OUT_CFG c) F.EC_OUT_CFG_target == t

/-- EC_CTRL[c]: an enable in window mode 2 with a period of at most the length is ignored (R170)
(DESIGN CHOICE: log entry 63). -/
def Dev.chanCtrl (d : Dev) (c : Nat) (w : Word) : Dev :=
  let bad := getField w F.EC_CTRL_enable == 1 && !d.flag (R.EC_CTRL c) F.EC_CTRL_enable && d.winMode c == 2 &&
    decide ((d.reg (R.EC_WIN_PERIOD c)).toNat ≤ (d.reg (R.EC_WIN_LEN c)).toNat)
  if bad then (d.enableWrite (.chan (Fin.ofNat 128 c)) (putField w F.EC_CTRL_enable 0)).chanReject c
  else d.enableWrite (.chan (Fin.ofNat 128 c)) w

/-- A commit of EC_WIN_BASE[c] (R190, R425). -/
def Dev.winBase (d : Dev) (c : Nat) (w : Word) : Dev :=
  let d1 := d.store (R.EC_WIN_BASE_HI c) w
  d1.setChan c { d1.chan c with
    winBase := getField w F.EC_WIN_BASE_HI_base_hi * 2 ^ 32 + (d.reg (R.EC_WIN_BASE_LO c)).toNat }

/-- Writes of the EC block (R165, R189–R192). -/
def Dev.writeEC (d : Dev) (o : Nat) (w : Word) : Dev :=
  let c := (o - R.EC_CTRL 0) / 0x200
  let q := o % 0x200
  if o = R.EC_GL_CAL then d.store o w
  else if q = 0 then d.chanCtrl c w
  else if q = 4 ∨ (0x0C ≤ q ∧ q ≤ 0x20) then
    (if d.chanState c != enOff then d.chanReject c else if q = 0x20 then d.winBase c w else d.store o w)
  else if 0x100 ≤ q then (if d.tplInUse c then d.chanReject c else d.store o w)
  else d.store o w

/-! Trigger plane. -/

/-- Writes of the TG block (R210, R225). -/
def Dev.writeTG (d : Dev) (o : Nat) (w : Word) : Dev :=
  if o = R.TG_CTRL then d.enableWrite .engine w
  else if o = R.TG_BUDGET ∨ o = R.TG_UPLINK ∨ o = R.TG_DEC_CFG then
    (if d.fld R.TG_CTRL F.TG_CTRL_state != enOff then d.raise R.TG_ALARM F.TG_ALARM_cfg_reject
    else if o = R.TG_UPLINK then (d.store o w).relayAdmit else d.store o w)
  else if o = R.TG_RELAY_MASK_LO ∨ o = R.TG_RELAY_MASK_HI then (d.store o w).relayAdmit
  else match inst (R.TG_CU_CTRL 0) 4 4096 o with
  | some u => d.enableWrite (.unit (Fin.ofNat 4096 u)) w
  | none => d.store o w

/-! Host rings and pail port. -/

/-- HR_ALARM.cfg_reject. -/
def Dev.hrReject (d : Dev) : Dev := d.raise R.HR_ALARM F.HR_ALARM_cfg_reject

/-- A commit of a page base (R308). -/
def Dev.pageBase (d : Dev) (doorbell : Bool) (w : Word) : Dev :=
  if doorbell then
    let d1 := d.store R.HR_DB_BASE_HI w
    { d1 with hr := { d1.hr with dbBase := w.toNat * 2 ^ 32 + (d.reg R.HR_DB_BASE_LO).toNat } }
  else
    let d1 := d.store R.HR_ST_BASE_HI w
    { d1 with hr := { d1.hr with stBase := w.toNat * 2 ^ 32 + (d.reg R.HR_ST_BASE_LO).toNat } }

/-- Writes of the HR block (R294, R303, R306, R308). A ring of another type counts its lost entries from 0 (R292)
(DEDUCED: log entry 107). -/
def Dev.writeHR (d : Dev) (o : Nat) (w : Word) : Dev :=
  if o = R.HR_CTRL then
    let d1 := d.store o w
    if d1.v3 != d.v3 && !d.ringsActive.isEmpty then d.hrReject else d1
  else if o = R.HR_POLL_CFG then
    let d1 := d.store o w
    { d1 with hr := { d1.hr with pollNow := d1.fld o F.HR_POLL_CFG_interval, pollIdle := 0 } }
  else if o = R.HR_IRQ_MASK then d.store o (w &&& 0xFDFF#32)
  else if R.HR_DB_BASE_LO ≤ o ∧ o ≤ R.HR_ST_BASE_HI then
    (if !d.ringsActive.isEmpty then d.hrReject
    else if o = R.HR_DB_BASE_HI then d.pageBase true w
    else if o = R.HR_ST_BASE_HI then d.pageBase false w
    else d.store o w)
  else match inst (R.HR_RING_CTRL 0) 0x20 64 o with
  | some r => d.enableWrite (.ring (Fin.ofNat 64 r)) w
  | none =>
    let r := (o - R.HR_RING_CTRL 0) / 0x20
    if o = R.HR_RING_CFG r ∨ o = R.HR_RING_BASE_LO r ∨ o = R.HR_RING_BASE_HI r then
      (if d.ringState r ≠ enOff then d.hrReject
      else
        let d1 := d.store o w
        if d1.ringType r = d.ringType r then d1 else d1.setRing r { d1.ring r with lost := 0 })
    else d.store o w

/-- PL_ALARM.cfg_reject. -/
def Dev.plReject (d : Dev) : Dev := d.raise R.PL_ALARM F.PL_ALARM_cfg_reject

/-- Writes of the PL block. Decision mode discards what is queued to port 64, as for a lost link with grace 0 (R319–R321). -/
def Dev.writePL (d : Dev) (o : Nat) (w : Word) : Dev :=
  if o = R.PL_CTRL then d.enableWrite .pail w
  else if o = R.PL_CFG then
    (if d.pailState != enOff then d.plReject
    else
      let d1 := d.store o w
      if d1.flag o F.PL_CFG_po_mode && !d.flag o F.PL_CFG_po_mode then d1.dropQueued 64 else d1)
  else if o = R.PL_PI_WM ∨ o = R.PL_PO_WM then
    (if getField w F.PL_PI_WM_high ≤ getField w F.PL_PI_WM_low then d.plReject else (d.store o w).pailLevels)
  else d.store o w

/-! Calibration, kiln log, pairing, global block. -/

/-- Writes of the CA block (R382, R383, R386). -/
def Dev.writeCA (d : Dev) (o : Nat) (w : Word) : Dev :=
  if o = R.CA_CMD then d.calCommand w
  else if o = R.CA_STORE then d.caStore w
  else if o = R.CA_DELTA_VAL then d.deltaWrite w
  else d.store o w

/-- Writes of the ER block (R393). -/
def Dev.writeER (d : Dev) (o : Nat) (w : Word) : Dev :=
  if o = R.ER_CURSOR then (d.store o w).cursorStart
  else if o = R.ER_ADVANCE then (if getField w F.ER_ADVANCE_next = 1 then d.cursorNext else d)
  else d.store o w

/-- A write of PS_CMD. The outcome of a zeroization and the octets read from host memory are given by the command, or left
open (R414–R417) (DEDUCED: log entry 153). -/
def Dev.psWrite (d : Dev) (w : Word) (verified : Option Bool) (key image : Option (List Byte)) : Dev :=
  let (ok, d1) := d.freeBool
  let (k, d2) := d1.freeBytes 32
  let (i, d3) := d2.freeBytes (if getField w F.PS_CMD_img_store = 1 then d.fld R.PS_XFER_LEN F.PS_XFER_LEN_len else 0)
  d3.psCommand w (verified.getD ok) (key.getD k) (image.getD i)

/-- Writes of the PS block (R414–R420). -/
def Dev.writePS (d : Dev) (o : Nat) (w : Word) : Dev :=
  if o = R.PS_PAIR_CFG then (if d.pairState = 0 then d.store o w else d.psRefuse)
  else if o = R.PS_CMD then d.psWrite w none none none
  else if o = R.PS_OPEN then d.openWrite w
  else d.store o w

/-- GL_ALARM.stage_reject. -/
def Dev.stageReject (d : Dev) : Dev := d.raise R.GL_ALARM F.GL_ALARM_stage_reject

/-- GL_CTRL, field by field (R435). -/
def Dev.glCtrl (d : Dev) (w : Word) : Dev :=
  let f (x : Field) : Nat := getField w x
  let set := d.stage == .bisque || (d.stage == .firing && decide (d.fireStep < 3))
  let moved := f F.GL_CTRL_glaze_src != d.fld R.GL_CTRL F.GL_CTRL_glaze_src ||
    f F.GL_CTRL_enum_root != d.fld R.GL_CTRL F.GL_CTRL_enum_root
  let d1 := d.setFld R.GL_CTRL F.GL_CTRL_enum_auto (f F.GL_CTRL_enum_auto)
  let d2 := if !moved then d1
    else if set then
      (d1.setFld R.GL_CTRL F.GL_CTRL_glaze_src (f F.GL_CTRL_glaze_src)).setFld R.GL_CTRL F.GL_CTRL_enum_root
        (f F.GL_CTRL_enum_root)
    else d1.stageReject
  let d3 := if f F.GL_CTRL_glaze = 0 then d2 else if d2.glazeWait then d2.fireWalk else d2.stageReject
  if f F.GL_CTRL_enum_go = 0 then d3 else d3.enumGo

/-- A write of a named register in every stage but SAFE, by the rules of its block. -/
def Dev.writeReg (d : Dev) (o : Nat) (w : Word) : Dev :=
  match o / 0x10000 with
  | 0 => if o = R.GL_CTRL then d.glCtrl w else d.store o w
  | 1 => d.writeCK o w
  | 2 => d.writeTC o w
  | 3 => d.writeLN o w
  | 4 => d.writeLK o w
  | 5 => d.writeSW o w
  | 6 => d.writeCL o w
  | 7 => d.writeEC o w
  | 8 => d.writeTG o w
  | 9 => d.writeHR o w
  | 10 => d.writePL o w
  | 11 => if o = R.MI_CE_CLEAR then (if getField w F.MI_CE_CLEAR_clear = 1 then d.ceClear else d) else d.store o w
  | 12 => d.writeCA o w
  | 13 => d.writeER o w
  | 15 => d.writePS o w
  | _ => d.store o w

/-! The access. -/

/-- A field in SAFE: only W1C acts (R430). -/
def FieldSpec.storeSafe (f : FieldSpec) (written held : Word) : Word := if f.acc = .w1c then f.store written held else held

/-- What a write in SAFE is recorded for: it would change an RW field, or carries a 1 in a WO field (R430). -/
def FieldSpec.refusedSafe (f : FieldSpec) (written held : Word) : Bool :=
  (f.acc == .rw && f.store written held != held) || (f.acc == .wo && getField written f.fld != 0)

/-- A write in SAFE of any other register than GL_SCRATCH, ER_CURSOR and ER_ADVANCE (R430). -/
def Dev.writeSafe (d : Dev) (r : RegSpec) (o : Nat) (w : Word) : Dev :=
  let d1 := d.setReg o (r.fields.foldl (fun x f => f.storeSafe w x) (d.reg o))
  if r.fields.any (fun f => f.refusedSafe w (d.reg o)) then (d1.accessErr o 4).stageReject else d1

/-- A write of a BAR0 offset; `full` tells that its byte enables cover all four bytes (R422–R424, R430)
(DEDUCED: log entry 162). -/
def Dev.writeAccess (d : Dev) (o : Nat) (full : Bool) (w : Word) : Dev :=
  match regSpec o with
  | none => d.accessErr o 2
  | some r =>
    if !full then d.accessErr o 3
    else if d.stage == .safe && o != R.GL_SCRATCH && o != R.ER_CURSOR && o != R.ER_ADVANCE then d.writeSafe r o w
    else d.writeReg o w

/-- A write of a BAR2 offset: the MSI-X table, 66 entries of four words; the byte lanes enabled change. An unmasked vector
sends the message it held (R287, R306). -/
def Dev.msixWrite (d : Dev) (o : Nat) (be : BitVec 4) (w : Word) : Dev :=
  let a := o / 4 * 4
  if 66 * 16 ≤ a then d
  else
    let old := d.msixWord a
    let mask : Word := (List.range 4).foldl (fun m i => if be.getLsbD i then m ||| (0xFF#32 <<< (8 * i)) else m) 0
    let all := (w &&& mask) ||| (old &&& ~~~mask)
    let new := if a % 16 = 12 then all &&& 1 else if a % 16 = 0 then all &&& ~~~3#32 else all
    let d1 : Dev := { d with hr := { d.hr with msix := sPut (msixReset a) d.hr.msix a new } }
    let v := a / 16
    if (d1.msixWord (16 * v + 12)).toNat % 2 = 0 ∧ d1.hr.pba.contains v ∧ d1.hr.linkUp then
      ({ d1 with hr := { d1.hr with pba := d1.hr.pba.filter (· != v) } } : Dev).message v
    else d1

end Sys2Proof.Machine
end

