-- ==== Sys2Proof/Machine/Enum.lean ====
section
/-! DEFINITION. The commands of enumeration (R341–R345). -/

namespace Sys2Proof.Machine

/-- ENUM_GO (R342, R435). -/
def execEnumGo (w : Word) (s : State) : Result := awake s fun d => d.writeAccess R.GL_CTRL true w

/-- A message with a given effect arrives on port p while its link is up; a walk that ends with it ends firing step 4 (R335,
R341). -/
def Dev.enumArrive (d : Dev) (p : Nat) (b : BitVec 108) (f : Dev → Dev) : Dev :=
  if d.linkUp p then (d.actOnce p b f).fireCheck else d

/-- ENUM_ASSIGN (R342). -/
def execEnumAssign (p : Fin 64) (body : BitVec 108) (s : State) : Result :=
  running s fun d => d.enumArrive p body fun d => d.onAssign p body

/-- ENUM_DONE (R342). -/
def execEnumDone (p : Fin 64) (body : BitVec 108) (s : State) : Result :=
  running s fun d => d.enumArrive p body fun d => d.onDone p body

/-- ENUM_REFUSE (R343). -/
def execEnumRefuse (p : Fin 64) (body : BitVec 108) (s : State) : Result :=
  running s fun d => d.enumArrive p body fun d => d.onRefuse p body

/-- ENUM_RELEASE (R342). -/
def execEnumRelease (p : Fin 64) (body : BitVec 108) (s : State) : Result :=
  running s fun d => d.enumArrive p body fun d => d.onRelease p body

/-- ENUM_WORKING: the sender's port stays alive in the walk; ENUM_PORT_TIMEOUT, which it puts off, is a command of its own
(R341, R342). -/
def execEnumWorking (p : Fin 64) (body : BitVec 108) (s : State) : Result :=
  running s fun d => d.enumArrive p body id

/-- ENUM_CHANGE (R345). -/
def execEnumChange (p : Fin 64) (body : BitVec 108) (s : State) : Result :=
  running s fun d => d.enumArrive p body fun d => d.noteChange

/-- ENUM_PORT_TIMEOUT (R342). -/
def execEnumPortTimeout (p : Fin 64) (s : State) : Result := running s fun d => (d.portSilent p).fireCheck

/-- ENUM_AUTO_WALK (R345). -/
def execEnumAutoWalk (s : State) : Result :=
  running s fun d =>
    if d.en.armed && d.enumRoot && d.mayWalk && d.flag R.GL_CTRL F.GL_CTRL_enum_auto then
      (({ d with en := { d.en with armed := false } } : Dev).askWalk).fireCheck
    else d

/-- ENUM_FIRING_TIMEOUT: firing ends while the walk goes on (R342). -/
def execEnumFiringTimeout (s : State) : Result :=
  running s fun d => if d.stage = .firing ∧ d.fireStep = 4 then d.enterGlaze else d

end Sys2Proof.Machine
end

