-- ==== Sys2Proof/Machine/Host.lean ====
section
/-! DEFINITION. The commands of the host rings (R286–R306). -/

namespace Sys2Proof.Machine

/-! Tables (R263, R276–R281, R298). -/

/-- A command that may be held starts. -/
def Dev.startHeld (d : Dev) (c : CmdDesc) (op : Nat) : Dev :=
  d.command c op fun d o => d.runHeld { op := op, desc := c, origin := o, done := 0 }

/-- TBL_WRITE (R276, R280, R298). -/
def execTblWrite (c : CmdDesc) (s : State) : Result := running s fun d => d.startHeld c 1

/-- EM_ADD (R263, R280, R298). -/
def execEmAdd (c : CmdDesc) (s : State) : Result := running s fun d => d.startHeld c 2

/-- EM_REMOVE (R263, R280, R298). -/
def execEmRemove (c : CmdDesc) (s : State) : Result := running s fun d => d.startHeld c 3

/-- BANK_SWAP (R279). -/
def execBankSwap (c : CmdDesc) (s : State) : Result := running s fun d => d.startHeld c 4

/-- BANK_DRAIN_END: the last lookup under the old stamp is complete; the swap completes with its drain time, and held
commands go on (R279, R280) (DEDUCED: log entry 94). -/
def execBankDrainEnd (s : State) : Result :=
  running s fun d =>
    match d.drainBank, d.cl.swap with
    | some b, some o =>
      if d.inflight b ≠ 0 then d
      else
        let n := ((d.ticks - d.cl.drainAt) * 8 + 4) / 5
        let d1 := d.setFlag R.CL_BANK_STAT F.CL_BANK_STAT_draining false
        let d2 := if d1.fld R.CL_DRAIN_MAX F.CL_DRAIN_MAX_ns < n then
            d1.setFld R.CL_DRAIN_MAX F.CL_DRAIN_MAX_ns (min n 0xFFFF) else d1
        (({ d2 with cl := { d2.cl with swap := none } } : Dev).finish o 0 n).retryHeld
    | _, _ => d

/-! Commands that complete at once. -/

/-- The octets of a transmit-timestamp entry (R152). -/
def TsqEntry.bytes (e : TsqEntry) : List Byte :=
  leBytes 2 e.id.toNat ++ leBytes 1 (e.port % 128 + (if e.invalid then 128 else 0)) ++ leBytes 1 e.te ++
    leBytes 6 e.t48 ++ leBytes 2 e.seq ++ leBytes 4 0

/-- One entry leaves the transmit-timestamp queue: it joins the octets read, unless both its copies are lost (R152,
R361). -/
def Dev.tsqTake (d : Dev) (dup : DupRead) (got : List Byte) (e : TsqEntry) : Dev × List Byte :=
  let (d1, lost) := d.readDup 14 dup
  if lost then
    (((d1.addSat R.TC_TSQ_STAT F.TC_TSQ_STAT_lost 1).raise R.TC_ALARM F.TC_ALARM_tsq_overflow).count (devCtr 7), got)
  else (d1, got ++ e.bytes)

/-- TSQ_READ: up to count entries leave the queue for host memory, in the order of their stamps (R152, R298). -/
def execTsqRead (c : CmdDesc) (dups : List (Nat × DupRead)) (s : State) : Result :=
  running s fun d => d.command c 5 fun d o =>
    let es := d.tc.tsq.take (entriesOf c)
    let d0 : Dev := { d with tc := { d.tc with tsq := d.tc.tsq.drop (entriesOf c) } }
    let dupAt (i : Nat) : DupRead := ((dups.find? fun x => x.1 == i).map (·.2)).getD .good
    let (d1, bs) := ((List.range es.length).zip es).foldl (fun acc x => acc.1.tsqTake (dupAt x.1) acc.2 x.2) (d0, [])
    let d2 := if bs.isEmpty then d1 else d1.toHost c.addr.toNat bs
    d2.finish o 0 (bs.length / 16) (d2.fld R.TC_TSQ_STAT F.TC_TSQ_STAT_lost)

/-- A number names a counter (R397, R398). -/
def ctrExists (n : Nat) : Bool :=
  if n < 67 * 0x40 then decide (n % 0x40 < 48)
  else if n < 0x2000 then false
  else if n < 0x2400 then decide (n % 16 < 9)
  else if n < 0x3000 then false
  else if n < 0x3800 then decide (n % 16 < 13)
  else if n < 0x4000 then false
  else if n < 0x4000 + 194 then true
  else if n < 0x4100 then false
  else if n < 0x4100 + 30 then true
  else if n < 0x4200 then false
  else if n < 0x4220 then true
  else if n < 0x4300 then false
  else if n < 0x4300 + 17 then true
  else decide (0x10000 ≤ n) && decide (n < 0x18000)

/-- A snapshot entry of a counter (R398). -/
def Dev.ctrEntry (d : Dev) (n : Nat) : List Byte :=
  if ctrExists n then
    let c := sGet Ctr.zero d.pc.ctrs n
    leBytes 8 (c.value.toNat + (if c.wrap then 2 ^ 48 else 0))
  else leBytes 8 (2 ^ 63)

/-- The wrap sticky of a counter clears. -/
def Dev.clearWrap (d : Dev) (n : Nat) : Dev :=
  { d with pc := { d.pc with ctrs := sPut Ctr.zero d.pc.ctrs n { sGet Ctr.zero d.pc.ctrs n with wrap := false } } }

/-- CTR_SNAPSHOT: counters are latched together and written after a header; arg1 bit 0 clears their wrap stickies (R398). -/
def execCtrSnapshot (c : CmdDesc) (s : State) : Result :=
  running s fun d => d.command c 6 fun d o =>
    let n := entriesOf c
    if 4096 < n then d.finish o 4
    else
      let first := c.arg0.toNat
      let nums := (List.range n).map (· + first)
      let head := leBytes 6 d.now ++ leBytes 1 d.te ++ leBytes 1 (if d.timeValid then 0 else 1) ++ leBytes 4 first ++
        leBytes 4 n
      let d1 := d.toHost c.addr.toNat (head ++ nums.flatMap d.ctrEntry)
      let d2 := if bit (d1.arg1 c) 0 then nums.foldl Dev.clearWrap d1 else d1
      d2.finish o 0 n d.te

/-- Records from an index on that fit in a number of bytes. -/
def packRecords (room : Nat) : List (List Byte) → List (List Byte)
  | [] => []
  | r :: rs => if r.length ≤ room then r :: packRecords (room - r.length) rs else []

/-- KLOG_READ: records from index arg0, packed end to end, up to count × 256 bytes; none during a clear (R394). -/
def execKlogRead (c : CmdDesc) (s : State) : Result :=
  running s fun d => d.command c 7 fun d o =>
    let i := c.arg0.toNat
    let rs := if d.nv.clearing.isSome then [] else packRecords (256 * entriesOf c) (d.nv.klog.drop i)
    let d1 := if rs.isEmpty then d else d.toHost c.addr.toNat rs.flatten
    d1.finish o 0 rs.length (i + rs.length)

/-- KLOG_CLEAR_BEGIN: a challenge for a key slot is written; it takes the place of every earlier one (R416)
(DEDUCED: log entry 103) (DESIGN CHOICE: log entry 104). -/
def execKlogClearBegin (c : CmdDesc) (s : State) : Result :=
  running s fun d => d.command c 8 fun d o =>
    let slot := c.arg0.toNat
    if 7 < slot then d.finish o 4
    else
      let (nonce, d1) := d.freeBytes 32
      let ch := nonce ++ leBytes 4 d1.nv.clears ++ leBytes 4 d1.nv.pwr ++ leBytes 1 slot ++ leBytes 7 0
      let d2 := (List.range 64).foldl (fun d r =>
        if (d.ring r).challenge.isSome then d.setRing r { d.ring r with challenge := none } else d) d1
      let d3 := d2.setRing c.ring { d2.ring c.ring with challenge := some { slot := slot, bytes := ch, at_ := d2.ticks } }
      (d3.toHost c.addr.toNat ch).finish o 0 48

/-- The response of a clear is the right one (R298, R416). -/
def Dev.clearAllowed (d : Dev) (c : CmdDesc) : Bool :=
  match (d.ring c.ring).challenge with
  | none => false
  | some ch =>
    ch.slot == c.arg0.toNat && entriesOf c == 48 && decide (d.ticks ≤ ch.at_ + tickSeconds 60) &&
      (match d.nv.keys.getD ch.slot none with
       | some key => Crypto.hmac384 key ch.bytes == c.data.take 48
       | none => false)

/-- KLOG_CLEAR_FINISH: the response is checked; the clear starts and the command stays in execution until its end, or it
completes with status 7. It waits in its ring while another clear runs (R395, R416) (DEDUCED: log entry 103). -/
def execKlogClearFinish (c : CmdDesc) (s : State) : Result :=
  running s fun d =>
    if d.nv.clearing.isSome then d
    else d.command c 9 fun d o =>
      let d1 := d.setRing c.ring { d.ring c.ring with challenge := none }
      if d.clearAllowed c then
        ({ d1 with hr := { d1.hr with clearFor := some o } } : Dev).beginClear (c.arg0.toNat % 8)
      else
        (((d1.record 0x02 (leBytes 1 c.arg0.toNat ++ leBytes 1 c.ring.val ++ leBytes 2 0)).raise R.ER_ALARM
          F.ER_ALARM_auth_fail)).finish o 7

/-- Schedule entries from number k on, until one is refused (R184, R298) (DEDUCED: log entry 101). -/
def Dev.submitEntries (d : Dev) (ch : Nat) (bs : List Byte) (k : Nat) : Nat → Dev × Nat × Bool
  | 0 => (d, k, true)
  | n + 1 =>
    match d.dtcSubmit ch (dtcEntryOf (octets bs (16 * k) 16)) with
    | (d1, true) => d1.submitEntries ch bs (k + 1) n
    | (d1, false) => (d1, k, false)

/-- DTC_SUBMIT: entries for a channel, stopping at the first refused (R184, R185, R298) (DEDUCED: log entry 101). -/
def execDtcSubmit (c : CmdDesc) (s : State) : Result :=
  running s fun d => d.command c 10 fun d o =>
    if 127 < c.arg0.toNat then d.finish o 4
    else
      let (d1, k, ok) := d.submitEntries c.arg0.toNat c.data 0 (entriesOf c)
      d1.finish o (if ok then 0 else 1) k k

/-- Host primitives from number k on, until one fails its check: 6 for the CRC, 4 for another word type (R193, R196). -/
def Dev.submitPrims (d : Dev) (bs : List Byte) (k : Nat) : Nat → Dev × Nat × Nat
  | 0 => (d, k, 0)
  | n + 1 =>
    let w := leNat (octets bs (8 * k) 8)
    if !primCrcOk w then (d.hostCrcError 1, k, 6)
    else if bits w 63 60 ≠ 1 then (d, k, 4)
    else (d.engineArrive 193 (primOf w)).submitPrims bs (k + 1) n

/-- PRIM_SUBMIT: CRC-checked primitives reach the engine input as source 193 (R196, R198, R298)
(DEDUCED: log entry 102). -/
def execPrimSubmit (c : CmdDesc) (s : State) : Result :=
  running s fun d => d.command c 11 fun d o =>
    let (d1, k, st) := d.submitPrims c.data 0 (entriesOf c)
    d1.finish o st k

/-- DEC_SUBMIT: a host decision joins the node's own decisions and completes when it is released; a t_exec of 0 stands for
the counter now plus the budget (R195, R196, R211, R298) (DEDUCED: log entry 102). -/
def execDecSubmit (c : CmdDesc) (s : State) : Result :=
  running s fun d => d.command c 12 fun d o =>
    let v := leNat (c.data.take 16)
    let x := decOf v
    if !decCrcOk v then
      (((d.hostCrcError 2).count (devCtr 4) 2).recDecision 2 (bits v 87 80) x.action x.tExec x.origin).finish o 6
    else if bits v 127 124 ≠ 2 ∨ bits v 63 60 ≠ 3 then d.finish o 4
    else if !d.engineOn then d.finish o 1
    else
      let t := if x.tExec = 0 then t48Add d.now (ns (d.fld R.TG_BUDGET F.TG_BUDGET_budget) : Nat) else x.tExec
      d.schedule { x with tExec := t, tDec := d.now, loc := bit c.arg0.toNat 0, down := bit c.arg0.toNat 1,
                          host := some o }

/-- NOP (R298). -/
def execNop (c : CmdDesc) (s : State) : Result := running s fun d => d.command c 13 fun d o => d.finish o 0

/-- BAD_OPCODE: an opcode that the table does not name completes with status 3 (R298). -/
def execBadOpcode (opcode : Byte) (c : CmdDesc) (s : State) : Result :=
  running s fun d =>
    if 1 ≤ opcode.toNat ∧ opcode.toNat ≤ 13 then d else d.command c opcode.toNat fun d o => d.finish o 3

/-! Polling (R289–R293, R304). -/

/-- Ring r waits, so that a poll reads its doorbell entry (R293). -/
def Dev.ringWaits (d : Dev) (r : Nat) : Bool :=
  let t := d.ringType r
  let on := d.ringState r != enOff
  if t = 1 ∨ t = 3 then on
  else if t = 4 then
    on && (d.ring r).posted.isEmpty && ((d.rxpPart r).isSome ||
      (List.range 8).any fun c => d.rxpRing c == some r && !(d.queue 65 c).isEmpty)
  else t != 0 && on && d.ringFull r

/-- The entry of one waiting ring is read. The answer says whether it brought new work. -/
def Dev.readDoorbell (d : Dev) (r : Nat) (w : Word) : Dev × Bool :=
  let found := d.reg (R.HR_RING_HIDX r) != w
  let d1 := d.setReg (R.HR_RING_HIDX r) w
  let t := d.ringType r
  if (t = 1 ∨ t = 3 ∨ t = 4) ∧ d.ringSize r < (w.toNat + 2 ^ 32 - d.didx r) % 2 ^ 32 then (d1.ringError r 2, found)
  else (d1, found)

/-- The poll interval after a poll: the programmed one on new work and while a ring waits for space, doubled once idle_time has
passed without either (R293) (DEDUCED: log entry 108). -/
def Dev.backOff (d : Dev) (found waits : Bool) : Dev :=
  let base := d.fld R.HR_POLL_CFG F.HR_POLL_CFG_interval
  let idle := max 1 (d.fld R.HR_POLL_CFG F.HR_POLL_CFG_idle_time) * 1000
  if found || waits then { d with hr := { d.hr with pollNow := base, pollIdle := 0 } }
  else
    let n := d.hr.pollIdle + d.hr.pollNow
    { d with hr := { d.hr with pollIdle := n, pollNow := if idle ≤ n then min 20000 (2 * d.hr.pollNow) else d.hr.pollNow } }

/-- DOORBELL_POLL: one poll of the waiting rings' entries (R293); nothing is read while the link is down (R333)
(DEDUCED: log entry 108). -/
def execDoorbellPoll (hidx : List (Fin 64 × Word)) (s : State) : Result :=
  running s fun d =>
    if !d.hr.linkUp then d
    else
      let waits := (List.range 64).any fun r => 4 ≤ d.ringType r && d.ringWaits r
      let (d1, found) := hidx.foldl (fun acc x =>
        if acc.1.ringWaits x.1 then
          let (e, f) := acc.1.readDoorbell x.1 x.2
          (e, acc.2 || f)
        else acc) (({ d with hr := { d.hr with dbFails := 0 } } : Dev), false)
      d1.backOff found waits

/-- A host-memory read error is counted (R304, R397) (DEDUCED: log entry 100). -/
def Dev.countMemErr (d : Dev) : Dev := (d.addSat R.HR_MEM_ERR F.HR_MEM_ERR_count 1).count (devCtr 9)

/-- HOST_MEMORY_ERROR: a ring whose read fails stops; a command whose data cannot be read completes with status 5, and a frame whose
octets cannot be read is not taken, its ring's didx staying before it (R290); the
doorbell page is read again at the next poll, and after 8 failures every ring stops (R297, R304)
(DEDUCED: log entry 100). -/
def execHostMemoryError (e : HostReadErr) (s : State) : Result :=
  running s fun d =>
    match e with
    | .ring r => d.countMemErr.ringError r 3
    | .data op c => (d.command c op.toNat fun d o => d.countMemErr.finish o 5).ringError c.ring 3
    | .frame r x =>
      if d.ringType r != 3 || d.ringState r != enOn || d.hidx r == d.didx r || (x.cpl && !d.cplRoom r) then d
      else
        let o : Origin := { ring := r, index := d.didx r, opcode := 0, cookie := x.cookie.toNat, kind := 3 }
        let d1 := d.countMemErr
        (if x.cpl then d1.complete o 5 else d1).ringError r 3
    | .doorbell =>
      let n := d.hr.dbFails + 1
      let d0 := d.countMemErr
      let d1 : Dev := { d0 with hr := { d0.hr with dbFails := if 8 ≤ n then 0 else n } }
      if 8 ≤ n then (List.range 64).foldl (fun d r => d.ringError r 4) d1 else d1

/-! Frames (R295, R296). -/

/-- A TXP descriptor's fields are in range for the format (R295). -/
def Dev.txpOk (d : Dev) (x : TxpDesc) : Bool :=
  decide (14 ≤ x.len.toNat) && decide (x.len.toNat ≤ 16380) && (!x.direct || decide (x.port.toNat ≤ 64)) &&
    (d.v3 || !x.oneStep)

/-- The frame of a TXP descriptor, padded and with its FCS, in its ring's class (R295). -/
def Dev.txpFrame (d : Dev) (r : Nat) (x : TxpDesc) : Frame :=
  let body := x.octets.take x.len.toNat
  let f := d.ownFrame 65 (some (d.fld (R.HR_RING_CFG r) F.HR_RING_CFG_cls % 8))
    (body ++ List.replicate (60 - body.length) 0)
  { f with
    direct := if x.direct then some x.port.toNat else none
    tx := if x.tsReq || x.oneStep then
        some { stamp := x.tsReq, id := x.tsId, oneStep := if x.oneStep then some x.tsRef.toNat else none }
      else none }

/-- TXP_DESCRIPTOR: the next descriptor of a TXP ring is taken and its frame enters port 65, unless its class is held off
there; a descriptor out of range sends nothing (R290, R295, R302) (DEDUCED: log entry 99). -/
def execTxpDescriptor (r : Fin 64) (x : TxpDesc) (s : State) : Result :=
  running s fun d =>
    let cls := d.fld (R.HR_RING_CFG r) F.HR_RING_CFG_cls % 8
    let ok := d.txpOk x
    if d.ringType r != 3 || d.ringState r != enOn || d.hidx r == d.didx r || d.backPressured 65 cls || d.inFault ||
        ((x.cpl || !ok) && !d.cplRoom r) then d
    else
      let o : Origin := { ring := r, index := d.didx r, opcode := 0, cookie := x.cookie.toNat, kind := 3 }
      if !ok then (d.advance r 1).complete o 4
      else
        let d1 := (d.inject (d.txpFrame r x)).advance r 1
        if x.cpl then d1.complete o 0 else d1

/-- RXP_FILL: the device reads further posted buffers of a ring, below the hidx it has read, and writes into them what is left of a
frame, then the next frame of port 65 (R244, R290, R296); in YIELDED and in FAULT queues are held (R51, R339)
(DEDUCED: log entry 105). -/
def execRxpFill (r : Fin 64) (bufs : List RxpBuf) (s : State) : Result :=
  running s fun d =>
    if d.ringType r != 4 || d.ringState r != enOn then d
    else
      let q := d.ring r
      let room := (d.hidx r + 2 ^ 32 - d.didx r) % 2 ^ 32 - q.posted.length
      let d1 := (d.setRing r { q with posted := q.posted ++ bufs.take room }).rxpContinue r
      if d1.inGlaze && !d1.inFault then d1.schedulePort 65 false { lane := 0, at_ := 0 } else d1

/-! Interrupts, enables and resets (R303–R306). -/

/-- INTERRUPT_MODERATION: the moderation time of ring r has passed since the first entry that no message covers (R306). -/
def execInterruptModeration (r : Fin 64) (s : State) : Result :=
  running s fun d =>
    let q := d.ring r
    if q.fresh = 0 ∨ d.fld (R.HR_RING_MOD r) F.HR_RING_MOD_count = 0 ∨ d.fld (R.HR_RING_MOD r) F.HR_RING_MOD_time = 0
    then d
    else (d.setRing r { q with fresh := 0 }).message r

/-- RING_STARTING_END: the ring is ON, or goes on to STOPPING when its enable reads 0 (R303, R346). -/
def execRingStartingEnd (r : Fin 64) (s : State) : Result :=
  running s fun d =>
    if d.ringState r != enStarting || d.inFault then d
    else if !d.flag (R.HR_RING_CTRL r) F.HR_RING_CTRL_enable then d.ringStop r
    else d.setRingState r enOn

/-- RING_STOPPING_END: the work taken is complete and the ring is OFF; a frame that an RXP ring has no buffers left for goes back
to its queue; an enable of 1 starts the ring again (R303, R305, R346) (DESIGN CHOICE: log entries 119, 172). -/
def execRingStoppingEnd (r : Fin 64) (s : State) : Result :=
  running s fun d =>
    if d.ringState r != enStopping || d.inFault || (d.ring r).busy then d
    else
      let d1 := ((d.rxpAbandon r).setRing r { Ring.reset with lost := (d.ring r).lost }).setRingState r enOff
      if d1.flag (R.HR_RING_CTRL r) F.HR_RING_CTRL_enable && d1.ringsMayStart then d1.ringStart r else d1.flrEnd

/-- FUNCTION_LEVEL_RESET, in SAFE too, where every ring is OFF (R305, R326). -/
def execFunctionLevelReset (s : State) : Result := awake s fun d => d.flrBegin

end Sys2Proof.Machine
end

