-- ==== Sys2Proof/Machine/LoadOps.lean ====
section
/-! DEFINITION. Loading: the records of an image and their application, the calibration deltas, and the sensors at a start
(R331–R333, R373, R383). -/

namespace Sys2Proof.Machine

/-! Records (R332). -/

/-- The record at the front and the octets it takes, before padding; none for a kind that fails the load
(DEDUCED: log entry 117). -/
def firstRecord (bs : List Byte) : Option (ImgRec × Nat) :=
  let count := little bs 2 2
  let target := little bs 4 4
  let body := bs.drop 8
  match octet bs 0 with
  | 1 => some (.reg target (BitVec.ofNat 32 (little bs 8 4)), 12)
  | 2 =>
    match tableShape (target / 2 ^ 24) with
    | some (size, _) => some (.table (target / 2 ^ 24) (target % 2 ^ 24) (body.take (size * count)), 8 + size * count)
    | none => none
  | 3 => some (.em (body.take (32 * count)), 8 + 32 * count)
  | _ => none

/-- The records of an image, or the index of the first that fails the load; the length is fuel
(DEDUCED: log entry 117). -/
def parseRecords : Nat → Nat → List Byte → Except Nat (List ImgRec)
  | 0, k, bs => if bs.isEmpty then .ok [] else .error k
  | n + 1, k, bs =>
    if bs.isEmpty then .ok []
    else
      match firstRecord bs with
      | none => .error k
      | some (r, len) =>
        if bs.length < len then .error k
        else
          match parseRecords n (k + 1) (bs.drop ((len + 7) / 8 * 8)) with
          | .ok rs => .ok (r :: rs)
          | .error j => .error j

/-- A bisque image may hold only register writes to the GL, CK, TC, LN, LK and CA blocks. -/
def bisqueRecord : ImgRec → Bool
  | .reg o _ => [0, 1, 2, 3, 4, 12].contains (o / 0x10000)
  | _ => false

/-- The records of an image of a kind, or the index of the record that fails the load. -/
def loadRecords (kind : Nat) (bs : List Byte) : Except Nat (List ImgRec) :=
  let xs := imageRecords bs
  match parseRecords xs.length 0 xs with
  | .error k => .error k
  | .ok rs => if kind = 1 then
      (match rs.findIdx? (fun r => !bisqueRecord r) with
      | some k => .error k
      | none => .ok rs)
    else .ok rs

/-- A field takes a written value, its limits applied, or acts by being written (R332). -/
def FieldSpec.applied (f : FieldSpec) (written : Word) : Bool :=
  let n := getField written f.fld
  match f.acc with
  | .rw =>
    match f.rule with
    | .any | .within _ _ => true
    | .reserved codes => !codes.contains n
    | .ignoreAbove limit => decide (n ≤ limit)
  | .w1c | .wo | .rs => true
  | .ro | .rc => false

/-- The alarm that reports a write of register `o` refused whole (R91, R104, R128, R138, R141, R189, R225, R234, R284, R303, R319, R420). -/
def rejectFlag (o : Nat) : Option (Nat × Field) :=
  let p := (o - R.LK_PORT_CTRL 0) / 0x400
  match o / 0x10000 with
  | 2 => if o = R.TC_INCR_HI then some (R.TC_ALARM, F.TC_ALARM_incr_reject)
    else if o = R.TC_STEP_HI then some (R.TC_ALARM, F.TC_ALARM_step_refused) else none
  | 3 => (inst (R.LN_EQ_TX 0) 0x400 64 o).map fun n => (R.LN_ALARM n, F.LN_ALARM_eq_reject)
  | 4 => some (R.LK_ALARM p, if o % 0x400 = 0x200 then F.LK_ALARM_tc_reject else F.LK_ALARM_cfg_reject)
  | 5 => some (R.SW_ALARM, F.SW_ALARM_cfg_reject)
  | 6 => some (R.CL_ALARM, F.CL_ALARM_cfg_reject)
  | 7 => if (inst (R.EC_CTRL 0) 0x200 128 o).isSome then none
    else some (R.EC_ALARM ((o - R.EC_CTRL 0) / 0x200 % 128), F.EC_ALARM_cfg_reject)
  | 8 => some (R.TG_ALARM, F.TG_ALARM_cfg_reject)
  | 9 => some (R.HR_ALARM, F.HR_ALARM_cfg_reject)
  | 10 => some (R.PL_ALARM, F.PL_ALARM_cfg_reject)
  | 15 => some (R.PS_ALARM, F.PS_ALARM_refused)
  | _ => none

/-- The block ignores a write of register `o` whole and reports nothing: the setpoint while the servo holds it, a divider of an
output that is not OFF, the transmit taps of a lane that trains (R48, R58, R91). -/
def Dev.quietIgnore (d : Dev) (o : Nat) : Bool :=
  if o = R.CK_PHASE_SP then d.flag R.TC_CTRL F.TC_CTRL_servo_mode
  else match inst (R.CK_OUT_DIV 0) 8 8 o with
  | some n => d.outState n != enOff
  | none =>
    match inst (R.LN_EQ_TX 0) 0x400 64 o with
    | some n => d.bringup n == 2 && !d.etherLane n
    | none => false

/-- A register write that its block ignores whole (R332): the register has no field that the value acts on, the block says so by an
alarm, or ignores it quietly. GL_CTRL is judged field by field: enum_auto always applies (R435)
(DEDUCED: log entry 118). -/
def Dev.writeIgnored (d : Dev) (o : Nat) (w : Word) : Bool :=
  match regSpec o with
  | none => true
  | some r =>
    (!r.fields.any fun f => f.applied w) || d.quietIgnore o ||
      (match rejectFlag o with
       | some (a, f) => a != o && ((d.setFlag a f false).writeAccess o true w).flag a f
       | none => false)

/-- The device during a load and the ignored writes and refused entries so far. -/
abbrev Loading := Dev × Nat

/-- A record of a load was ignored, or one of its entries refused: the first 16 are logged. -/
def Loading.refuse (x : Loading) (kind k : Nat) : Loading :=
  (if x.2 < 16 then x.1.recImage kind 4 k else x.1, x.2 + 1)

/-- Record k of an image is applied: a register write as a host write, entries as by TBL_WRITE and EM_ADD, which stop at the first
that is refused (R298, R332). -/
def Loading.apply (x : Loading) (kind k : Nat) (r : ImgRec) : Loading :=
  let d := x.1
  let close (d : Dev) (e : Ended) : Loading := if e = .all then (d, x.2) else Loading.refuse (d, x.2) kind k
  match r with
  | .reg o w => if d.writeIgnored o w then Loading.refuse (d.writeAccess o true w, x.2) kind k else (d.writeAccess o true w, x.2)
  | .table t first bs =>
    (match tableShape t with
     | some (size, limit) =>
       let (d1, _, e) := d.writeTable t size limit first bs true 0 (bs.length / size)
       close d1 e
     | none => x)
  | .em bs =>
    let (d1, _, e) := d.runEm true bs true 0 (bs.length / 32)
    close d1 e

/-- A load of an image begins: its records wait to be applied, one by one (R332, R333, R336). -/
def Dev.beginLoad (d : Dev) (kind : Nat) (rs : List ImgRec) : Dev :=
  { d with load := some { kind := kind, recs := rs, next := 0, refused := 0 } }

/-- The next record of the load in progress is applied (DESIGN CHOICE: log entries 115, 116). -/
def Dev.loadNext (d : Dev) : Dev :=
  match d.load with
  | some l =>
    (match l.recs with
     | r :: rs =>
       let (d1, n) := Loading.apply (d, l.refused) l.kind l.next r
       { d1 with load := some { l with recs := rs, next := l.next + 1, refused := n } }
     | [] => d)
  | none => d

/-- The records that are left are applied, and the load is over. -/
def Dev.loadRest (d : Dev) : Dev :=
  match d.load with
  | some l => { (List.range l.recs.length).foldl (fun d _ => d.loadNext) d with load := none }
  | none => d

/-- The bisque image is applied whole: the first lock attempt begins, and the time source is looked at (R333, R50, R147). -/
def Dev.bisqueApplied (d : Dev) : Dev :=
  if d.stage = .bisque ∧ d.load.isSome then
    let d1 := d.loadRest
    (({ d1 with ck := { d1.ck with episode := some .first, restart := false } } : Dev).setAttempts 1).validBegin
  else d

/-! Calibration at a start (R373, R383). -/

/-- The readings of the 16 sensors, in 1/16 °C. -/
def Dev.setTemps (d : Dev) (temps : List Int) : Dev :=
  (List.range 16).foldl (fun d i =>
    (d.setSigned (R.CA_TEMP i) F.CA_TEMP_temp (temps.getD i 0)).setFlag (R.CA_TEMP i) F.CA_TEMP_valid true) d

/-- The sensor check: a reading more than 15 °C from the median of all 16 marks its sensor failed
(DEDUCED: log entry 140). -/
def Dev.sensorCheck (d : Dev) : Dev :=
  let m := median ((List.range 16).map d.temp)
  (List.range 16).foldl (fun d i =>
    if 240 < (d.temp i - m).natAbs then
      (d.setFlag (R.CA_TEMP i) F.CA_TEMP_failed true).raise R.CA_ALARM F.CA_ALARM_sensor_fail
    else d) d

/-- Bisque loads the newest copy of the deltas whose CRC holds. -/
def Dev.loadDeltas (d : Dev) : Dev :=
  let a := d.nv.copyA
  let b := d.nv.copyB
  if !a.good && !b.good then (d.raise R.CA_ALARM F.CA_ALARM_delta_crc).recCal 3 0 0 0xFF 0
  else
    let second := b.good && (!a.good || decide (a.seq < b.seq))
    let x := if second then b else a
    ((({ d with ca := { d.ca with stored := x.deltas } } : Dev).setFld R.CA_DELTA_STAT F.CA_DELTA_STAT_seq x.seq).setFlag
      R.CA_DELTA_STAT F.CA_DELTA_STAT_copy second).setFlag R.CA_DELTA_STAT F.CA_DELTA_STAT_loaded true

/-- One result of the firing calibrations: accepted when its measurements agree, otherwise refused and logged (R376, R378,
R379) (DEDUCED: log entry 142). -/
def Dev.firingResult (d : Dev) (m : CalMeas) : Dev :=
  let scale := m.kind == 12
  let ok := if scale then agreeScale m.a m.b else agreeDelay m.a m.b
  let mean := meanOf m.a m.b
  let set (kind : Nat) (v : Int) : Dev :=
    { d with ca := { d.ca with inForce := sPut 0 d.ca.inForce (itemKey kind m.index 0) v } }
  if !ok then (d.raise R.CA_ALARM F.CA_ALARM_disagree).recCal 1 (if scale then 6 else m.kind) m.index 0xFF 0
  else
    match m.kind with
    | 6 => set 6 (clampI (-31) 31 (divNear (mean * 100000) 131072))
    | 7 => d.moveTrim m.index mean
    | 8 => set 8 mean
    | 12 => (d.setChan m.index { d.chan m.index with table := m.table, scd := mean }).setFld (R.EC_CAL_STAT m.index)
        F.EC_CAL_STAT_scale mean.toNat
    | _ => d

end Sys2Proof.Machine
end

