-- ==== Sys2Proof/Machine/Clock.lean ====
section
/-! DEFINITION. The commands of the clock tree (R29–R61). A register write that has a row of its own is a write of that
register. -/

namespace Sys2Proof.Machine

/-- CK_XO_CFG_WRITE (R29). -/
def execCkXoCfgWrite (w : Word) (s : State) : Result := awake s fun d => d.writeAccess R.CK_XO_CFG true w

/-! References (R34–R39). -/

/-- The frequency measurement of reference n restarts (R36). -/
def Dev.measureAnew (d : Dev) (n : Nat) : Dev := d.refFresh n

/-- REF_ACTIVITY_LOSS (R34, R36). -/
def execRefActivityLoss (n : Fin 68) (s : State) : Result :=
  running s fun d => ((d.setFlag (R.CK_REF_STATUS n) F.CK_REF_STATUS_active false).measureAnew n).refEval n

/-- REF_ACTIVITY_RETURN: the windows start (R36) (DESIGN CHOICE: log entry 15). -/
def execRefActivityReturn (n : Fin 68) (s : State) : Result :=
  running s fun d =>
    if d.flag (R.CK_REF_STATUS n) F.CK_REF_STATUS_active then d
    else ((d.setFlag (R.CK_REF_STATUS n) F.CK_REF_STATUS_active true).measureAnew n).refEval n

/-- A frequency offset is published and the frequency criterion follows: within qual_range of 0.1 ppm, or for a 1PPS input
1 µs of 1 s (R34, R36). An offset beyond the signed 32 bits of CK_REF_FOFF, for which R36 and R69 give no value, reads as
the largest of its sign (DESIGN CHOICE: log entry 164). -/
def Dev.publishFoff (d : Dev) (n : Nat) (ppt : Int) : Dev :=
  let limit := if d.isPps n then 1000000 else d.fld (R.CK_REF_CFG n) F.CK_REF_CFG_qual_range * 100000
  (d.setSigned (R.CK_REF_FOFF n) F.CK_REF_FOFF_value (clampI (-0x7FFFFFFF) 0x7FFFFFFF ppt)).setFlag (R.CK_REF_STATUS n)
    F.CK_REF_STATUS_freq_ok (decide (ppt.natAbs ≤ limit))

/-- CK_REF_FOFF of reference n holds a measurement. -/
def Dev.foffKnown (d : Dev) (n : Nat) : Bool := (d.reg (R.CK_REF_FOFF n)).toNat != 0x80000000

/-- The window of one pair: three in a row beyond, or within, the tolerance change their agreement (R38)
(DEDUCED: log entry 17). -/
def Dev.pairWindow (d : Dev) (a b : Nat) : Dev :=
  let off (n : Nat) : Int := d.sfld (R.CK_REF_FOFF n) F.CK_REF_FOFF_value
  let tol := max 1 (d.fld R.CK_CLN_CFG F.CK_CLN_CFG_pair_tol) * 100
  let beyond := decide (tol < (off a - off b).natAbs)
  let x : PairRun := sGet { disagree := false, run := 0 } d.ck.pairs (pairKey a b)
  let y : PairRun := if beyond == x.disagree then { x with run := 0 }
    else if x.run = 2 then { disagree := beyond, run := 0 }
    else { x with run := x.run + 1 }
  { d with ck := { d.ck with pairs := sPut { disagree := false, run := 0 } d.ck.pairs (pairKey a b) y } }

/-- The pairs that reference n forms with higher-numbered references of its rank are compared at the end of its window
(DEDUCED: log entry 17). -/
def Dev.comparePairs (d : Dev) (n : Nat) : Dev :=
  (List.range 68).foldl (fun d m =>
    if n < m ∧ d.rank n ≠ 0 ∧ d.rank m = d.rank n ∧ d.foffKnown m ∧ d.qual n ≠ 0 ∧ d.qual m ≠ 0 then d.pairWindow n m else d) d

/-- REF_FREQUENCY_WINDOW_END (R36); a window that meets a ROOT loss of lock is not published. -/
def execRefFrequencyWindowEnd (n : Fin 68) (ppt : Int) (s : State) : Result :=
  running s fun d =>
    if d.isPps n || !d.rootLocked || !d.flag (R.CK_REF_STATUS n) F.CK_REF_STATUS_active then d
    else ((d.publishFoff n ppt).comparePairs n).refEval n

/-- QUAL_TIME_EXPIRY: a reference that has been disqualified enters WTR, during SWITCHING only at its end (R35, R44). -/
def execQualTimeExpiry (n : Fin 68) (s : State) : Result :=
  running s fun d =>
    if d.qual n != 1 || d.suspended n then d
    else if !(d.refH n).disqOnce then (d.qualify n).refsChanged
    else if d.cleaner = 5 then d.setRefH n { d.refH n with held := true }
    else (d.enterWtr n).refsChanged

/-- WTR_EXPIRY (R35, R44). -/
def execWtrExpiry (n : Fin 68) (s : State) : Result :=
  running s fun d =>
    if d.qual n != 2 || d.suspended n then d
    else if d.cleaner = 5 then d.setRefH n { d.refH n with held := true }
    else (d.qualify n).refsChanged

/-- WTR_CLEAR (R35). -/
def execWtrClear (n : Fin 68) (w : Word) (s : State) : Result := awake s fun d => d.writeAccess (R.CK_REF_CFG n) true w

/-- SEL_MODE_WRITE (R39). -/
def execSelModeWrite (w : Word) (s : State) : Result := awake s fun d => d.writeAccess R.CK_CLN_CFG true w

/-! Cleaner states (R41–R45). -/

/-- BUILD_OUT_END: the measured phase is the new zero, and the setpoint applied now its reference value; SWITCHING notes
whether the new reference lies within 100 ppb (R41, R44, R48). -/
def execBuildOutEnd (phase ppb : Int) (s : State) : Result :=
  running s fun d =>
    if !d.ck.buildOut then d
    else { d with ck := { d.ck with buildOut := false, zero := phase, zeroSp := d.ck.spNow
                                    swClose := d.cleaner == 5 && decide (ppb.natAbs < 100) } }

/-- ACQUIRE_END (R41). -/
def execAcquireEnd (s : State) : Result :=
  running s fun d => if d.cleaner = 2 ∧ !d.ck.buildOut then d.enterNarrow.validCheck else d

/-- ACQUISITION_FAILURE: the reference is disqualified at this instant, and qualifies anew; then selection (R34, R41). -/
def execAcquisitionFailure (s : State) : Result :=
  running s fun d =>
    if d.cleaner != 2 then d
    else
      let n := d.selRef
      ((d.raise R.CK_ALARM F.CK_ALARM_acq_fail).disqualify n).refEval n

/-- NARROW_STEP (R43). -/
def execNarrowStep (s : State) : Result :=
  running s fun d =>
    let k := d.fld R.CK_STATUS F.CK_STATUS_bw_now
    if d.cleaner = 3 ∧ k < d.ck.bwFinal then d.setBw (k + 1) else d

/-- NARROW_END (R41). -/
def execNarrowEnd (s : State) : Result :=
  running s fun d =>
    if d.cleaner = 3 ∧ d.fld R.CK_STATUS F.CK_STATUS_bw_now = d.ck.bwFinal then d.enterLocked.validCheck else d

/-- PHASE_ERROR_EXCEEDED (R41). -/
def execPhaseErrorExceeded (s : State) : Result :=
  running s fun d => if d.cleaner = 3 ∨ d.cleaner = 4 then (d.enterAcquire d.selRef).validCheck else d

/-- SWITCHING_END: by the new reference's offset or its loss, which the validity of the counter sees; then what SWITCHING
held back is done, and selection runs (R37, R44, R147). -/
def execSwitchingEnd (s : State) : Result :=
  running s fun d =>
    if d.cleaner != 5 then d
    else
      let d1 := if d.ck.swLost then d.enterHold else if d.ck.swClose then d.enterLocked else d.enterAcquire d.selRef
      d1.validCheck.switchRelease.refsChanged

/-- HOLDOVER_SAMPLE: the mean DCO steering of a whole second of LOCKED, ppt (R45). -/
def execHoldoverSample (mean : Int) (s : State) : Result :=
  running s fun d =>
    if d.cleaner != 4 then d
    else
      ({ d with ck := { d.ck with samples := mean :: d.ck.samples.take 256, taken := d.ck.taken + 1 } } : Dev).holdUpdate

/-- HOLDOVER_RECOMPUTE: each second the frequency of R45 or R46 is computed anew. -/
def execHoldoverRecompute (s : State) : Result :=
  running s fun d =>
    if d.steeredState then ({ d with ck := { d.ck with holdSecs := d.ck.holdSecs + 1 } } : Dev).retarget else d

/-! ROOT lock (R50–R56). -/

/-- LOCK_DECLARATION; in bisque the first attempt follows the image's records (R50, R56, R333). -/
def execLockDeclaration (s : State) : Result := running s fun d => d.bisqueApplied.lockDeclared

/-- LOSS_OF_LOCK (R50, R51). -/
def execLossOfLock (s : State) : Result := running s fun d => d.loseLock false

/-- FAULT_IDLE, once in an episode (R51). -/
def execFaultIdle (s : State) : Result :=
  running s fun d => if d.inFault && !d.ck.idled then d.faultIdle else d

/-- RELOCK_ATTEMPT_FAIL; in bisque the first attempt follows the image's records (R54, R333). -/
def execRelockAttemptFail (s : State) : Result := running s fun d => d.bisqueApplied.attemptFail

/-! Outputs (R57–R61). -/

/-- SYNC_IN edge: ignored with an alarm, or captured at the next TIME tick: the selected outputs align 25.6 ns after it, and
those in STOPPING are OFF. Whether an edge without its full high time is seen is not defined (R58, R59)
(DESIGN CHOICE: log entry 25). -/
def execSyncInEdge (fullHigh : Bool) (s : State) : Result :=
  awake s fun d =>
    let (luck, d0) := if fullHigh then (true, d) else d.freeBool
    if !luck then d0
    else
      let mode := d0.fld R.CK_SYNC_CFG F.CK_SYNC_CFG_mode
      let near := match d0.ck.syncLast with
        | some t => decide (d0.ticks < t + 625)
        | none => false
      if near || mode == 0 || !d0.rootLocked then d0.raise R.CK_ALARM F.CK_ALARM_sync_ignored
      else
        let mask := d0.fld R.CK_SYNC_CFG F.CK_SYNC_CFG_out_mask
        let d1 : Dev := { d0 with ck := { d0.ck with syncLast := some d0.ticks } }
        let d2 := if mode = 1 then d1.setFld R.CK_SYNC_CFG F.CK_SYNC_CFG_mode 0 else d1
        let stopped := (List.range 8).filter fun n => bit mask n && d2.outState n == enStopping
        stopped.foldl (fun d n => d.enApply (.clkout (Fin.ofNat 8 n))) (d2.captureOutputs mask ((d2.ticks + 1) * 20))

/-- The counter reaches CK_PPS_NEXT[m]: a pulse starts on an output in ON, and the series advances, in FAULT without a
pulse. The edge is placed on the 1.25 ps grid, ahead of the counter value by the output's delay constant (R60)
(DESIGN CHOICE: log entry 26). -/
def execPpsPulse (m : Fin 2) (s : State) : Result :=
  running s fun d =>
    if d.ppsState m = enOff then d
    else
      let x := d.ppsOut m
      let d1 := d.setPpsOut m { x with next := t48Add x.next (d.ppsPeriod m) }
      if d.ppsState m = enOn ∧ !d.inFault then
        let rise := d.ppsRise m
        (d1.setPpsOut m { d1.ppsOut m with pulsing := true, fall := t48Add rise (d.ppsWidth m) }).emit
          (.pps m true (toGrid rise))
      else d1

/-- PPS_PULSE_END: the output falls the width in use after it rose, and calibration values that waited for it apply (R60,
R375). -/
def execPpsPulseEnd (m : Fin 2) (s : State) : Result :=
  running s fun d =>
    if (d.ppsOut m).pulsing then
      ((d.setPpsOut m { d.ppsOut m with pulsing := false }).emit (.pps m false (toGrid (d.ppsOut m).fall))).ppsApply m
    else d

/-- PPS_NEXT_COMMIT (R60). -/
def execPpsNextCommit (m : Fin 2) (w : Word) (s : State) : Result :=
  awake s fun d => d.writeAccess (R.CK_PPS_NEXT_HI m) true w

/-- The end of a STARTING, except in FAULT, which stops no clock rule but the outputs (R51, R346). -/
def Dev.startingEnd (d : Dev) (t : EnTarget) : Dev :=
  if d.enState t = enStarting ∧ !d.inFault then d.enStarted t else d

/-- The end of a STOPPING: OFF, and STARTING again where the enable reads 1 (R346). -/
def Dev.stoppingEnd (d : Dev) (t : EnTarget) : Dev :=
  if d.enState t = enStopping ∧ !d.inFault then (d.setFld (enReg t) (stField t) enOff).enApply t else d

/-- CLKOUT_STARTING_END (R58). -/
def execClkoutStartingEnd (n : Fin 8) (s : State) : Result := running s fun d => d.startingEnd (.clkout n)
/-- CLKOUT_STOPPING_END (R58). -/
def execClkoutStoppingEnd (n : Fin 8) (s : State) : Result := running s fun d => d.stoppingEnd (.clkout n)
/-- PPS_OUT_STARTING_END (R60). -/
def execPpsOutStartingEnd (m : Fin 2) (s : State) : Result := running s fun d => d.startingEnd (.pps m)
/-- PPS_OUT_STOPPING_END: not before a pulse in progress has ended (R60). -/
def execPpsOutStoppingEnd (m : Fin 2) (s : State) : Result :=
  running s fun d => if (d.ppsOut m).pulsing then d else d.stoppingEnd (.pps m)

/-- ENABLE_WRITE (R346, R347) (DEDUCED: log entry 159). -/
def execEnableWrite (t : EnTarget) (w : Word) (s : State) : Result := awake s fun d => d.writeAccess (enReg t) true w

end Sys2Proof.Machine
end

