-- ==== Sys2Proof/Machine/LineOps.lean ====
section
/-! DEFINITION. What a lane puts on the line and takes from it: symbols and levels, precoding, polarity, test patterns, the
training frame, and the loops' buffer (R74, R75, R80, R82, R92–R94). A stream is the list of its bits or symbols, first sent
first. -/

namespace Sys2Proof.Machine

/-! Symbols (R74). -/

/-- A rate code with PAM4 coding (R73). -/
def isPam4 (rate : Nat) : Bool := decide (rate ≤ 2)

/-- The symbol of a pair of bits, the earlier one first. -/
def graySymbol : Bool → Bool → Nat
  | false, false => 0
  | false, true => 1
  | true, true => 2
  | true, false => 3

/-- The pair of bits of a symbol. -/
def grayBits (g : Nat) : List Bool :=
  match g % 4 with
  | 0 => [false, false]
  | 1 => [false, true]
  | 2 => [true, true]
  | _ => [true, false]

/-- The relative level of a PAM4 symbol: −3, −1, +1, +3. -/
def pam4Level (g : Nat) : Int := 2 * (g % 4 : Nat) - 3

/-- The symbols of a stream at a rate: pairs of bits Gray-mapped on PAM4, a bit each on NRZ. -/
def toSymbols (rate : Nat) : List Bool → List Nat
  | [] => []
  | a :: bs =>
    if isPam4 rate then
      match bs with
      | [] => []
      | b :: rest => graySymbol a b :: toSymbols rate rest
    else (if a then 1 else 0) :: toSymbols rate bs

/-- The bits of symbols at a rate. -/
def toBits (rate : Nat) (ss : List Nat) : List Bool := ss.flatMap fun g => if isPam4 rate then grayBits g else [g == 1]

/-- Inversion of one symbol: level L becomes 3 − L on PAM4, a bit its complement on NRZ (R82). -/
def invertSymbol (rate g : Nat) : Nat := if isPam4 rate then 3 - g % 4 else 1 - g % 2

/-- Symbols inverted where a polarity bit says so (R82, R99). -/
def polarity (rate : Nat) (inverted : Bool) (ss : List Nat) : List Nat :=
  if inverted then ss.map (invertSymbol rate) else ss

/-! Precoding (R75). -/

/-- What the precoder sends in place of the symbols G, from its state P(j − 1), which is 0 at the first data symbol after
TRAIN: P(j) = (G(j) − P(j − 1)) mod 4. -/
def precode (p : Nat) : List Nat → List Nat
  | [] => []
  | g :: gs =>
    let q := (g % 4 + 4 - p % 4) % 4
    q :: precode q gs

/-- What the decoder recovers from its state P(j − 1): G(j) = (P(j) + P(j − 1)) mod 4. -/
def undoPrecode (p : Nat) : List Nat → List Nat
  | [] => []
  | q :: qs => (q + p) % 4 :: undoPrecode q qs

/-- The decoder at its start: it takes the first received symbol as its state. -/
def startDecode : List Nat → List Nat
  | [] => []
  | q :: qs => undoPrecode q (q :: qs)

/-! Patterns (R93). -/

/-- A pseudo-random sequence: the degree of its polynomial, and the powers of x in it, the degree first. -/
structure Prbs where
  degree : Nat
  taps   : List Nat
  deriving DecidableEq, Repr

/-- x^13 + x^12 + x^2 + x + 1. -/
def prbs13 : Prbs := { degree := 13, taps := [13, 12, 2, 1] }

/-- The sequence of a pattern code. -/
def prbsOf (code : Nat) : Option Prbs :=
  match code with
  | 1 => some { degree := 7, taps := [7, 6] }
  | 2 => some { degree := 9, taps := [9, 5] }
  | 3 => some prbs13
  | 4 => some { degree := 15, taps := [15, 14] }
  | 5 => some { degree := 23, taps := [23, 18] }
  | 6 => some { degree := 31, taps := [31, 28] }
  | _ => none

/-- The length of the sequence before it repeats. -/
def Prbs.period (p : Prbs) : Nat := 2 ^ p.degree - 1

/-- The next bit, from the bits before it, the last one in bit 0: each power of x is a bit that many places back. -/
def Prbs.next (p : Prbs) (past : Nat) : Bool := p.taps.foldl (fun b k => b != past.testBit (k - 1)) false

/-- The bits kept, with one more. -/
def Prbs.push (p : Prbs) (past : Nat) (b : Bool) : Nat := (past * 2 + if b then 1 else 0) % 2 ^ p.degree

/-- `n` bits of a sequence, from the bits before them. -/
def Prbs.run (p : Prbs) : Nat → Nat → List Bool
  | _, 0 => []
  | past, n + 1 =>
    let b := p.next past
    b :: p.run (p.push past b) n

/-- The bits that stand before bit `k` of a sequence. -/
def Prbs.skip (p : Prbs) : Nat → Nat → Nat
  | past, 0 => past
  | past, k + 1 => p.skip (p.push past (p.next past)) k

/-- Where lane n begins a sequence, which the manual does not fix: any bits but all zeros (DESIGN CHOICE: log entry 166). -/
def Prbs.seed (p : Prbs) (n : Nat) : Nat := 1 + Config.prbsSeed n % p.period

/-- `n` bits of the generator's pattern of a lane at a rate, in place of transmit data; none where the generator is off. A
pattern at the highest and lowest level is made of whole unit intervals (R93). -/
def patternBits (lane rate code : Nat) (inv : Bool) (n : Nat) : Option (List Bool) :=
  let out (bs : List Bool) : Option (List Bool) := some (bs.map fun b => b != inv)
  match prbsOf code with
  | some p => out (p.run (p.seed lane) n)
  | none =>
    if code = 7 then (if isPam4 rate then out ((List.range n).map Config.ssprq) else none)
    else if code = 8 then
      out ((List.range n).map fun i =>
        let ui := if isPam4 rate then i / 2 else i
        ui % 16 < 8 && (!isPam4 rate || i % 2 == 0))
    else none

/-- The wrong bits among those received, by a checker that has seeded itself with the bits before them (R94): each is
compared with what the sequence gives after the bits received. -/
def Prbs.wrong (p : Prbs) (inv : Bool) : Nat → List Bool → Nat
  | _, [] => 0
  | past, b :: bs =>
    let raw := b != inv
    let want := p.next past
    (if raw == want then 0 else 1) + p.wrong inv (p.push past want) bs

/-! The training frame (R80). -/

/-- Bits of a training frame's pattern: 4,032 PAM4 symbols or 3,968 NRZ bits. -/
def trainingPattern (rate : Nat) : Nat := if isPam4 rate then 8064 else 3968

/-- The marker: 16 symbols at the highest level and 16 at the lowest on PAM4, 32 ones and 32 zeros on NRZ. -/
def trainingMarker (rate : Nat) : List Bool :=
  if isPam4 rate then (List.replicate 16 [true, false]).flatten ++ List.replicate 32 false
  else List.replicate 32 true ++ List.replicate 32 false

/-- A number's `n` bits, most significant first. -/
def msbFirst (n v : Nat) : List Bool := (List.range n).map fun i => v.testBit (n - 1 - i)

/-- The bits of a training frame of lane n: marker, control word, and the pattern that goes on where the last frame's ended. -/
def trainingBits (lane rate : Nat) (cw : Word64) (start : Nat) : List Bool :=
  trainingMarker rate ++ msbFirst 64 cw.toNat ++
    prbs13.run (prbs13.skip (prbs13.seed lane) start) (trainingPattern rate)

/-! Transmitter and receiver (R75, R82, R92, R99). -/

/-- The symbols that a transmitter sends for data bits, from its precoder's state. -/
def transmit (rate : Nat) (precoded inverted : Bool) (state : Nat) (bs : List Bool) : List Nat :=
  let g := toSymbols rate bs
  polarity rate inverted (if precoded && isPam4 rate then precode state g else g)

/-- The bits that a receiver recovers from its start on. -/
def receive (rate : Nat) (decoded inverted : Bool) (ss : List Nat) : List Bool :=
  let g := polarity rate inverted ss
  toBits rate (if decoded && isPam4 rate then startDecode g else g)

/-- The far-end loop's buffer of 32 symbols: what it has sent of the symbols received, in their order, on the local transmit
clock. How many it holds the manual does not fix (R92) (DESIGN CHOICE: log entry 166). -/
def elasticOut (lane : Nat) (received : List Nat) : List Nat :=
  received.take (received.length - min 32 (Config.loopFill lane))

end Sys2Proof.Machine
end

