-- ==== Sys2Proof/Machine/Lanes.lean ====
section
/-! DEFINITION. The commands of the lanes (R76–R97). -/

namespace Sys2Proof.Machine

/-! Enable and dormancy (R76, R77). -/

/-- LANE_STARTING_END: the lane is ON and enters bring-up (R76, R78). -/
def execLaneStartingEnd (n : Fin 64) (s : State) : Result :=
  running s fun d =>
    if d.laneState n != enStarting || d.inFault then d
    else if d.enWanted (.lane n) then (d.setLaneState n enOn).bringUpTop n
    else d.laneStop n

/-- LANE_STOPPING_END: the lane is OFF; an enable of 1 starts it again (R76, R346). -/
def execLaneStoppingEnd (n : Fin 64) (s : State) : Result :=
  running s fun d =>
    if d.laneState n != enStopping || d.inFault then d else (d.laneOff n).enApply (.lane n)

/-- DORMANT_ENTRY (R77). -/
def execDormantEntry (n : Fin 64) (w : Word) (s : State) : Result := awake s fun d => d.writeAccess (R.LN_CTRL n) true w

/-- DORMANT_EXIT (R77). -/
def execDormantExit (n : Fin 64) (w : Word) (s : State) : Result := awake s fun d => d.writeAccess (R.LN_CTRL n) true w

/-- LN_STATUS[n].signal set. -/
def Dev.setSignal (d : Dev) (n : Nat) (b : Bool) : Dev := d.setFlag (R.LN_STATUS n) F.LN_STATUS_signal b

/-- WAKE_ON_SIGNAL (R77). -/
def execWakeOnSignal (n : Fin 64) (s : State) : Result :=
  running s fun d =>
    if d.bringup n = 9 ∧ d.flag (R.LN_CFG n) F.LN_CFG_wake_on_signal then (d.setSignal n true).leaveDormant n else d

/-- FAST_PATH_POWER_UP: BITLOCK begins (R77). -/
def execFastPathPowerUp (n : Fin 64) (s : State) : Result :=
  running s fun d => if d.bringup n = 9 ∧ (d.lane n).fast then d.setBringup n 3 else d

/-! Bring-up (R78–R86). -/

/-- SIGNAL_DETECT: DETECT ends; a lane without an allowed rate stays in it (R79, R100). -/
def execSignalDetect (n : Fin 64) (s : State) : Result :=
  running s fun d =>
    if d.bringup n != 1 then d
    else if (d.rungs n).isEmpty then d.setSignal n true
    else (d.setSignal n true).setBringup n 2

/-- The control word of the next training frame of lane n: it asks for no tap (R81). -/
def Dev.trainingWord (d : Dev) (n : Nat) : Word64 :=
  let x := d.lane n
  let v := 5 * 2 ^ 60 + x.index * 2 ^ 57 + widthCode x.width * 2 ^ 55 + (if x.converged then 2 ^ 54 else 0) +
    (if d.flag (R.LN_CFG n) F.LN_CFG_rx_precode then 2 ^ 53 else 0) + x.reply * 2 ^ 47 + d.rateNow n * 2 ^ 32 +
    x.seq * 2 ^ 24
  BitVec.ofNat 64 (v + crc16 64 v)

/-- The transmitter of lane n is at electrical idle by the rules of its port's position (R51, R338, R407). -/
def Dev.txOff (d : Dev) (n : Nat) : Bool := d.txIdle ((d.lane n).port.getD n)

/-- The next training frame of lane n leaves; with the conditions of TRAIN met it is one of the 32 further ones (R79, R80)
(DESIGN CHOICE: log entry 28). -/
def Dev.sendTraining (d : Dev) (n : Nat) : Dev :=
  let x := d.lane n
  let d1 := d.setLane n { x with seq := (x.seq + 1) % 256, reply := 0
                                 further := if x.leaving then x.further + 1 else 0
                                 prbsAt := (x.prbsAt + trainingPattern (d.rateNow n)) % prbs13.period }
  if d.txOff n then d1 else d1.emit (.training n (d.trainingWord n) x.prbsAt)

/-- Whether the received lane index is the identity or the reverse of a lane's own; none for any other order, or for a
width that differs (R83) (DESIGN CHOICE: log entry 29). -/
def laneOrder (x : Lane) (idx width : Nat) : Option Bool :=
  if width != widthCode x.width then none
  else if idx = x.index then some false
  else if idx + x.index + 1 = x.width then some true
  else none

/-- A lane of the group whose received index stands and says the other order (R83) (DESIGN CHOICE: log entry 29). -/
def Dev.orderConflict (d : Dev) (n : Nat) (rev : Bool) : Bool :=
  (d.group n).any fun m =>
    m != n && ((d.bringup m == 2 && decide (0 < (d.lane m).run)) || decide (3 ≤ d.bringup m ∧ d.bringup m ≤ 5)) &&
      d.flag (R.LN_STATUS m) F.LN_STATUS_reversed != rev

/-- Precoding on PAM4 rates (R75). -/
def Dev.setPrecode (d : Dev) (n : Nat) (tx rx : Bool) : Dev :=
  let pam4 := decide (d.rateNow n ≤ 2)
  (d.setFlag (R.LN_STATUS n) F.LN_STATUS_tx_precode (tx && pam4)).setFlag (R.LN_STATUS n) F.LN_STATUS_rx_precode
    (rx && pam4)

/-- A valid training frame on lane n in TRAIN (R79, R81, R83): lane order, precoding, a tap request once per 16 frames, and
the conditions that end TRAIN. -/
def Dev.trainingValid (d : Dev) (n : Nat) (cw : Word64) (converged : Bool) : Dev :=
  let v := cw.toNat
  match laneOrder (d.lane n) (bits v 59 57) (bits v 56 55) with
  | none => d.orderError n
  | some rev =>
    if d.orderConflict n rev then d.orderError n
    else
      let d1 := (((d.setFld (R.LN_STATUS n) F.LN_STATUS_lane_rx (bits v 59 57)).setFlag (R.LN_STATUS n)
        F.LN_STATUS_reversed rev).setPrecode n (bit v 53) (d.flag (R.LN_CFG n) F.LN_CFG_rx_precode))
      let act := bits v 50 49
      let due := decide (15 ≤ (d.lane n).sinceTap) && act != 0
      let (d2, reply) := if due then d1.tapRequest n (bits v 52 51) act else (d1, 0)
      let x := d2.lane n
      let run := min 16 (x.run + 1)
      let ready := bit v 54
      d2.setLane n { x with run := run, ready := ready, converged := converged, reply := reply
                            sinceTap := if due then 0 else x.sinceTap + 1
                            leaving := converged && ready && run == 16 }

/-- TRAINING_FRAME: a frame with control word `cw` as sent; `inverted` tells that the input shows the marker inverted, and
`converged` that the own receiver has converged. With automatic polarity the receiver inverts its input; otherwise a wrong
polarity makes the frame invalid, like a wrong type or CRC. In DETECT the lane sends its own frames and takes none; of the 32
further frames of TRAIN none is sent beyond the last (R78–R83) (DESIGN CHOICE: log entry 28). -/
def execTrainingFrame (n : Fin 64) (cw : Word64) (inverted converged : Bool) (s : State) : Result :=
  running s fun d =>
    if d.etherLane n || d.laneMode n == 2 then d
    else if d.bringup n = 1 then d.sendTraining n
    else if d.bringup n != 2 then d
    else if (d.lane n).leaving then (if (d.lane n).further < 32 then d.sendTraining n else d)
    else
      let auto := d.flag (R.LN_CFG n) F.LN_CFG_pol_auto
      let d1 := if auto then d.setFlag (R.LN_STATUS n) F.LN_STATUS_rx_inverted inverted else d
      let upright := auto || inverted == d.flag (R.LN_CFG n) F.LN_CFG_rx_invert
      let good := upright && bits cw.toNat 63 60 == 5 && crc16 64 cw.toNat == cw.toNat % 2 ^ 16
      let d2 := if good then d1.trainingValid n cw converged
        else d1.setLane n { d1.lane n with run := 0, converged := converged, sinceTap := (d1.lane n).sinceTap + 1 }
      if d2.bringup n = 2 then d2.sendTraining n else d2

/-- What is left of the 32 further training frames leaves (R79). -/
def Dev.sendFurther (d : Dev) (n : Nat) : Dev :=
  (List.range (32 - (d.lane n).further)).foldl (fun d _ => d.sendTraining n) d

/-- TRAIN_COMPLETE with the adapted gain and CTLE codes: BITLOCK. In an exchange with a partner the last of the 32 further
frames has been sent then. The lane's settings are those that DORMANT will hold (R77, R79, R90). -/
def execTrainComplete (n : Fin 64) (gain : Byte) (ctle : BitVec 4) (s : State) : Result :=
  running s fun d =>
    let alone := d.etherLane n || d.laneMode n == 2
    if d.bringup n != 2 || !(alone || (d.lane n).leaving) then d
    else
      let d0 := if alone then d else d.sendFurther n
      let d1 := d0.setFld (R.LN_EQ_RX n) F.LN_EQ_RX_gain gain.toNat
      let d2 := if d1.flag (R.LN_EQ_RX n) F.LN_EQ_RX_ctle_fix then d1
        else d1.setFld (R.LN_EQ_RX n) F.LN_EQ_RX_ctle ctle.toNat
      let d3 := if d.etherLane n then
          d2.setPrecode n (d.flag (R.LN_CFG n) F.LN_CFG_tx_precode) (d.flag (R.LN_CFG n) F.LN_CFG_rx_precode)
        else d2
      (d3.setLane n { d3.lane n with trained := some (d3.rateNow n), leaving := false, further := 0
                                     trainStat := d3.reg (R.LN_STATUS n), trainTx := d3.reg (R.LN_EQ_TX n)
                                     trainRx := d3.reg (R.LN_EQ_RX n) }).setBringup n 3

/-- Lane n is in a signal gap of ACTIVE: the signal is absent, or returned no more than 10 µs, 6,250 TIME ticks, ago (R79). -/
def Dev.gapHolds (d : Dev) (n : Nat) : Bool :=
  (d.lane n).gap && match (d.lane n).gapEnd with
    | some t => decide (d.ticks ≤ t)
    | none => true

/-- Lock or framing of lane n in ACTIVE is lost: in a gap it is to be reacquired; with the signal absent a gap has begun;
otherwise ACTIVE ends (R79, R122) (DESIGN CHOICE: log entry 38). -/
def Dev.lockLost (d : Dev) (n : Nat) (signal : Bool) : Dev :=
  if d.gapHolds n then d.setLane n { d.lane n with regained := false }
  else if signal then d.laneDrop n
  else (d.setSignal n false).setLane n { d.lane n with gap := true, gapEnd := none, regained := false }

/-- CDR_LOCK at an offset in ppm: BITLOCK ends within ±200 ppm, by the path of the lane's mode; in a signal gap of ACTIVE lock
is reacquired (R79, R92). -/
def execCdrLock (n : Fin 64) (ppm : Int) (s : State) : Result :=
  running s fun d =>
    let locked := d.setFlag (R.LN_STATUS n) F.LN_STATUS_cdr_lock true
    if d.bringup n = 3 then
      if 200 < ppm.natAbs then d
      else locked.setBringup n (match d.laneMode n with
        | 1 => 7 | 2 | 4 => 8 | _ => 4)
    else if d.bringup n = 6 ∧ d.gapHolds n then locked.laneRef n
    else d

/-- The skew of the lanes of port p, UI added by deskew (R87). -/
def Dev.setSkew (d : Dev) (p : Nat) (skewUi : List Nat) : Dev :=
  (List.range (d.portLanes p)).foldl (fun d i =>
    d.setFld (R.LN_SKEW (p + i)) F.LN_SKEW_skew (if d.portLanes p = 1 then 0 else skewUi.getD i 0)) d

/-- FRAMING_LOCK on the port of lane n, with the skew of each lane in blocks and the UI added: CAPEX or ACTIVE, or a deskew
error beyond 128 blocks. In a signal gap of ACTIVE framing is reacquired (R79, R87, R88)
(DESIGN CHOICE: log entry 33). -/
def execFramingLock (n : Fin 64) (skewBlocks skewUi : List Nat) (s : State) : Result :=
  running s fun d =>
    if d.bringup n = 6 then
      (if d.gapHolds n && d.flag (R.LN_STATUS n) F.LN_STATUS_cdr_lock then d.setLane n { d.lane n with regained := true } else d)
    else
      match (d.lane n).port with
      | none => d
      | some p =>
        if !d.allLanes p 4 then d
        else if d.isazu p && (skewBlocks.take (d.portLanes p)).any (fun k => decide (128 < k)) then
          ((d.group n).foldl (fun d m => d.raise (R.LN_ALARM m) F.LN_ALARM_deskew_err) d).laneFail n
        else (d.setSkew p skewUi).framed p

/-- POLARITY_RETRY: once in a SYMLOCK of an Ethernet lane with automatic polarity (R82). -/
def execPolarityRetry (n : Fin 64) (s : State) : Result :=
  running s fun d =>
    if d.bringup n = 4 ∧ d.etherLane n ∧ d.flag (R.LN_CFG n) F.LN_CFG_pol_auto ∧ !(d.lane n).retried then
      (d.setLane n { d.lane n with retried := true }).setFlag (R.LN_STATUS n) F.LN_STATUS_rx_inverted
        (!d.flag (R.LN_STATUS n) F.LN_STATUS_rx_inverted)
    else d

/-- Lane n is in a bring-up state that can fail. -/
def Dev.inBringup (d : Dev) (n : Nat) : Bool := decide (2 ≤ d.bringup n ∧ d.bringup n ≤ 5)

/-- BRINGUP_TIMEOUT (R79, R84). -/
def execBringupTimeout (n : Fin 64) (s : State) : Result :=
  running s fun d => if d.inBringup n then d.laneFail n else d

/-- FALLBACK_END: DETECT at the next rung down of LN_RATE_CFG as it now stands, or at the last rung with LN_ALARM.bottom. The
manual does not say whether the alarm comes with the arrival at the bottom rung or with a failure there, nor which rung follows
when a rewritten list has none below the present rate: the alarm comes at the end of the FALLBACK that follows a failure at the
bottom, and the last rung of the new list is taken, even a faster one (R84, R101, R103) (DESIGN CHOICE: log entry 165). -/
def execFallbackEnd (n : Fin 64) (s : State) : Result :=
  running s fun d =>
    if d.bringup n != 10 then d
    else
      let rs := d.rungsNext n
      let d := d.takeRates n
      match rs.find? (fun r => decide (d.rateNow n < r)) with
      | some r => d.bringUpAt n r
      | none =>
        if rs.isEmpty then d.bringUpAt n (d.rateNow n)
        else (d.raise (R.LN_ALARM n) F.LN_ALARM_bottom).bringUpAt n (rs.getLastD (d.rateNow n))

/-- LANE_RESTART (R84). -/
def execLaneRestart (n : Fin 64) (w : Word) (s : State) : Result := awake s fun d => d.writeAccess (R.LN_CTRL n) true w

/-- LOSS_OF_SIGNAL: a lane in bring-up fails, and ACTIVE ends; the near-end loops ignore their input (R79, R92). -/
def execLossOfSignal (n : Fin 64) (s : State) : Result :=
  running s fun d =>
    let d1 := d.setSignal n false
    if d.laneMode n = 2 ∨ d.laneMode n = 3 then d1
    else if d1.inBringup n then d1.laneFail n
    else if d1.bringup n = 6 then d1.laneDrop n
    else d1

/-- CDR_UNLOCK: outside a signal gap ACTIVE ends (R79). -/
def execCdrUnlock (x : LockEvent) (s : State) : Result :=
  running s fun d =>
    let d1 := (d.setFlag (R.LN_STATUS x.lane) F.LN_STATUS_cdr_lock false).laneRef x.lane
    if d.bringup x.lane = 6 then d1.lockLost x.lane x.signal else d1

/-- FRAMING_LOSS: outside a signal gap ACTIVE ends (R79, R122). -/
def execFramingLoss (x : LockEvent) (s : State) : Result :=
  running s fun d => if d.bringup x.lane = 6 then d.lockLost x.lane x.signal else d

/-- SIGNAL_RETURN: the reacquisition allowance of a gap of ACTIVE starts: 10 µs, 6,250 TIME ticks. A lane that kept its lock and
its framing has nothing to reacquire (R79) (DESIGN CHOICE: log entry 38). -/
def execSignalReturn (n : Fin 64) (s : State) : Result :=
  running s fun d =>
    let d1 := d.setSignal n true
    let x := d1.lane n
    if d.bringup n = 6 then
      d1.setLane n { x with gap := true, gapEnd := some (d.ticks + 6250), regained := !d.gapHolds n || x.regained }
    else d1

/-- GAP_REACQUIRE_TIMEOUT: a lane that has not reacquired lock and framing leaves ACTIVE, and for another the gap is over (R79)
(DESIGN CHOICE: log entry 38). -/
def execGapReacquireTimeout (n : Fin 64) (s : State) : Result :=
  running s fun d =>
    let x := d.lane n
    if d.bringup n = 6 ∧ x.gap then
      (if x.regained && d.flag (R.LN_STATUS n) F.LN_STATUS_cdr_lock then
        d.setLane n { x with gap := false, gapEnd := none, regained := false }
      else d.laneDrop n)
    else d

/-! Equaliser, patterns, phase (R89–R96). -/

/-- EQ_WRITE (R89, R91). -/
def execEqWrite (n : Fin 64) (tx : Bool) (w : Word) (s : State) : Result :=
  awake s fun d => d.writeAccess (if tx then R.LN_EQ_TX n else R.LN_EQ_RX n) true w

/-- The checker of lane n runs (R94). -/
def Dev.checkerRuns (d : Dev) (n : Nat) : Bool :=
  let k := d.fld (R.LN_TEST n) F.LN_TEST_chk_pat
  (d.bringup n == 7 || d.bringup n == 8) && decide (1 ≤ k ∧ k ≤ 7)

/-- Wrong bits that the checker of lane n found while in sync (R94, R397). -/
def Dev.checkerErrors (d : Dev) (n wrongBits : Nat) : Dev :=
  if d.checkerRuns n && d.flag (R.LN_TEST n) F.LN_TEST_chk_sync then
    (d.addSat (R.LN_PRBS_ERR n) F.LN_PRBS_ERR_count wrongBits).count (laneCtr n 2) wrongBits
  else d

/-- CHECKER_SYNC (R94). -/
def execCheckerSync (n : Fin 64) (s : State) : Result :=
  running s fun d => if d.checkerRuns n then d.setFlag (R.LN_TEST n) F.LN_TEST_chk_sync true else d

/-- CHECKER_SYNC_LOST with the wrong bits found since the last PHASE_SAMPLE (R94, R397) (DESIGN CHOICE: log entry 166). -/
def execCheckerSyncLost (n : Fin 64) (wrongBits : Nat) (s : State) : Result :=
  running s fun d =>
    if !d.checkerRuns n || !d.flag (R.LN_TEST n) F.LN_TEST_chk_sync then d
    else
      (((d.checkerErrors n wrongBits).count (laneCtr n 3)).setFlag (R.LN_TEST n) F.LN_TEST_chk_sync false).raise
        (R.LN_ALARM n) F.LN_ALARM_prbs_sync_lost

/-- Lane n is a version-3 lane of an Isazu link in ACTIVE: its phase is latched by management blocks (R95). -/
def Dev.isVersion3 (d : Dev) (n : Nat) : Bool :=
  !(d.lane n).ethernet && (d.lane n).port.isSome && decide (d.rateNow n ≤ 1) && decide (5 ≤ d.bringup n ∧ d.bringup n ≤ 6)

/-- A phase readout is latched, and is a sample of the window of a lane in ACTIVE (R95, R96). -/
def Dev.phaseLatch (d : Dev) (n phase : Nat) : Dev :=
  let d1 := d.setFld (R.LN_PHASE_INST n) F.LN_PHASE_INST_phase phase
  let x := d1.lane n
  if d1.bringup n != 6 then d1
  else if x.phN = 0 then d1.setLane n { x with phN := 1, phFirst := phase, phSum := 0 }
  else
    let diff : Int := ((phase : Int) - x.phFirst + 256) % 512 - 256
    d1.setLane n { x with phN := x.phN + 1, phSum := x.phSum + diff }

/-- PHASE_SAMPLE, with the wrong bits that the lane's checker has found since the last one (R94, R95)
(DESIGN CHOICE: log entry 166). -/
def execPhaseSample (n : Fin 64) (x : PhaseReading) (s : State) : Result :=
  running s fun d =>
    if d.laneState n = enOn ∧ !d.inFault ∧ !d.isVersion3 n then (d.checkerErrors n x.wrongBits).phaseLatch n x.phase else d

/-- The end of a delay window on lane n: the mean phase is published unless the window is spoilt, its delay samples wait for
their publication, and waiting calibration values apply (R96, R125, R127, R375) (DESIGN CHOICE: log entry 35). -/
def Dev.laneWindowEnd (d : Dev) (n : Nat) : Dev :=
  let x := d.lane n
  let active := d.bringup n == 6
  let d1 := if x.phN = 0 || x.phSpoilt || !active || d.inFault then d
    else
      let avg := divNear ((x.phN * x.phFirst + x.phSum) * 32768) x.phN % (2 ^ 24 : Nat)
      (d.setFld (R.LN_PHASE_AVG n) F.LN_PHASE_AVG_value avg.toNat).setFld (R.LN_PHASE_AVG n) F.LN_PHASE_AVG_window
        (d.fld (R.LN_PHASE_AVG n) F.LN_PHASE_AVG_window + 1)
  let spoilt := !active || d.inFault
  let measured := d.isVersion3 n || decide (0 < x.cur.fwdN)
  let d2 := d1.setLane n { x with phN := 0, phFirst := 0, phSum := 0, phSpoilt := spoilt, disturb := false
                                  closed := if measured then some { x.cur with spoilt := x.cur.spoilt || d.inFault } else none
                                  cur := { Samples.zero with spoilt := spoilt } }
  if sGet 0 d2.ca.laneNew n = 0 || d2.inFault then d2
  else
    let d3 := ((List.range 6).foldl (fun d r => (d.moveItem 2 n r).moveItem 3 n r) d2).laneDelays n
    { d3 with ca := { d3.ca with laneNew := sPut 0 d3.ca.laneNew n 0 } }

/-- DELAY_WINDOW_END: a window ends on every lane, and the TDC channels in mode 0 derive their tap scale (R96, R172)
(DESIGN CHOICE: log entry 35). -/
def execDelayWindowEnd (scales : List ScaleMeas) (s : State) : Result :=
  running s fun d =>
    let d1 := (List.range 64).foldl (fun d n => d.laneWindowEnd n) d
    if d1.inFault then d1
    else scales.foldl (fun d m => if d.tdcOn m.chan && d.winMode m.chan == 0 then d.applyScale m.chan m else d) d1

/-- In STANDBY a marker received on the pair port at a lane's rate sets the framing counter of every version-3 transmitter of that
rate: half of the pair port's LK_DLY_RTT has passed since the active's counter stood at 0, in whole blocks of 272 bits of the line
rate, 1.28 ns at rate code 0 and 2.56 ns at 1. The marker count follows the active's (R117, R121, R410) (DESIGN CHOICE: log
entry 169). -/
def Dev.followFraming (d : Dev) (n : Nat) (mk : BitVec 256) : Dev :=
  let p := (d.lane n).port.getD n
  if !d.standby || !d.isPairPort p then d
  else
    let r := d.rateNow n
    let rtt := signed 48 ((d.reg (R.LK_DLY_RTT_LO p (n - p))).toNat +
      2 ^ 32 * d.fld (R.LK_DLY_RTT_HI p (n - p)) F.LK_DLY_RTT_HI_value_hi)
    let c := (divNear (rtt * 100) ((if r = 0 then 256 else 512) * 65536)).toNat % 16384
    (List.range 64).foldl (fun d q =>
      if d.isVersion3 q && d.rateNow q == r && (d.lane q).port == some q then
        d.setPort q { d.port q with c := c, filled := 0, sentAt := [], marks := (bits mk.toNat 183 176 + 1) % 256 }
      else d) d

/-- ALIGNMENT_MARKER on a version-3 lane in ACTIVE, in or out of its position; a block that is no marker of the lane
index received in TRAIN and of the port's width is none in its position (R88, R121, R410) (DESIGN CHOICE: log entry 32). -/
def execAlignmentMarker (n : Fin 64) (inPlace : Bool) (mk : BitVec 256) (s : State) : Result :=
  running s fun d =>
    let x := d.lane n
    let whole := isMarker (d.fld (R.LN_STATUS n) F.LN_STATUS_lane_rx) x.width mk
    if d.bringup n != 6 || !d.isVersion3 n then d
    else if d.gapHolds n then (if inPlace && whole then d else d.setLane n { x with regained := false })
    else if inPlace && whole then (d.setLane n { x with badMarks := 0 }).followFraming n mk
    else if x.badMarks < 2 then d.setLane n { x with badMarks := x.badMarks + 1 }
    else ((d.raise (R.LN_ALARM n) F.LN_ALARM_marker_err).count (laneCtr n 4)).laneDrop n

end Sys2Proof.Machine
end

