-- ==== Sys2Proof/Machine/Links.lean ====
section
/-! DEFINITION. The commands of the ports and the Isazu link (R104–R136). -/

namespace Sys2Proof.Machine

/-! Ports (R104–R110, R136). -/

/-- The register of a port's configuration. -/
def portRegAt (p : Nat) : PortReg → Nat
  | .port => R.LK_PORT_CFG p
  | .eth => R.LK_ETH_CFG p
  | .isz => R.LK_ISZ_CFG p

/-- PORT_CFG_WRITE (R104, R133). -/
def execPortCfgWrite (p : Fin 64) (r : PortReg) (w : Word) (s : State) : Result :=
  awake s fun d => d.writeAccess (portRegAt p r) true w

/-- PORT_STARTING_END (R106). -/
def execPortStartingEnd (p : Fin 64) (s : State) : Result := running s fun d => d.startingEnd (.port p)

/-- PORT_STOPPING_END: the frame in transmission has left (R106) (DEDUCED: log entry 42). -/
def execPortStoppingEnd (p : Fin 64) (s : State) : Result :=
  running s fun d => if (d.txRun p).isSome && !d.txIdle p then d else d.stoppingEnd (.port p)

/-- MAC_COMMIT (R136). -/
def execMacCommit (p : Fin 64) (w : Word) (s : State) : Result := awake s fun d => d.writeAccess (R.LK_MAC_HI p) true w

/-- A unit interval of a rate code as a fraction of a nanosecond (R73) (DEDUCED: log entry 45). -/
def uiFrac (rate : Nat) : Nat × Nat :=
  match rate with
  | 0 => (4, 425)
  | 1 => (8, 425)
  | 2 => (16, 425)
  | 3 => (32, 825)
  | 4 => (16, 165)
  | _ => (4, 5)

/-- A receive stamp of lane n: the counter at the TIME tick before the symbol, the symbols since it and the phase readout, less
the receive delay; TE and the flag are those of the instant stamped (R142, R149, R150) (DEDUCED: log entry 45). -/
def Dev.rxStamp (d : Dev) (n age symbols phase : Nat) : Stamp :=
  let (a, b) := uiFrac (d.rateNow n)
  d.stampAt (divNear ((symbols * 512 + phase) * a * 128 : Nat) b - (age : Int) - (d.reg (R.LN_RX_DELAY n)).toNat)

/-- The event counter of a reception error (R110, R250, R397); none for a good frame (DEDUCED: log entry 41). -/
def Dev.rxError (d : Dev) (p : Nat) (octets : List Byte) (err : Option RxFault) : Option Nat :=
  let body := octets.take (octets.length - 4)
  match err with
  | some .lineCode => some 7
  | some .codeword => some 8
  | some .incomplete => some 9
  | none =>
    if d.maxFrame p < octets.length then some 6
    else if octets.length < 64 then some 5
    else if octets.drop (octets.length - 4) = fcs body then none
    else if octets = stompFcs (body ++ fcs body) then some 10
    else some 4

/-- A frame of the MAC: PAUSE or priority flow control, its class-enable vector and quanta; none for any other (R109, R237). -/
def macControl (octets : List Byte) : Option (Bool × BitVec 8 × List (BitVec 16)) :=
  let quanta (o n : Nat) : List (BitVec 16) := (List.range n).map fun k => BitVec.ofNat 16 (wire octets (o + 2 * k) 2)
  if wire octets 12 2 ≠ 0x8808 then none
  else
    match wire octets 14 2 with
    | 0x0001 => some (false, 0, quanta 16 1)
    | 0x0101 => some (true, BitVec.ofNat 8 (wire octets 16 2), quanta 18 8)
    | _ => none

/-- What port p keeps of a received frame: one longer than max_frame is cut at the octet that exceeds it (R110). -/
def Dev.keptOctets (d : Dev) (p : Nat) (octets : List Byte) : List Byte := octets.take (d.maxFrame p)

/-- A frame with an error found is counted under its kind. Once its head cell was complete it goes on with the error, since its
egress may have begun; otherwise it goes nowhere, and cells it does not take are free again (R110, R228, R242)
(DEDUCED: log entries 41, 42, 79). -/
def Dev.badFrame (d : Dev) (p cls e : Nat) (f : Frame) : Dev :=
  let kept := d.keptOctets p f.octets
  let all := cellsOf f.octets.length
  let d1 := d.count (portCtr p e)
  if kept.length < 256 then d1.creditReturn p cls all
  else (d1.creditReturn p cls (all - cellsOf kept.length)).arrive { f with octets := kept, err := true }

/-- FRAME_RECEIVED: octets with FCS, its START block with the codewords counted up to it, `age` 2^-16 ns
passed since the TIME tick before that symbol and `symbols` from that tick to it. A port in ON or STOPPING with its link up takes
it; the MAC of an Ethernet port consumes PAUSE and priority flow control (R109, R110, R118, R149, R228, R410)
(DEDUCED: log entries 41, 42, 79). -/
def execFrameReceived (p : Fin 64) (octets : List Byte) (err : Option RxFault) (start : StartSymbol)
    (age symbols : Nat) (s : State) : Result :=
  running s fun d =>
    let st := d.fld (R.LK_PORT_CTRL p) F.LK_PORT_CTRL_state
    if !(st == enOn || st == enStopping) || !d.linkUp p || d.isPairPort p then d
    else
      let isz := d.isazu p
      let d := (d.count (portCtr p 22) start.fixed).count (portCtr p 23) start.lost
      let d1 := if isz then d.creditCount p start.cls.toNat (cellsOf octets.length) else d
      let n := p.val + start.lane.val
      let at_ := d.rxStamp n age symbols (d.fld (R.LN_PHASE_INST n) F.LN_PHASE_INST_phase)
      let f : Frame := { id := 0, port := p, octets := octets, cls := if isz then some start.cls.toNat else none
                         stamp := at_.t48, te := at_.te, invalid := at_.invalid, second := none, direct := none, tx := none
                         err := false }
      match d1.rxError p octets err with
      | some e => d1.badFrame p start.cls.toNat e f
      | none =>
        match (if isz then none else macControl octets) with
        | some (pfc, classes, quanta) => d1.pfcTake p pfc classes quanta
        | none => d1.inject f

/-! Capability exchange (R113–R115). -/

/-- CAPABILITY_WORD (R114, R115). -/
def execCapabilityWord (p : Fin 64) (w : Word64) (s : State) : Result :=
  running s fun d => if d.isazu p then d.capReceived p w else d

/-! The framing counter (R117). -/

/-- Blocks from one trigger block of port p to the next: 32, 16 or 8 by share_now; 0 for none. -/
def Dev.interval (d : Dev) (p : Nat) : Nat := if d.shareNow p = 0 then 0 else 64 / 2 ^ d.shareNow p

/-- Every lane of port p sends its alignment marker (R87, R121). -/
def Dev.sendMarkers (d : Dev) (p : Nat) : Dev :=
  let x := d.port p
  let w := d.portLanes p
  (List.range w).foldl (fun d i => d.emit (.marker p i (markerOf i w x.marks)))
    (d.setPort p { x with marks := (x.marks + 1) % 256 })

/-- The first `n` blocks that a frame in transmission has still to send; the frame is suspended with the rest (R18, R118). -/
def Dev.takeBlocks (d : Dev) (p n : Nat) : List (BitVec 257) × Dev :=
  match d.txRun p with
  | some x => (x.left.take n, d.setTx p (some { x with left := x.left.drop n }))
  | none => ([], d)

/-- The framing counter of port p moves on to a value given unreduced: the markers between leave, and the data positions between
carry what is left of the frame in transmission, then IDLE (R107, R117, R118) (DESIGN CHOICE: log entry 169). -/
def Dev.advanceTo (d : Dev) (p to_ : Nat) : Dev :=
  let x := d.port p
  let d1 := if countAt 16384 0 x.c to_ = 0 then d else d.sendMarkers p
  let n := dataCount (d.interval p) x.c to_ * d.portLanes p
  let (blocks, d2) := d1.takeBlocks p (n - x.filled)
  let d3 := if n = 0 then d2 else d2.emit (.data p x.c (to_ % 16384) (min n x.filled) blocks)
  d3.setPort p { d3.port p with c := to_ % 16384, filled := x.filled - n, sentAt := [] }

/-! Trigger blocks (R119, R123, R193–R199, R209–R212). -/

/-- Words of port p are counted in one of the fields of TG_PORT_ERR. -/
def Dev.trigErr (d : Dev) (p : Nat) (f : Field) (n : Nat) : Dev := d.addSat (R.TG_PORT_ERR p) f n

/-- `n` words of port p fail their CRC (R196). -/
def Dev.trigCrc (d : Dev) (p n : Nat) : Dev :=
  (d.trigErr p F.TG_PORT_ERR_crc n).raise R.TG_ALARM F.TG_ALARM_word_err

/-- Port p gives no primitive to this node: it is the uplink, a forerunner, or refused for triggering (R197, R343, R344). -/
def Dev.noPrimitives (d : Dev) (p : Nat) : Bool :=
  d.uplink == some p || d.isForerunner p || d.en.refused.contains p

/-- Port p is admitted to relay (R210). -/
def Dev.relays (d : Dev) (p : Nat) : Bool := d.portBit R.TG_RELAY_NOW_LO R.TG_RELAY_NOW_HI p

/-- A word received on port p that is no part of a decision. A relayed primitive goes on unchanged; R209 and R210 keep room for it in
the staging (R210) (DEDUCED: log entries 51, 72). -/
def Dev.trigWord (d : Dev) (p v : Nat) : Dev :=
  if v = 0 then d
  else if bits v 63 60 ≠ 1 then d.trigErr p F.TG_PORT_ERR_misdirected 1
  else if !primCrcOk v then d.trigCrc p 1
  else if d.noPrimitives p then d.trigErr p F.TG_PORT_ERR_misdirected 1
  else
    let q := primOf v
    let d1 := if d.relays p && !d.standby && decide (d.tg.upward.length < 256) then
        { d with tg := { d.tg with upward := d.tg.upward ++ [BitVec.ofNat 64 v] } }
      else d
    d1.fly (128 + p) q

/-- A decision of two words received on port p (DEDUCED: log entry 51). -/
def Dev.trigDecision (d : Dev) (p v : Nat) : Dev :=
  if !decCrcOk v then
    let x := decOf v
    ((d.trigCrc p 2).count (devCtr 4) 2).recDecision 2 (bits v 87 80) x.action x.tExec x.origin
  else if d.uplink != some p then d.trigErr p F.TG_PORT_ERR_misdirected 2
  else { d with tg := { d.tg with received := d.tg.received ++ [{ decOf v with rcvd := true }] } }

/-- The words of a block in order: a first word of a decision goes with the second word that follows it. -/
def Dev.trigWords (d : Dev) (p : Nat) : List Word64 → Dev
  | [] => d
  | [a] => d.trigWord p a.toNat
  | a :: b :: rest =>
    if bits a.toNat 63 60 = 2 ∧ bits b.toNat 63 60 = 3 then
      (d.trigDecision p (a.toNat * 2 ^ 64 + b.toNat)).trigWords p rest
    else (d.trigWord p a.toNat).trigWords p (b :: rest)

/-- TRIGGER_BLOCK on lane index i of port p, word 0 in bits 255:192. With the engine not ON its words are only counted (R119,
R199). -/
def execTriggerBlock (p : Fin 64) (i : Fin 8) (words : BitVec 256) (s : State) : Result :=
  running s fun d =>
    if !d.trigLink p || decide (d.portLanes p ≤ i) || d.isPairPort p then d
    else
      let ws := words64 4 words.toNat
      if !d.engineOn then d.trigErr p F.TG_PORT_ERR_idle (ws.filter fun w => w != 0).length
      else d.trigWords p ws

/-- Four words of a block from a list, zeros where it has none. -/
def blockWords (ws : List Word64) (i : Nat) : List Word64 := (List.range 4).map fun k => ws.getD (4 * i + k) 0

/-- The trigger words staged for port p leave a version-1 or version-2 link in band: at once, or with a frame in transmission
at its end, ahead of all waiting frames (R129, R197) (DESIGN CHOICE: log entry 50). -/
def Dev.inBandHandoff (d : Dev) (p : Nat) : Dev :=
  let send (d : Dev) (ws : List Word64) : Dev :=
    let d1 := d.setPort p { d.port p with waiting := (d.port p).waiting ++ ws }
    if (d1.txRun p).isSome then d1 else d1.flushTrigger p
  if !d.engineOn then d
  else if d.uplink = some p then
    send { d with tg := { d.tg with upward := [] } } d.tg.upward
  else
    send { d with tg := { d.tg with staged := sPut [] d.tg.staged p [] } }
      ((sGet [] d.tg.staged p).flatMap fun x => words64 2 (x.word d.te))

/-- TRIGGER_HANDOFF: upward the words of the upward staging fill the lanes in order; downward at most two decisions leave on
lane 0 with the node's own te. With the engine not ON the blocks carry zero words. The framing counter stands at the trigger
block's position. On versions 1 and 2 the words leave in band (R117, R123, R129, R197, R209, R212, R222)
(DEDUCED: log entry 52). -/
def execTriggerHandoff (p : Fin 64) (s : State) : Result :=
  running s fun d =>
    if d.txIdle p || d.isPairPort p then d
    else if d.inBandLink p then d.inBandHandoff p
    else if !d.trigLink p then d
    else
      let lanes := d.portLanes p
      let d := d.advanceTo p (nextAt (d.interval p) 1 (d.port p).c)
      let send (d : Dev) (ws : List Word64) : Dev :=
        (List.range lanes).foldl (fun d i => d.emit (.trigBlock p i (blockWords ws i))) d
      if !d.engineOn then send d []
      else if d.uplink = some p.val then
        let now := d.tg.upward.take (4 * lanes)
        send { d with tg := { d.tg with upward := d.tg.upward.drop (4 * lanes) } }
          now
      else
        let q := sGet [] d.tg.staged p
        send { d with tg := { d.tg with staged := sPut [] d.tg.staged p (q.drop 2) } }
          ((q.take 2).flatMap fun x => words64 2 (x.word d.te))

/-! Management blocks (R120, R124). -/

/-- Lane n carries version-3 framing (DESIGN CHOICE: log entry 36). -/
def Dev.framing3 (d : Dev) (n : Nat) : Bool :=
  !(d.lane n).ethernet && (d.lane n).port.isSome && decide (d.rateNow n ≤ 1) && decide (4 ≤ d.bringup n ∧ d.bringup n ≤ 6)

/-- The index of the delay window that a T48 instant lies in (R96). -/
def windowOf (t : Nat) : Nat := t / 2 ^ 36

/-- A change of the samples of lane n in the window that holds instant t: the one in progress, or the one that waits to be
published. -/
def Dev.inWindowOf (d : Dev) (n t : Nat) (f : Samples → Samples) : Dev :=
  let x := d.lane n
  if windowOf t = windowOf d.now then d.setLane n { x with cur := f x.cur }
  else if windowOf (t48Add t (2 ^ 36 : Nat)) = windowOf d.now then d.setLane n { x with closed := x.closed.map f }
  else d

/-- The delay part of a management block (R120). -/
def delayPartOf (b : Nat) : DelayPart :=
  { txTime := BitVec.ofNat 48 (bits b 239 192), rxStamp := BitVec.ofNat 48 (bits b 191 144)
    seq := BitVec.ofNat 8 (bits b 247 240), rxSeq := BitVec.ofNat 8 (bits b 143 136), te := BitVec.ofNat 8 (bits b 135 128)
    disturb := bit b 127, invalid := bit b 126, rxValid := bit b 125 }

/-- The delay part of a block that lane n received at t_rx: a forward sample, a reverse sample for a block of its own, and
what keeps the window from being published (R124, R126). -/
def Dev.delaySamples (d : Dev) (n : Nat) (b : DelayPart) (tRx : Nat) : Dev :=
  let x := d.lane n
  let fwd := t48Sub tRx b.txTime.toNat
  let d1 := d.inWindowOf n tRx fun w => { w with fwdSum := w.fwdSum + fwd, fwdN := w.fwdN + 1 }
  let own := (x.sent.find? fun e => e.1 == b.rxSeq.toNat).map (·.2)
  let d2 := match own with
    | some t =>
      if b.rxValid then
        let rev := t48Sub b.rxStamp.toNat t
        d1.inWindowOf n t fun w => { w with revSum := w.revSum + rev, revN := w.revN + 1 }
      else d1
    | none => d1
  let moved := match x.partnerTe with
    | some old => old != b.te.toNat
    | none => false
  let d3 := if moved || b.disturb then d2.inWindowOf n tRx fun w => { w with spoilt := true } else d2
  d3.setLane n { d3.lane n with partnerTe := some b.te.toNat, rx := some (b.seq.toNat, tRx) }

/-- The partner's time_invalid as last received (R147). -/
def Dev.partnerInvalid (d : Dev) (p : Nat) (b : Bool) : Dev :=
  if (d.port p).invalid == b then d else (d.setPort p { d.port p with invalid := b }).validCheck

/-- The body of a good block on port p: a capability word in CAPEX, or an ENUM message (R114, R120, R341)
(DEDUCED: log entries 48, 127). -/
def Dev.mgmtBody (d : Dev) (p b : Nat) : Dev :=
  match bits b 255 248 with
  | 1 => d.capReceived p (BitVec.ofNat 64 (bits b 123 60))
  | 2 => if d.linkUp p then (d.enumMessage p (BitVec.ofNat 108 (bits b 123 16))).fireCheck else d
  | _ => d

/-- MANAGEMENT_BLOCK received on lane index i of port p, `symbols` after the last TIME tick, with the phase readout at its
first symbol. With a wrong CRC only that readout is kept (R95, R120, R124, R147) (DEDUCED: log entry 48). -/
def execManagementBlock (p : Fin 64) (i : Fin 8) (blk : BitVec 256) (symbols : Nat) (phase : Fin 512) (s : State) : Result :=
  running s fun d =>
    let n := p.val + i.val
    if decide (d.portLanes p ≤ i) || !d.isVersion3 n || !d.isazu p then d
    else
      let b := blk.toNat
      let d1 := d.phaseLatch n phase
      if crc16 256 b ≠ b % 2 ^ 16 then
        (d1.raise (R.LK_ALARM p) F.LK_ALARM_mgmt_crc).count (laneCtr n 7)
      else
        let d2 := d1.count (laneCtr n 6)
        let tRx := (d2.rxStamp n 0 symbols phase).t48
        let d3 := if d2.bringup n = 6 then d2.delaySamples n (delayPartOf b) tRx
          else d2.setLane n { d2.lane n with rx := some (bits b 247 240, tRx) }
        (d3.partnerInvalid p (bit b 126)).mgmtBody p b

/-- The body that lane index i of port p sends: its type and its 108 bits. CHANGE is counted on lane index 0
(DESIGN CHOICE: log entry 49). -/
def Dev.bodyToSend (d : Dev) (p i : Nat) : (Nat × Nat) × Dev :=
  if d.allLanes p 5 then ((1, (d.capWord p).toNat * 2 ^ 44), d)
  else if !d.linkUp p || d.isPairPort p then ((0, 0), d)
  else
    match d.enumSend p with
    | (some b, e) => ((2, b.toNat), if i = 0 then e else d)
    | (none, _) => ((0, 0), d)

/-- The delay part that lane n sends with the transmit instant given, and the lane after it (R120, R124). -/
def Dev.delayPartTo (d : Dev) (n tx : Nat) : DelayPart × Dev :=
  let x := d.lane n
  let (rxSeq, rxAt) := x.rx.getD (0, 0)
  ({ txTime := BitVec.ofNat 48 tx, rxStamp := BitVec.ofNat 48 rxAt, seq := BitVec.ofNat 8 x.mgmtSeq
     rxSeq := BitVec.ofNat 8 rxSeq, te := BitVec.ofNat 8 d.te, disturb := x.disturb, invalid := !d.timeValid
     rxValid := x.rx.isSome },
    d.setLane n { x with mgmtSeq := (x.mgmtSeq + 1) % 256, sent := (x.mgmtSeq % 256, tx) :: x.sent.take 127 })

/-- A management block of its type, its delay part and its 108 bits of body (R120). -/
def mgmtBlockOf (typ : Nat) (t : DelayPart) (body : Nat) : BitVec 256 :=
  let v := typ * 2 ^ 248 + t.seq.toNat * 2 ^ 240 + t.txTime.toNat * 2 ^ 192 + t.rxStamp.toNat * 2 ^ 144 +
    t.rxSeq.toNat * 2 ^ 136 + t.te.toNat * 2 ^ 128 + (if t.disturb then 2 ^ 127 else 0) +
    (if t.invalid then 2 ^ 126 else 0) + (if t.rxValid then 2 ^ 125 else 0) + body * 2 ^ 16
  BitVec.ofNat 256 (v + crc16 256 v)

/-- The framing counter of port p stands at a management position at which lane index i has not sent (R117). -/
def Dev.mgmtPosition (d : Dev) (p i : Nat) : Dev :=
  let x := d.port p
  let d1 := if x.c % 4096 = 2048 ∧ !x.sentAt.contains i then d else d.advanceTo p (nextAt 4096 2048 x.c)
  d1.setPort p { d1.port p with sentAt := i :: (d1.port p).sentAt }

/-- The recurrence of the in-band management word on a version-1 or version-2 link, once per 4,096 blocks: the capability word
until CAPEX ends, and then the timing content of the delay exchange and what enumeration has to say: a message, or to a
forerunner its 16-bit address (R114, R129, R131, R344) (DESIGN CHOICE: log entry 50). -/
def Dev.inBandManagement (d : Dev) (p : Nat) : Dev :=
  if d.allLanes p 5 then (d.emit (.inBand p (d.capWord p))).capSent p
  else if !d.inBandLink p then d
  else
    let (t, d1) := d.delayPartTo p (t48Add d.now (d.reg (R.LN_TX_DELAY p)).toNat)
    let d2 := d1.emit (.inBandTiming p t)
    if d2.isPairPort p then d2
    else
      match d2.enumSend p with
      | (some b, e) =>
        if d2.isForerunner p then d2.emit (.inBandAddress p (BitVec.ofNat 16 (enumAddr b))) else e.emit (.inBandEnum p b)
      | (none, _) => d2

/-- MANAGEMENT_BLOCK_SEND on lane index i of port p, at the next management position of the framing counter; on versions 1 and 2
the in-band management word (R117, R120, R129, R149) (DESIGN CHOICE: log entry 36). -/
def execManagementBlockSend (p : Fin 64) (i : Fin 8) (s : State) : Result :=
  running s fun d =>
    let n := p.val + i.val
    if decide (d.portLanes p ≤ i) || !d.isazu p || d.txIdle p then d
    else if 3 ≤ d.rateNow p then (if i.val = 0 then d.inBandManagement p else d)
    else if !d.framing3 n then d
    else
      let d0 := d.mgmtPosition p i
      let (body, d1) := d0.bodyToSend p i
      let (t, d2) := d1.delayPartTo n (t48Add d.now (d.reg (R.LN_TX_DELAY n)).toNat)
      let d3 := d2.emit (.mgmtBlock p i (mgmtBlockOf body.1 t body.2))
      if body.1 = 1 then d3.capSent p else d3

/-! Delay publication (R125, R126, R128, R145, R146). -/

/-- The window of lane n has what its publication asks: 150 samples each way at rate code 0, 75 at code 1, and no
disturbance. On versions 1 and 2, of which the manual gives no number, one each way (R126) (DESIGN CHOICE: log entry 50). -/
def Dev.publishable (d : Dev) (n : Nat) (w : Samples) : Bool :=
  let need := if d.rateNow n = 0 then 150 else if d.rateNow n = 1 then 75 else 1
  !w.spoilt && decide (need ≤ w.fwdN) && decide (need ≤ w.revN)

/-- The round trip of a window, 2^-16 ns: the sum of the two means, rounded once to the nearest unit, a half upward. The manual
gives no rounding (R125) (DESIGN CHOICE: log entry 19). -/
def Samples.rtt (w : Samples) : Int := divNear (w.fwdSum * w.revN + w.revSum * w.fwdN) (w.fwdN * w.revN)

/-- The offset of a window with asymmetry a, saturating: rounded once to the nearest unit, a half upward. The manual gives no
rounding (R125) (DESIGN CHOICE: log entry 19). -/
def Samples.ofs (w : Samples) (a : Int) : Int :=
  clampI (-0x7FFFFFFF) 0x7FFFFFFF
    (divNear (w.fwdSum * w.revN - w.revSum * w.fwdN - a * w.fwdN * w.revN) (2 * w.fwdN * w.revN))

/-- The round trip of lane index i of port p in the window now published: published already, or about to be
(DEDUCED: log entry 46). -/
def Dev.rttOf (d : Dev) (p i win : Nat) : Option Int :=
  let x := d.lane (p + i)
  if x.pubAt = some win then
    some (signed 48 ((d.reg (R.LK_DLY_RTT_LO p i)).toNat +
      2 ^ 32 * d.fld (R.LK_DLY_RTT_HI p i) F.LK_DLY_RTT_HI_value_hi))
  else
    match x.closed with
    | some w => if d.publishable (p + i) w then some w.rtt else none
    | none => none

/-- Two-colour measurement runs on port p: enabled, on a version-3 port of at least two lanes that has both lanes named
(R128). -/
def Dev.tcRuns (d : Dev) (p : Nat) : Bool :=
  let w := d.portLanes p
  d.flag (R.LK_TC_CFG p) F.LK_TC_CFG_enable && d.isazu p && decide (d.rateNow p ≤ 1) && decide (2 ≤ w) &&
    decide (d.fld (R.LK_TC_CFG p) F.LK_TC_CFG_lane_a < w) && decide (d.fld (R.LK_TC_CFG p) F.LK_TC_CFG_lane_b < w)

/-- LK_TC_ASYM in a window in which both lanes publish (R128) (DEDUCED: log entry 46). -/
def Dev.twoColour (d : Dev) (p win : Nat) : Dev :=
  let a := d.fld (R.LK_TC_CFG p) F.LK_TC_CFG_lane_a
  let b := d.fld (R.LK_TC_CFG p) F.LK_TC_CFG_lane_b
  if !d.tcRuns p then d
  else match d.rttOf p a win, d.rttOf p b win with
  | some x, some y =>
    let k := d.sfld (R.LK_TC_KAPPA p) F.LK_TC_KAPPA_kappa
    d.setSigned (R.LK_TC_ASYM p) F.LK_TC_ASYM_value (clampI (-0x7FFFFFFF) 0x7FFFFFFF
      (divNear (k * (x - y - d.sfld (R.LK_TC_FIX p) F.LK_TC_FIX_value)) 65536))
  | _, _ => d

/-- The asymmetry A of lane index i: LK_ASYM_CFG, or the measured one for lane_a (R125, R128). -/
def Dev.asymOf (d : Dev) (p i : Nat) : Int :=
  let tc (f : Field) : Nat := d.fld (R.LK_TC_CFG p) f
  if d.tcRuns p ∧ tc F.LK_TC_CFG_apply = 1 ∧ tc F.LK_TC_CFG_lane_a = i ∧
      (d.reg (R.LK_TC_ASYM p)).toNat ≠ 0x80000000 then
    d.sfld (R.LK_TC_ASYM p) F.LK_TC_ASYM_value
  else d.sfld (R.LK_ASYM_CFG p i) F.LK_ASYM_CFG_value

/-- A published window of the time source is an offset sample; the selected reference must be a lane of its port (R145,
R146). -/
def Dev.sourceWindow (d : Dev) (p i : Nat) (ofs : Int) : Dev :=
  if d.timeSource = 2 ∧ p = d.sourcePort ∧ i = d.timeLane p ∧ d.linkUp p ∧ d.flag (R.LK_STATUS p) F.LK_STATUS_timing then
    if d.follows p then d.sample ofs false else d.raise R.TC_ALARM F.TC_ALARM_src_mismatch
  else d

/-- The window of lane index i of port p is published. -/
def Dev.publishWindow (d : Dev) (p i : Nat) (w : Samples) : Dev :=
  let n := p + i
  let win := windowOf d.now
  let d0 := if d.fld (R.LK_TC_CFG p) F.LK_TC_CFG_enable = 1 ∧ d.fld (R.LK_TC_CFG p) F.LK_TC_CFG_lane_a = i then
      d.twoColour p win else d
  let x := d0.lane n
  let count := (x.windows + 1) % 256
  let rtt := unsigned 48 w.rtt
  let ofs := w.ofs (d0.asymOf p i)
  let d1 := d0.setReg (R.LK_DLY_RTT_LO p i) (BitVec.ofNat 32 rtt)
  let d2 := d1.setReg (R.LK_DLY_RTT_HI p i) (wordOf 0 [(F.LK_DLY_RTT_HI_window, count),
    (F.LK_DLY_RTT_HI_value_hi, rtt / 2 ^ 32)])
  let d3 := d2.setSigned (R.LK_DLY_OFS p i) F.LK_DLY_OFS_value ofs
  let d4 := (d3.setFld (R.LK_DLY_STAT p i) F.LK_DLY_STAT_fwd_n (min 255 w.fwdN)).setFld (R.LK_DLY_STAT p i)
    F.LK_DLY_STAT_rev_n (min 255 w.revN)
  let d5 := d4.setLane n { d4.lane n with closed := none, windows := count, pubAt := some win }
  ((if i = d5.timeLane p then d5.enumWindow p else d5).sourceWindow p i ofs).fireCheck

/-- DELAY_PUBLISH, 20 µs after the end of a window (R125, R126). -/
def execDelayPublish (p : Fin 64) (i : Fin 8) (s : State) : Result :=
  running s fun d =>
    let n := p.val + i.val
    if d.portLanes p ≤ i then d
    else
      match (d.lane n).closed with
      | none => d
      | some w =>
        if d.publishable n w then d.publishWindow p i w
        else
          ((d.addSat (R.LK_DLY_STAT p i) F.LK_DLY_STAT_drop_count 1).count (laneCtr n 8)).setLane n
            { d.lane n with closed := none }

/-! Versions 1 and 2 (R129). -/

/-- A trigger word received in band on a link that is up: primitives and decisions as on a trigger block, a word of a type that
is never sent counted as misdirected (R193, R197, R199). -/
def Dev.inBandTrigger (d : Dev) (p : Nat) (w : Word64) : Dev :=
  if !d.engineOn then d.trigErr p F.TG_PORT_ERR_idle 1
  else
    match bits w.toNat 63 60 with
    | 2 => d.setPort p { d.port p with half := some w }
    | 3 =>
      match (d.port p).half with
      | some a => (d.setPort p { d.port p with half := none }).trigDecision p (a.toNat * 2 ^ 64 + w.toNat)
      | none => d.trigErr p F.TG_PORT_ERR_misdirected 1
    | _ => d.trigWord p w.toNat

/-- IN_BAND_WORD on an Isazu version-1 or version-2 link: a capability word; a trigger word; the timing content of a delay
exchange, stamped at a block boundary without the phase readout; an enumeration message; or a forerunner's reply, which stands
for its DONE (R114, R129, R131, R193, R341, R344) (DESIGN CHOICE: log entry 50). -/
def execInBandWord (p : Fin 64) (w : InBand) (s : State) : Result :=
  running s fun d =>
    if !d.isazu p || d.rateNow p < 3 then d
    else
      match w with
      | .word w =>
        if bits w.toNat 63 60 = 6 then d.capReceived p w
        else if d.linkUp p then d.inBandTrigger p w else d
      | .timing t symbols =>
        if !d.linkUp p then d
        else (d.delaySamples p t (d.rxStamp p 0 symbols 0).t48).partnerInvalid p t.invalid
      | .enum body => if d.linkUp p then (d.enumMessage p body).fireCheck else d
      | .reply next =>
        if d.linkUp p && d.isForerunner p then
          (d.enumMessage p (enumBody 2 next.toNat 0 0 0 d.enumSeqNow false)).fireCheck
        else d

end Sys2Proof.Machine
end

