-- ==== Sys2Proof/Machine/Lookup.lean ====
section
/-! DEFINITION. CLASSIFY (R255–R275, R282). -/

namespace Sys2Proof.Machine

/-- CLASSIFY: the pipeline resolves the frame's action; lines read with errors are classified first, and send the frame
to the whey path when uncorrectable. Cells that it holds already, of a first pass or of a reception in FAULT, are charged to the
class resolved, and a frame that will hold none gives its credit back (R233, R242, R255–R275, R282, R351–R354). -/
def execClassify (id : Nat) (errs : List MemErr) (s : State) : Result :=
  running s fun d =>
    match d.sw.fly.find? (fun x => x.frame.id == id) with
    | none => d
    | some x =>
      if x.verdict.isSome then d
      else
        let (d1, extra) := d.readErrs errs
        let (d2, r) := d1.classifyFrame x extra
        let d3 := if x.frame.second.isNone && !x.frame.err then d2.count (portCtr x.frame.port (32 + r.cls)) else d2
        let y := { x with verdict := some r.verdict, rule := r.rule, cls := r.cls, edited := r.octets }
        let d4 := if r.verdict == .discard && x.frame.second.isNone && !(d.sw.store.any fun h => h.id == id) then
            d3.creditReturn x.frame.port (x.frame.cls.getD r.cls) (cellsOf x.frame.octets.length)
          else d3.recharge id r.cls
        ({ d4 with sw := { d4.sw with fly := d4.sw.fly.map fun z => if z.frame.id == id then y else z } } : Dev).yieldTables

end Sys2Proof.Machine
end

