-- ==== Sys2Proof/Machine/Pail.lean ====
section
/-! DEFINITION. The commands of the pail port (R310–R325). -/

namespace Sys2Proof.Machine

/-- PI_READY as the device launches it at an edge, for the edge 16 later: the port is ON and aligned, ROOT is locked, and a
position will be free whatever is presented at the edges between that are already governed high (R313, R320, R322). -/
def Dev.piReady (d : Dev) : Bool :=
  d.pailState == enOn && d.flag R.PL_STATUS F.PL_STATUS_pi_aligned && d.flag R.PL_STATUS F.PL_STATUS_pi_clk &&
    !d.inFault && decide (d.pl.inq.length + (d.pl.ready.filter id).length < 16384)

/-- PI_READY, as it was launched 16 edges ago, is high for the present edge (R313). -/
def Dev.piGoverned (d : Dev) : Bool := d.pl.ready.length == 16 && d.pl.ready.headD false && !d.inFault

/-- One inbound edge passes: the value for the edge 16 later is launched (R313). In a ROOT fault PI_READY is low (R322). -/
def Dev.piEdge (d : Dev) : Dev :=
  if d.inFault then { d with pl := { d.pl with ready := [] } }
  else { d with pl := { d.pl with ready := d.pl.ready ++ [d.piReady] } }

/-- The value that governs the present edge has been used. -/
def Dev.piUsed (d : Dev) : Dev := { d with pl := { d.pl with ready := d.pl.ready.drop (d.pl.ready.length - 15) } }

/-- An error of the inbound direction: its count, port-64 event and alarm (R323, R325). -/
def Dev.piError (d : Dev) (o : Nat) (f : Field) (e : Nat) (alarm : Option Field) : Dev :=
  let d1 := (d.addSat o f 1).count (portCtr 64 e)
  match alarm with
  | some a => d1.raise R.PL_ALARM a
  | none => d1

/-- A parity error (R323). -/
def Dev.piParity (d : Dev) : Dev :=
  d.piError R.PL_PI_PARITY F.PL_PI_PARITY_count 24 (some F.PL_ALARM_parity)
/-- A packet too long or too short (R323). -/
def Dev.piLength (d : Dev) : Dev :=
  d.piError R.PL_PI_LENGTH F.PL_PI_LENGTH_count 26 (some F.PL_ALARM_length)
/-- A word error of primitive mode (R315). -/
def Dev.piWordErr (d : Dev) : Dev :=
  d.piError R.PL_PI_WORD_ERR F.PL_PI_WORD_ERR_count 28 (some F.PL_ALARM_word_err)

/-- A word transferred in primitive mode: on its way to the engine input as source 192, or discarded (R315, R323). -/
def Dev.piPrimitive (d : Dev) (data : Word64) (sb : Byte) : Dev :=
  if !pailParity data sb then d.piParity
  else if !primCrcOk data.toNat then d.piWordErr.raise R.TG_ALARM F.TG_ALARM_word_err
  else if bits data.toNat 63 60 != 1 || !bit sb.toNat 7 then d.piWordErr
  else d.fly 192 (primOf data.toNat)

/-- Octets of a packet's words. -/
def pailOctets (ws : List PailWord) : Nat :=
  ws.foldl (fun n w => if w.eop then n + bits w.sb.toNat 6 4 + 1 else n + 8) 0

/-- A word transferred in packet mode: it joins the packet at the inbound tail; a packet longer than max_frame is
discarded from that word to its eop (R312, R323) (DEDUCED: log entry 111). -/
def Dev.piPacketWord (d : Dev) (w : PailWord) : Dev :=
  if d.pl.skipping then { d with pl := { d.pl with skipping := !w.eop } }
  else
    let head := (d.pl.inq.reverse.dropWhile fun x => !x.eop).reverse
    let tail := d.pl.inq.drop head.length ++ [w]
    if d.fld R.PL_CFG F.PL_CFG_max_frame < pailOctets tail then
      let d1 : Dev := { d with pl := { d.pl with inq := head, skipping := !w.eop } }
      (if tail.any (·.bad) then d1.piParity else d1.piLength).pailLevels
    else ({ d with pl := { d.pl with inq := head ++ tail } } : Dev).pailLevels

/-- A word transfers inbound, in the mode of the port (R314, R315, R323). -/
def Dev.piTake (d : Dev) (data : Word64) (sb : Byte) : Dev :=
  if d.flag R.PL_CFG F.PL_CFG_pi_mode then d.piPrimitive data sb
  else d.piPacketWord { data := data, sb := sb, bad := !pailParity data sb }

/-- PI_WORD: one inbound edge. A word transfers when it is presented and the PI_READY launched 16 edges before is high, and PI_READY
is launched for the edge 16 later (R313–R315, R320, R323) (DEDUCED: log entry 113). -/
def execPiWord (data : Word64) (sb : Byte) (valid : Bool) (s : State) : Result :=
  running s fun d =>
    if d.pailState = enOff then d
    else (if valid && d.piGoverned then d.piUsed.piTake data sb else d.piUsed).piEdge

/-- The octets that a packet's words carry, from bit 63 downward. -/
def pailFrame (ws : List PailWord) : List Byte :=
  ws.flatMap fun w => (beBytes 8 w.data.toNat).take (if w.eop then bits w.sb.toNat 6 4 + 1 else 8)

/-- PI_PACKET_ADMIT: the first whole packet enters port 64, padded and with its FCS, or is discarded for an error; while
port 64 ingress is back-pressured the FIFO does not drain (R314, R323) (DEDUCED: log entry 111). -/
def execPiPacketAdmit (s : State) : Result :=
  running s fun d =>
    let body := d.pl.inq.takeWhile fun w => !w.eop
    match d.pl.inq.drop body.length with
    | [] => d
    | last :: rest =>
      if d.inFault || (List.range 8).any (d.backPressured 64) then d
      else
        let ws := body ++ [last]
        let d1 := ({ d with pl := { d.pl with inq := rest } } : Dev).pailLevels
        let bs := pailFrame ws
        if ws.any (·.bad) then d1.piParity
        else if bit last.sb.toNat 3 then d1.piError R.PL_PI_MARKED F.PL_PI_MARKED_count 25 none
        else if bs.length < 14 then d1.piLength
        else
          let pad := bs ++ List.replicate (60 - bs.length) 0
          d1.inject (d1.ownFrame 64 none pad)

/-- PO_DROP: a rising edge is sampled; it acts 16 edges later on the packet now in progress (R317)
(DEDUCED: log entry 110). -/
def execPoDrop (s : State) : Result :=
  running s fun d =>
    if d.pailState = enOff || d.inFault then d
    else
      let cur := if d.pl.inPacket then some d.pl.packetNo else none
      { d with pl := { d.pl with drops := d.pl.drops ++ [(16, cur)] } }

/-- A drop command acts: the rest of its packet is skipped, or the drop is void (R317) (DEDUCED: log entry 110). -/
def Dev.dropPacket (d : Dev) (target : Option Nat) : Dev :=
  if d.pl.inPacket && target == some d.pl.packetNo then
    let rest := (d.pl.outq.dropWhile fun w => !w.eop).drop 1
    ((({ d with pl := { d.pl with outq := rest, inPacket := false } } : Dev).addSat R.PL_PO_DROP F.PL_PO_DROP_count
      1).count (portCtr 64 29)).pailLevels
  else
    ((d.addSat R.PL_PO_DROP_VOID F.PL_PO_DROP_VOID_count 1).count (portCtr 64 30)).raise R.PL_ALARM
      F.PL_ALARM_drop_void

/-- Every drop command is one edge nearer; those 16 edges old act. -/
def Dev.dropEdges (d : Dev) : Dev :=
  let ds := d.pl.drops.map fun x => (x.1 - 1, x.2)
  (ds.filter fun x => x.1 == 0).foldl (fun d x => d.dropPacket x.2)
    { d with pl := { d.pl with drops := ds.filter fun x => x.1 != 0 } }

/-- The status word of an edge that transfers nothing (R316). -/
def Dev.pailStatus (d : Dev) : Out :=
  let w := 0x5AA5 * 2 ^ 48 + d.pl.outq.length * 2 ^ 32 + (d.pl.outq.filter (·.eop)).length
  let x := pailWord (BitVec.ofNat 64 w) 0
  .pail x.data x.sb false

/-- The training pattern at a rising or falling edge (R313, R316). -/
def pailTraining (rising : Bool) : Out :=
  if rising then .pail 0x5555555555555555 0x55 false else .pail 0xAAAAAAAAAAAAAAAA 0xAA false

/-- PO_WORD: one outbound edge. A word transfers when PO_READY was high 16 edges before; otherwise the status word or
the training pattern is driven with PO_VALID low. Outside GLAZE the outputs are low (R311–R313, R316, R317, R322, R338) (DEDUCED: log entry 113). -/
def execPoWord (ready : Bool) (s : State) : Result :=
  running s fun d =>
    if d.pailState = enOff || d.inFault || !d.inGlaze then d
    else
      let d1 := ({ d with pl := { d.pl with edges := d.pl.edges + 1 } } : Dev).dropEdges
      if d1.pl.training then d1.emit (pailTraining (d.pl.edges % 2 == 0))
      else
        match d1.pl.outq with
        | [] => d1.emit d1.pailStatus
        | w :: rest =>
          if !ready then d1.emit d1.pailStatus
          else
            let n := if d1.pl.inPacket then d1.pl.packetNo else d1.pl.packetNo + 1
            (({ d1 with pl := { d1.pl with outq := rest, inPacket := !w.eop, packetNo := n } } : Dev).pailLevels).emit
              (.pail w.data w.sb true)

/-- PI_CLOCK_LOSS: no PI_CLK edge for 20 ns; a port in ON discards its partial packet (R322). -/
def execPiClockLoss (s : State) : Result :=
  running s fun d =>
    let d0 := (d.setFlag R.PL_STATUS F.PL_STATUS_pi_clk false).setFlag R.PL_STATUS F.PL_STATUS_pi_aligned false
    let d1 : Dev := { d0 with pl := { d0.pl with ready := [] } }
    if d.pailState = enOn then d1.pailPartial.raise R.PL_ALARM F.PL_ALARM_align_lost else d1

/-- PI_CLOCK_RETURN: PI_CLK edges return; alignment starts again (R322). -/
def execPiClockReturn (s : State) : Result :=
  running s fun d => d.setFlag R.PL_STATUS F.PL_STATUS_pi_clk true

/-- PI_ALIGNMENT: sampling is aligned to PI_CLK, which is therefore present (R320). -/
def execPiAlignment (s : State) : Result :=
  running s fun d =>
    if (d.pailState = enStarting || d.pailState = enOn) && !d.inFault then
      (d.setFlag R.PL_STATUS F.PL_STATUS_pi_clk true).setFlag R.PL_STATUS F.PL_STATUS_pi_aligned true
    else d

/-- PO_TRAINING_END: 4,096 edges of training have passed (R316). -/
def execPoTrainingEnd (s : State) : Result :=
  running s fun d => { d with pl := { d.pl with training := false } }

/-- PAIL_STARTING_END: the pail port is ON (R320, R346). -/
def execPailStartingEnd (s : State) : Result :=
  running s fun d =>
    if d.pailState != enStarting || d.inFault then d
    else if !d.flag R.PL_CTRL F.PL_CTRL_enable || !d.inGlaze then d.pailStop
    else d.setFld R.PL_CTRL F.PL_CTRL_state enOn

/-- PAIL_STOPPING_END: whole inbound packets are forwarded and the outbound FIFO has drained; a partial packet at the inbound tail
is discarded, and the port is OFF. In YIELDED, where PO_VALID is low, what the FIFOs hold is discarded (R320, R338, R346)
(DESIGN CHOICE: log entry 119). -/
def execPailStoppingEnd (s : State) : Result :=
  running s fun d =>
    if d.pailState != enStopping || d.inFault || (d.inGlaze && (d.pl.inq.any (·.eop) || !d.pl.outq.isEmpty)) then d
    else
      let d1 := d.pailPartial.pailOff
      if d1.flag R.PL_CTRL F.PL_CTRL_enable && d1.inGlaze then d1.pailStart else d1

end Sys2Proof.Machine
end

