-- ==== Sys2Proof/Machine/Pair.lean ====
section
/-! DEFINITION. The commands of the active-standby pair and the saggar (R405–R420). -/

namespace Sys2Proof.Machine

/-! The pair (R408–R413). -/

/-- ACT_IN_RISE, confirmed: a WAITING device is STANDBY, and an ACTIVE one resolves the tie (R408, R409)
(DESIGN CHOICE: log entry 15) (DEDUCED: log entry 146). -/
def execActInRise (s : State) : Result :=
  awake s fun d =>
    let d1 : Dev := { d with ps := { d.ps with actIn := true } }
    if d1.pairState = 1 then d1.enterStandby
    else if d1.pairState = 3 then
      match d1.ps.claimAt with
      | some t => d1.tieResolve (d1.ticks - t)
      | none => d1.recTie 1
    else d1

/-- ACT_IN_FALL, confirmed, with the phase hit of the takeover in 2^-16 ns (R411) (DEDUCED: log entry 149). -/
def execActInFall (phaseHit : Int) (s : State) : Result :=
  awake s fun d =>
    let d1 : Dev := { d with ps := { d.ps with actIn := false } }
    if d1.standby then d1.takeover phaseHit else d1

/-- CLAIM_TIMEOUT (R408). -/
def execClaimTimeout (s : State) : Result :=
  running s fun d =>
    if d.pairState = 1 ∧ !d.ps.actIn ∧ (d.timeValid || d.flag R.PS_PAIR_CFG F.PS_PAIR_CFG_claim_any) then d.claim else d

/-- CREDIT_RESYNC_END (R412). -/
def execCreditResyncEnd (s : State) : Result := running s fun d => d.creditResync

/-- WATCHDOG_EXPIRY (R413). -/
def execWatchdogExpiry (s : State) : Result := running s fun d => d.yieldOn 16

/-- WATCHDOG_KICK (R420). -/
def execWatchdogKick (w : Word) (s : State) : Result := awake s fun d => d.writeAccess R.PS_WDOG true w

/-- TV_LIMIT_EXPIRY (R413). -/
def execTvLimitExpiry (s : State) : Result := running s fun d => if d.timeValid then d else d.yieldOn 18

/-- YIELD (R413). -/
def execYield (w : Word) (s : State) : Result := awake s fun d => d.writeAccess R.PS_CMD true w

/-- REJOIN (R408). -/
def execRejoin (w : Word) (s : State) : Result := awake s fun d => d.writeAccess R.PS_CMD true w

/-! The saggar (R414–R418). -/

/-- A write of PS_CMD with what its actions find; in SAFE the access rule holds (R430). -/
def Dev.psAccess (d : Dev) (w : Word) (verified : Option Bool) (key image : Option (List Byte)) : Dev :=
  if d.stage = .safe then d.writeAccess R.PS_CMD true w else d.psWrite w verified key image

/-- ZEROIZE; `verified` is the outcome of the read-back (R415) (DESIGN CHOICE: log entry 152). -/
def execZeroize (w : Word) (verified : Bool) (s : State) : Result :=
  awake s fun d => d.psAccess w (some verified) none none

/-- KEY_WRITE with the octets at PS_XFER (R414). -/
def execKeyWrite (w : Word) (key : List Byte) (s : State) : Result := awake s fun d => d.psAccess w none (some key) none

/-- IMG_STORE with the octets at PS_XFER (R417). -/
def execImgStore (w : Word) (octets : List Byte) (s : State) : Result :=
  awake s fun d => d.psAccess w none none (some octets)

/-- First block of an image region in the order of R331. -/
def imageBase (kind : Nat) : Nat := if kind = 1 then 0 else 256

/-- IMG_STORE_END, with the blocks of the region that fail their verification: the verified image replaces the previous one, or
the MRAM has refused a block and the previous image stays (R331, R417). -/
def execImgStoreEnd (fails : List (Fin 13568)) (s : State) : Result :=
  awake s fun d =>
    match d.ps.storing with
    | none => d
    | some (kind, bs) =>
      let d1 : Dev := { d with ps := { d.ps with storing := none } }
      let (d2, ok) := (d1.wornBlocks (fails.map fun i => imageBase kind + i.val)).mramWrites
        ((List.range ((bs.length + 255) / 256)).map (imageBase kind + ·))
      if !ok then d2.recStore kind 2
      else
        ({ d2 with nv := if kind = 1 then { d2.nv with bisque := bs } else { d2.nv with glaze := bs } } : Dev).recStore kind 0

/-- OPEN_CODE (R418). -/
def execOpenCode (w : Word) (s : State) : Result := awake s fun d => d.writeAccess R.PS_OPEN true w

/-- OPEN_FUSE_BLOWN (R418). -/
def execOpenFuseBlown (s : State) : Result :=
  awake s fun d =>
    if !d.ps.blowing then d
    else
      let d1 : Dev := { d with ps := { d.ps with blowing := false }, nv := { d.nv with openFuse := true } }
      (d1.setFlag R.PS_SEC_STATUS F.PS_SEC_STATUS_open true).record 0x15 []

end Sys2Proof.Machine
end

