-- ==== Sys2Proof/Machine/Records.lean ====
section
/-! DEFINITION. The commands of the kiln log and the bandwidth windows (R387–R399). -/

namespace Sys2Proof.Machine

/-- KILN_RECORD_STORE: the oldest queued record is stored or refused; during a clear records wait (R390, R391, R395). -/
def execKilnRecordStore (needsSpare : Bool) (s : State) : Result :=
  awake s fun d => if d.nv.clearing.isSome then d else d.storeRecord needsSpare

/-- OPERATING_MINUTE: a whole minute outside OFF is stored (R387). -/
def execOperatingMinute (s : State) : Result :=
  awake s fun d =>
    (d.headerWrite fun nv => { nv with minutes := min (nv.minutes + 1) 0xFFFFFFFF }).klogReport

/-- CURSOR_READY: the read completes; the record lies in the window, or `none` is set. During a clear every read answers
none (R393). -/
def execCursorReady (s : State) : Result :=
  awake s fun d =>
    if !d.curReading then d
    else
      let d1 := ({ d with curReading := false } : Dev).setFlag R.ER_CURSOR F.ER_CURSOR_ready true
      match (if d.nv.clearing.isSome then none else d.nv.klog[d.fld R.ER_CURSOR F.ER_CURSOR_index]?) with
      | none => d1.setFlag R.ER_CURSOR F.ER_CURSOR_none true
      | some r =>
        (List.range 64).foldl (fun d w => d.setReg (R.ER_WIN w) (BitVec.ofNat 32 (little r (4 * w) 4)))
          (d1.setFlag R.ER_CURSOR F.ER_CURSOR_none false)

/-- KLOG_CLEAR_END: the erase ends; the CLEAR record is stored, queued records follow, and the FINISH completes (R395). -/
def execKlogClearEnd (s : State) : Result :=
  awake s fun d =>
    match d.nv.clearing with
    | none => d
    | some m =>
      let n := d.klogQueue.length
      let d1 := (List.range n).foldl (fun d _ => d.storeRecord false) (d.finishClear m)
      let d2 := (d1.setFlag R.ER_STATUS F.ER_STATUS_clearing false).raise R.ER_ALARM F.ER_ALARM_clear_done
      match d2.hr.clearFor with
      | none => d2
      | some o =>
        ({ d2 with hr := { d2.hr with clearFor := none } } : Dev).finish o 0

/-- The rate field of a window: octets × 8 over the window length, in Mb/s, rounded down (R399). -/
def bwRate (octets ms : Nat) : Nat := min (octets * 8 / (ms * 1000)) 0xFFFFFF

/-- A direction of one port is published and its base moves to the present count. -/
def Dev.bwPublish (d : Dev) (o ctr key : Nat) (fw fr : Field) : Dev :=
  let now := (sGet Ctr.zero d.pc.ctrs ctr).value.toNat
  let n := (now + 2 ^ 48 - sGet 0 d.pc.bwBase key) % 2 ^ 48
  let d1 := (d.setFld o fw d.pc.bwCount).setFld o fr (bwRate n d.pc.bwLen)
  { d1 with pc := { d1.pc with bwBase := sPut 0 d1.pc.bwBase key now } }

/-- BW_WINDOW_END: the octets of the window are published for every port; the next window has the length now configured
(R399). -/
def execBwWindowEnd (s : State) : Result :=
  awake s fun d =>
    let d0 : Dev := { d with pc := { d.pc with bwCount := (d.pc.bwCount + 1) % 256 } }
    let d1 := (List.range 67).foldl (fun d p =>
      (d.bwPublish (R.PC_BW_RX p) (portCtr p 1) (2 * p) F.PC_BW_RX_window F.PC_BW_RX_rate).bwPublish (R.PC_BW_TX p)
        (portCtr p 3) (2 * p + 1) F.PC_BW_TX_window F.PC_BW_TX_rate) d0
    { d1 with pc := { d1.pc with bwLen := d1.fld R.PC_BW_CFG F.PC_BW_CFG_window } }

end Sys2Proof.Machine
end

