-- ==== Sys2Proof/Machine/Setup.lean ====
section
/-! DEFINITION. The commands that are accesses to the setup registers, and writes of registers whose rows stand in no other
family (R8, R275, R277, R308, R352, R380–R393, R421–R430). -/

namespace Sys2Proof.Machine

/-- REGISTER_WRITE: in BAR0 a write whose byte enables cover all four bytes acts; in BAR2 the enabled bytes of the MSI-X table
change (R287, R422, R423) (DESIGN CHOICE: log entry 6) (DEDUCED: log entry 159). -/
def execRegisterWrite (bar : Bar) (off : BitVec 20) (be : BitVec 4) (w : Word) (s : State) : Result :=
  awake s fun d =>
    match bar with
    | .bar0 => d.writeAccess off.toNat (be == 15) w
    | .bar2 => d.msixWrite off.toNat be w

/-- RESERVED_ACCESS: an offset that a map names is not reserved (R424) (DEDUCED: log entry 161). -/
def execReservedAccess (off : BitVec 20) (write : Bool) (s : State) : Result :=
  awake s fun d =>
    if (regSpec off.toNat).isSome then d
    else if write then d.writeAccess off.toNat true 0
    else d.readAccess off.toNat

/-- CLEARING_READ (R8) (DEDUCED: log entry 160). -/
def execClearingRead (off : BitVec 20) (s : State) : Result := awake s fun d => d.readAccess off.toNat

/-- WIN_BASE_COMMIT (R190). -/
def execWinBaseCommit (c : Fin 128) (w : Word) (s : State) : Result :=
  awake s fun d => d.writeAccess (R.EC_WIN_BASE_HI c) true w

/-- SHADOW_COMMIT (R277). -/
def execShadowCommit (t : Fin 4) (w : Word) (s : State) : Result :=
  awake s fun d => d.writeAccess (R.CL_SHADOW_HI t) true w

/-- PAGE_BASE_COMMIT (R308). -/
def execPageBaseCommit (doorbell : Bool) (w : Word) (s : State) : Result :=
  awake s fun d => d.writeAccess (if doorbell then R.HR_DB_BASE_HI else R.HR_ST_BASE_HI) true w

/-- CE_CLEAR (R352). -/
def execCeClear (w : Word) (s : State) : Result := awake s fun d => d.writeAccess R.MI_CE_CLEAR true w

/-- CAL_OP_START (R380). -/
def execCalOpStart (w : Word) (s : State) : Result := awake s fun d => d.writeAccess R.CA_CMD true w

/-- DELTA_STORE (R383). -/
def execDeltaStore (w : Word) (s : State) : Result := awake s fun d => d.writeAccess R.CA_STORE true w

/-- DELTA_DISCARD (R383). -/
def execDeltaDiscard (w : Word) (s : State) : Result := awake s fun d => d.writeAccess R.CA_STORE true w

/-- DELTA_WRITE (R386). -/
def execDeltaWrite (w : Word) (s : State) : Result := awake s fun d => d.writeAccess R.CA_DELTA_VAL true w

/-- CURSOR_WRITE (R393). -/
def execCursorWrite (w : Word) (s : State) : Result := awake s fun d => d.writeAccess R.ER_CURSOR true w

/-- CURSOR_ADVANCE (R393). -/
def execCursorAdvance (w : Word) (s : State) : Result := awake s fun d => d.writeAccess R.ER_ADVANCE true w

/-! Telemetry (R300, R400). -/

/-- The octets of a telemetry record. -/
def Dev.telRecord (d : Dev) (m : TelMeas) : List Byte :=
  let failed := (List.range 16).foldl (fun a i => if d.flag (R.CA_TEMP i) F.CA_TEMP_failed then a + 2 ^ i else a) 0
  let carries (n : Nat) : Bool := d.bringup n == 6 || d.bringup n == 7 || d.bringup n == 8
  leBytes 2 1 ++ leBytes 2 d.pc.telSeq ++ leBytes 6 d.now ++ leBytes 1 d.te ++
    leBytes 1 (one (!d.timeValid) + 2 * one (d.pc.telFault || d.inFault)) ++ leBytes 4 d.nv.minutes ++
    (List.range 16).flatMap (fun i => leBytes 2 (unsigned 16 (d.temp i))) ++ leBytes 2 failed ++ leBytes 2 0 ++
    (List.range 7).flatMap (fun i => leBytes 2 (m.rails.getD i (0, 0)).1.toNat ++ leBytes 2 (m.rails.getD i (0, 0)).2.toNat) ++
    leBytes 2 m.power.toNat ++ leBytes 2 0 ++
    leBytes 1 (d.cleaner + 8 * d.fld R.CK_STATUS F.CK_STATUS_conflict + 16 * d.fld R.CK_STATUS F.CK_STATUS_hold_valid) ++
    leBytes 1 d.selRef ++ leBytes 1 (d.fld R.CK_STATUS F.CK_STATUS_bw_now) ++ leBytes 1 d.validity ++
    leBytes 4 (unsigned 32 d.ck.dcoNow) ++ leBytes 4 (d.reg R.TC_OFS_LAST).toNat ++
    leBytes 4 (d.reg R.CK_PHASE_SP).toNat ++ leBytes 28 0 ++
    (List.range 64).flatMap (fun n =>
      if carries n then [(m.eyes.getD n (0, 0)).1, (m.eyes.getD n (0, 0)).2] else [255, 255]) ++
    (List.range 64).flatMap (fun n => leBytes 4 (m.fec.getD n 0).toNat)

/-- The operating ranges of the rails, in units of 0.1 mV, in the order of the telemetry record (R439). -/
def railRange : List (Nat × Nat) :=
  [(7275, 7725), (8245, 8755), (8730, 9270), (11640, 12360), (9700, 10300), (17100, 18900), (17100, 18900)]

/-- A rail mean lies outside its operating range (R400, R439) (DEDUCED: log entry 158). -/
def supplyBad (m : TelMeas) : Bool :=
  (m.rails.zip railRange).any fun x => decide (10 * x.1.1.toNat < x.2.1) || decide (x.2.2 < 10 * x.1.1.toNat)

/-- TELEMETRY_RECORD: at a 10 ms boundary in GLAZE and YIELDED with telemetry enabled, a record is written to its ring or lost;
with telemetry disabled only the interval ends (R300, R400) (DEDUCED: log entry 158). -/
def execTelemetryRecord (m : TelMeas) (s : State) : Result :=
  running s fun d =>
    if !(d.stage == .glaze || d.stage == .yielded) then d
    else if !d.flag R.PC_TEL_CFG F.PC_TEL_CFG_enable then { d with pc := { d.pc with telFault := d.inFault } }
    else
      let d0 := if supplyBad m then d.raise R.PC_ALARM F.PC_ALARM_supply_range else d
      let d1 : Dev := { d0 with pc := { d0.pc with telSeq := (d0.pc.telSeq + 1) % 65536, telFault := d0.inFault } }
      let r := d1.fld R.HR_CTRL F.HR_CTRL_tel_ring
      if d1.ringState r = enOn ∧ d1.ringType r = 7 ∧ !d1.ringFull r then d1.ringWrite r (d.telRecord m)
      else
        let q := d1.ring r
        (((d1.setRing r { q with lost := (q.lost + 1) % 2 ^ 32 }).raise R.HR_ALARM F.HR_ALARM_tel_lost).count
          (devCtr 6)).writeStatus r

end Sys2Proof.Machine
end

