-- ==== Sys2Proof/Machine/Stages.lean ====
section
/-! DEFINITION. The commands of the stages (R326–R340, R364, R378, R451). -/

namespace Sys2Proof.Machine

/-! Reset (R330). -/

/-- What a reset leaves of the non-volatile store: a delta store in progress leaves the copy it writes without a valid CRC
(R330, R383) (DEDUCED: log entry 122). -/
def Dev.nvAfterReset (d : Dev) : Nv :=
  if !d.ca.storing then d.nv
  else
    let second := d.nv.copyB.good && (!d.nv.copyA.good || decide (d.nv.copyA.seq < d.nv.copyB.seq))
    if second then { d.nv with copyA := { d.nv.copyA with good := false } }
    else { d.nv with copyB := { d.nv.copyB with good := false } }

/-- The device goes to OFF: all state but the non-volatile store and the levels at its balls is lost
(DEDUCED: log entry 122). -/
def Dev.toOff (d : Dev) : Dev := Dev.cold d.nvAfterReset d.pins d.out d.free

/-- A command that acts in every stage, connected scan chains included (R367). -/
def resets (s : State) (f : Dev → Dev) : Result := .next { s with dev := (f s.dev).settle }

/-- RESET_ASSERT (R330). -/
def execResetAssert (s : State) : Result := resets s Dev.toOff

/-- PWR_OK_FALL (R330). -/
def execPwrOkFall (s : State) : Result := resets s Dev.toOff

/-! Bisque (R333). -/

/-- Bisque has an image that it does not load: the IMAGE record, then SAFE with the cause to match (R327). -/
def Dev.bisqueFail (d : Dev) (event index cause : Nat) : Dev := (d.recImage 1 event index).enterSafe cause

/-- Bisque to the application of its records, on an image that has passed its checks. The steps that follow apply them, and the
first lock attempt begins behind the last (R333). -/
def Dev.bisqueLoad (d : Dev) (temps : List Int) : Dev :=
  let d1 := (d.setTemps temps).loadDeltas.calStart
  match loadRecords 1 d1.nv.bisque with
  | .error k => d1.bisqueFail 5 k 6
  | .ok rs => d1.beginLoad 1 rs

/-- The start of bisque: the power-cycle count, a clear of the kiln log left over, and the reports of the non-volatile store
(R333, R387, R395, R407, R420) (DESIGN CHOICE: log entry 115). -/
def Dev.bisqueBegin (d : Dev) : Dev :=
  let d1 : Dev := { d with stage := .bisque }
  let d2 := d1.headerWrite fun nv => { nv with pwr := min (nv.pwr + 1) 0xFFFFFFFF }
  let d3 := match d2.nv.clearing with
    | some m => d2.finishClear m
    | none => d2
  ((d3.klogReport.filledReport).setFlag R.PS_SEC_STATUS F.PS_SEC_STATUS_open d3.nv.openFuse).setFlag R.PS_PAIR_STATUS
    F.PS_PAIR_STATUS_role d3.pins.pairRole

/-- An image fails its verification (R417) (DEDUCED: log entry 156). -/
def Dev.sigFail (d : Dev) : Dev := d.raise R.PS_ALARM F.PS_ALARM_sig_fail

/-- An image is loaded without a valid signature (R418). -/
def Dev.unsignedLoad (d : Dev) : Dev := d.setFlag R.PS_SEC_STATUS F.PS_SEC_STATUS_unsigned true

/-- RESET_RELEASE: bisque up to the application of the image's records, at the die temperatures given (R327, R333, R417)
(DESIGN CHOICE: log entry 115). -/
def execResetRelease (temps : List Int) (s : State) : Result :=
  always s fun d =>
    if d.stage != .off then d
    else
      let d1 := d.bisqueBegin
      match d1.checkImage 1 d1.nv.bisque with
      | .absent => d1.bisqueFail 1 0 1
      | .badCrc => d1.sigFail.bisqueFail 2 0 2
      | .badSignature => d1.sigFail.bisqueFail 3 0 3
      | .good => d1.bisqueLoad temps
      | .unsigned => d1.unsignedLoad.bisqueLoad temps

/-- BISQUE_COMPLETE: after the first lock the enabled outputs and lanes start, and firing begins (R333, R335). -/
def execBisqueComplete (s : State) : Result :=
  running s fun d =>
    if d.stage = .bisque ∧ d.rootLocked then ({ d with stage := .firing, fireStep := 1 } : Dev).applyEnables else d

/-! PCIe (R333, R451). -/

/-- PCIE_PERST_RELEASE: the link trains at a speed and width, unless the device is still in reset (R286, R333)
(PRESUMED: log entry 123). -/
def execPciePerstRelease (speed width : Fin 16) (s : State) : Result :=
  always s fun d =>
    let d1 : Dev := { d with pins := { d.pins with perstHigh := true } }
    if d1.stage = .off then d1
    else
      (({ d1 with hr := { d1.hr with linkUp := true } } : Dev).setFld R.HR_PCIE_STAT F.HR_PCIE_STAT_speed speed).setFld
        R.HR_PCIE_STAT F.HR_PCIE_STAT_width width

/-- PCIE_PERST_ASSERT: the link is down and the HR block behaves as after a function-level reset (R451). -/
def execPciePerstAssert (s : State) : Result :=
  always s fun d =>
    let d1 : Dev := { d with pins := { d.pins with perstHigh := false } }
    if d1.stage = .off then d1
    else (({ d1 with hr := { d1.hr with linkUp := false } } : Dev).setReg R.HR_PCIE_STAT 0).flrBegin

/-! Firing (R335, R336, R364, R378). -/

/-- A failing row of the firing BIST; the answer says whether the device can go on (R364). -/
def Dev.bistFail (d : Dev) (x : BistFail) : Dev × Bool :=
  if x.mem = 0 then (if x.row < 48 then d.retireBank x.row else d.spareFail, true)
  else if x.mem ≤ 11 then
    let o := R.MI_MEM_SPARE x.mem
    if d.fld o F.MI_MEM_SPARE_used < d.fld o F.MI_MEM_SPARE_total then
      ((d.addSat o F.MI_MEM_SPARE_used 1).recBist x.mem 1 x.row, true)
    else (d.recBist x.mem 4 x.row, false)
  else (d.recBist x.mem 4 x.row, false)

/-- FIRING_BIST_DONE (R335, R364). -/
def execFiringBistDone (fails : List BistFail) (s : State) : Result :=
  running s fun d =>
    if d.stage != .firing || d.fireStep != 1 then d
    else
      let (d1, ok) := fails.foldl (fun acc x =>
        let (e, ok) := acc.1.bistFail x
        (e, acc.2 && ok)) (d, true)
      if ok then { d1 with fireStep := 2 } else d1.enterSafe 4

/-- The load of the glaze image begins when the image passes its checks; what fails is told at GLAZE_IMAGE_LOADED (R332, R336). -/
def Dev.glazeBegin (d : Dev) : Dev :=
  if d.checkImage 2 d.nv.glaze == .good || d.checkImage 2 d.nv.glaze == .unsigned then
    (match loadRecords 2 d.nv.glaze with
     | .ok rs => d.beginLoad 2 rs
     | .error _ => d)
  else d

/-- FIRING_CALIBRATION_DONE: the sensor check, the results, and the start of step 3 from the source that GL_CTRL.glaze_src
names (R335, R336, R373, R378). -/
def execFiringCalibrationDone (temps : List Int) (results : List CalMeas) (s : State) : Result :=
  running s fun d =>
    if d.stage != .firing || d.fireStep != 2 then d
    else
      let d1 := (d.setTemps temps).sensorCheck.recompute fun _ => true
      let d2 : Dev := { results.foldl (fun d m => d.firingResult m) d1 with fireStep := 3 }
      if d2.flag R.GL_CTRL F.GL_CTRL_glaze_src then d2.waitHost else d2.glazeBegin

/-- The glaze image is not loaded: it is logged, and the host configures the device (R336). -/
def Dev.glazeFail (d : Dev) (event index : Nat) : Dev := (d.recImage 2 event index).waitHost

/-- The last of the glaze image's records is applied, and firing step 4 begins (DESIGN CHOICE: log entry 116). -/
def Dev.glazeLoad (d : Dev) : Dev :=
  match loadRecords 2 d.nv.glaze with
  | .error k => d.glazeFail 5 k
  | .ok rs => ((if d.load.isSome then d else d.beginLoad 2 rs).loadRest).fireWalk

/-- GLAZE_IMAGE_LOADED: the image has been checked and the rest of its records are applied, or the load falls back to the host
(R332, R336, R417) (DESIGN CHOICE: log entry 116). -/
def execGlazeImageLoaded (s : State) : Result :=
  running s fun d =>
    if d.stage != .firing || d.fireStep != 3 || d.glazeWait then d
    else
      match d.checkImage 2 d.nv.glaze with
      | .absent => d.glazeFail 1 0
      | .badCrc => d.sigFail.glazeFail 2 0
      | .badSignature => d.sigFail.glazeFail 3 0
      | .good => d.glazeLoad
      | .unsigned => d.unsignedLoad.glazeLoad

/-- A step in which no command waits: the next record of a load in progress is applied; without one nothing happens (R332, R333,
R336) (DESIGN CHOICE: log entries 1, 115, 116). -/
def idle (s : State) : Result :=
  if s.dev.load.isNone then .next s else always s fun d => d.loadNext

/-- GLAZE_WRITE (R435). -/
def execGlazeWrite (w : Word) (s : State) : Result := awake s fun d => d.writeAccess R.GL_CTRL true w

end Sys2Proof.Machine
end

