-- ==== Sys2Proof/Machine/TimeCore.lean ====
section
/-! DEFINITION. The commands of the time core (R137–R148). -/

namespace Sys2Proof.Machine

/-- INCR_COMMIT (R138). -/
def execIncrCommit (w : Word) (s : State) : Result := awake s fun d => d.writeAccess R.TC_INCR_HI true w

/-- The low register of a latched group (R425). -/
def latchLow : LatchGroup → Nat
  | .tcNow => R.TC_NOW_LO
  | .tcPpsStamp => R.TC_PPS_STAMP_LO
  | .lkDly p i => R.LK_DLY_RTT_LO p i
  | .portRange p => R.GL_PORT_RANGE p

/-- LATCHING_READ (R425) (DEDUCED: log entry 160). -/
def execLatchingRead (g : LatchGroup) (s : State) : Result := awake s fun d => d.readAccess (latchLow g)

/-- STEP_COMMIT (R141). -/
def execStepCommit (w : Word) (s : State) : Result := awake s fun d => d.writeAccess R.TC_STEP_HI true w

/-- STEP_APPLY (R141–R144). In SAFE, where the cleaner reads FAULT, a step still pending is refused (R40, R141). -/
def execStepApply (s : State) : Result := awake s fun d => d.stepNow

/-- SOURCE_WRITE (R147). -/
def execSourceWrite (w : Word) (s : State) : Result := awake s fun d => d.writeAccess R.TC_SRC_CFG true w

/-- HOST_VALID_WRITE (R147). -/
def execHostValidWrite (w : Word) (s : State) : Result := awake s fun d => d.writeAccess R.TC_CTRL true w

/-! The 1PPS source (R33, R34, R36, R145, R149). -/

/-- 10^9 ns on the T48 scale. -/
def second : Nat := ns 1000000000

/-- An edge of a 1PPS input as its own qualification sees it; `at_` is its instant in ps of ROOT time. A period that holds a
part of a ROOT loss of lock is not measured (R36). -/
def Dev.ppsQualEdge (d : Dev) (k at_ : Nat) : Dev :=
  if !d.flag (R.CK_REF_STATUS k) F.CK_REF_STATUS_active then d
  else
    let x := d.refH k
    let d1 := d.setRefH k { x with lastEdge := some at_, spoilt := d.inFault }
    match x.lastEdge with
    | none => d1
    | some t =>
      if x.spoilt || d.inFault then d1
      else (d1.publishFoff k (1000000000000 - ((at_ : Int) - t))).refEval k

/-- The stamp of an edge at REFIN k, `since` 2^-16 ns after the last TIME tick: the input delay constant in force is
taken off and the trim in force, in codes of 2.0 ps, is added (R149, R372, R376) (DEDUCED: log entry 57). -/
def Dev.refStamp (d : Dev) (k since : Nat) : Stamp :=
  d.stampAt ((since : Int) - sGet 0 d.ca.inForce (itemKey 8 k 0) +
    divNear (sGet 0 d.ca.inForce (itemKey 9 k 0) * 131072) 1000)

/-- An edge of the 1PPS time source: stamped, and taken as an offset sample when the reference is QUALIFIED and the edge lies
within 500 µs of TC_PPS_EXPECT, or is the first of a source with realign (R145) (DEDUCED: log entries 56, 58). -/
def Dev.ppsSourceEdge (d : Dev) (stamp : Stamp) : Dev :=
  let d1 := (d.setReg R.TC_PPS_STAMP_LO (BitVec.ofNat 32 stamp.t48)).setReg R.TC_PPS_STAMP_HI
    (wordOf 0 [(F.TC_PPS_STAMP_HI_te, stamp.te), (F.TC_PPS_STAMP_HI_invalid, one stamp.invalid),
      (F.TC_PPS_STAMP_HI_t48_hi, stamp.t48 / 2 ^ 32)])
  let ofs := t48Sub stamp.t48 d1.tc.expect
  let near := decide (ofs.natAbs ≤ ns 500000)
  let ok := d1.qualified (d1.fld R.TC_SRC_CFG F.TC_SRC_CFG_refin)
  let first := d1.tc.firstEdge && d1.flag R.TC_SERVO_CFG F.TC_SERVO_CFG_realign
  let expect := if near || (ok && first) then t48Add d1.tc.expect second else d1.tc.expect
  let d2 : Dev := { d1 with tc := { d1.tc with expect := expect, firstEdge := d1.tc.firstEdge && !ok } }
  if !ok then d2
  else if near || first then d2.sample ofs true
  else d2.raise R.TC_ALARM F.TC_ALARM_src_lost

/-- PPS_REF_EDGE: `sinceTick` in 2^-16 ns, `rootPs` in ps of ROOT time. The edge qualifies the reference, is stamped where
it is the time source, and calibration values that waited for it apply (R34, R145, R375)
(DESIGN CHOICE: log entry 24) (DEDUCED: log entry 57). -/
def execPpsRefEdge (k : Fin 4) (sinceTick rootPs : Nat) (s : State) : Result :=
  running s fun d =>
    if !d.isPps k then d
    else
      let stamp := d.refStamp k sinceTick
      let d1 := d.ppsQualEdge k rootPs
      let d2 := if d1.timeSource = 1 ∧ d1.fld R.TC_SRC_CFG F.TC_SRC_CFG_refin = k then d1.ppsSourceEdge stamp else d1
      d2.refApply k

/-- PPS_EXPECT_MISSED (R145). -/
def execPpsExpectMissed (s : State) : Result :=
  running s fun d =>
    if d.timeSource = 1 then { d with tc := { d.tc with expect := t48Add d.tc.expect second } } else d

/-- PPS_EXPECT_COMMIT (R145). -/
def execPpsExpectCommit (w : Word) (s : State) : Result := awake s fun d => d.writeAccess R.TC_PPS_EXPECT_HI true w

/-- HOLD_LIMIT_EXPIRY (R147). -/
def execHoldLimitExpiry (s : State) : Result :=
  running s fun d => if d.validity = 3 then d.validLost.raise R.TC_ALARM F.TC_ALARM_hold_expired else d

/-- TIME_TICK: in every stage with a clock, SAFE and its backup oscillator included; edges crossed 25.6 ns before reach their window
decision (R137, R138, R169, R170, R339, R47, R48) (DESIGN CHOICE: log entry 3) (DEDUCED: log entry 53). -/
def execTimeTick (s : State) : Result := awake s fun d => d.tick.decideDue

end Sys2Proof.Machine
end

