-- ==== Sys2Proof/Machine/Trigger.lean ====
section
/-! DEFINITION. The commands of the trigger plane (R193–R227). -/

namespace Sys2Proof.Machine

/-- PRIMITIVE_ARRIVAL: a primitive of source `src` reaches the engine input (R198, R199). -/
def execPrimitiveArrival (src : Fin 194) (w : Word64) (s : State) : Result :=
  running s fun d => d.engineArrive src (primOf w.toNat)

/-- MERGE_BUFFER_ADMIT: the oldest waiting primitive is admitted; one lost in both copies is not used (R199, R200, R203,
R361). -/
def execMergeBufferAdmit (dup : DupRead) (s : State) : Result :=
  running s fun d =>
    if !d.engineOn || d.tg.merge.isEmpty then d
    else
      let (d1, lost) := d.readDup 14 dup
      if lost then { d1 with tg := { d1.tg with merge := d1.tg.merge.drop 1 } } else d1.admitPrims

/-- An open window before its first primitive. -/
def Win.opened (start : Nat) : Win := { start := start, counts := List.replicate 8 0, first := none, tDec := none }

/-- UNIT_WINDOW_OPEN: unit u in ON opens the next window of its series. A cancelled window is not opened; a window that
would need a 65th position is skipped (R202, R205, R207, R214) (DEDUCED: log entry 73). -/
def execUnitWindowOpen (u : Fin 4096) (s : State) : Result :=
  running s fun d =>
    match d.unitRun? u with
    | none => d
    | some x =>
      if d.fld (R.TG_CU_CTRL u) F.TG_CU_CTRL_state != enOn || !d.timeValid then d
      else
        let y := { x with next := t48Add x.next (unitStep x.entry : Nat) }
        if cancelled x.cancel d.ticks x.next then d.setUnitRun u y
        else if 64 ≤ x.wins.length then (d.setUnitRun u y).count (unitCtr u 6)
        else d.setUnitRun u { y with wins := x.wins ++ [Win.opened x.next] }

/-- The first window that has not closed takes its t_dec. -/
def closeNext (e : List Word) : List Win → List Win
  | [] => []
  | w :: ws => if w.tDec.isNone then { w with tDec := some (closeAt e w.start) } :: ws else w :: closeNext e ws

/-- UNIT_WINDOW_CLOSE: the oldest window of unit u closes and is evaluated; while the unit holds, the oldest window still open closes
and its evaluation waits (R202, R204, R205, R207) (DEDUCED: log entry 73). -/
def execUnitWindowClose (u : Fin 4096) (s : State) : Result :=
  running s fun d =>
    match d.unitRun? u with
    | none => d
    | some x =>
      match x.wins with
      | [] => d
      | w :: _ =>
        if x.heldAt.isSome then d.setUnitRun u { x with wins := closeNext x.entry x.wins }
        else d.closeWin u (closeAt x.entry w.start)

/-- UNIT_OUTPUT: the oldest output of unit u leaves it, or the unit holds (R206, R207). -/
def execUnitOutput (u : Fin 4096) (s : State) : Result :=
  running s fun d =>
    match d.unitRun? u with
    | none => d
    | some x =>
      match x.outs with
      | [] => d
      | o :: os =>
        if x.heldAt.isSome then d
        else
          match d.placeOut u x o with
          | some e => e.setUnitRun u { x with outs := os }
          | none => (d.setUnitRun u { x with heldAt := some d.ticks }).raise R.TG_ALARM F.TG_ALARM_hold

/-- UNIT_HOLD_RELEASE: the held output of unit u is placed once it can be; the CORE cycles held are counted (R207,
R227). -/
def execUnitHoldRelease (u : Fin 4096) (s : State) : Result :=
  running s fun d =>
    match d.unitRun? u with
    | none => d
    | some x =>
      match x.heldAt, x.outs with
      | some t, o :: os =>
        match d.placeOut u x o with
        | some e => (e.setUnitRun u { x with outs := os, heldAt := none }).count (unitCtr u 7) ((d.ticks - t) * 5 / 2)
        | none => d
      | _, _ => d

/-- UNIT_STARTING_END: unit u takes a copy of its entry and is ON; its first window is the first of the series that
starts later. It waits for a diverted line that can be restored, and starts with every slot unused on one that cannot
(R208, R346, R354, R357). -/
def execUnitStartingEnd (u : Fin 4096) (s : State) : Result :=
  running s fun d =>
    if d.fld (R.TG_CU_CTRL u) F.TG_CU_CTRL_state != enStarting || d.inFault then d
    else
      let stuck := d.mi.stuck.contains (7, u.val)
      if d.mi.diverted.contains (7, u.val) && !stuck then d
      else if !d.flag (R.TG_CU_CTRL u) F.TG_CU_CTRL_enable || !d.engineOn then d.unitStop u
      else
        let e := if stuck then [] else sGet [] d.tg.unitTab u
        (d.setUnitRun u
          { entry := e, wins := [], next := seriesStart (unitStep e) d.now, cancel := none, prescale := 0, outs := [],
            heldAt := none }).setUnitState u enOn

/-- UNIT_STOPPING_END: unit u has evaluated its windows and placed its outputs, and is OFF; an enable of 1 starts it
again while the engine is ON (R208, R346). -/
def execUnitStoppingEnd (u : Fin 4096) (s : State) : Result :=
  running s fun d =>
    if d.fld (R.TG_CU_CTRL u) F.TG_CU_CTRL_state != enStopping || d.inFault then d
    else if (match d.unitRun? u with
             | some x => !x.wins.isEmpty || !x.outs.isEmpty
             | none => false) then d
    else
      let d1 := d.unitOff u
      if d1.flag (R.TG_CU_CTRL u) F.TG_CU_CTRL_enable && d1.engineOn then d1.unitStart u else d1

/-- DECISION_RELEASE: the scheduler releases one decision, a received one before an own one (R211, R212). -/
def execDecisionRelease (s : State) : Result :=
  running s fun d =>
    match d.tg.received, d.tg.own with
    | x :: xs, _ => ({ d with tg := { d.tg with received := xs } } : Dev).release x
    | [], x :: xs => ({ d with tg := { d.tg with own := xs } } : Dev).release x
    | [], [] => d

/-- A pending decision lost in both copies is not used, as a decision word that fails its CRC (R196, R361). -/
def Dev.loseDecision (d : Dev) (x : PendDec) : Dev :=
  (((({ d with tg := { d.tg with pending := d.tg.pending.erase x } } : Dev).raise R.TG_ALARM F.TG_ALARM_word_err).count
    (devCtr 4) 2).recDecision 2 d.te x.dec.action x.dec.tExec x.dec.origin)

/-- DECISION_EXECUTE: the next pending decision starts; its action line is read first. Pending decisions wait while
TIME_VALID is low, and are not executed by a standby (R213, R214, R354, R361, R410). -/
def execDecisionExecute (errs : List MemErr) (dup : DupRead) (s : State) : Result :=
  running s fun d =>
    if !d.timeValid || d.standby then d
    else
      match d.nextPending with
      | none => d
      | some x =>
        let (d1, lost) := d.readDup 13 dup
        if lost then d1.loseDecision x
        else ((d1.readErrs (errs.filter fun e => e.mem == 8 && e.line == x.dec.action)).1.startDecision x).yieldTables

/-! Readout (R218, R219). -/

/-- The decision whose readout is next: of those started with channels left, the first in T_exec order. -/
def Dev.nextReadout (d : Dev) : Option PendDec :=
  d.tg.pending.foldl (fun best x =>
    if !x.started || x.readout.isEmpty then best
    else match best with
      | none => some x
      | some b => if t48Sub x.dec.tExec b.dec.tExec < 0 then some x else best) none

/-- The history of channel c, oldest first, each record with the line that holds it. -/
def Chan.histLines (x : Chan) (c : Nat) : List (Nat × EdgeRec) :=
  ((List.range x.hist.length).zip x.hist).reverse.map fun e => (histLine c (x.histPos - 1 - e.1), e.2)

/-- A record made in the last 2^30 ticks, 1.7 s: its instant and one near the counter differ by less than half of T48's range. -/
def Dev.recent (d : Dev) (r : EdgeRec) : Bool := decide (d.ticks < r.made + 2 ^ 30)

/-- Was channel c not live at an instant? The reasons in force now, with every later marker undone (R175)
(DEDUCED: log entry 77). -/
def Dev.deadAt (d : Dev) (c t : Nat) : Bool :=
  let x := d.chan c
  let now := if d.chanState c = enOff then [3] else x.dead
  let waits := (d.ec.waits.filter fun w => w.chan == c).map (·.rec_)
  let marks := ((x.hist.reverse ++ x.queue ++ x.held ++ waits).filter fun r =>
    (r.kind == 2 || r.kind == 3) && d.recent r && decide (0 < t48Sub r.t48 t)).reverse
  !(marks.foldl (fun s r => if r.kind = 2 then s.erase r.aux else r.aux :: s) now).isEmpty

/-- The readout header of 32 bytes (R219). -/
def readoutHeader (node : Nat) (x : PendDec) (flags chan frame n total : Nat) : List Byte :=
  beBytes 2 1 ++ beBytes 3 node ++ beBytes 1 x.teStart ++ beBytes 6 x.dec.tExec ++ beBytes 3 x.dec.origin ++
    beBytes 1 flags ++ beBytes 2 x.dec.action ++ beBytes 1 chan ++ beBytes 1 (frame % 256) ++ beBytes 2 n ++
    beBytes 2 (min total 0xFFFF) ++ beBytes 4 (entryBits x.act 6 19 0) ++ beBytes 4 (entryBits x.act 7 19 0)

/-- A channel's records cut into frames of at most `n`; one empty frame when there are none. -/
def readoutFrames (n : Nat) : Nat → List EdgeRec → List (List EdgeRec)
  | 0, rs => [rs]
  | k + 1, rs => if rs.length ≤ n then [rs] else rs.take n :: readoutFrames n k (rs.drop n)

/-- The frames of one channel of a decision leave for port 66 (R218). -/
def Dev.sendReadout (d : Dev) (x : PendDec) (c t flags : Nat) (recs : List EdgeRec) : Dev :=
  let frames := readoutFrames (d.batch t) recs.length recs
  ((List.range frames.length).zip frames).foldl (fun d e =>
    let last := if e.1 + 1 = frames.length then 8 else 0
    let d1 := d.count (devCtr 13)
    (if bit flags 1 then d1.count (devCtr 14) else d1).injectOwn 66 (d.tplClass t)
      (d.templateBytes t (d.tplLen t) ++
        readoutHeader (d.fld R.GL_ADDR F.GL_ADDR_addr) x (flags + last) c e.1 e.2.length recs.length ++
        e.2.flatMap fun r => beBytes 16 r.encode)) d

/-- READOUT_CHANNEL: the next channel of the readout in progress is read, when its history reaches the window's end or
`ro_wait` has passed, and port 66 accepts frames of its class (R236). Records overwritten, or held by an uncorrectable line, set the overrun flag (R218, R219, R359)
(DEDUCED: log entry 77). -/
def execReadoutChannel (waited : Bool) (s : State) : Result :=
  running s fun d =>
    match d.nextReadout with
    | none => d
    | some x =>
      match x.readout with
      | [] => d
      | c :: rest =>
        let lo := t48Add x.dec.tExec (-(ns (entryBits x.act 6 19 0) : Int))
        let hi := t48Add x.dec.tExec (ns (entryBits x.act 7 19 0) : Nat)
        let ch := d.chan c
        let done := ch.hist.any fun r => d.recent r && decide (0 ≤ t48Sub r.t48 hi)
        if (!done && !waited) || d.backPressured 66 (d.tplClass (entryBits x.act 5 22 16)) then d
        else
          let all := (ch.histLines c).filter fun e =>
            e.2.kind != 0 && d.recent e.2 && decide (0 ≤ t48Sub e.2.t48 lo) && decide (t48Sub e.2.t48 hi < 0)
          let good := (all.filter fun e => !d.mi.diverted.contains (10, e.1)).map (·.2)
          let lost := decide (good.length < all.length) ||
            ch.overwritten.any fun o => decide (d.ticks < o.2 + 2 ^ 30) && decide (0 ≤ t48Sub o.1 lo) && decide (t48Sub o.1 hi < 0)
          let flags := (if x.late then 1 else 0) + (if lost then 2 else 0) + (if done then 0 else 4) +
            (if d.deadAt c lo then 16 else 0)
          let d1 := if lost then d.raise R.TG_ALARM F.TG_ALARM_ro_overrun else d
          let d2 := d1.sendReadout x c (entryBits x.act 5 22 16) flags good
          let ps := d2.tg.pending.map fun y => if y == x then { y with readout := rest } else y
          ({ d2 with tg := { d2.tg with pending := ps } } : Dev).sweepPending

/-- ENGINE_STARTING_END: the engine is ON, and units whose enable reads 1 start (R208, R222, R346). -/
def execEngineStartingEnd (s : State) : Result :=
  running s fun d =>
    if d.fld R.TG_CTRL F.TG_CTRL_state != enStarting || d.inFault then d
    else if !d.flag R.TG_CTRL F.TG_CTRL_enable || !d.inGlaze then d.engineStop
    else
      d.unitsNamed.foldl (fun d u =>
        if d.fld (R.TG_CU_CTRL u) F.TG_CU_CTRL_state == enOff && d.flag (R.TG_CU_CTRL u) F.TG_CU_CTRL_enable
        then d.unitStart u else d) (d.setFld R.TG_CTRL F.TG_CTRL_state enOn)

/-- ENGINE_STOPPING_END: units have stopped, decisions have executed and readouts are complete; the engine is OFF (R222,
R346). -/
def execEngineStoppingEnd (s : State) : Result :=
  running s fun d =>
    if d.fld R.TG_CTRL F.TG_CTRL_state != enStopping || d.inFault || !d.unitsActive.isEmpty ||
        !d.tg.pending.isEmpty || !d.tg.own.isEmpty || !d.tg.received.isEmpty then d
    else
      let d1 := d.engineOff
      if d1.flag R.TG_CTRL F.TG_CTRL_enable && d1.inGlaze then d1.engineStart else d1

end Sys2Proof.Machine
end

