-- ==== Sys2Proof/Machine/Dispatch.lean ====
section
/-! DEFINITION. The effect of a command: one arm per command. -/

namespace Sys2Proof.Machine

/-- The effect of a command on everything but the queue. -/
def exec (i : Instr) (s : State) : Host.Outcome State Fault Refusal :=
  match i with
  | .resetAssert => Sys2Proof.Machine.execResetAssert s
  | .pwrOkFall => Sys2Proof.Machine.execPwrOkFall s
  | .resetRelease temps => Sys2Proof.Machine.execResetRelease temps s
  | .bisqueComplete => Sys2Proof.Machine.execBisqueComplete s
  | .pciePerstRelease speed width => Sys2Proof.Machine.execPciePerstRelease speed width s
  | .pciePerstAssert => Sys2Proof.Machine.execPciePerstAssert s
  | .firingBistDone fails => Sys2Proof.Machine.execFiringBistDone fails s
  | .firingCalibrationDone temps results => Sys2Proof.Machine.execFiringCalibrationDone temps results s
  | .glazeImageLoaded => Sys2Proof.Machine.execGlazeImageLoaded s
  | .glazeWrite w => Sys2Proof.Machine.execGlazeWrite w s
  | .ckXoCfgWrite w => Sys2Proof.Machine.execCkXoCfgWrite w s
  | .refActivityLoss n => Sys2Proof.Machine.execRefActivityLoss n s
  | .refFrequencyWindowEnd n ppt => Sys2Proof.Machine.execRefFrequencyWindowEnd n ppt s
  | .qualTimeExpiry n => Sys2Proof.Machine.execQualTimeExpiry n s
  | .wtrExpiry n => Sys2Proof.Machine.execWtrExpiry n s
  | .wtrClear n w => Sys2Proof.Machine.execWtrClear n w s
  | .selModeWrite w => Sys2Proof.Machine.execSelModeWrite w s
  | .buildOutEnd phase ppb => Sys2Proof.Machine.execBuildOutEnd phase ppb s
  | .acquireEnd => Sys2Proof.Machine.execAcquireEnd s
  | .acquisitionFailure => Sys2Proof.Machine.execAcquisitionFailure s
  | .narrowStep => Sys2Proof.Machine.execNarrowStep s
  | .narrowEnd => Sys2Proof.Machine.execNarrowEnd s
  | .phaseErrorExceeded => Sys2Proof.Machine.execPhaseErrorExceeded s
  | .switchingEnd => Sys2Proof.Machine.execSwitchingEnd s
  | .holdoverSample mean => Sys2Proof.Machine.execHoldoverSample mean s
  | .holdoverRecompute => Sys2Proof.Machine.execHoldoverRecompute s
  | .lockDeclaration => Sys2Proof.Machine.execLockDeclaration s
  | .lossOfLock => Sys2Proof.Machine.execLossOfLock s
  | .faultIdle => Sys2Proof.Machine.execFaultIdle s
  | .relockAttemptFail => Sys2Proof.Machine.execRelockAttemptFail s
  | .syncInEdge fullHigh => Sys2Proof.Machine.execSyncInEdge fullHigh s
  | .ppsPulse m => Sys2Proof.Machine.execPpsPulse m s
  | .ppsPulseEnd m => Sys2Proof.Machine.execPpsPulseEnd m s
  | .ppsNextCommit m w => Sys2Proof.Machine.execPpsNextCommit m w s
  | .clkoutStartingEnd n => Sys2Proof.Machine.execClkoutStartingEnd n s
  | .clkoutStoppingEnd n => Sys2Proof.Machine.execClkoutStoppingEnd n s
  | .ppsOutStartingEnd m => Sys2Proof.Machine.execPpsOutStartingEnd m s
  | .ppsOutStoppingEnd m => Sys2Proof.Machine.execPpsOutStoppingEnd m s
  | .enableWrite t w => Sys2Proof.Machine.execEnableWrite t w s
  | .laneStartingEnd n => Sys2Proof.Machine.execLaneStartingEnd n s
  | .laneStoppingEnd n => Sys2Proof.Machine.execLaneStoppingEnd n s
  | .dormantEntry n w => Sys2Proof.Machine.execDormantEntry n w s
  | .dormantExit n w => Sys2Proof.Machine.execDormantExit n w s
  | .wakeOnSignal n => Sys2Proof.Machine.execWakeOnSignal n s
  | .fastPathPowerUp n => Sys2Proof.Machine.execFastPathPowerUp n s
  | .signalDetect n => Sys2Proof.Machine.execSignalDetect n s
  | .trainingFrame n cw inverted converged => Sys2Proof.Machine.execTrainingFrame n cw inverted converged s
  | .trainComplete n gain ctle => Sys2Proof.Machine.execTrainComplete n gain ctle s
  | .cdrLock n ppm => Sys2Proof.Machine.execCdrLock n ppm s
  | .framingLock n skewBlocks skewUi => Sys2Proof.Machine.execFramingLock n skewBlocks skewUi s
  | .polarityRetry n => Sys2Proof.Machine.execPolarityRetry n s
  | .bringupTimeout n => Sys2Proof.Machine.execBringupTimeout n s
  | .fallbackEnd n => Sys2Proof.Machine.execFallbackEnd n s
  | .laneRestart n w => Sys2Proof.Machine.execLaneRestart n w s
  | .lossOfSignal n => Sys2Proof.Machine.execLossOfSignal n s
  | .cdrUnlock n => Sys2Proof.Machine.execCdrUnlock n s
  | .framingLoss n => Sys2Proof.Machine.execFramingLoss n s
  | .signalReturn n => Sys2Proof.Machine.execSignalReturn n s
  | .gapReacquireTimeout n => Sys2Proof.Machine.execGapReacquireTimeout n s
  | .eqWrite n tx w => Sys2Proof.Machine.execEqWrite n tx w s
  | .checkerSync n => Sys2Proof.Machine.execCheckerSync n s
  | .checkerSyncLost n wrongBits => Sys2Proof.Machine.execCheckerSyncLost n wrongBits s
  | .phaseSample n phase => Sys2Proof.Machine.execPhaseSample n phase s
  | .delayWindowEnd scales => Sys2Proof.Machine.execDelayWindowEnd scales s
  | .alignmentMarker n inPlace mk => Sys2Proof.Machine.execAlignmentMarker n inPlace mk s
  | .portCfgWrite p r w => Sys2Proof.Machine.execPortCfgWrite p r w s
  | .portStartingEnd p => Sys2Proof.Machine.execPortStartingEnd p s
  | .portStoppingEnd p => Sys2Proof.Machine.execPortStoppingEnd p s
  | .capabilityWord p w => Sys2Proof.Machine.execCapabilityWord p w s
  | .frameReceived p octets err start age symbols => Sys2Proof.Machine.execFrameReceived p octets err start age symbols s
  | .creditBlock p counts => Sys2Proof.Machine.execCreditBlock p counts s
  | .creditBlockSend p => Sys2Proof.Machine.execCreditBlockSend p s
  | .triggerBlock p idx words => Sys2Proof.Machine.execTriggerBlock p idx words s
  | .triggerHandoff p => Sys2Proof.Machine.execTriggerHandoff p s
  | .managementBlock p idx blk symbols phase => Sys2Proof.Machine.execManagementBlock p idx blk symbols phase s
  | .delayPublish p idx => Sys2Proof.Machine.execDelayPublish p idx s
  | .macCommit p w => Sys2Proof.Machine.execMacCommit p w s
  | .pfcReceived p pfc classes quanta => Sys2Proof.Machine.execPfcReceived p pfc classes quanta s
  | .pauseExpiry p c => Sys2Proof.Machine.execPauseExpiry p c s
  | .pfcRefresh p => Sys2Proof.Machine.execPfcRefresh p s
  | .incrCommit w => Sys2Proof.Machine.execIncrCommit w s
  | .latchingRead g => Sys2Proof.Machine.execLatchingRead g s
  | .stepCommit w => Sys2Proof.Machine.execStepCommit w s
  | .stepApply => Sys2Proof.Machine.execStepApply s
  | .sourceWrite w => Sys2Proof.Machine.execSourceWrite w s
  | .hostValidWrite w => Sys2Proof.Machine.execHostValidWrite w s
  | .ppsRefEdge k sinceTick rootPs => Sys2Proof.Machine.execPpsRefEdge k sinceTick rootPs s
  | .ppsExpectMissed => Sys2Proof.Machine.execPpsExpectMissed s
  | .ppsExpectCommit w => Sys2Proof.Machine.execPpsExpectCommit w s
  | .holdLimitExpiry => Sys2Proof.Machine.execHoldLimitExpiry s
  | .edgeCrossing c fall k code => Sys2Proof.Machine.execEdgeCrossing c fall k code s
  | .windowOpening c m => Sys2Proof.Machine.execWindowOpening c m s
  | .calTurnStart c => Sys2Proof.Machine.execCalTurnStart c s
  | .calTurnEnd c a b table => Sys2Proof.Machine.execCalTurnEnd c a b table s
  | .privilegedApply c => Sys2Proof.Machine.execPrivilegedApply c s
  | .channelValueApply c => Sys2Proof.Machine.execChannelValueApply c s
  | .staleTimeout c => Sys2Proof.Machine.execStaleTimeout c s
  | .collectorDrain c dup => Sys2Proof.Machine.execCollectorDrain c dup s
  | .streamFrameFlush t => Sys2Proof.Machine.execStreamFrameFlush t s
  | .winBaseCommit c w => Sys2Proof.Machine.execWinBaseCommit c w s
  | .channelStartingEnd c m => Sys2Proof.Machine.execChannelStartingEnd c m s
  | .channelStoppingEnd c => Sys2Proof.Machine.execChannelStoppingEnd c s
  | .dtcEntryStart c dup => Sys2Proof.Machine.execDtcEntryStart c dup s
  | .dtcEntryEnd c placed => Sys2Proof.Machine.execDtcEntryEnd c placed s
  | .primitiveArrival src w => Sys2Proof.Machine.execPrimitiveArrival src w s
  | .mergeBufferAdmit dup => Sys2Proof.Machine.execMergeBufferAdmit dup s
  | .unitWindowOpen u => Sys2Proof.Machine.execUnitWindowOpen u s
  | .unitWindowClose u => Sys2Proof.Machine.execUnitWindowClose u s
  | .unitOutput u => Sys2Proof.Machine.execUnitOutput u s
  | .unitHoldRelease u => Sys2Proof.Machine.execUnitHoldRelease u s
  | .unitStartingEnd u => Sys2Proof.Machine.execUnitStartingEnd u s
  | .unitStoppingEnd u => Sys2Proof.Machine.execUnitStoppingEnd u s
  | .decisionRelease => Sys2Proof.Machine.execDecisionRelease s
  | .decisionExecute errs dup => Sys2Proof.Machine.execDecisionExecute errs dup s
  | .readoutChannel waited => Sys2Proof.Machine.execReadoutChannel waited s
  | .engineStartingEnd => Sys2Proof.Machine.execEngineStartingEnd s
  | .engineStoppingEnd => Sys2Proof.Machine.execEngineStoppingEnd s
  | .headCellAssign => Sys2Proof.Machine.execHeadCellAssign s
  | .classify id errs => Sys2Proof.Machine.execClassify id errs s
  | .cellAdmit id => Sys2Proof.Machine.execCellAdmit id s
  | .resequencerRelease dup => Sys2Proof.Machine.execResequencerRelease dup s
  | .egressSchedule p errs => Sys2Proof.Machine.execEgressSchedule p errs s
  | .frameTransmitEnd p => Sys2Proof.Machine.execFrameTransmitEnd p s
  | .mcHoldExpiry id => Sys2Proof.Machine.execMcHoldExpiry id s
  | .downGraceExpiry p => Sys2Proof.Machine.execDownGraceExpiry p s
  | .bankSwap d => Sys2Proof.Machine.execBankSwap d s
  | .bankDrainEnd => Sys2Proof.Machine.execBankDrainEnd s
  | .shadowCommit t w => Sys2Proof.Machine.execShadowCommit t w s
  | .doorbellPoll hidx => Sys2Proof.Machine.execDoorbellPoll hidx s
  | .hostMemoryError e => Sys2Proof.Machine.execHostMemoryError e s
  | .txpDescriptor r d => Sys2Proof.Machine.execTxpDescriptor r d s
  | .rxpFill r bufs => Sys2Proof.Machine.execRxpFill r bufs s
  | .tblWrite d => Sys2Proof.Machine.execTblWrite d s
  | .emAdd d => Sys2Proof.Machine.execEmAdd d s
  | .emRemove d => Sys2Proof.Machine.execEmRemove d s
  | .tsqRead d dups => Sys2Proof.Machine.execTsqRead d dups s
  | .ctrSnapshot d => Sys2Proof.Machine.execCtrSnapshot d s
  | .klogRead d => Sys2Proof.Machine.execKlogRead d s
  | .klogClearBegin d => Sys2Proof.Machine.execKlogClearBegin d s
  | .klogClearFinish d => Sys2Proof.Machine.execKlogClearFinish d s
  | .klogClearEnd => Sys2Proof.Machine.execKlogClearEnd s
  | .dtcSubmit d => Sys2Proof.Machine.execDtcSubmit d s
  | .primSubmit d => Sys2Proof.Machine.execPrimSubmit d s
  | .decSubmit d => Sys2Proof.Machine.execDecSubmit d s
  | .nop d => Sys2Proof.Machine.execNop d s
  | .badOpcode opcode d => Sys2Proof.Machine.execBadOpcode opcode d s
  | .interruptModeration r => Sys2Proof.Machine.execInterruptModeration r s
  | .ringStartingEnd r => Sys2Proof.Machine.execRingStartingEnd r s
  | .ringStoppingEnd r => Sys2Proof.Machine.execRingStoppingEnd r s
  | .functionLevelReset => Sys2Proof.Machine.execFunctionLevelReset s
  | .pageBaseCommit doorbell w => Sys2Proof.Machine.execPageBaseCommit doorbell w s
  | .telemetryRecord m => Sys2Proof.Machine.execTelemetryRecord m s
  | .piWord data sb valid => Sys2Proof.Machine.execPiWord data sb valid s
  | .piPacketAdmit => Sys2Proof.Machine.execPiPacketAdmit s
  | .poDrop => Sys2Proof.Machine.execPoDrop s
  | .piClockLoss => Sys2Proof.Machine.execPiClockLoss s
  | .piAlignment => Sys2Proof.Machine.execPiAlignment s
  | .poTrainingEnd => Sys2Proof.Machine.execPoTrainingEnd s
  | .pailStartingEnd => Sys2Proof.Machine.execPailStartingEnd s
  | .pailStoppingEnd => Sys2Proof.Machine.execPailStoppingEnd s
  | .enumGo w => Sys2Proof.Machine.execEnumGo w s
  | .enumAssign p body => Sys2Proof.Machine.execEnumAssign p body s
  | .enumDone p body => Sys2Proof.Machine.execEnumDone p body s
  | .enumRefuse p body => Sys2Proof.Machine.execEnumRefuse p body s
  | .enumRelease p body => Sys2Proof.Machine.execEnumRelease p body s
  | .enumWorking p body => Sys2Proof.Machine.execEnumWorking p body s
  | .enumChange p body => Sys2Proof.Machine.execEnumChange p body s
  | .enumPortTimeout p => Sys2Proof.Machine.execEnumPortTimeout p s
  | .enumAutoWalk => Sys2Proof.Machine.execEnumAutoWalk s
  | .enumFiringTimeout => Sys2Proof.Machine.execEnumFiringTimeout s
  | .correctedWriteBack mem line => Sys2Proof.Machine.execCorrectedWriteBack mem line s
  | .lineRestoreDone mem line readOk data => Sys2Proof.Machine.execLineRestoreDone mem line readOk data s
  | .refetchRetry mem line => Sys2Proof.Machine.execRefetchRetry mem line s
  | .churnStep r => Sys2Proof.Machine.execChurnStep r s
  | .bankTestStart => Sys2Proof.Machine.execBankTestStart s
  | .bankTestPhaseEnd failed => Sys2Proof.Machine.execBankTestPhaseEnd failed s
  | .ceClear w => Sys2Proof.Machine.execCeClear w s
  | .scanEnter => Sys2Proof.Machine.execScanEnter s
  | .sensorUpdate temps => Sys2Proof.Machine.execSensorUpdate temps s
  | .calOpStart w => Sys2Proof.Machine.execCalOpStart w s
  | .calMeasurementEnd value table => Sys2Proof.Machine.execCalMeasurementEnd value table s
  | .calOpTimeout => Sys2Proof.Machine.execCalOpTimeout s
  | .deltaStore w => Sys2Proof.Machine.execDeltaStore w s
  | .deltaStoreEnd fails => Sys2Proof.Machine.execDeltaStoreEnd fails s
  | .deltaDiscard w => Sys2Proof.Machine.execDeltaDiscard w s
  | .deltaWrite w => Sys2Proof.Machine.execDeltaWrite w s
  | .kilnRecordStore needsSpare => Sys2Proof.Machine.execKilnRecordStore needsSpare s
  | .operatingMinute => Sys2Proof.Machine.execOperatingMinute s
  | .cursorWrite w => Sys2Proof.Machine.execCursorWrite w s
  | .cursorAdvance w => Sys2Proof.Machine.execCursorAdvance w s
  | .bwWindowEnd => Sys2Proof.Machine.execBwWindowEnd s
  | .actInRise => Sys2Proof.Machine.execActInRise s
  | .actInFall phaseHit => Sys2Proof.Machine.execActInFall phaseHit s
  | .claimTimeout => Sys2Proof.Machine.execClaimTimeout s
  | .creditResyncEnd => Sys2Proof.Machine.execCreditResyncEnd s
  | .watchdogExpiry => Sys2Proof.Machine.execWatchdogExpiry s
  | .watchdogKick w => Sys2Proof.Machine.execWatchdogKick w s
  | .tvLimitExpiry => Sys2Proof.Machine.execTvLimitExpiry s
  | .yield w => Sys2Proof.Machine.execYield w s
  | .rejoin w => Sys2Proof.Machine.execRejoin w s
  | .zeroize w verified => Sys2Proof.Machine.execZeroize w verified s
  | .keyWrite w key => Sys2Proof.Machine.execKeyWrite w key s
  | .imgStore w octets => Sys2Proof.Machine.execImgStore w octets s
  | .openCode w => Sys2Proof.Machine.execOpenCode w s
  | .registerWrite bar off be w => Sys2Proof.Machine.execRegisterWrite bar off be w s
  | .reservedAccess off write => Sys2Proof.Machine.execReservedAccess off write s
  | .clearingRead off => Sys2Proof.Machine.execClearingRead off s
  | .timeTick => Sys2Proof.Machine.execTimeTick s
  | .refActivityReturn n => Sys2Proof.Machine.execRefActivityReturn n s
  | .managementBlockSend p idx => Sys2Proof.Machine.execManagementBlockSend p idx s
  | .inBandWord p w => Sys2Proof.Machine.execInBandWord p w s
  | .poWord ready => Sys2Proof.Machine.execPoWord ready s
  | .piClockReturn => Sys2Proof.Machine.execPiClockReturn s
  | .cursorReady => Sys2Proof.Machine.execCursorReady s
  | .imgStoreEnd fails => Sys2Proof.Machine.execImgStoreEnd fails s
  | .openFuseBlown => Sys2Proof.Machine.execOpenFuseBlown s

end Sys2Proof.Machine
end

