-- ==== Sys2Proof/Machine/Step.lean ====
section
/-! DEFINITION. One step: the command at the front of the queue acts on the device, with the rest of the queue behind it.
On an empty queue the device applies the next record of an image that it is loading, and otherwise idles (DESIGN CHOICE, log
entries 1, 115, 116). -/

namespace Sys2Proof.Machine

/-- One step: one command, in the order of the queue (DESIGN CHOICE: log entry 4). -/
def step (s : State) : Host.Outcome State Fault Refusal :=
  match s.pending with
  | [] => idle s
  | c :: rest => exec c { s with pending := rest }

/-- `s` with the command that a word spells at the front of its queue; `s` where the word spells none. -/
def State.withFetchWord (s : State) (nbits w : Nat) : State :=
  match decodeTableWord nbits w with
  | some c => { s with pending := c :: s.pending }
  | none => s

end Sys2Proof.Machine
end

