-- ==== Sys2Proof/Machine/Flags.lean ====
section
/-! DEFINITION. The levels at the output balls (R326, R338), computed from the state: the device keeps no second copy of
what its registers and blocks already hold. -/

namespace Sys2Proof.Machine

/-- STAGE[1:0] (R326) (DEDUCED: log entry 121). -/
def Dev.stagePins (d : Dev) : BitVec 2 :=
  match d.stage with
  | .off => 0 | .bisque => 1 | .firing => 2 | .glaze => 3 | .yielded => 3 | .safe => 0

/-- CK_STATE[2:0]: 0 in reset, 7 in SAFE, else CK_STATUS.state (R40, R338). -/
def Dev.ckStatePins (d : Dev) : BitVec 3 :=
  match d.stage with
  | .off => 0
  | .safe => 7
  | _ => BitVec.ofNat 3 d.cleaner

/-- CK_ALARM_B is low: in reset, in SAFE, and as R62 gives otherwise. -/
def Dev.ckAlarmAsserted (d : Dev) : Bool := d.stage == .off || d.stage == .safe || d.ckAlarmPin

/-- TIME_VALID (R147, R338). -/
def Dev.timeValidPin (d : Dev) : Bool := !(d.stage == .off || d.stage == .safe) && d.timeValid

/-- ACT_OUT: high in the pair state ACTIVE, low in every stage but GLAZE (R338, R407). -/
def Dev.actOut (d : Dev) : Bool := d.inGlaze && d.pairState == 3

/-- The stages in which clock outputs, PPS outputs and lane transmitters may run (R338). -/
def Dev.outputsMayRun (d : Dev) : Bool := d.stage == .bisque || d.stage == .firing || d.stage == .glaze

/-- CLKOUTn gives its series: started, not OFF and not gated (R51, R55, R58, R338)
(DEDUCED: log entry 121). -/
def Dev.clkoutRuns (d : Dev) (n : Nat) : Bool :=
  d.outputsMayRun && !d.inFault && (d.outState n == enOn || d.outState n == enStopping)

/-- The levels of CLKOUTn_P and CLKOUTn_N in ROOT cycle t: its series, otherwise _P low and _N high (R57, R58, R338). -/
def Dev.clkoutPins (d : Dev) (n t : Nat) : Bool × Bool :=
  let high := d.clkoutRuns n && d.clkLevel n t
  (high, !high)

/-- The level of PPS_OUTm (R51, R60, R338). -/
def Dev.ppsPin (d : Dev) (m : Nat) : Bool := d.outputsMayRun && !d.inFault && (d.ppsOut m).pulsing

/-- What a pad of an edge channel shows (R166, R338). -/
inductive PadLevel
  | highZ
  | receiver (term : Bool)
  /-- Between pulses: the inactive level, ECc_P high when `high`. -/
  | inactive (high : Bool)
  | forcedLow
  deriving DecidableEq, Repr

/-- The pad of channel c between pulses (R166). -/
def Dev.pad (d : Dev) (c : Nat) : PadLevel :=
  if !d.inGlaze || d.chanState c == enOff then .highZ
  else if !d.isDtc c then .receiver (d.flag (R.EC_PAD c) F.EC_PAD_term)
  else if d.inFault then .forcedLow
  else if d.flag (R.EC_PAD c) F.EC_PAD_idle then .highZ
  else .inactive (d.flag (R.EC_PAD c) F.EC_PAD_invert)

/-- The transmitter of lane n is at electrical idle: outside the stages of R338, while its enable state is OFF or STARTING,
in DORMANT, FALLBACK and HALTED (R77, R78), in the loops of modes 2 and 3 (R92), and as the pair state and FAULT ask. -/
def Dev.laneIdle (d : Dev) (n : Nat) : Bool :=
  !d.outputsMayRun || d.laneState n == enOff || d.laneState n == enStarting || d.bringup n == 0 || d.bringup n == 10 ||
    d.bringup n == 11 || d.bringup n == 9 || d.laneMode n == 2 || d.laneMode n == 3 ||
    (match (d.lane n).port with | some p => d.txIdle p | none => d.txIdle n)

/-- What the transmitter of a lane sends. -/
inductive Drive
  | electricalIdle
  /-- Training frames, back to back (R80). -/
  | training
  /-- PCS output of an Ethernet mode, idle while its port is OFF (R78, R107). -/
  | pcs (idle : Bool)
  /-- Version-3 blocks: markers, management and trigger blocks, and data positions (R107, R117). -/
  | blocks
  /-- The 64b/66b stream of versions 1 and 2 (R129). -/
  | inBand
  /-- A pattern of R93 by its code, inverted or not, in place of transmit data. -/
  | pattern (code : Nat) (inv : Bool)
  /-- Received symbols sent again (R92). -/
  | looped
  deriving DecidableEq, Repr

/-- The pattern that the generator of lane n puts in place of transmit data: in TEST, and in LOOP for modes 2 and 3 (R93). -/
def Dev.generator (d : Dev) (n : Nat) : Option (Nat × Bool) :=
  let code := d.fld (R.LN_TEST n) F.LN_TEST_gen_pat
  let on := d.bringup n == 7 || (d.bringup n == 8 && (d.laneMode n == 2 || d.laneMode n == 3))
  if on && decide (1 ≤ code ∧ code ≤ 8) && (code != 7 || isPam4 (d.rateNow n)) then
    some (code, d.flag (R.LN_TEST n) F.LN_TEST_gen_inv)
  else none

/-- The transmit data of lane n before its serializer: a pattern, or what its bring-up state and its port give (R78, R80, R92,
R93, R107). -/
def Dev.laneData (d : Dev) (n : Nat) : Drive :=
  match d.generator n with
  | some (code, inv) => .pattern code inv
  | none =>
    if d.bringup n = 8 ∧ d.laneMode n = 4 then .looped
    else if d.etherLane n then .pcs (match (d.lane n).port with
      | some p => !d.portOn p
      | none => true)
    else if d.bringup n = 1 ∨ d.bringup n = 2 then .training
    else if d.rateNow n ≤ 2 then .blocks
    else .inBand

/-- What lane n drives at its balls. -/
def Dev.laneDrive (d : Dev) (n : Nat) : Drive := if d.laneIdle n then .electricalIdle else d.laneData n

/-- The symbols that lane n sends for transmit bits, from its precoder's state: training frames are never precoded, nor are
patterns, and LN_CFG.tx_invert inverts whatever is sent (R75, R80, R93, R99). -/
def Dev.laneSymbols (d : Dev) (n state : Nat) (bs : List Bool) : List Nat :=
  let plain := match d.laneData n with
    | .training | .pattern _ _ => true
    | _ => false
  transmit (d.rateNow n) (d.flag (R.LN_STATUS n) F.LN_STATUS_tx_precode && !plain)
    (d.flag (R.LN_CFG n) F.LN_CFG_tx_invert) state bs

/-- The receive polarity of lane n is inverted: as corrected with automatic polarity, else as LN_CFG.rx_invert says (R82). -/
def Dev.rxInverts (d : Dev) (n : Nat) : Bool :=
  if d.flag (R.LN_CFG n) F.LN_CFG_pol_auto then d.flag (R.LN_STATUS n) F.LN_STATUS_rx_inverted
  else d.flag (R.LN_CFG n) F.LN_CFG_rx_invert

/-- The bits that lane n recovers from the symbols at its input, from the decoder's start on (R74, R75, R82). -/
def Dev.laneBits (d : Dev) (n : Nat) (ss : List Nat) : List Bool :=
  receive (d.rateNow n) (d.flag (R.LN_STATUS n) F.LN_STATUS_rx_precode) (d.rxInverts n) ss

/-- The bits that lane n receives while it loops its own transmit bits back: from its own symbols in the near-end serial loop,
before the serializer in the parallel one; in another mode what the line gives (R92). -/
def Dev.loopedBits (d : Dev) (n : Nat) (own : List Bool) (line : List Nat) : List Bool :=
  match d.laneMode n with
  | 2 => d.laneBits n (d.laneSymbols n 0 own)
  | 3 => own
  | _ => d.laneBits n line

/-- The symbols that lane n sends in the far-end loop for those received (R92). -/
def Dev.farEnd (n : Nat) (line : List Nat) : List Nat := elasticOut n line

/-- A level at an output ball. -/
inductive Level
  | low | high | highZ | electricalIdle
  /-- As the named unit gives: the module bus as its master drives it, PCIe as its link does. -/
  | active
  deriving DecidableEq, Repr

/-- Module sideband outputs, MM_SCL and MM_SDA are driven outside reset and SAFE (R338). -/
def Dev.moduleOn (d : Dev) : Bool := !(d.stage == .off || d.stage == .safe)

/-- MM_RESET_Bk: low while every lane of module site k is OFF (R338, R450). -/
def Dev.mmResetB (d : Dev) (k : Nat) : Level :=
  if !d.moduleOn then .highZ
  else if (List.range 4).all fun i => d.laneState (4 * k + i) == enOff then .low else .high

/-- MM_LPMODEk: high while every lane of module site k is OFF or in DORMANT (R338, R450). -/
def Dev.mmLpMode (d : Dev) (k : Nat) : Level :=
  if !d.moduleOn then .highZ
  else if (List.range 4).all fun i => d.laneState (4 * k + i) == enOff || d.bringup (4 * k + i) == 9 then .high
  else .low

/-- MM_SCL0–3 and MM_SDA0–3: open drain, so never driven high (R338, R450). -/
def Dev.moduleBus (d : Dev) : Level := if d.moduleOn then .active else .highZ

/-- TDO: driven only while the TAP shifts (R338). -/
def tdoPin (shifting : Bool) : Level := if shifting then .active else .highZ

/-- The PCIe transmitters (R338). -/
def Dev.pciePins (d : Dev) : Level := if d.stage == .off then .electricalIdle else .active

/-- PO_CLK toggles; otherwise _P is low, _N high, and PO_D and PO_SB are low (R320, R322, R338). -/
def Dev.poClkRuns (d : Dev) : Bool := d.inGlaze && d.pailState != enOff && !d.inFault

/-- PI_READY as last launched, PI_XOFF and PO_XOFF: low in every stage but GLAZE (R313, R319, R338). -/
def Dev.pailPins (d : Dev) : Bool × Bool × Bool :=
  if d.inGlaze then (d.pl.ready.getLastD false, d.flag R.PL_STATUS F.PL_STATUS_pi_xoff, d.flag R.PL_STATUS F.PL_STATUS_po_xoff)
  else (false, false, false)

end Sys2Proof.Machine
end

