-- ==== Sys2Proof/Safety.lean ====
section
/-! DEFINITION. The terms that statements use: when the device acts, what a command answers, what it leaves alone, and the
invariant of every step. -/

namespace Sys2Proof.Machine

/-- The device is out of reset, and no scan chain is connected (R330, R367). -/
abbrev State.Awake (s : State) : Prop := s.dev.mi.scan = false ∧ s.dev.stage ≠ .off

/-- The device is out of reset and not in SAFE: its blocks may act (R339). -/
abbrev State.Up (s : State) : Prop := s.Awake ∧ s.dev.stage ≠ .safe

/-- The command answers a next state, the queue of waiting commands is as it was, and `Q` holds of the device after it. -/
def Answers (c : Instr) (s : State) (Q : Dev → Prop) : Prop :=
  ∃ t, exec c s = .next t ∧ t.pending = s.pending ∧ Q t.dev

/-- Every register outside `but` reads after as before. -/
def Dev.KeepsRegs (d e : Dev) (but : List Nat) : Prop := ∀ o, o ∉ but → e.reg o = d.reg o

/-- Nothing changes but registers, counters, and the messages of vectors 64 and 65. -/
def Dev.RegsOnly (d e : Dev) : Prop :=
  e = { d with regs := e.regs, out := e.out
               hr := { d.hr with msix := e.hr.msix, pba := e.hr.pba, irq64 := e.hr.irq64, irq65 := e.hr.irq65 }
               pc := { d.pc with ctrs := e.pc.ctrs } }

/-- The units of the device whose hidden state a frame speaks of. What has left the device and the free values used are
none of them, nor the messages of vectors 64 and 65 and the counters, which any alarm and any event may move. -/
inductive Part
  | stage | board | log | nv | hr | ck | tc | chans | tg | mi | ca | pc | ps | en | lanes | ports | sw | cl | pl
  deriving DecidableEq, Repr

/-- The host interface without its messages. -/
def Hr.sans (h : Hr) : Hr := { h with msix := [], pba := [], irq64 := false, irq65 := false }

/-- The monitor state without the counters. -/
def Pc.sans (c : Pc) : Pc := { c with ctrs := [] }

/-- The hidden state of a unit is the same in `e` as in `d`. -/
def Dev.SamePart (d e : Dev) : Part → Prop
  | .stage =>
    e.stage = d.stage ∧ e.safeCause = d.safeCause ∧ e.fireStep = d.fireStep ∧ e.glazeWait = d.glazeWait ∧ e.load = d.load
  | .board => e.latch = d.latch ∧ e.pins = d.pins ∧ e.ticks = d.ticks
  | .log => e.klogQueue = d.klogQueue ∧ e.curReading = d.curReading
  | .nv => e.nv = d.nv
  | .hr => e.hr.sans = d.hr.sans
  | .ck => e.ck = d.ck
  | .tc => e.tc = d.tc
  | .chans => e.chans = d.chans ∧ e.ec = d.ec
  | .tg => e.tg = d.tg
  | .mi => e.mi = d.mi
  | .ca => e.ca = d.ca
  | .pc => e.pc.sans = d.pc.sans
  | .ps => e.ps = d.ps
  | .en => e.en = d.en
  | .lanes => e.lanes = d.lanes
  | .ports => e.ports = d.ports
  | .sw => e.sw = d.sw
  | .cl => e.cl = d.cl
  | .pl => e.pl = d.pl

/-- The frame of a command: every unit outside `parts` keeps its hidden state, and every register outside `regs` reads as
before. -/
def Dev.Frame (d e : Dev) (parts : List Part) (regs : List Nat) : Prop :=
  (∀ u, u ∉ parts → d.SamePart e u) ∧ d.KeepsRegs e regs

/-- Registers that a change of the time counter's validity may touch beside its own: the alarms and counts of what starts
and stops with TIME_VALID, and the end of a user calibration (R147, R175, R186, R214, R382). -/
def Dev.validRegs (d : Dev) : List Nat :=
  [R.TC_STATUS, R.TC_ALARM, R.CA_STATUS, R.CA_ALARM, R.TG_ALARM, R.TG_LATE, R.PC_ALARM] ++
    (List.range 128).map R.EC_ALARM ++ (List.range 128).map R.EC_DTC_LATE ++
    (match d.ca.op with
     | some o => [R.EC_STATUS o.target]
     | none => [])

/-- Registers that the window decision on the edges that wait for one may touch (R170, R180). -/
def Dev.judgeRegs (d : Dev) : List Nat :=
  R.PC_ALARM :: d.ec.waits.flatMap fun w => [R.EC_REJECT w.chan, R.EC_OVERFLOW w.chan, R.EC_ALARM w.chan]

/-- Units that a change of validity may touch. -/
def validParts : List Part := [.tc, .chans, .tg, .ca]

/-- Registers that a change among the references may touch: the cleaner's, and those of validity (R37, R147). -/
def Dev.cleanRegs (d : Dev) : List Nat := [R.CK_STATUS, R.CK_ALARM] ++ d.validRegs

/-- Units that a change among the references may touch. -/
def cleanParts : List Part := .ck :: validParts

/-- Registers that the rise or fall of a link of port p and of its lanes ns may touch: theirs, what enumeration and the
relay make of it, and those of the lanes' references (R79, R210, R345, R147). -/
def Dev.linkRegs (d : Dev) (ports lanes : List Nat) : List Nat :=
  [R.GL_ADDR, R.GL_ALARM, R.TG_RELAY_NOW_LO, R.TG_RELAY_NOW_HI] ++ ports.map R.LK_STATUS ++ ports.map R.LK_ALARM ++
    lanes.map R.LN_STATUS ++ lanes.map R.LN_ALARM ++ lanes.map R.LN_TEST ++ lanes.map R.LN_FAIL ++ lanes.map R.LN_TX_DELAY ++
    lanes.map R.LN_RX_DELAY ++ lanes.map (fun n => R.CK_REF_STATUS (4 + n)) ++ d.cleanRegs

/-- The same for lane n and the lanes that behave as one with it. -/
def Dev.laneRegs (d : Dev) (n : Nat) : List Nat := d.linkRegs (d.lane n).port.toList (n :: d.group n)

/-- Units that a link's rise or fall may touch. -/
def linkParts : List Part := [.lanes, .ports, .sw, .en] ++ cleanParts

/-- The addressed stores in canonical form: the register store, the MSI-X table and the counters list strictly rising keys
and no value that an unlisted key reads as. Equal contents are then equal data. -/
abbrev Dev.Canonical (d : Dev) : Prop :=
  sWf resetWord d.regs = true ∧ sWf msixReset d.hr.msix = true ∧ sWf (fun _ => Ctr.zero) d.pc.ctrs = true

/-- The invariant of every step: canonical stores, and no message of vectors 64 and 65 still owed. -/
abbrev State.Inv (s : State) : Prop := s.dev.Canonical ∧ s.dev.hr.irq64 = false ∧ s.dev.hr.irq65 = false

/-- The cells that frame `id` holds, in the order admitted (R233). -/
def Dev.frameCells (d : Dev) (id : Nat) : List Space :=
  match d.sw.store.find? fun h => h.id == id with
  | some h => h.cells
  | none => []

/-- The completion ring of a ring (R297). -/
def Dev.cplRing (d : Dev) (r : Nat) : Nat := d.fld (R.HR_RING_CFG r) F.HR_RING_CFG_cpl_ring

/-- Registers that a record for the kiln log may touch: the queue's losses (R390). -/
def logRegs : List Nat := [R.ER_QLOST, R.ER_ALARM, R.PC_ALARM]

/-- Registers that a host command's taking and completion may touch (R297, R302): the indices of its ring and of its
completion ring, and the counts of failures. -/
def Dev.cmdRegs (d : Dev) (r : Nat) : List Nat :=
  [R.HR_RING_DIDX r, R.HR_RING_DIDX (d.cplRing r), R.HR_ALARM, R.HR_CMD_ERR, R.PC_ALARM]

/-- A host command has been taken and has completed (R297, R302): its ring is past the descriptor and free again, and its
one completion, with this status and these results, stands in the next entry of the completion ring, while the link to
the host is up. -/
def Completes (c : CmdDesc) (opcode status r0 r1 : Nat) (d e : Dev) : Prop :=
  let r := c.ring.val
  let q := d.cplRing r
  (d.hr.linkUp = true →
    .hostWrite (d.entryAddr q (d.didx q)) (cplBytes d.v3 { ring := r, index := d.didx r, opcode := opcode
                                                           cookie := c.cookie.toNat, kind := 1 } status r0 r1) ∈ e.out) ∧
    e.didx q = (d.didx q + 1) % 2 ^ 32 ∧ e.didx r = (d.didx r + 1) % 2 ^ 32 ∧ (e.ring r).busy = false ∧
    (e.ring q).reserved = (d.ring q).reserved

/-- The entry of a table of R298 as a number, for the tables whose entries are kept as numbers: the channel map, the
multicast groups, and the tables of the classifier's banks. -/
def Dev.tableEntry (d : Dev) (t i : Nat) : Nat :=
  match t with
  | 1 => sGet 0 d.tg.chanMap i
  | 4 => sGet 0 d.sw.groups i
  | 5 | 6 => sGet 0 d.cl.tern ((t - 5) * 16384 + i)
  | 7 | 8 => sGet 0 d.cl.act ((t - 7) * 65536 + i)
  | 9 | 10 => sGet 0 d.cl.tpl ((t - 9) * 256 + i)
  | _ => 0

end Sys2Proof.Machine
end

