-- ==== Sys2Proof/Certificates/Slice0/Obligations.lean ====
section
/-! DEFINITION. The statements for the provers, chapter by chapter. Each formalises the rules that its docstring
names; where it rests on a choice of the model, the docstring says so and names the log entry. `s.dev.Frame e parts
regs` is the frame of a command: every unit outside `parts` and every register outside `regs` is as before. -/

open Sys2Proof Sys2Proof.Machine

/-! The clock tree. -/

/-- R34–R36: the loss and the return of a reference's activity, and the end of a frequency window. The first edge of a
return restarts the measurement; a window publishes its offset, and the frequency criterion is qual_range in 0.1 ppm.
R35, R44: QUALIFYING leads a reference never disqualified to QUALIFIED, any other to WTR, and during SWITCHING it is
held where it stands; WTR ends in QUALIFIED, by its timer or by wtr_clear.
The model's choices that clauses rest on: log entries 16, 17, 18, 24. -/
def Obligations.References : Prop :=
  (∀ (s : State) (n : Fin 68) (ppt : Int), s.Up → s.dev.ca.op = none →
     Answers (.refActivityLoss n) s (fun e =>
       s.dev.Frame e cleanParts (R.CK_REF_STATUS n :: R.CK_REF_FOFF n :: s.dev.cleanRegs) ∧
       e.flag (R.CK_REF_STATUS n) F.CK_REF_STATUS_active = false ∧
       e.reg (R.CK_REF_FOFF n) = 0x80000000#32 ∧ e.qual n = 0) ∧
     (s.dev.flag (R.CK_REF_STATUS n) F.CK_REF_STATUS_active = false →
       Answers (.refActivityReturn n) s (fun e =>
         s.dev.Frame e cleanParts (R.CK_REF_STATUS n :: R.CK_REF_FOFF n :: s.dev.cleanRegs) ∧
         e.flag (R.CK_REF_STATUS n) F.CK_REF_STATUS_active = true ∧
         e.reg (R.CK_REF_FOFF n) = 0x80000000#32 ∧ e.qual n = 0)) ∧
     (s.dev.isPps n = false → s.dev.rootLocked = true →
       s.dev.flag (R.CK_REF_STATUS n) F.CK_REF_STATUS_active = true → ppt.natAbs < 2 ^ 31 →
       Answers (.refFrequencyWindowEnd n ppt) s (fun e =>
         s.dev.Frame e cleanParts (R.CK_REF_STATUS n :: R.CK_REF_FOFF n :: s.dev.cleanRegs) ∧
         e.sfld (R.CK_REF_FOFF n) F.CK_REF_FOFF_value = ppt ∧
         e.flag (R.CK_REF_STATUS n) F.CK_REF_STATUS_freq_ok =
           decide (ppt.natAbs ≤ s.dev.fld (R.CK_REF_CFG n) F.CK_REF_CFG_qual_range * 100000)))) ∧
  (∀ (s : State) (n : Fin 68) (w : Word), s.Up → s.dev.ca.op = none →
     (s.dev.qual n = 1 → (s.dev.refH n).disqOnce = false →
       Answers (.qualTimeExpiry n) s (fun e =>
         s.dev.Frame e cleanParts (R.CK_REF_STATUS n :: s.dev.cleanRegs) ∧
         e.qual n = 3)) ∧
     (s.dev.qual n = 1 → (s.dev.refH n).disqOnce = true → s.dev.cleaner ≠ 5 →
       Answers (.qualTimeExpiry n) s (fun e =>
         s.dev.Frame e cleanParts (R.CK_REF_STATUS n :: s.dev.cleanRegs) ∧
         e.qual n = if s.dev.fld R.CK_TIMER_CFG F.CK_TIMER_CFG_wtr_time = 0 then 3 else 2)) ∧
     (s.dev.qual n = 1 → (s.dev.refH n).disqOnce = true → s.dev.cleaner = 5 →
       Answers (.qualTimeExpiry n) s (fun e =>
         s.dev.Frame e [.ck] [] ∧
         e.qual n = 1 ∧ (e.refH n).held = true)) ∧
     (s.dev.qual n = 2 → s.dev.cleaner ≠ 5 → Answers (.wtrExpiry n) s (fun e =>
        s.dev.Frame e cleanParts (R.CK_REF_STATUS n :: s.dev.cleanRegs) ∧
        e.qual n = 3)) ∧
     (s.dev.qual n = 2 → s.dev.cleaner = 5 →
       Answers (.wtrExpiry n) s (fun e =>
         s.dev.Frame e [.ck] [] ∧
         e.qual n = 2 ∧ (e.refH n).held = true)) ∧
     (s.dev.qual n = 2 → getField w F.CK_REF_CFG_wtr_clear = 1 →
       getField w F.CK_REF_CFG_freq = s.dev.fld (R.CK_REF_CFG n) F.CK_REF_CFG_freq →
       Answers (.wtrClear n w) s (fun e =>
         s.dev.Frame e cleanParts (R.CK_REF_CFG n :: R.CK_REF_STATUS n :: s.dev.cleanRegs) ∧
         e.qual n = 3)))

/-- Rows of R41 to R44: the end of a build-out, of ACQUIRE, of each bandwidth step, of NARROW and of SWITCHING, and
the return to ACQUIRE. The model's choices that clauses rest on: log entries 18, 20, 22. -/
def Obligations.CleanerRows : Prop :=
  ∀ (s : State) (phase ppb : Int), s.Up →
    (s.dev.ck.buildOut = true →
      Answers (.buildOutEnd phase ppb) s (fun e =>
        s.dev.Frame e [.ck] [] ∧
        e.ck = { s.dev.ck with buildOut := false, zero := phase, zeroSp := s.dev.ck.spNow
                               swClose := s.dev.cleaner == 5 && decide (ppb.natAbs < 100) })) ∧
    (s.dev.cleaner = 2 → s.dev.ck.buildOut = false →
      Answers .acquireEnd s (fun e =>
        s.dev.Frame e cleanParts s.dev.cleanRegs ∧
        e.cleaner = 3 ∧ e.selRef = s.dev.selRef ∧
        e.ck.bwFinal = max s.dev.bwAcq (s.dev.fld R.CK_CLN_CFG F.CK_CLN_CFG_bw_final))) ∧
    (s.dev.cleaner = 2 → s.dev.selRef < 68 →
      Answers .acquisitionFailure s (fun e =>
        s.dev.Frame e cleanParts (R.CK_REF_STATUS s.dev.selRef :: s.dev.cleanRegs) ∧
        e.flag R.CK_ALARM F.CK_ALARM_acq_fail = true)) ∧
    (s.dev.cleaner = 3 → s.dev.fld R.CK_STATUS F.CK_STATUS_bw_now < s.dev.ck.bwFinal → s.dev.ck.bwFinal < 16 →
      Answers .narrowStep s (fun e => s.dev.RegsOnly e ∧ s.dev.KeepsRegs e [R.CK_STATUS] ∧
        e.cleaner = 3 ∧ e.fld R.CK_STATUS F.CK_STATUS_bw_now = s.dev.fld R.CK_STATUS F.CK_STATUS_bw_now + 1)) ∧
    (s.dev.cleaner = 3 → s.dev.fld R.CK_STATUS F.CK_STATUS_bw_now = s.dev.ck.bwFinal →
      Answers .narrowEnd s (fun e =>
        s.dev.Frame e cleanParts s.dev.cleanRegs ∧
        e.cleaner = 4 ∧ e.selRef = s.dev.selRef)) ∧
    (s.dev.cleaner = 3 ∨ s.dev.cleaner = 4 →
      Answers .phaseErrorExceeded s (fun e =>
        s.dev.Frame e cleanParts s.dev.cleanRegs ∧
        e.cleaner = 2 ∧ e.selRef = s.dev.selRef ∧ e.ck.buildOut = true)) ∧
    (s.dev.cleaner = 5 → s.dev.ck.swLost = false → s.dev.ck.swClose = true →
      (∀ n, n < 68 → (s.dev.refH n).held = false) → s.dev.choose.1 = some s.dev.selRef →
      Answers .switchingEnd s (fun e =>
        s.dev.Frame e cleanParts s.dev.cleanRegs ∧
        e.cleaner = 4 ∧ e.selRef = s.dev.selRef))

/-- R45, R50, R51, R54: a holdover sample and a second of steering; the first declaration of lock, a loss of lock, its
2,000 ns, and a failed attempt; what is left of the bisque image's records is applied before the first. The device of
the loss is not ACTIVE in a pair, where R413 may add a yield.
The model's choices that clauses rest on: log entries 18, 19, 21, 23, 39, 115. -/
def Obligations.HoldoverAndLock : Prop :=
  ∀ (s : State) (mean : Int), s.Up →
    (s.dev.cleaner = 4 →
      Answers (.holdoverSample mean) s (fun e =>
        s.dev.Frame e [.ck] [R.CK_HOLD_FREQ, R.CK_STATUS] ∧
        e.ck = { s.dev.ck with samples := mean :: s.dev.ck.samples.take 256, taken := s.dev.ck.taken + 1 })) ∧
    (s.dev.steeredState = true →
      Answers .holdoverRecompute s (fun e =>
        s.dev.Frame e [.ck] [R.CK_ALARM] ∧
        e.ck.holdSecs = s.dev.ck.holdSecs + 1)) ∧
    (s.dev.ck.episode = some .first → s.dev.load = none →
      Answers .lockDeclaration s (fun e => e.rootLocked = true ∧ e.ck.episode = none)) ∧
    (∀ l, s.dev.load = some l → l.recs = [] → s.dev.stage = .bisque →
      Answers .lockDeclaration s (fun e => e.rootLocked = true ∧ e.ck.episode = none ∧ e.load = none) ∧
      (s.dev.rootLocked = false →
        Answers .relockAttemptFail s (fun e => e.rootLocked = false ∧ e.ck.episode = some .first ∧ e.load = none ∧
          e.fld R.CK_SYN_STATUS F.CK_SYN_STATUS_attempts = 2))) ∧
    (s.dev.rootLocked = true → s.dev.pairState ≠ 3 →
      Answers .lossOfLock s (fun e => e.inFault = true ∧ e.rootLocked = false ∧ e.ck.episode = some .loss ∧
        e.fld R.CK_SYN_STATUS F.CK_SYN_STATUS_attempts = 1)) ∧
    (s.dev.inFault = true → s.dev.ck.idled = false → Answers .faultIdle s (fun e => e.ck.idled = true)) ∧
    (s.dev.ck.episode ≠ none → s.dev.ck.restart = false → s.dev.load = none →
      s.dev.fld R.CK_SYN_STATUS F.CK_SYN_STATUS_attempts < 8 →
      Answers .relockAttemptFail s (fun e => s.dev.RegsOnly e ∧ s.dev.KeepsRegs e [R.CK_SYN_STATUS] ∧
        e.fld R.CK_SYN_STATUS F.CK_SYN_STATUS_attempts =
          s.dev.fld R.CK_SYN_STATUS F.CK_SYN_STATUS_attempts + 1))

/-- R58–R60, R346: what SYNC_IN does when it is ignored and when it is captured; a PPS pulse begins and ends; and the
ends of STARTING and STOPPING of a clock or PPS output whose enable field still reads as when they began.
The model's choices that clauses rest on: log entries 25, 26. -/
def Obligations.ClockOutputs : Prop :=
  ∀ (s : State) (n : Fin 8) (m : Fin 2), s.Up → s.Inv →
    (s.dev.fld R.CK_SYNC_CFG F.CK_SYNC_CFG_mode = 0 →
      Answers (.syncInEdge true) s (fun e =>
        s.dev.Frame e [] [R.CK_ALARM] ∧
        e.flag R.CK_ALARM F.CK_ALARM_sync_ignored = true ∧ e.ck = s.dev.ck)) ∧
    (s.dev.fld R.CK_SYNC_CFG F.CK_SYNC_CFG_mode = 1 → s.dev.rootLocked = true → s.dev.ck.syncLast = none →
      (∀ k, k < 8 → s.dev.outState k ≠ enStopping) →
      Answers (.syncInEdge true) s (fun e =>
        s.dev.Frame e [.ck] [R.CK_SYNC_CFG] ∧
        e.fld R.CK_SYNC_CFG F.CK_SYNC_CFG_mode = 0 ∧
        e.ck.syncLast = some s.dev.ticks ∧
        (bit (s.dev.fld R.CK_SYNC_CFG F.CK_SYNC_CFG_out_mask) n = true →
          sGet 0 e.ck.align n = (s.dev.ticks + 1) * 20 + 320))) ∧
    (s.dev.ppsState m = enOn → s.dev.inFault = false →
      Answers (.ppsPulse m) s (fun e => s.dev.Frame e [.ck] [] ∧
        e.out = .pps m true (toGrid (s.dev.ppsRise m)) :: s.dev.out ∧
        e.ppsOut m = { s.dev.ppsOut m with next := t48Add (s.dev.ppsOut m).next (s.dev.ppsPeriod m), pulsing := true
                                           fall := t48Add (s.dev.ppsRise m) (s.dev.ppsWidth m) })) ∧
    ((s.dev.ppsOut m).pulsing = true →
      Answers (.ppsPulseEnd m) s (fun e =>
        s.dev.Frame e [.ck, .ca] [] ∧
        e.out = .pps m false (toGrid (s.dev.ppsOut m).fall) :: s.dev.out ∧ (e.ppsOut m).pulsing = false)) ∧
    (s.dev.inFault = false → s.dev.stage ≠ .yielded →
      (s.dev.outState n = enStarting → s.dev.flag (R.CK_OUT_CFG n) enField = true →
        Answers (.clkoutStartingEnd n) s (fun e => e.outState n = enOn ∧ s.dev.Frame e [] [R.CK_OUT_CFG n])) ∧
      (s.dev.outState n = enStopping → s.dev.flag (R.CK_OUT_CFG n) enField = false →
        Answers (.clkoutStoppingEnd n) s (fun e => e.outState n = enOff ∧ s.dev.Frame e [] [R.CK_OUT_CFG n])) ∧
      (s.dev.ppsState m = enStarting → s.dev.flag (R.CK_PPS_CFG m) enField = true →
        Answers (.ppsOutStartingEnd m) s (fun e => e.ppsState m = enOn ∧ s.dev.Frame e [] [R.CK_PPS_CFG m])) ∧
      (s.dev.ppsState m = enStopping → s.dev.flag (R.CK_PPS_CFG m) enField = false →
        (s.dev.ppsOut m).pulsing = false →
        Answers (.ppsOutStoppingEnd m) s (fun e => e.ppsState m = enOff ∧ s.dev.Frame e [] [R.CK_PPS_CFG m])))

/-! Lanes. -/

/-- The bring-up state in which the path of a lane's mode begins (R92). -/
def firstState (mode : Nat) : Nat := if mode = 2 then 2 else if mode = 3 then 8 else 1

/-- R76, R77, R84: the ends of STARTING and STOPPING, DORMANT and the ways out of it, and a restart.
The model's choices that clauses rest on: log entries 27, 31, 40. -/
def Obligations.LaneEnable : Prop :=
  ∀ (s : State) (n : Fin 64) (w : Word), s.Up → s.dev.inFault = false →
    (s.dev.laneState n = enStarting → s.dev.flag (R.LN_CTRL n) F.LN_CTRL_enable = true →
      Answers (.laneStartingEnd n) s (fun e =>
        s.dev.Frame e linkParts (R.LN_CTRL n :: s.dev.laneRegs n) ∧
        e.laneState n = enOn ∧ e.bringup n = firstState (s.dev.laneMode n) ∧
        e.flag (R.LN_STATUS n) F.LN_STATUS_cdr_lock = false)) ∧
    (s.dev.laneState n = enStopping → s.dev.flag (R.LN_CTRL n) F.LN_CTRL_enable = false → s.dev.bringup n ≠ 6 →
      Answers (.laneStoppingEnd n) s (fun e =>
        s.dev.Frame e linkParts (R.LN_CTRL n :: s.dev.laneRegs n) ∧
        e.laneState n = enOff ∧ e.bringup n = 0 ∧
        e.flag (R.LN_STATUS n) F.LN_STATUS_signal = false)) ∧
    (s.dev.laneState n = enOn → getField w F.LN_CTRL_enable = 1 →
      (getField w F.LN_CTRL_dormant = 1 → getField w F.LN_CTRL_restart = 0 → s.dev.bringup n ≠ 6 →
        s.dev.bringup n ≠ 11 →
        Answers (.dormantEntry n w) s (fun e =>
          s.dev.Frame e linkParts (R.LN_CTRL n :: R.LN_EQ_TX n :: R.LN_EQ_RX n :: s.dev.laneRegs n) ∧
          e.laneState n = enOn ∧ e.bringup n = 9 ∧
          ∀ r, (s.dev.lane n).trained = some r → e.reg (R.LN_EQ_TX n) = (s.dev.lane n).trainTx ∧
            (r < 8 → e.rateNow n = r))) ∧
      (getField w F.LN_CTRL_dormant = 0 → getField w F.LN_CTRL_restart = 0 → s.dev.bringup n = 9 →
        (s.dev.lane n).fast = false →
        Answers (.dormantExit n w) s (fun e =>
          s.dev.Frame e linkParts (R.LN_CTRL n :: s.dev.laneRegs n) ∧
          if (s.dev.lane n).trained = some (s.dev.rateNow n) then e.bringup n = 9 ∧ (e.lane n).fast = true
          else e.bringup n = firstState (s.dev.laneMode n) ∧ e.rateNow n = s.dev.rateNow n)) ∧
      (getField w F.LN_CTRL_dormant = 0 → getField w F.LN_CTRL_restart = 1 →
        1 ≤ s.dev.bringup n → s.dev.bringup n ≤ 5 →
        Answers (.laneRestart n w) s (fun e =>
          s.dev.Frame e linkParts (R.LN_CTRL n :: s.dev.laneRegs n) ∧
          e.bringup n = firstState (s.dev.laneMode n) ∧
          ∀ r, (s.dev.rungsNext n).head? = some r → e.rateNow n = r))) ∧
    (s.dev.bringup n = 9 → s.dev.flag (R.LN_CFG n) F.LN_CFG_wake_on_signal = true → (s.dev.lane n).fast = false →
      (s.dev.lane n).trained = some (s.dev.rateNow n) →
      Answers (.wakeOnSignal n) s (fun e =>
        s.dev.Frame e [.lanes] [R.LN_STATUS n] ∧
        e.bringup n = 9 ∧ (e.lane n).fast = true ∧
        e.flag (R.LN_STATUS n) F.LN_STATUS_signal = true)) ∧
    (s.dev.bringup n = 9 → (s.dev.lane n).fast = true →
      Answers (.fastPathPowerUp n) s (fun e => s.dev.RegsOnly e ∧ s.dev.KeepsRegs e [R.LN_STATUS n] ∧
        e.bringup n = 3))

/-- R79–R81, R83: the exchange of training frames on a single-lane Isazu port. A valid frame lengthens the run, notes
rx_ready, and lets the lane leave once the three conditions of TRAIN hold together; an invalid one restarts the run;
and each sends the lane's own frame.
R79, R82, R84, R92: the steps of bring-up up to CAPEX on a lane of a single-lane Isazu port, the Ethernet polarity
retry, a timeout in TRAIN or BITLOCK, and the rung after FALLBACK.
The model's choices that clauses rest on: log entries 27, 28, 30. -/
def Obligations.LaneBringup : Prop :=
  (∀ (s : State) (n : Fin 64) (cw : Word64) (conv : Bool), s.Up → s.dev.bringup n = 2 → s.dev.etherLane n = false →
     s.dev.laneMode n ≠ 2 → (s.dev.lane n).leaving = false → s.dev.flag (R.LN_CFG n) F.LN_CFG_pol_auto = true →
     (s.dev.lane n).port = some n.val → (s.dev.lane n).width = 1 → (s.dev.lane n).index = 0 →
     Answers (.trainingFrame n cw false conv) s (fun e =>
       s.dev.Frame e linkParts (R.LN_EQ_TX n :: s.dev.laneRegs n) ∧
       if bits cw.toNat 63 60 = 5 ∧ crc16 64 cw.toNat = cw.toNat % 2 ^ 16 then
         (bits cw.toNat 59 55 = 0 →
           e.bringup n = 2 ∧ (e.lane n).run = min 16 ((s.dev.lane n).run + 1) ∧ (e.lane n).ready = bit cw.toNat 54 ∧
           (e.lane n).leaving = (conv && bit cw.toNat 54 && decide (15 ≤ (s.dev.lane n).run)) ∧
           (e.lane n).seq = ((s.dev.lane n).seq + 1) % 256) ∧
         (bits cw.toNat 59 55 ≠ 0 → e.flag (R.LN_ALARM n) F.LN_ALARM_lane_order_err = true)
       else
         e.bringup n = 2 ∧ (e.lane n).run = 0 ∧ (e.lane n).seq = ((s.dev.lane n).seq + 1) % 256)) ∧
  (∀ (s : State) (n : Fin 64) (gain : Byte) (ctle : BitVec 4) (ppm : Int), s.Up →
     (s.dev.bringup n = 1 → s.dev.rungs n ≠ [] →
       Answers (.signalDetect n) s (fun e => s.dev.RegsOnly e ∧ s.dev.KeepsRegs e [R.LN_STATUS n] ∧
         e.bringup n = 2 ∧ e.flag (R.LN_STATUS n) F.LN_STATUS_signal = true)) ∧
     (s.dev.bringup n = 2 → s.dev.etherLane n = false → s.dev.laneMode n ≠ 2 → (s.dev.lane n).leaving = true →
       Answers (.trainComplete n gain ctle) s (fun e =>
         s.dev.Frame e [.lanes] [R.LN_STATUS n, R.LN_EQ_RX n] ∧
         e.bringup n = 3 ∧
         (e.lane n).trained = some (s.dev.rateNow n) ∧ e.fld (R.LN_EQ_RX n) F.LN_EQ_RX_gain = gain.toNat)) ∧
     (s.dev.bringup n = 3 → ppm.natAbs ≤ 200 → s.dev.laneMode n = 0 →
       Answers (.cdrLock n ppm) s (fun e => s.dev.RegsOnly e ∧ s.dev.KeepsRegs e [R.LN_STATUS n] ∧
         e.bringup n = 4 ∧ e.flag (R.LN_STATUS n) F.LN_STATUS_cdr_lock = true)) ∧
     (s.dev.bringup n = 4 → (s.dev.lane n).port = some n.val → s.dev.portLanes n = 1 → s.dev.isazu n = true →
       s.dev.standby = false →
       Answers (.framingLock n [] []) s (fun e =>
         s.dev.Frame e linkParts (R.LN_SKEW n :: s.dev.laneRegs n) ∧
         e.bringup n = 5 ∧ e.fld (R.LN_SKEW n) F.LN_SKEW_skew = 0 ∧
         (e.port n).partner = none)) ∧
     (s.dev.bringup n = 4 → s.dev.etherLane n = true → s.dev.flag (R.LN_CFG n) F.LN_CFG_pol_auto = true →
       (s.dev.lane n).retried = false →
       Answers (.polarityRetry n) s (fun e =>
         s.dev.Frame e [.lanes] [R.LN_STATUS n] ∧
         (e.lane n).retried = true ∧
         e.flag (R.LN_STATUS n) F.LN_STATUS_rx_inverted = !s.dev.flag (R.LN_STATUS n) F.LN_STATUS_rx_inverted)) ∧
     (s.dev.bringup n = 2 ∨ s.dev.bringup n = 3 → (s.dev.lane n).fast = false →
       Answers (.bringupTimeout n) s (fun e =>
         s.dev.Frame e linkParts (s.dev.laneRegs n) ∧
         e.bringup n = 10 ∧
         e.fld (R.LN_FAIL n) F.LN_FAIL_last_state = s.dev.bringup n ∧
         e.fld (R.LN_FAIL n) F.LN_FAIL_last_rate = s.dev.rateNow n)) ∧
     (s.dev.bringup n = 10 → ∀ r, (s.dev.rungsNext n).find? (fun r => decide (s.dev.rateNow n < r)) = some r →
       Answers (.fallbackEnd n) s (fun e =>
         s.dev.Frame e linkParts (s.dev.laneRegs n) ∧
         e.bringup n = firstState (s.dev.laneMode n) ∧ e.rateNow n = r)))

/-- R79, R86: what ends ACTIVE on a lane of a single-lane port, what a gap of the signal and its 10 µs keep from
ending it, the failure of TRAIN by loss of signal, and the return of the signal.
The model's choices that clauses rest on: log entries 30, 38. -/
def Obligations.LaneLoss : Prop :=
  ∀ (s : State) (n : Fin 64), s.Up → (s.dev.lane n).port = some n.val → (s.dev.lane n).width = 1 →
    s.dev.laneMode n = 0 →
    (s.dev.bringup n = 6 →
      Answers (.lossOfSignal n) s (fun e =>
        s.dev.Frame e linkParts (s.dev.laneRegs n) ∧
        e.bringup n = 1 ∧ e.flag (R.LN_ALARM n) F.LN_ALARM_loss = true ∧
        e.flag (R.LN_STATUS n) F.LN_STATUS_signal = false) ∧
      (s.dev.gapHolds n = false →
        Answers (.cdrUnlock ⟨n, true⟩) s (fun e =>
          s.dev.Frame e linkParts (s.dev.laneRegs n) ∧
          e.bringup n = 1 ∧ e.flag (R.LN_ALARM n) F.LN_ALARM_loss = true) ∧
        Answers (.framingLoss ⟨n, true⟩) s (fun e =>
          s.dev.Frame e linkParts (s.dev.laneRegs n) ∧
          e.bringup n = 1 ∧ e.flag (R.LN_ALARM n) F.LN_ALARM_loss = true) ∧
        Answers (.framingLoss ⟨n, false⟩) s (fun e =>
          s.dev.Frame e [.lanes] [R.LN_STATUS n] ∧
          e.bringup n = 6 ∧ e.gapHolds n = true ∧ e.flag (R.LN_STATUS n) F.LN_STATUS_signal = false)) ∧
      (s.dev.gapHolds n = true → ∀ b,
        Answers (.cdrUnlock ⟨n, b⟩) s (fun e =>
          s.dev.Frame e linkParts (s.dev.laneRegs n) ∧
          e.bringup n = 6 ∧ e.flag (R.LN_STATUS n) F.LN_STATUS_cdr_lock = false) ∧
        Answers (.framingLoss ⟨n, b⟩) s (fun e => s.dev.Frame e [.lanes] [] ∧ e.bringup n = 6)) ∧
      ((s.dev.lane n).gap = true → (s.dev.lane n).regained = false →
        Answers (.gapReacquireTimeout n) s (fun e =>
          s.dev.Frame e linkParts (s.dev.laneRegs n) ∧
          e.bringup n = 1 ∧ e.flag (R.LN_ALARM n) F.LN_ALARM_loss = true)) ∧
      ((s.dev.lane n).gap = true → (s.dev.lane n).regained = true →
        s.dev.flag (R.LN_STATUS n) F.LN_STATUS_cdr_lock = true →
        Answers (.gapReacquireTimeout n) s (fun e =>
          s.dev.Frame e [.lanes] [] ∧ e.bringup n = 6 ∧ (e.lane n).gap = false)) ∧
      Answers (.signalReturn n) s (fun e => e.bringup n = 6 ∧ (e.lane n).gap = true ∧
        e.flag (R.LN_STATUS n) F.LN_STATUS_signal = true ∧ (e.lane n).gapEnd = some (s.dev.ticks + 6250) ∧
        s.dev.Frame e [.lanes] [R.LN_STATUS n])) ∧
    (s.dev.bringup n = 2 → (s.dev.lane n).fast = false →
      Answers (.lossOfSignal n) s (fun e =>
        s.dev.Frame e linkParts (s.dev.laneRegs n) ∧
        e.bringup n = 10 ∧
        e.flag (R.LN_STATUS n) F.LN_STATUS_signal = false))

/-- R88, R89, R94–R96: a write of the transmit taps, the pattern checker, a phase readout, the end of a delay window
on an undisturbed lane, and an alignment marker out of place.
The model's choices that clauses rest on: log entries 32, 34, 35. -/
def Obligations.LaneMeasures : Prop :=
  ∀ (s : State) (n : Fin 64) (w : Word) (wrong : Nat) (phase : PhaseReading) (mk : BitVec 256), s.Up →
    (s.dev.bringup n ≠ 2 → s.dev.bringup n ≠ 6 →
      Answers (.eqWrite n true w) s (fun e =>
        let pre2 := getField w F.LN_EQ_TX_pre2
        let pre1 := getField w F.LN_EQ_TX_pre1
        let post1 := getField w F.LN_EQ_TX_post1
        if pre2 ≤ 8 ∧ pre1 ≤ 24 ∧ post1 ≤ 16 ∧ pre2 + pre1 + post1 ≤ 40 then
          s.dev.Frame e [] [R.LN_EQ_TX n] ∧ e.fld (R.LN_EQ_TX n) F.LN_EQ_TX_pre2 = pre2 ∧
            e.fld (R.LN_EQ_TX n) F.LN_EQ_TX_pre1 = pre1 ∧ e.fld (R.LN_EQ_TX n) F.LN_EQ_TX_post1 = post1 ∧
            e.fld (R.LN_EQ_TX n) F.LN_EQ_TX_main = 64 - pre2 - pre1 - post1
        else s.dev.Frame e [] [R.LN_ALARM n] ∧ e.flag (R.LN_ALARM n) F.LN_ALARM_eq_reject = true)) ∧
    (s.dev.checkerRuns n = true →
      Answers (.checkerSync n) s (fun e => s.dev.RegsOnly e ∧ s.dev.KeepsRegs e [R.LN_TEST n] ∧
        e.flag (R.LN_TEST n) F.LN_TEST_chk_sync = true) ∧
      (s.dev.flag (R.LN_TEST n) F.LN_TEST_chk_sync = true →
        Answers (.checkerSyncLost n wrong) s (fun e =>
          s.dev.RegsOnly e ∧ s.dev.KeepsRegs e [R.LN_TEST n, R.LN_PRBS_ERR n, R.LN_ALARM n, R.PC_ALARM] ∧
          e.flag (R.LN_TEST n) F.LN_TEST_chk_sync = false ∧ e.flag (R.LN_ALARM n) F.LN_ALARM_prbs_sync_lost = true ∧
          e.fld (R.LN_PRBS_ERR n) F.LN_PRBS_ERR_count =
            min (s.dev.fld (R.LN_PRBS_ERR n) F.LN_PRBS_ERR_count + wrong) 0xFFFFFFFF))) ∧
    (s.dev.laneState n = enOn → s.dev.inFault = false → s.dev.isVersion3 n = false →
      Answers (.phaseSample n phase) s (fun e =>
        s.dev.Frame e [.lanes] [R.LN_PHASE_INST n, R.LN_PRBS_ERR n, R.PC_ALARM] ∧
        (s.dev.checkerRuns n = true → s.dev.flag (R.LN_TEST n) F.LN_TEST_chk_sync = true →
          e.fld (R.LN_PRBS_ERR n) F.LN_PRBS_ERR_count =
            min (s.dev.fld (R.LN_PRBS_ERR n) F.LN_PRBS_ERR_count + phase.wrongBits) 0xFFFFFFFF) ∧
        e.fld (R.LN_PHASE_INST n) F.LN_PHASE_INST_phase = phase.phase.val)) ∧
    (s.dev.bringup n = 6 → s.dev.inFault = false → 0 < (s.dev.lane n).phN → (s.dev.lane n).phSpoilt = false →
      Answers (.delayWindowEnd []) s (fun e => (e.lane n).phN = 0 ∧
        e.fld (R.LN_PHASE_AVG n) F.LN_PHASE_AVG_window =
          (s.dev.fld (R.LN_PHASE_AVG n) F.LN_PHASE_AVG_window + 1) % 256)) ∧
    (s.dev.bringup n = 6 → s.dev.isVersion3 n = true → s.dev.gapHolds n = false → (s.dev.lane n).badMarks < 2 →
      Answers (.alignmentMarker n false mk) s (fun e => s.dev.Frame e [.lanes] [] ∧
        (e.lane n).badMarks = (s.dev.lane n).badMarks + 1))

/-! Ports and links. -/

/-- R104, R106, R133, R136: a port's configuration is written only with every lane of it OFF (LK_ISZ_CFG at any time),
a MAC address is committed, and the ends of STARTING and STOPPING.
The model's choices that clauses rest on: log entries 37, 42. -/
def Obligations.PortRegisters : Prop :=
  ∀ (s : State) (p : Fin 64) (w : Word), s.Awake → s.dev.stage ≠ .safe →
    Answers (.portCfgWrite p .isz w) s (fun e => s.dev.RegsOnly e ∧ s.dev.KeepsRegs e [R.LK_ISZ_CFG p] ∧
      e.reg (R.LK_ISZ_CFG p) = s.dev.fieldsStored (R.LK_ISZ_CFG p) w) ∧
    (s.dev.lanesOff p (s.dev.portLanes p) = true →
      Answers (.portCfgWrite p .eth w) s (fun e => s.dev.RegsOnly e ∧ s.dev.KeepsRegs e [R.LK_ETH_CFG p] ∧
        e.reg (R.LK_ETH_CFG p) = s.dev.fieldsStored (R.LK_ETH_CFG p) w) ∧
      (getField w F.LK_PORT_CFG_width = 1 → s.dev.laneState p = enOff →
        (∀ q : Nat, q < 64 → q ≠ p.val → q + s.dev.portLanes q ≤ p ∨ p < q) →
        Answers (.portCfgWrite p .port w) s (fun e => s.dev.RegsOnly e ∧
          s.dev.KeepsRegs e [R.LK_PORT_CFG p, R.SW_POOL_STAT, R.SW_ALARM] ∧
          e.reg (R.LK_PORT_CFG p) = s.dev.fieldsStored (R.LK_PORT_CFG p) w))) ∧
    (s.dev.lanesOff p (s.dev.portLanes p) = false → ∀ r, r ≠ .isz →
      Answers (.portCfgWrite p r w) s (fun e => s.dev.RegsOnly e ∧ s.dev.KeepsRegs e [R.LK_ALARM p] ∧
        e.flag (R.LK_ALARM p) F.LK_ALARM_cfg_reject = true)) ∧
    Answers (.macCommit p w) s (fun e => s.dev.Frame e [.ports] [R.LK_MAC_HI p] ∧
      (e.port p).mac = getField w F.LK_MAC_HI_mac_hi * 2 ^ 32 + (s.dev.reg (R.LK_MAC_LO p)).toNat) ∧
    (s.dev.inFault = false → s.dev.stage ≠ .yielded →
      (s.dev.fld (R.LK_PORT_CTRL p) F.LK_PORT_CTRL_state = enStarting → s.dev.flag (R.LK_PORT_CTRL p) enField = true →
        Answers (.portStartingEnd p) s (fun e => s.dev.RegsOnly e ∧ s.dev.KeepsRegs e [R.LK_PORT_CTRL p] ∧
          e.portOn p = true)) ∧
      (s.dev.fld (R.LK_PORT_CTRL p) F.LK_PORT_CTRL_state = enStopping → s.dev.flag (R.LK_PORT_CTRL p) enField = false →
        s.dev.txRun p = none →
        Answers (.portStoppingEnd p) s (fun e => s.dev.RegsOnly e ∧ s.dev.KeepsRegs e [R.LK_PORT_CTRL p] ∧
          e.portOff p = true)))

/-- R114, R115: a capability word that is not valid changes nothing; a valid one is kept; and once both ends have sent
and received ack = 1, a version that the two ends do not share fails CAPEX with ver_fail, and one that they share
brings the link up with the larger of the two trigger shares.
R119, R123, R197, R199, R209, R210: a block of words on a trigger link with the engine off is only counted; with it
on, a primitive with a good CRC goes to the engine input; at a hand-off, which is the trigger position, the uplink's
lane takes the four oldest staged primitives, another lane the two oldest staged decisions, and with the engine off none.
The model's choices that clauses rest on: log entries 43, 50, 51, 52, 169. -/
def Obligations.LinkBlocks : Prop :=
  (∀ (s : State) (p : Fin 64) (w : Word64), s.Up → s.dev.isazu p = true → s.dev.rateNow p ≤ 1 →
     (capOk w = false → Answers (.capabilityWord p w) s (fun e => s.dev.RegsOnly e ∧ s.dev.KeepsRegs e [])) ∧
     (capOk w = true → s.dev.allLanes p 5 = true →
       (bit w.toNat 49 = false ∨ (s.dev.port p).sentAck = false →
         Answers (.capabilityWord p w) s (fun e => s.dev.Frame e [.ports] [] ∧ (e.port p).partner = some w)) ∧
       (bit w.toNat 49 = true → (s.dev.port p).sentAck = true →
         (s.dev.versionOk p w = false →
           Answers (.capabilityWord p w) s (fun e =>
             s.dev.Frame e linkParts (s.dev.linkRegs [p.val] ((List.range (s.dev.portLanes p)).map (p.val + ·))) ∧
             e.flag (R.LK_ALARM p) F.LK_ALARM_ver_fail = true)) ∧
         (s.dev.versionOk p w = true →
           Answers (.capabilityWord p w) s (fun e =>
             s.dev.Frame e linkParts (s.dev.linkRegs [p.val] ((List.range (s.dev.portLanes p)).map (p.val + ·))) ∧
             e.linkUp p = true ∧
             e.fld (R.LK_STATUS p) F.LK_STATUS_ver = 3 ∧
             e.shareNow p = max (s.dev.fld (R.LK_ISZ_CFG p) F.LK_ISZ_CFG_trig_share) (bits w.toNat 52 51)))))) ∧
  (∀ (s : State) (p : Fin 64) (q : Prim), s.Up → s.Inv → s.dev.trigLink p = true → s.dev.portLanes p = 1 →
     s.dev.isPairPort p = false → q.srcId < 65536 → q.t32p < 2 ^ 32 →
     (s.dev.engineOn = false →
       Answers (.triggerBlock p 0 (BitVec.ofNat 256 (q.word * 2 ^ 192))) s (fun e => s.dev.RegsOnly e ∧
         s.dev.KeepsRegs e [R.TG_PORT_ERR p] ∧ e.fld (R.TG_PORT_ERR p) F.TG_PORT_ERR_idle =
           min (s.dev.fld (R.TG_PORT_ERR p) F.TG_PORT_ERR_idle + 1) 255) ∧
       (s.dev.txIdle p = false → s.dev.inBandLink p = false →
         Answers (.triggerHandoff p) s (fun e => s.dev.Frame e [.ports] [] ∧
           e.out.head? = some (.trigBlock p 0 (blockWords [] 0))))) ∧
     (s.dev.engineOn = true →
       (s.dev.noPrimitives p = false → s.dev.relays p = false →
         Answers (.triggerBlock p 0 (BitVec.ofNat 256 (q.word * 2 ^ 192))) s (fun e => s.dev.Frame e [.tg] [] ∧
           e.tg = { s.dev.tg with flight := s.dev.tg.flight ++ [(128 + p.val, q)] })) ∧
       (s.dev.uplink = some p.val → s.dev.txIdle p = false → s.dev.inBandLink p = false →
         Answers (.triggerHandoff p) s (fun e => s.dev.Frame e [.tg, .ports] [] ∧
           e.tg = { s.dev.tg with upward := s.dev.tg.upward.drop 4 } ∧
           (e.port p).c = nextAt (s.dev.interval p) 1 (s.dev.port p).c % 16384 ∧
           e.out.head? = some (.trigBlock p 0 (blockWords (s.dev.tg.upward.take 4) 0)))) ∧
       (s.dev.uplink ≠ some p.val → s.dev.txIdle p = false → s.dev.inBandLink p = false →
         let q := sGet [] s.dev.tg.staged p
         Answers (.triggerHandoff p) s (fun e => s.dev.Frame e [.tg, .ports] [] ∧
           sGet [] e.tg.staged p = q.drop 2 ∧
           e.out.head? = some (.trigBlock p 0 (blockWords ((q.take 2).flatMap fun x => words64 2 (x.word s.dev.te)) 0))))))

/-- R109, R110, R129, R228: a good frame on a carrying Ethernet port waits for the spreader, stamped with the phase at
its port; a frame with an error found before its head cell is complete is counted under its kind and goes nowhere.
R237, R240: credit blocks received and sent on an Isazu link; a PFC frame pauses the classes it names, its quanta run
out, and the port's own flow-control frame is sent again while back-pressure holds.
The model's choices that clauses rest on: log entries 41, 45, 81. -/
def Obligations.PortTraffic : Prop :=
  (∀ (s : State) (p : Fin 64) (octets : List Byte) (start : StartSymbol) (age symbols : Nat), s.Up →
     s.dev.ethernet p = true → s.dev.carrying p = true → s.dev.isPairPort p = false →
     let at_ (x : StartSymbol) : Stamp := s.dev.rxStamp (p + x.lane) age symbols
       (s.dev.fld (R.LN_PHASE_INST (p + x.lane)) F.LN_PHASE_INST_phase)
     (64 ≤ octets.length → octets.length ≤ s.dev.maxFrame p →
       octets.drop (octets.length - 4) = fcs (octets.take (octets.length - 4)) → s.dev.inFault = false →
       (∀ classes quanta, macControl octets = some (true, classes, quanta) →
         s.dev.fld (R.LK_ETH_CFG p) F.LK_ETH_CFG_fc = 2 →
         Answers (.frameReceived p octets none start age symbols) s (fun e =>
           s.dev.Frame e [.sw] [R.PC_ALARM] ∧ e.sw.arrive = s.dev.sw.arrive ∧
           ∀ c : Fin 8, bit (sGet 0 e.sw.paused p) c =
             (if bit classes.toNat c then decide (0 < (quanta.getD c 0).toNat) else bit (sGet 0 s.dev.sw.paused p) c))) ∧
       (macControl octets = none → Answers (.frameReceived p octets none start age symbols) s (fun e =>
         e.sw.arrive = s.dev.sw.arrive ++
           [{ id := s.dev.sw.nextId, port := p, octets := octets, cls := none
              stamp := (at_ start).t48, te := (at_ start).te, invalid := (at_ start).invalid, second := none, direct := none, tx := none, err := false }] ∧
         s.dev.Frame e [.sw] [R.PC_ALARM]))) ∧
     (octets.length < 256 →
       octets.length < 64 ∨ octets.drop (octets.length - 4) ≠ fcs (octets.take (octets.length - 4)) →
       Answers (.frameReceived p octets none start age symbols) s (fun e =>
         e.sw = s.dev.sw ∧ s.dev.Frame e [] [R.PC_ALARM] ∧
         ∃ k, s.dev.rxError p octets none = some k ∧
           (sGet Ctr.zero e.pc.ctrs (portCtr p k)).value = (sGet Ctr.zero s.dev.pc.ctrs (portCtr p k)).value + 1))) ∧
  (∀ (s : State) (p : Fin 64) (c : Fin 8) (counts : BitVec 128) (classes : BitVec 8) (quanta : List (BitVec 16)),
     s.Up → s.Inv → s.dev.inFault = false → s.dev.carrying p = true →
     (s.dev.isazu p = true →
       Answers (.creditBlock p counts) s (fun e => s.dev.Frame e [.sw] [] ∧
         e.credit p c = { s.dev.credit p c with partner := bits counts.toNat (127 - 16 * c) (112 - 16 * c) }) ∧
       (s.dev.txIdle p = false → s.dev.ps.resync = false →
         Answers (.creditBlockSend p) s (fun e => s.dev.Frame e [.ports] [] ∧
           e.out = .credit p ((List.range 8).map fun c => (s.dev.credit p c).granted) :: s.dev.out))) ∧
     (s.dev.ethernet p = true →
       (s.dev.fld (R.LK_ETH_CFG p) F.LK_ETH_CFG_fc = 2 →
         Answers (.pfcReceived p true classes quanta) s (fun e =>
           s.dev.Frame e [.sw] [R.PC_ALARM] ∧
           bit (sGet 0 e.sw.paused p) c =
             (if bit classes.toNat c then decide (0 < (quanta.getD c 0).toNat) else bit (sGet 0 s.dev.sw.paused p) c))) ∧
       (bit (sGet 0 s.dev.sw.paused p) c = true →
         Answers (.pauseExpiry p c) s (fun e => s.dev.Frame e [.sw] [] ∧ bit (sGet 0 e.sw.paused p) c = false)) ∧
       (s.dev.xoff p ≠ 0 → s.dev.fld (R.LK_ETH_CFG p) F.LK_ETH_CFG_fc = 2 → s.dev.txRun p = none →
         sGet none s.dev.sw.fcDue p = none → s.dev.txIdle p = false →
         Answers (.pfcRefresh p) s (fun e =>
           s.dev.Frame e [] [R.PC_ALARM] ∧
           ∃ xs, e.out = xs ++ .pfc p (s.dev.port p).mac (s.dev.xoff p)
           ((List.range 8).map fun c => if bit (s.dev.xoff p) c then 0xFFFF else 0) :: s.dev.out))))

/-- R120, R124–R126, R130: a management block with a wrong CRC is discarded whole but for its phase readout; a good
one is kept for the next reply; a block sent takes the next sequence number; a delay window with samples enough is
published, and one disturbed is dropped and counted; an in-band trigger word on a version-1 or version-2 link with the
engine off is counted. The model's choices that clauses rest on: log entries 35, 36, 46, 48, 50, 169. -/
def Obligations.LinkDelay : Prop :=
  ∀ (s : State) (p : Fin 64) (blk : BitVec 256) (symbols : Nat) (phase : Fin 512) (x : Samples) (w : Word64), s.Up → s.Inv →
    s.dev.isazu p = true →
    (s.dev.isVersion3 p = true → 0 < s.dev.portLanes p →
      (crc16 256 blk.toNat ≠ blk.toNat % 2 ^ 16 →
        Answers (.managementBlock p 0 blk symbols phase) s (fun e => s.dev.Frame e [.lanes]
          [R.LN_PHASE_INST p, R.LK_ALARM p, R.PC_ALARM] ∧
          e.flag (R.LK_ALARM p) F.LK_ALARM_mgmt_crc = true ∧
          e.fld (R.LN_PHASE_INST p) F.LN_PHASE_INST_phase = phase.val)) ∧
      (crc16 256 blk.toNat = blk.toNat % 2 ^ 16 → bits blk.toNat 255 248 = 0 → s.dev.bringup p ≠ 6 →
        (s.dev.port p).invalid = bit blk.toNat 126 →
        Answers (.managementBlock p 0 blk symbols phase) s (fun e => ∃ t,
          (e.lane p).rx = some (bits blk.toNat 247 240, t)))) ∧
    (s.dev.framing3 p = true → 0 < s.dev.portLanes p → s.dev.txIdle p = false → s.dev.allLanes p 5 = false →
      s.dev.linkUp p = false →
      Answers (.managementBlockSend p 0) s (fun e =>
        s.dev.Frame e [.lanes, .ports] [] ∧
        (e.lane p).mgmtSeq = ((s.dev.lane p).mgmtSeq + 1) % 256 ∧
        ∃ b, e.out.head? = some (.mgmtBlock p 0 b) ∧ bits b.toNat 247 240 = (s.dev.lane p).mgmtSeq % 256 ∧
          bits b.toNat 255 248 = 0)) ∧
    ((s.dev.lane p).closed = some x → 0 < s.dev.portLanes p →
      (s.dev.publishable p x = true → s.dev.fld (R.LK_TC_CFG p) F.LK_TC_CFG_enable = 0 → s.dev.timeLane p ≠ 0 →
        s.dev.stage ≠ .firing →
        Answers (.delayPublish p 0) s (fun e => s.dev.Frame e [.lanes] [R.LK_DLY_RTT_LO p 0, R.LK_DLY_RTT_HI p 0,
            R.LK_DLY_OFS p 0, R.LK_DLY_STAT p 0] ∧
          (e.reg (R.LK_DLY_RTT_LO p 0)).toNat = unsigned 48 x.rtt % 2 ^ 32 ∧
          e.sfld (R.LK_DLY_OFS p 0) F.LK_DLY_OFS_value = x.ofs (s.dev.asymOf p 0) ∧
          e.fld (R.LK_DLY_RTT_HI p 0) F.LK_DLY_RTT_HI_window = ((s.dev.lane p).windows + 1) % 256)) ∧
      (s.dev.publishable p x = false →
        Answers (.delayPublish p 0) s (fun e => s.dev.Frame e [.lanes] [R.LK_DLY_STAT p 0, R.PC_ALARM] ∧
          e.fld (R.LK_DLY_STAT p 0) F.LK_DLY_STAT_drop_count =
            min (s.dev.fld (R.LK_DLY_STAT p 0) F.LK_DLY_STAT_drop_count + 1) 255))) ∧
    (3 ≤ s.dev.rateNow p → s.dev.linkUp p = true → s.dev.engineOn = false →
      1 ≤ bits w.toNat 63 60 → bits w.toNat 63 60 ≤ 3 →
      Answers (.inBandWord p (.word w)) s (fun e => s.dev.RegsOnly e ∧ s.dev.KeepsRegs e [R.TG_PORT_ERR p] ∧
        e.fld (R.TG_PORT_ERR p) F.TG_PORT_ERR_idle = min (s.dev.fld (R.TG_PORT_ERR p) F.TG_PORT_ERR_idle + 1) 255))

/-! Time core. -/

/-- R137, R138, R47: a TIME tick. The counter advances by the nominal sequence or by TC_INCR in force, the position of
the sequence by one, and no register changes where no edge waits for its window decision; a commit of TC_INCR within
1,000 ppm of 1.6 ns waits for the next tick, and one beyond is ignored whole.
R139, R425: a read of TC_NOW_LO returns the low half of the counter and latches the high half, TE and the invalid
flag. The model's choices that clauses rest on: log entry 53. -/
def Obligations.CounterRegisters : Prop :=
  (∀ (s : State) (w : Word), s.Awake →
     Answers .timeTick s (fun e => (s.dev.ec.waits = [] → s.dev.Frame e [.board, .tc, .ck] []) ∧
       s.dev.Frame e [.board, .tc, .ck, .chans, .tg] s.dev.judgeRegs ∧ e.ticks = s.dev.ticks + 1 ∧
       e.tc.pos = s.dev.tc.pos + 1 ∧
       e.tc.acc = (s.dev.tc.acc +
         (if s.dev.flag R.TC_CTRL F.TC_CTRL_incr_src then s.dev.tc.incrNext.getD s.dev.tc.incr
          else if s.dev.tc.pos = 0 ∨ s.dev.tc.pos = 2 then 1759218604441 else 1759218604442)) % 2 ^ 72) ∧
     (s.dev.stage ≠ .safe →
      let v : Nat := getField w F.TC_INCR_HI_value_hi * 2 ^ 32 + (s.dev.reg R.TC_INCR_LO).toNat
      Answers (.incrCommit w) s (fun e =>
        if ((5 * v : Nat) - (8 * 2 ^ 40 : Nat) : Int).natAbs * 1000 ≤ 8 * 2 ^ 40 then
          e.tc = { s.dev.tc with incrNext := some v } ∧ s.dev.Frame e [.tc] [R.TC_INCR_HI] ∧
            e.fld R.TC_INCR_HI F.TC_INCR_HI_value_hi = getField w F.TC_INCR_HI_value_hi
        else e.tc = s.dev.tc ∧ s.dev.Frame e [] [R.TC_ALARM] ∧ e.flag R.TC_ALARM F.TC_ALARM_incr_reject = true))) ∧
  (∀ (s : State), s.Awake → s.Inv →
     Answers (.latchingRead .tcNow) s (fun e =>
       s.dev.Frame e [.board] [] ∧ e.out = .readData .bar0 R.TC_NOW_LO (BitVec.ofNat 32 s.dev.now) :: s.dev.out ∧
       (s.dev.now < 2 ^ 48 →
         getField (e.view R.TC_NOW_HI) F.TC_NOW_HI_t48_hi = s.dev.now / 2 ^ 32 ∧
         getField (e.view R.TC_NOW_HI) F.TC_NOW_HI_te = s.dev.te ∧
         getField (e.view R.TC_NOW_HI) F.TC_NOW_HI_invalid = one (!s.dev.timeValid))))

/-- R137: the counter has 72 bits and advances once a TIME tick; T48 is its upper 48 bits, and no register reports the
lower 24; at the start of bisque it is 0, and TE is 0. -/
def Obligations.TimeAccumulator : Prop :=
  (∀ s : State, s.Up → Answers .timeTick s (fun e => e.tc.acc < 2 ^ 72 ∧
    s.dev.Frame e [.board, .tc, .ck, .chans, .tg] s.dev.judgeRegs ∧
    ∃ incr, e.tc.acc = (s.dev.tc.acc + incr) % 2 ^ 72 ∧
      (s.dev.flag R.TC_CTRL F.TC_CTRL_incr_src = false → 1759218604441 ≤ incr ∧ incr ≤ 1759218604442))) ∧
  (∀ (d : Dev) (acc : Nat), d.now = d.tc.acc / 2 ^ 24 ∧
    (acc / 2 ^ 24 = d.tc.acc / 2 ^ 24 → ∀ o, ({ d with tc := { d.tc with acc := acc } } : Dev).view o = d.view o)) ∧
  (∀ (nv : Nv) (pins : Pins) (out : List Out) (free : Nat),
    (Dev.cold nv pins out free).tc.acc = 0 ∧ (Dev.cold nv pins out free).te = 0) ∧
  (∀ (s : State) (temps : List Int), s.dev.mi.scan = false → s.dev.stage = .off → s.dev.tc = Tc.reset →
    s.dev.regs = [] →
    s.dev.nv.bisque = [] → s.dev.nv.clearing = none →
    Answers (.resetRelease temps) s (fun e => e.tc.acc = 0 ∧ e.te = 0))

/-- R140–R143: a commit is taken unless a step is pending; at the step tick the pending step is refused in FAULT, for
a change of zero, and for one beyond TC_STEP_LIMIT without force, and nothing of it is applied; else the change is
added to the counter and TE advances. The model's choices that clauses rest on: log entry 54. -/
def Obligations.CounterStep : Prop :=
  ∀ (s : State) (w : Word) (r : StepReq), s.Up →
    (s.dev.tc.step = none →
      Answers (.stepCommit w) s (fun e =>
        s.dev.Frame e [.tc] [R.TC_STATUS, R.TC_STEP_HI] ∧
        e.flag R.TC_STATUS F.TC_STATUS_step_busy = true ∧
        ∃ q, e.tc = { s.dev.tc with step := some q } ∧ (q.absolute = true ↔ getField w F.TC_STEP_HI_absolute = 1) ∧
          (q.force = true ↔ getField w F.TC_STEP_HI_force = 1) ∧
          unsigned 48 q.value = getField w F.TC_STEP_HI_value_hi * 2 ^ 32 + (s.dev.reg R.TC_STEP_LO).toNat)) ∧
    (s.dev.tc.step.isSome = true → s.dev.validity ≠ 2 →
      Answers (.stepCommit w) s (fun e =>
        s.dev.Frame e [.log] (R.TC_ALARM :: logRegs) ∧
        e.tc = s.dev.tc ∧ e.flag R.TC_ALARM F.TC_ALARM_step_refused = true)) ∧
    (s.dev.tc.step = some r →
      let ch := r.change s.dev.now
      let bad := s.dev.inFault = true ∨ ch = 0 ∨ (ns (s.dev.reg R.TC_STEP_LIMIT).toNat < ch.natAbs ∧ r.force = false)
      (bad → Answers .stepApply s (fun e =>
         s.dev.Frame e (.log :: cleanParts) (logRegs ++ s.dev.validRegs) ∧
         e.tc.acc = s.dev.tc.acc ∧ e.te = s.dev.te ∧ e.tc.step = none ∧
        e.tc.expect = s.dev.tc.expect ∧ e.flag R.TC_STATUS F.TC_STATUS_step_busy = false ∧
        e.flag R.TC_ALARM F.TC_ALARM_step_refused = true ∧ (s.dev.validity = 2 → e.validity = 1))) ∧
      (¬ bad → Answers .stepApply s (fun e =>
         s.dev.Frame e (.log :: .lanes :: cleanParts) (logRegs ++ s.dev.validRegs) ∧
         (e.tc.acc : Int) = (s.dev.tc.acc + ch * 2 ^ 24) % 2 ^ 72 ∧
        e.te = (s.dev.te + 1) % 256 ∧ e.tc.step = none ∧ e.flag R.TC_STATUS F.TC_STATUS_step_busy = false ∧
        e.flag R.TC_ALARM F.TC_ALARM_step_applied = true ∧ e.validity = s.dev.validity)))

/-- R147: rows of the validity table that the host or a timer brings about: a first source begins ALIGNING, none is
INVALID, host_valid sets and ends the presence of source 3, and hold_limit ends HOLD.
R145, R425: an edge of the 1PPS time source is stamped whatever its qualification, and TC_PPS_EXPECT advances by a
second at an edge within 500 µs of it and when none comes; its commit joins the halves.
The model's choices that clauses rest on: log entries 56, 57, 58. -/
def Obligations.TimeSources : Prop :=
  (∀ (s : State) (w : Word), s.Up → s.dev.standby = false →
     (s.dev.validity = 0 → s.dev.fld R.TC_SRC_CFG F.TC_SRC_CFG_source = 0 → s.dev.inFault = false →
       getField w F.TC_SRC_CFG_source = 1 ∨ getField w F.TC_SRC_CFG_source = 2 →
       Answers (.sourceWrite w) s (fun e =>
         s.dev.Frame e validParts (R.TC_SRC_CFG :: s.dev.validRegs) ∧
         e.validity = 1 ∧ e.timeValid = false)) ∧
     (s.dev.validity ≠ 0 → s.dev.fld R.TC_SRC_CFG F.TC_SRC_CFG_source ≠ 0 → getField w F.TC_SRC_CFG_source = 0 →
       Answers (.sourceWrite w) s (fun e =>
         s.dev.Frame e validParts (R.TC_SRC_CFG :: s.dev.validRegs) ∧
         e.validity = 0 ∧ e.timeValid = false)) ∧
     (s.dev.fld R.TC_SRC_CFG F.TC_SRC_CFG_source = 3 → s.dev.locked = true →
       (s.dev.validity = 2 → getField w F.TC_CTRL_host_valid = 0 →
         Answers (.hostValidWrite w) s (fun e =>
           s.dev.Frame e validParts (R.TC_CTRL :: s.dev.validRegs) ∧
           e.validity = 3 ∧ e.timeValid = true)) ∧
       (s.dev.validity = 1 ∨ s.dev.validity = 3 → getField w F.TC_CTRL_host_valid = 1 →
         Answers (.hostValidWrite w) s (fun e =>
           s.dev.Frame e validParts (R.TC_CTRL :: s.dev.validRegs) ∧
           e.validity = 2 ∧ e.timeValid = true))) ∧
     (s.dev.validity = 3 →
       Answers .holdLimitExpiry s (fun e =>
         s.dev.Frame e validParts s.dev.validRegs ∧
         e.validity = 1 ∧ e.timeValid = false ∧
         e.flag R.TC_ALARM F.TC_ALARM_hold_expired = true ∧ e.flag R.TC_ALARM F.TC_ALARM_valid_lost = true))) ∧
  (∀ (s : State) (k : Fin 4) (since at_ : Nat) (w : Word), s.Up →
     (s.dev.isPps k = true → s.dev.timeSource = 1 → s.dev.fld R.TC_SRC_CFG F.TC_SRC_CFG_refin = k →
       Answers (.ppsRefEdge k since at_) s (fun e =>
         s.dev.Frame e (.log :: cleanParts) ([R.TC_PPS_STAMP_LO, R.TC_PPS_STAMP_HI, R.TC_OFS_LAST, R.CK_PHASE_SP,
           R.CK_REF_STATUS k, R.CK_REF_FOFF k] ++
           logRegs ++ s.dev.cleanRegs) ∧
         e.reg R.TC_PPS_STAMP_LO = BitVec.ofNat 32 (s.dev.refStamp k since).t48 ∧
         ((t48Sub (s.dev.refStamp k since).t48 s.dev.tc.expect).natAbs ≤ ns 500000 →
           e.tc.expect = t48Add s.dev.tc.expect (ns 1000000000 : Nat)))) ∧
     (s.dev.timeSource = 1 →
       Answers .ppsExpectMissed s (fun e => s.dev.Frame e [.tc] [] ∧
         e.tc = { s.dev.tc with expect := t48Add s.dev.tc.expect (ns 1000000000 : Nat) })) ∧
     (∀ lo, s.dev.tc.heldLo = some lo →
       Answers (.ppsExpectCommit w) s (fun e => s.dev.Frame e [.tc] [] ∧
         e.tc = { s.dev.tc with heldLo := none
                                expect := getField w F.TC_PPS_EXPECT_HI_next_hi * 2 ^ 32 + lo.toNat })))

/-! Trigger plane. -/

/-- R199, R200, R203, R214: arrival at the engine input and at its merge buffer; an admitted primitive counts nowhere
while TIME_VALID is low or its map entry is invalid, else in every open window that holds its stamp, for every slot of
its group. The model's choices that clauses rest on: log entries 71, 73. -/
def Obligations.EngineInput : Prop :=
  ∀ (s : State) (src : Fin 194) (wd : Word64) (p : Prim) (rest : List (Nat × Prim)), s.Up → s.dev.engineOn = true →
    (s.dev.tg.merge.length < 32 →
      Answers (.primitiveArrival src wd) s (fun e => s.dev.Frame e [.tg] [] ∧
        e.tg.merge = s.dev.tg.merge ++ [(src.val, primOf wd.toNat)] ∧ e.tg.run = s.dev.tg.run)) ∧
    (32 ≤ s.dev.tg.merge.length →
      Answers (.primitiveArrival src wd) s (fun e =>
        s.dev.Frame e [] [R.TG_IN_LOSS src, R.TG_ALARM, R.PC_ALARM] ∧
        e.tg.merge = s.dev.tg.merge ∧
        e.fld (R.TG_IN_LOSS src) F.TG_IN_LOSS_count = min (s.dev.fld (R.TG_IN_LOSS src) F.TG_IN_LOSS_count + 1) 0xFFFFFFFF ∧
        e.flag R.TG_ALARM F.TG_ALARM_in_loss = true)) ∧
    (s.dev.tg.merge = (src.val, p) :: rest →
      let m := sGet 0 s.dev.tg.chanMap p.srcId
      (s.dev.timeValid = false →
        Answers (.mergeBufferAdmit .good) s (fun e =>
          s.dev.Frame e [.tg] [R.PC_ALARM] ∧
          e.tg = { s.dev.tg with merge := rest })) ∧
      (s.dev.timeValid = true → bit m 15 = false →
        Answers (.mergeBufferAdmit .good) s (fun e =>
          s.dev.Frame e [.tg] [R.TG_UNMAPPED, R.PC_ALARM] ∧
          e.tg = { s.dev.tg with merge := rest } ∧
          e.fld R.TG_UNMAPPED F.TG_UNMAPPED_count = min (s.dev.fld R.TG_UNMAPPED F.TG_UNMAPPED_count + 1) 0xFFFFFFFF)) ∧
      (s.dev.timeValid = true → bit m 15 = true → s.dev.mi.diverted.contains (6, p.srcId / 16) = false →
        ∀ u x, s.dev.tg.run = [(u, x)] →
          Answers (.mergeBufferAdmit .good) s (fun e =>
            s.dev.Frame e [.tg] [R.PC_ALARM] ∧
            e.tg.merge = rest ∧ e.tg.run.map (·.1) = [u] ∧ ∃ y, e.unitRun? u = some y ∧
            y.entry = x.entry ∧ y.wins.map (·.start) = x.wins.map (·.start) ∧
            ∀ (k i : Nat), i < 8 → ∀ w, x.wins[k]? = some w → ∀ v, y.wins[k]? = some v →
              v.counts.getD i 0 =
                if w.counting x.entry s.dev.now = true ∧
                    (slotRole x.entry i = 1 ∨ slotRole x.entry i = 2) ∧ entryBits x.entry i 23 12 = m % 4096 ∧
                    0 ≤ t48Sub (t32pNear s.dev.now p.t32p) w.start ∧
                    t48Sub (t32pNear s.dev.now p.t32p) w.start < (unitLen x.entry : Nat) then
                  min 255 (w.counts.getD i 0 + 1)
                else w.counts.getD i 0)))

/-- R202, R204, R205: a unit in ON opens the next window of its series, cancelled ones apart; the oldest window is
evaluated at its close: without its condition it produces nothing, vetoed neither, and firing it cancels the windows
whose start lies within its length and dead time, and, with a prescale of 0 or 1, leaves an output with the window's
first stamp.
R206, R207, R209: the output of a unit with a local decision goes to the scheduler with t_exec = t_dec + TG_BUDGET, at
once or once its hold ends; a unit whose last decision has not been released holds.
The model's choices that clauses rest on: log entries 73, 74, 76. -/
def Obligations.CoincidenceUnits : Prop :=
  (∀ (s : State) (u : Fin 4096) (x : UnitRun), s.Up → s.dev.unitRun? u = some x →
     (s.dev.fld (R.TG_CU_CTRL u) F.TG_CU_CTRL_state = enOn → s.dev.timeValid = true →
       (cancelled x.cancel s.dev.ticks x.next = true →
         Answers (.unitWindowOpen u) s (fun e => s.dev.Frame e [.tg] [] ∧
           e.unitRun? u = some { x with next := t48Add x.next (unitStep x.entry : Nat) })) ∧
       (cancelled x.cancel s.dev.ticks x.next = false → x.wins.length < 64 →
         Answers (.unitWindowOpen u) s (fun e => s.dev.Frame e [.tg] [] ∧
           e.unitRun? u = some { x with next := t48Add x.next (unitStep x.entry : Nat)
                                        wins := x.wins ++ [⟨x.next, List.replicate 8 0, none, none⟩] }))) ∧
     (∀ w ws, x.wins = w :: ws → x.heldAt = none →
       (windowHolds x.entry w = false ∨ windowVetoed x.entry w = true →
         Answers (.unitWindowClose u) s (fun e => s.dev.Frame e [.tg] [R.PC_ALARM] ∧
           e.unitRun? u = some { x with wins := ws })) ∧
       (windowHolds x.entry w = true → windowVetoed x.entry w = false → entryBits x.entry 10 15 0 ≤ 1 →
         Answers (.unitWindowClose u) s (fun e => s.dev.Frame e [.tg] [R.PC_ALARM] ∧
           ∃ y, e.unitRun? u = some y ∧
             y.outs = x.outs ++ [⟨t48Add w.start ((unitLen x.entry + unitSettle x.entry : Nat) : Int), w.first⟩] ∧
             ∀ v, v ∈ y.wins ↔ v ∈ ws ∧ ¬ (0 < t48Sub v.start w.start ∧
               t48Sub v.start w.start < (unitLen x.entry + unitDead x.entry : Nat)))))) ∧
  (∀ (s : State) (u : Fin 4096) (x : UnitRun) (o : UnitOut) (os : List UnitOut), s.Up → s.dev.unitRun? u = some x →
     x.outs = o :: os → bit (x.entry.getD 12 0).toNat 15 = false → bit (x.entry.getD 12 0).toNat 13 = true →
     s.dev.standby = false →
     (((∀ y ∈ s.dev.tg.own, y.unit ≠ some u.val) ∧ s.dev.tg.pending.length < 32768) →
       let q (e : Dev) : Prop := s.dev.Frame e [.tg] [R.PC_ALARM] ∧
         e.unitRun? u = some { x with outs := os, heldAt := none } ∧
         ∃ y, y ∈ e.tg.own ∧ y.unit = some u.val ∧ y.loc = true ∧ y.action = entryBits x.entry 12 11 0 ∧
           y.tExec = t48Add o.tDec (ns (s.dev.fld R.TG_BUDGET F.TG_BUDGET_budget))
       (x.heldAt = none → Answers (.unitOutput u) s q) ∧
       (x.heldAt ≠ none → Answers (.unitHoldRelease u) s q)) ∧
     (x.heldAt = none → (∃ y ∈ s.dev.tg.own, y.unit = some u.val) →
       Answers (.unitOutput u) s (fun e =>
         s.dev.Frame e [.tg] [R.TG_ALARM, R.PC_ALARM] ∧
         e.flag R.TG_ALARM F.TG_ALARM_hold = true ∧
         e.unitRun? u = some { x with heldAt := some s.dev.ticks } ∧ e.tg.own = s.dev.tg.own)))

/-- R212–R214, R216, R218: a received decision of a class that this node executes enters the pending store, LATE when
less than 102.4 ns are left; at its start a decision of an action with readout alone waits for its channels; and a
channel without records sends one frame and leaves the store with it.
R208, R222, R346: the ends of STARTING and STOPPING of a unit, which takes a copy of its entry, and of the engine.
The model's choices that clauses rest on: log entries 75, 76, 77, 78. -/
def Obligations.EngineAndDecisions : Prop :=
  (∀ (s : State) (x : Dec) (xs : List Dec) (y : PendDec) (c : Nat), s.Up → s.dev.standby = false →
     (s.dev.tg.received = x :: xs → x.rcvd = true → x.host = none →
       s.dev.flag (R.TG_CLASS_CFG x.dclass) F.TG_CLASS_CFG_exec = true →
       Answers .decisionRelease s (fun e =>
         s.dev.Frame e [.tg] [R.TG_ALARM, R.TG_LATE, R.PC_ALARM] ∧
         e.tg.received = xs ∧ ∃ z, e.tg.pending = s.dev.tg.pending ++ [z] ∧
         z.dec = x ∧ z.started = false ∧ (z.late = true ↔ t48Sub x.tExec s.dev.now * 10 < 1024 * 65536) ∧
         (z.late = true → e.flag R.TG_ALARM F.TG_ALARM_late = true))) ∧
     (s.dev.tg.pending = [y] → y.started = false → s.dev.timeValid = true →
       s.dev.mi.diverted.contains (8, y.dec.action) = false →
       (s.dev.action y.dec.action).getD 0 0 &&& 0xF0000000#32 = 0x40000000#32 →
       (s.dev.action y.dec.action).getD 5 0 &&& 0xFF00#32 = 0x0100#32 →
       Answers (.decisionExecute [] .good) s (fun e => ∃ z, e.tg.pending = [z] ∧ z.dec = y.dec ∧ z.started = true ∧
         z.readout = [entryBits (s.dev.action y.dec.action) 5 6 0] ∧
         z.tStart = if y.late then s.dev.now else y.dec.tExec)) ∧
     (s.dev.tg.pending = [y] → y.started = true → y.readout = [c] → (s.dev.chan c).hist = [] →
       Answers (.readoutChannel true) s (fun e =>
         s.dev.Frame e [.tg, .sw] [R.PC_ALARM] ∧
         e.tg.pending = [] ∧
         ∃ f, e.sw.arrive = s.dev.sw.arrive ++ [f] ∧ f.port = 66 ∧ f.second = none))) ∧
  (∀ (s : State) (u : Fin 4096), s.Up → s.dev.inFault = false →
     (s.dev.fld (R.TG_CU_CTRL u) F.TG_CU_CTRL_state = enStarting → s.dev.engineOn = true →
       s.dev.flag (R.TG_CU_CTRL u) F.TG_CU_CTRL_enable = true → s.dev.mi.diverted.contains (7, u.val) = false →
       s.dev.mi.stuck.contains (7, u.val) = false →
       Answers (.unitStartingEnd u) s (fun e => e.fld (R.TG_CU_CTRL u) F.TG_CU_CTRL_state = enOn ∧
         s.dev.Frame e [.tg] [R.TG_CU_CTRL u] ∧ ∃ x, e.unitRun? u = some x ∧ x.entry = sGet [] s.dev.tg.unitTab u ∧
           x.wins = [] ∧ x.prescale = 0)) ∧
     (s.dev.fld (R.TG_CU_CTRL u) F.TG_CU_CTRL_state = enStopping →
       s.dev.flag (R.TG_CU_CTRL u) F.TG_CU_CTRL_enable = false →
       (s.dev.unitRun? u).all (fun x => x.wins.isEmpty && x.outs.isEmpty) = true →
       Answers (.unitStoppingEnd u) s (fun e => e.fld (R.TG_CU_CTRL u) F.TG_CU_CTRL_state = enOff ∧
         s.dev.Frame e [] [R.TG_CU_CTRL u] ∧ e.unitRun? u = none)) ∧
     (s.dev.fld R.TG_CTRL F.TG_CTRL_state = enStarting → s.dev.flag R.TG_CTRL F.TG_CTRL_enable = true →
       s.dev.stage = .glaze →
       Answers .engineStartingEnd s (fun e =>
         s.dev.Frame e [] (R.TG_CTRL :: (List.range 4096).map R.TG_CU_CTRL) ∧
         e.engineOn = true)) ∧
     (s.dev.fld R.TG_CTRL F.TG_CTRL_state = enStopping → s.dev.flag R.TG_CTRL F.TG_CTRL_enable = false →
       s.dev.unitsActive = [] → s.dev.tg.pending = [] → s.dev.tg.own = [] → s.dev.tg.received = [] →
       Answers .engineStoppingEnd s (fun e => s.dev.Frame e [.tg] [R.TG_CTRL] ∧
         e.fld R.TG_CTRL F.TG_CTRL_state = enOff ∧ e.tg.run = [] ∧ e.tg.upward = [] ∧ e.tg.staged = [])))

/-! Edge channels. -/

/-- R168–R170, R178, R180: a selected crossing at a live channel. Within 2.4 ns of the last stamped one it is lost and
counted; in mode 0 it is accepted with the stamp of R168 and the next sequence number, or refused at a full queue;
outside every window it is rejected and counted; in mode 1 it waits 25.6 ns, and the TIME tick at which that ends takes
the window decision. A stamp before the channel's last marker makes no record.
The model's choices that clauses rest on: log entries 61, 62. -/
def Obligations.EdgeCrossings : Prop :=
  (∀ (s : State) (c : Fin 128) (fall : Bool) (k : Fin 5) (code : Byte), s.Up → s.dev.tdcOn c = true →
    s.dev.chanLive c = true → s.dev.selected c fall = true →
    let at_ := s.dev.ticks * 10485760 + k.val * 2097152 + s.dev.interp c code.toNat
    let x := s.dev.chan c
    let blind := ∃ l, x.lastEdge = some l ∧ at_ < l + 15728640
    (blind → Answers (.edgeCrossing c fall k code) s (fun e =>
       s.dev.Frame e [] [R.EC_PILEUP c, R.EC_ALARM c, R.PC_ALARM] ∧
       e.chans = s.dev.chans ∧ e.tg = s.dev.tg ∧
      e.fld (R.EC_PILEUP c) F.EC_PILEUP_count = min (s.dev.fld (R.EC_PILEUP c) F.EC_PILEUP_count + 1) 0xFFFFFFFF)) ∧
    (¬ blind → s.dev.beforeLive c (s.dev.stampOf c k code.toNat) = true →
      Answers (.edgeCrossing c fall k code) s (fun e => e = s.dev)) ∧
    (s.dev.beforeLive c (s.dev.stampOf c k code.toNat) = false → ¬ blind → s.dev.winMode c = 0 → x.queue.length < 512 →
      Answers (.edgeCrossing c fall k code) s (fun e => s.dev.Frame e [.chans, .tg] [R.PC_ALARM] ∧
        (e.chan c).seq = (x.seq + 1) % 65536 ∧ ∃ r, (e.chan c).queue = x.queue ++ [r] ∧ r.kind = 1 ∧ r.seq = x.seq ∧
          r.t48 = (s.dev.stampOf c k code.toNat).t48 ∧ r.te = (s.dev.stampOf c k code.toNat).te ∧
          r.dest = s.dev.destOf c ∧
          (s.dev.flag (R.EC_OUT_CFG c) F.EC_OUT_CFG_trig = true → e.tg.flight = s.dev.tg.flight ++
            [(c.val, ⟨s.dev.fld (R.EC_OUT_CFG c) F.EC_OUT_CFG_src_id, r.fall, r.t48 / 256 % 2 ^ 32⟩)]))) ∧
    (s.dev.beforeLive c (s.dev.stampOf c k code.toNat) = false → ¬ blind → s.dev.winMode c = 0 → 512 ≤ x.queue.length →
      Answers (.edgeCrossing c fall k code) s (fun e =>
        s.dev.Frame e [.chans] [R.EC_OVERFLOW c, R.EC_ALARM c, R.PC_ALARM] ∧
        (e.chan c).queue = x.queue ∧ e.tg = s.dev.tg ∧
        e.flag (R.EC_ALARM c) F.EC_ALARM_overflow = true)) ∧
    (s.dev.beforeLive c (s.dev.stampOf c k code.toNat) = false → ¬ blind → s.dev.winMode c = 2 → x.wins = [] →
      Answers (.edgeCrossing c fall k code) s (fun e =>
        s.dev.Frame e [.chans] [R.EC_REJECT c, R.PC_ALARM] ∧
        (e.chan c).queue = x.queue ∧ e.tg = s.dev.tg ∧
        e.fld (R.EC_REJECT c) F.EC_REJECT_count = min (s.dev.fld (R.EC_REJECT c) F.EC_REJECT_count + 1) 0xFFFFFFFF)) ∧
    (s.dev.beforeLive c (s.dev.stampOf c k code.toNat) = false → ¬ blind → s.dev.winMode c = 1 →
      Answers (.edgeCrossing c fall k code) s (fun e => s.dev.Frame e [.chans] [] ∧
        (e.chan c).queue = x.queue ∧ ∃ y, e.ec.waits = s.dev.ec.waits ++ [y] ∧ y.chan = c.val ∧
          y.due = s.dev.ticks + 16 ∧ y.rec_.kind = 1 ∧ y.rec_.t48 = (s.dev.stampOf c k code.toNat).t48))) ∧
  (∀ (s : State) (w : EdgeWait), s.Up → s.dev.ec.waits = [w] → w.rec_.kind = 1 → w.due = s.dev.ticks + 1 →
     let x := s.dev.chan w.chan
     (s.dev.tick.inWindow w.chan w.rec_.te w.rec_.t48 = true → x.queue.length < 512 →
       Answers .timeTick s (fun e => s.dev.Frame e [.board, .tc, .ck, .chans, .tg] [R.PC_ALARM] ∧ e.ec.waits = [] ∧
         ∃ r, (e.chan w.chan).queue = x.queue ++ [r] ∧ r.t48 = w.rec_.t48 ∧ r.seq = x.seq)) ∧
     (s.dev.tick.inWindow w.chan w.rec_.te w.rec_.t48 = false →
       Answers .timeTick s (fun e => s.dev.Frame e [.board, .tc, .ck, .chans] [R.EC_REJECT w.chan, R.PC_ALARM] ∧
         e.ec.waits = [] ∧ e.chans = s.dev.chans ∧ e.fld (R.EC_REJECT w.chan) F.EC_REJECT_count =
           min (s.dev.fld (R.EC_REJECT w.chan) F.EC_REJECT_count + 1) 0xFFFFFFFF)))

/-- R170, R172, R190: a window of mode 2 opens and its series goes on; the scale measured at an opening is applied or
discarded; and EC_WIN_BASE is committed only with the channel OFF.
R167, R179, R181, R182: the oldest record leaves for the history ring; a gathered frame leaves through port 66; and
the ends of STARTING and STOPPING of a TDC input. The model's choices that clauses rest on: log entries 62, 65, 66. -/
def Obligations.ChannelWindowsAndStreams : Prop :=
  (∀ (s : State) (c : Fin 128) (m : ScaleMeas) (w : Word), s.Up →
     (s.dev.tdcOn c = true → s.dev.winMode c = 2 →
       Answers (.windowOpening c m) s (fun e =>
         s.dev.Frame e [.chans] [R.EC_CAL_STAT c, R.EC_ALARM c, R.PC_ALARM] ∧
         (e.chan c).wins.head? = some ⟨(s.dev.chan c).nextOpen, ((s.dev.chan c).winCount + 1) % 256, s.dev.ticks, none⟩ ∧
         (e.chan c).nextOpen = t48Add (s.dev.chan c).nextOpen ((s.dev.reg (R.EC_WIN_PERIOD c)).toNat * 256 : Nat) ∧
         (m.crossed = true → s.dev.Frame e [.chans] []) ∧
         (m.crossed = false → (m.c2 - m.c1 - (s.dev.chan c).scd).natAbs ≤ 256 → 0 ≤ m.c2 - m.c1 → m.c2 - m.c1 < 65536 →
           (e.fld (R.EC_CAL_STAT c) F.EC_CAL_STAT_scale : Int) = m.c2 - m.c1 ∧ (e.chan c).offset = 2 * m.c1 - m.c2) ∧
         (m.crossed = false → 256 < (m.c2 - m.c1 - (s.dev.chan c).scd).natAbs →
           e.reg (R.EC_CAL_STAT c) = s.dev.reg (R.EC_CAL_STAT c) ∧
           e.flag (R.EC_ALARM c) F.EC_ALARM_scale_reject = true))) ∧
     (s.dev.chanState c = enOff →
       Answers (.winBaseCommit c w) s (fun e => s.dev.Frame e [.chans] [R.EC_WIN_BASE_HI c] ∧
         (e.chan c).winBase = getField w F.EC_WIN_BASE_HI_base_hi * 2 ^ 32 + (s.dev.reg (R.EC_WIN_BASE_LO c)).toNat)) ∧
     (s.dev.chanState c ≠ enOff →
       Answers (.winBaseCommit c w) s (fun e => s.dev.Frame e [] [R.EC_ALARM c] ∧ e.chans = s.dev.chans ∧
         e.flag (R.EC_ALARM c) F.EC_ALARM_cfg_reject = true))) ∧
  (∀ (s : State) (c : Fin 128) (m : ScaleMeas) (r : EdgeRec) (rs : List EdgeRec), s.Up →
     ((s.dev.chan c).queue = r :: rs → (s.dev.chan c).held = [] → s.dev.serves c = true →
       r.dest.hist = true → r.dest.stream = 0 →
       Answers (.collectorDrain c .good) s (fun e => (e.chan c).queue = rs ∧
         (e.chan c).hist = (r :: (s.dev.chan c).hist).take 4096 ∧ e.sw = s.dev.sw ∧
           e.ec.collector = (c.val + 1) % 128 ∧ s.dev.Frame e [.chans, .mi] [R.PC_ALARM])) ∧
     ((s.dev.chan c).gather ≠ [] → s.dev.backPressured 66 (s.dev.tplClass c) = false →
       Answers (.streamFrameFlush c) s (fun e =>
         s.dev.Frame e [.chans, .sw] [R.PC_ALARM] ∧
         (e.chan c).gather = [] ∧ ∃ f, e.sw.arrive = s.dev.sw.arrive ++ [f] ∧
         f.port = 66 ∧ f.cls = some (s.dev.tplClass c) ∧ f.second = none)) ∧
     (s.dev.isDtc c = false → s.dev.inFault = false → s.dev.inGlaze = true →
       (s.dev.chanState c = enStarting → s.dev.flag (R.EC_CTRL c) F.EC_CTRL_enable = true → s.dev.timeValid = true →
         (s.dev.chan c).dead = [3] → (s.dev.chan c).queue = [] → (s.dev.chan c).latest = none →
         s.dev.hasWaits c = false → (s.dev.chan c).waiting.all (fun w => w.trim.isNone) = true →
         Answers (.channelStartingEnd c m) s (fun e =>
           s.dev.Frame e [.chans, .ca] [R.EC_CTRL c, R.EC_WIN_BASE_HI c, R.EC_CAL_STAT c, R.EC_ALARM c, R.PC_ALARM,
             R.EC_IN_DELAY c, R.EC_OUT_DELAY c, R.EC_STATUS c] ∧
           e.chanLive c = true ∧
           ∃ r, (e.chan c).queue = [r] ∧ r.kind = 3 ∧ r.aux = 3 ∧ r.t48 = s.dev.now)) ∧
       (s.dev.chanState c = enStopping → s.dev.flag (R.EC_CTRL c) F.EC_CTRL_enable = false →
         (s.dev.chan c).queue = [] → (s.dev.chan c).held = [] → s.dev.hasWaits c = false →
         Answers (.channelStoppingEnd c) s (fun e => e.chanState c = enOff ∧
           s.dev.Frame e [.chans] [R.EC_CTRL c, R.EC_STATUS c]))))

/-- R173–R175, R375, R379: a code-density turn of a TDC input that is not privileged takes it out of live time and
ends with its new table, or with cal_refused where the two measurements disagree; waiting values take effect at an
idle instant, of a privileged channel those of an accepted turn; and an update without an idle instant makes the
channel stale. The model's choices that clauses rest on: log entries 64, 70. -/
def Obligations.ChannelCalibration : Prop :=
  ∀ (s : State) (c : Fin 128) (a b : TurnMeas) (table : List (BitVec 16)) (w : ChanNew), s.Up → s.dev.ca.op = none →
    (s.dev.stage = .glaze → s.dev.tdcOn c = true → s.dev.privileged c = false → s.dev.turnRuns = false →
      s.dev.ec.turn = c.val →
      s.dev.fld R.EC_GL_CAL F.EC_GL_CAL_period ≠ 0 →
      Answers (.calTurnStart c) s (fun e => e.flag (R.EC_STATUS c) F.EC_STATUS_cal = true ∧ e.chanLive c = false ∧
        s.dev.Frame e [.chans] [R.EC_STATUS c])) ∧
    (s.dev.flag (R.EC_STATUS c) F.EC_STATUS_cal = true → s.dev.isDtc c = false → s.dev.privileged c = false →
      (agreeScale a.scale b.scale = true →
        Answers (.calTurnEnd c a b table) s (fun e =>
          s.dev.Frame e [.chans] [R.EC_STATUS c, R.EC_ALARM c, R.CA_ALARM, R.PC_ALARM] ∧
          e.flag (R.EC_STATUS c) F.EC_STATUS_cal = false ∧
          (e.chan c).table = table ∧ (e.chan c).scd = meanOf a.scale b.scale ∧
          (s.dev.tdcOn c = true → s.dev.timeValid = true → (s.dev.chan c).dead = [1] → e.chanLive c = true))) ∧
      (agreeScale a.scale b.scale = false →
        Answers (.calTurnEnd c a b table) s (fun e =>
          s.dev.Frame e [.chans] [R.EC_STATUS c, R.EC_ALARM c, R.CA_ALARM, R.PC_ALARM] ∧
          e.flag (R.EC_STATUS c) F.EC_STATUS_cal = false ∧
          (e.chan c).table = (s.dev.chan c).table ∧ e.flag (R.EC_ALARM c) F.EC_ALARM_cal_refused = true))) ∧
    ((s.dev.chan c).waiting = some w → w.trim = none →
      let q (e : Dev) : Prop := s.dev.Frame e [.chans, .ca] [R.EC_IN_DELAY c, R.EC_OUT_DELAY c, R.EC_STATUS c] ∧
          (e.chan c).waiting = none ∧ (e.chan c).table = w.table ∧ (e.chan c).scd = w.scale ∧
        e.reg (R.EC_IN_DELAY c) = BitVec.ofNat 32 w.inDelay ∧ e.reg (R.EC_OUT_DELAY c) = BitVec.ofNat 32 w.outDelay ∧
        e.flag (R.EC_STATUS c) F.EC_STATUS_stale = false
      (s.dev.privileged c = true → w.turn = true → Answers (.privilegedApply c) s q) ∧
      (s.dev.privileged c = false → s.dev.flag (R.EC_STATUS c) F.EC_STATUS_cal = false → s.dev.inFault = false →
        Answers (.channelValueApply c) s q) ∧
      (s.dev.privileged c = false →
        Answers (.staleTimeout c) s (fun e => s.dev.RegsOnly e ∧ s.dev.KeepsRegs e [R.EC_STATUS c] ∧
          e.flag (R.EC_STATUS c) F.EC_STATUS_stale = true)))

/-- R167, R184, R185: the first entry of an idle DTC output begins at its instant on the 1.25 ps grid; a running entry
ends with a PULSE record where report is set; and a stop discards and counts the entries that wait.
The model's choices that clauses rest on: log entry 68. -/
def Obligations.ScheduledPulses : Prop :=
  ∀ (s : State) (c : Fin 128) (x : DtcEntry) (rest : List DtcEntry) (run : DtcRun) (placed : Nat), s.Up → s.Inv →
    s.dev.isDtc c = true → s.dev.inFault = false →
    (s.dev.chanState c = enOn → s.dev.timeValid = true → s.dev.standby = false → (s.dev.chan c).sched = x :: rest →
      (s.dev.chan c).running = none → (s.dev.chan c).lastFall = none → x.due = none →
      Answers (.dtcEntryStart c .good) s (fun e => s.dev.Frame e [.chans] [] ∧ (e.chan c).sched = rest ∧
        (e.chan c).running = some { entry := x, start := toGrid x.t48, late := false, moved := 0, te := s.dev.te,
                                      invalid := false, stale := s.dev.flag (R.EC_STATUS c) F.EC_STATUS_stale,
                                      limit := none } ∧
        e.out = .pulses c (ofGrid (toGrid x.t48)) x.width x.period x.count :: s.dev.out)) ∧
    ((s.dev.chan c).running = some run → (s.dev.chan c).queue.length < 512 →
      s.dev.hasWaits c = false → s.dev.flag (R.EC_OUT_CFG c) F.EC_OUT_CFG_report = true →
      Answers (.dtcEntryEnd c placed) s (fun e => s.dev.Frame e [.chans] [R.PC_ALARM] ∧ (e.chan c).running = none ∧
        ∃ r, (e.chan c).queue = (s.dev.chan c).queue ++ [r] ∧ r.kind = 5 ∧ r.late = run.late ∧
          r.aux = min (min placed (run.limit.getD placed)) 0xFFFF * 256 + run.entry.tag)) ∧
    (s.dev.chanState c = enStopping → s.dev.flag (R.EC_CTRL c) F.EC_CTRL_enable = false →
      (s.dev.chan c).running = none →
      Answers (.channelStoppingEnd c) s (fun e =>
        s.dev.Frame e [.chans] [R.EC_CTRL c, R.EC_STATUS c, R.EC_DTC_FLUSHED c, R.PC_ALARM] ∧
        e.chanState c = enOff ∧ (e.chan c).sched = [] ∧
        e.fld (R.EC_DTC_FLUSHED c) F.EC_DTC_FLUSHED_count =
          min (s.dev.fld (R.EC_DTC_FLUSHED c) F.EC_DTC_FLUSHED_count + (s.dev.chan c).sched.length) 0xFFFFFFFF))

/-! The switch core. -/

/-- R228, R229, R278: the spreader gives the oldest frame the next pipeline and sequence number, and a first pass the
active bank and epoch; nothing else of the device changes.
R235, R236, R239: a cell of an Isazu class comes from the cells set aside; any other from the first space that has
room, headroom and borrowed cells asserting back-pressure; a frame that finds the buffer full is discarded whole.
The model's choices that clauses rest on: log entries 79, 81, 83. -/
def Obligations.IngressCells : Prop :=
  (∀ (s : State) (f : Frame) (fs : List Frame), s.Up → s.Inv → s.dev.stage = .glaze → s.dev.inFault = false →
     s.dev.sw.arrive = f :: fs → f.second ≠ none ∨ s.dev.orderBlocked f.port = false →
     Answers .headCellAssign s (fun e =>
       e = { s.dev with sw := { s.dev.sw with arrive := fs, fly := e.sw.fly
                                              seqNo := (s.dev.sw.seqNo + 1) % 4096
                                              rotate := (s.dev.sw.rotate + 1) % 16 } } ∧
       ∃ x, e.sw.fly = s.dev.sw.fly ++ [x] ∧ x.config = s.dev.regs.filter (fun y => headConfig y.1) ∧
       x.frame = f ∧ x.seq = s.dev.sw.seqNo ∧ x.pipe = s.dev.sw.rotate ∧ x.verdict = none ∧
       (f.second = none → x.bank = s.dev.activeBank ∧ x.epoch = s.dev.epoch) ∧
       (∀ y, f.second = some y → x.bank = y.bank ∧ x.epoch = y.epoch))) ∧
  (∀ (s : State) (id : Nat) (x : Fly), s.Up → s.Inv → s.dev.sw.fly.find? (fun y => y.frame.id == id) = some x →
     x.needsCells = true → s.dev.stored x = false →
     let p := x.frame.port
     (s.dev.isazu p = true → 0 < (s.dev.credit p x.start).aside →
       Answers (.cellAdmit id) s (fun e => s.dev.Frame e [.sw] [] ∧
         e.frameCells id = s.dev.frameCells id ++
           [if (s.dev.credit p x.start).lent < (s.dev.credit p x.start).aside then .rsv else .shared] ∧
         (e.credit p x.start).aside = (s.dev.credit p x.start).aside - 1)) ∧
     (s.dev.isazu p = false ∨ (s.dev.credit p x.start).aside = 0 →
       (∀ k, s.dev.space p x.cls = some (k, false) → k ≠ .hdrm →
         Answers (.cellAdmit id) s (fun e =>
           e = { s.dev with sw := { s.dev.sw with store := e.sw.store, bank := e.sw.bank } } ∧
           e.frameCells id = s.dev.frameCells id ++ [k])) ∧
       (s.dev.space p x.cls = some (.hdrm, false) →
         Answers (.cellAdmit id) s (fun e => s.dev.Frame e [.sw] [R.PC_ALARM] ∧
           e.frameCells id = s.dev.frameCells id ++ [.hdrm] ∧ (p, x.cls) ∈ e.sw.bp)) ∧
       (∀ k, s.dev.space p x.cls = some (k, true) →
         Answers (.cellAdmit id) s (fun e =>
           s.dev.Frame e [.sw] [R.SW_HDRM_BORROW p, R.SW_ALARM, R.PC_ALARM] ∧
           e.frameCells id = s.dev.frameCells id ++ [k] ∧ (p, x.cls) ∈ e.sw.bp ∧
           e.flag R.SW_ALARM F.SW_ALARM_hdrm_borrow = true)) ∧
       (s.dev.space p x.cls = none →
         Answers (.cellAdmit id) s (fun e =>
           s.dev.Frame e [.sw] [R.SW_HDRM_BORROW p, R.SW_ALARM, R.PC_ALARM] ∧ e.frameCells id = [] ∧
           e.flag R.SW_ALARM F.SW_ALARM_flow_violation = true ∧
           ∀ y ∈ e.sw.fly, y.frame.id = id → y.verdict = some .discard))))

/-- R229–R231, R245, R246, R271: descriptors leave in sequence. A unicast frame joins its egress queue, or starts at once
where it may go cut-through; a frame with an error that does not go cut-through, and a discarded one, which passes as a
void, free their cells; a multicast frame joins every target's queue, and one for the host or for a second pass that of
port 65 or 66; a frame behind a recirculating one of its port and class is held, and a second pass ends the hold.
R248, R249: at the hold limit every target of a multicast frame not begun is abandoned, and nothing else leaves its
queue; when the grace of a lost link is over its queues are empty, and other ports' queues stand.
The model's choices that clauses rest on: log entries 86, 87. -/
def Obligations.ReleasesAndDiscards : Prop :=
  (∀ (s : State) (x : Fly) (xs : List Fly), s.Up → s.dev.sw.fly = x :: xs →
     (x.verdict = some .discard → x.frame.second = none →
       Answers (.resequencerRelease .good) s (fun e =>
         s.dev.Frame e [.sw] [R.PC_ALARM] ∧
         e.sw.fly = xs ∧ e.frameCells x.frame.id = [] ∧
         e.sw.queues = s.dev.sw.queues ∧ e.sw.order = s.dev.sw.order)) ∧
     (∀ p, x.verdict = some (.unicast p) → (x.frame.second = none → s.dev.stored x = true) →
       x.frame.err = false → x.frame.second = none →
       (s.dev.orderHeld x = true →
         Answers (.resequencerRelease .good) s (fun e =>
           s.dev.Frame e [.sw] [R.PC_ALARM] ∧
           e.sw.fly = xs ∧ e.sw.order = s.dev.sw.order ++ [x] ∧
           e.sw.queues = s.dev.sw.queues)) ∧
       (s.dev.orderHeld x = false → s.dev.cutThrough x p (x.entry x.cls x.edited false none 0) = true →
         Answers (.resequencerRelease .good) s (fun e =>
           s.dev.Frame e [.sw, .tc] [R.TC_TSQ_STAT, R.TC_ALARM, R.PC_ALARM] ∧ e.sw.fly = xs ∧
           e.sw.queues = s.dev.sw.queues ∧
           ∃ r, e.txRun p = some r ∧ r.bad = false ∧ r.entry = x.entry x.cls x.edited false none 0)) ∧
       (s.dev.orderHeld x = false → s.dev.cutThrough x p (x.entry x.cls x.edited false none 0) = false →
         s.dev.isPairPort p = false → s.dev.downed p = false →
         Answers (.resequencerRelease .good) s (fun e => s.dev.Frame e [.sw] [] ∧ e.sw.fly = xs ∧
           e.queue p x.cls = s.dev.queue p x.cls ++ [x.entry x.cls x.edited false none 0] ∧
           (∀ p' c', pcKey p' c' ≠ pcKey p x.cls → e.queue p' c' = s.dev.queue p' c') ∧
           sGet 0 e.sw.targets x.frame.id = 1))) ∧
     (∀ p, x.verdict = some (.unicast p) → s.dev.stored x = true → x.frame.err = true → x.frame.second = none →
       s.dev.orderHeld x = false → s.dev.cutThrough x p (x.entry x.cls x.edited false none 0) = false →
       Answers (.resequencerRelease .good) s (fun e => s.dev.Frame e [.sw] [R.PC_ALARM] ∧ e.sw.fly = xs ∧
         e.frameCells x.frame.id = [] ∧ e.sw.queues = s.dev.sw.queues)) ∧
     (∀ p y, x.frame.second = some y → x.verdict = some (.unicast p) → x.frame.err = false → s.dev.sw.order = [] →
       s.dev.isPairPort p = false → s.dev.downed p = false →
       Answers (.resequencerRelease .good) s (fun e => s.dev.Frame e [.sw] [R.PC_ALARM] ∧ e.sw.fly = xs ∧
         e.sw.recirc = (s.dev.sw.recirc.filter fun r => r.1 != x.frame.id) ∧
         e.queue p x.cls = s.dev.queue p x.cls ++ [x.entry x.cls x.edited false none 0])) ∧
     (∀ w, x.verdict = some (.whey w) → s.dev.stored x = true → x.frame.err = false → x.frame.second = none →
       s.dev.isPairPort 65 = false → s.dev.downed 65 = false →
       let c := s.dev.wheyClass w.reason
       Answers (.resequencerRelease .good) s (fun e => s.dev.Frame e [.sw] [] ∧ e.sw.fly = xs ∧
         e.queue 65 c = s.dev.queue 65 c ++ [x.entry c x.frame.octets false (some w) 0])) ∧
     (∀ tag, x.verdict = some (.recirculate tag) → s.dev.stored x = true → x.frame.err = false →
       x.frame.second = none → s.dev.orderHeld x = false → s.dev.isPairPort 66 = false → s.dev.downed 66 = false →
       Answers (.resequencerRelease .good) s (fun e => s.dev.Frame e [.sw] [] ∧ e.sw.fly = xs ∧
         e.sw.recirc = s.dev.sw.recirc ++ [(x.frame.id, x.frame.port, x.cls)] ∧
         e.queue 66 x.cls = s.dev.queue 66 x.cls ++ [x.entry x.cls x.edited false none tag])) ∧
     (∀ g, x.verdict = some (.group g) → s.dev.stored x = true → x.frame.err = false → x.frame.second = none →
       s.dev.orderHeld x = false → s.dev.flag R.PS_PAIR_CFG F.PS_PAIR_CFG_enable = false →
       let t := sGet 0 s.dev.sw.groups g
       let ps := groupPorts t x.frame.port
       bit t 127 = true → ps ≠ [] →
       (∀ p ∈ ps, s.dev.downed p = false ∧ (p ≤ 64 → x.edited.length ≤ s.dev.maxFrame p)) →
       Answers (.resequencerRelease .good) s (fun e => s.dev.Frame e [.sw] [] ∧ e.sw.fly = xs ∧
         sGet 0 e.sw.targets x.frame.id = ps.length ∧
         ∀ p ∈ ps, e.queue p x.cls = s.dev.queue p x.cls ++ [x.entry x.cls x.edited true none 0])) ∧
     (x.verdict = none → s.Inv → Answers (.resequencerRelease .good) s (fun e => e = s.dev))) ∧
  (∀ (s : State), s.Up →
     (∀ id, Answers (.mcHoldExpiry id) s (fun e =>
        s.dev.Frame e [.sw] (R.SW_ALARM :: R.PC_ALARM :: (List.range 66).map R.SW_MC_ABANDON) ∧
        (∀ p c, p < 66 → c < 8 → e.queue p c = (s.dev.queue p c).filter fun q => !(q.id == id && q.multi)) ∧
       ((∃ p c, p < 66 ∧ c < 8 ∧ ∃ q ∈ s.dev.queue p c, q.id = id ∧ q.multi = true) →
         e.flag R.SW_ALARM F.SW_ALARM_mc_abandon = true))) ∧
     (∀ p : Fin 64, p.val ∈ s.dev.sw.lost →
       Answers (.downGraceExpiry p) s (fun e =>
         s.dev.Frame e [.sw] [R.SW_ALARM, R.SW_DOWN_DISCARD p, R.SW_MC_REMOVED p, R.PC_ALARM] ∧
         (∀ c < 8, e.queue p c = []) ∧
         (∀ p' c, p' ≠ p.val → c < 8 → e.queue p' c = s.dev.queue p' c) ∧ p.val ∉ e.sw.lost ∧ e.downed p = true)))

/-- R243: the highest eligible class of sp_mask goes first; with none of those, what starts is the head of an eligible
class outside it; a paused or starved class blocks no other; with no class eligible nothing starts.
R235, R271: a frame on port 66 comes round for its second pass, with the tag, bank and epoch of its first.
R233, R246, R250: the end of a transmission. The frame leaves, stomped where it is bad; one target is done, and the
last frees the frame's cells. The model's choices that clauses rest on: log entries 80, 88. -/
def Obligations.Egress : Prop :=
  (∀ (s : State) (p : Fin 64) (x : Departure), s.Up → s.dev.stage = .glaze → s.dev.inFault = false → x.errs = [] →
     s.dev.txRun p = none →
     let mask := s.dev.fld (R.SW_PORT_CFG p) F.SW_PORT_CFG_sp_mask
     (∀ (c : Fin 8) (q : QEntry), bit mask c = true → s.dev.eligible p c = some q →
       (∀ c' : Fin 8, c < c' → bit mask c' = true → s.dev.eligible p c' = none) →
       Answers (.egressSchedule ⟨p, by omega⟩ x) s (fun e =>
         s.dev.Frame e [.sw, .tc] [R.TC_TSQ_STAT, R.TC_ALARM, R.PC_ALARM] ∧
         (∃ r, e.txRun p = some r ∧ r.entry = q) ∧ e.queue p c = (s.dev.queue p c).tail ∧
         ∀ c' : Fin 8, c' ≠ c → e.queue p c' = s.dev.queue p c')) ∧
     ((∀ c : Fin 8, bit mask c = true → s.dev.eligible p c = none) → sGet 0 s.dev.sw.turn p < 8 →
       Answers (.egressSchedule ⟨p, by omega⟩ x) s (fun e =>
         s.dev.Frame e [.sw, .tc] [R.TC_TSQ_STAT, R.TC_ALARM, R.PC_ALARM] ∧
         ∀ r, e.txRun p = some r →
         ∃ c : Fin 8, bit mask c = false ∧ s.dev.eligible p c = some r.entry ∧ e.queue p c = (s.dev.queue p c).tail)) ∧
     ((∀ c : Fin 8, s.dev.eligible p c = none) → s.Inv →
       Answers (.egressSchedule ⟨p, by omega⟩ x) s (fun e => e = s.dev))) ∧
  (∀ (s : State) (x : Departure) (c : Fin 8) (q : QEntry) (qs : List QEntry), s.Up → s.dev.stage = .glaze →
     s.dev.inFault = false → x.errs = [] → s.dev.txRun 66 = none →
     bit (s.dev.fld (R.SW_PORT_CFG 66) F.SW_PORT_CFG_sp_mask) c = true → s.dev.queue 66 c = q :: qs →
     (∀ c' : Fin 8, c < c' → s.dev.queue 66 c' = []) →
     Answers (.egressSchedule 66 x) s (fun e =>
       s.dev.Frame e [.sw] [R.PC_ALARM] ∧ e.txRun 66 = none ∧ e.queue 66 c = qs ∧
       ∃ f, e.sw.arrive = s.dev.sw.arrive ++ [f] ∧ f.octets = q.octets ∧
         f.second = some { cls := q.cls, tag := q.tag, bank := q.bank, epoch := q.epoch, order := q.cls })) ∧
  (∀ (s : State) (p : Fin 67) (x : TxRun), s.Up → s.dev.txRun p = some x → p.val < 64 ∨ s.dev.sw.parts = [] →
     Answers (.frameTransmitEnd p) s (fun e => e.txRun p = none ∧
       s.dev.Frame e [.sw, .ports] [R.SW_STOMP p, R.SW_ALARM, R.PC_ALARM] ∧
       (p.val < 64 → .frame p x.entry.cls (if x.bad then stompFcs x.sent else x.sent) x.bad ∈
         e.out.take (e.out.length - s.dev.out.length)) ∧
       (x.bad = true → e.flag R.SW_ALARM F.SW_ALARM_stomp = true) ∧
       (sGet 0 s.dev.sw.targets x.entry.id ≤ 1 → e.frameCells x.entry.id = []) ∧
       (1 < sGet 0 s.dev.sw.targets x.entry.id → e.sw.store = s.dev.sw.store ∧
         sGet 0 e.sw.targets x.entry.id = sGet 0 s.dev.sw.targets x.entry.id - 1)))

/-! The classifier, its tables and its banks. -/

/-- R265, R272, R274, R282: what CLASSIFY answers for a first pass, without memory errors, once the port's lookups are
off or miss: discard, forward, or the whey path with reason 1. The frame's octets and place stay.
R265, R266, R282: an exact-match hit of the stamped bank gives the action when no ternary rule hits, or when the
ternary rule that hits has over_em = 0; the inline form forwards unedited to its port.
The model's choices that clauses rest on: log entries 89, 93. -/
def Obligations.Classification : Prop :=
  (∀ (s : State) (id : Nat) (x : Fly), s.Up → s.dev.sw.fly.find? (fun y => y.frame.id == id) = some x →
     x.verdict = none → s.dev.standby = false → x.frame.direct = none → x.frame.second = none →
     let o := R.CL_PORT_CFG x.frame.port
     let g := x.assigned s.dev
     let q := parse x.frame.octets
     q.slow = none → s.dev.ptpKnown x.frame.port q = false →
     g.flag o F.CL_PORT_CFG_em_en = false → g.flag o F.CL_PORT_CFG_tcam_en = false →
     (g.fld o F.CL_PORT_CFG_miss = 1 →
       Answers (.classify id []) s (fun e => ∃ y ∈ e.sw.fly, y.frame = x.frame ∧ y.verdict = some .discard)) ∧
     (g.fld o F.CL_PORT_CFG_miss = 2 →
       let t := g.fld o F.CL_PORT_CFG_miss_port
       t ≤ 65 → (t = 65 ∨ x.frame.octets.length ≤ s.dev.maxFrame t) →
       Answers (.classify id []) s (fun e => ∃ y ∈ e.sw.fly, y.frame = x.frame ∧ y.verdict = some (.unicast t) ∧
         y.edited = x.frame.octets)) ∧
     (g.fld o F.CL_PORT_CFG_miss = 0 → s.dev.fld (R.CL_WHEY_LIM 1) F.CL_WHEY_LIM_rate = 0 →
       Answers (.classify id []) s (fun e => ∃ y ∈ e.sw.fly, y.frame = x.frame ∧
         y.verdict = some (.whey { reason := 1, ruleId := 0, bank := x.bank, epoch := x.epoch, pass := 0 })))) ∧
  (∀ (s : State) (id l a t : Nat) (x : Fly), s.Up → s.dev.sw.fly.find? (fun y => y.frame.id == id) = some x →
     x.verdict = none → s.dev.standby = false → x.frame.direct = none → x.frame.second = none →
     s.dev.mi.diverted = [] →
     let f := x.frame
     let o := R.CL_PORT_CFG f.port
     let q := parse f.octets
     let g := x.assigned s.dev
     let cls := g.entryClass f q
     let ep := g.fld o F.CL_PORT_CFG_eprof0
     let tp := g.fld o F.CL_PORT_CFG_tprof0
     q.slow = none → s.dev.ptpKnown f.port q = false → g.flag o F.CL_PORT_CFG_em_en = true →
     s.dev.flag R.CL_TBL_CFG F.CL_TBL_CFG_em_mode = true →
     s.dev.emFind ep (g.key f q cls ep 12) = some l → bit (emBanks (s.dev.emAt l)) x.bank = true →
     (g.flag o F.CL_PORT_CFG_tcam_en = false ∨
       (s.dev.ternFind x.bank tp (g.key f q cls tp 40)).all (fun v => !bit v 1310) = true) →
     bits (s.dev.emAt l) 31 0 = a → bits a 31 29 = 1 → a % 65536 = t → t ≤ 65 →
     (t = 65 ∨ f.octets.length ≤ s.dev.maxFrame t) → f.octets.length ≤ 16384 →
     Answers (.classify id []) s (fun e => ∃ y ∈ e.sw.fly, y.frame = f ∧ y.verdict = some (.unicast t) ∧
       y.edited = f.octets ∧ y.cls = if bit a 28 then bits a 27 25 else cls))

/-- R276, R298: TBL_WRITE writes its entries in order, touching no other entry of any table; an index beyond the table
ends it with status 4. A unit's entry is refused with status 1 where it is malformed or its unit is not OFF (R201). A
write aimed at the bank that drains waits whole (R280).
R263, R280: one exact-match entry is placed in one of the eight lines of its key, valid; one is removed by its key. No
other table changes. The model's choices that clauses rest on: log entries 90, 91, 95. -/
def Obligations.TableCommands : Prop :=
  (∀ (s : State) (c : CmdDesc) (size limit : Nat), s.Up → s.dev.cmdReady c.ring = true →
     let t := c.arg0.toNat / 2 ^ 24
     let i := c.arg0.toNat % 2 ^ 24
     let n := entriesOf c
     tableShape t = some (size, limit) → t ≠ 2 →
     ((tableBank t).isSome = true → tableBank t ≠ s.dev.drainBank) →
     (i + n ≤ limit →
       Answers (.tblWrite c) s (fun e =>
         s.dev.Frame e [.hr, .sw, .tg, .cl, .mi] (s.dev.cmdRegs c.ring) ∧
         Completes c 1 0 n 0 s.dev e ∧
         (t ≠ 3 → ∀ k < n, e.tableEntry t (i + k) = leNat (octets c.data (size * k) size)) ∧
         (t = 3 → ∀ k < n, sGet [] e.tg.actTab (i + k) = entryWords 8 (octets c.data (32 * k) 32)) ∧
         (∀ j < limit, j < i ∨ i + n ≤ j → e.tableEntry t j = s.dev.tableEntry t j) ∧
         e.cl.em = s.dev.cl.em ∧ e.tg.unitTab = s.dev.tg.unitTab)) ∧
     (limit ≤ i → Answers (.tblWrite c) s (fun e =>
        s.dev.Frame e [.hr] (s.dev.cmdRegs c.ring) ∧
        Completes c 1 4 0 0 s.dev e ∧ e.cl = s.dev.cl ∧
       e.sw = s.dev.sw ∧ e.tg.chanMap = s.dev.tg.chanMap ∧ e.tg.actTab = s.dev.tg.actTab)) ∧
     (∀ t' j size' limit', tableShape t' = some (size', limit') → t' ≠ t → j < limit' →
       Answers (.tblWrite c) s (fun e =>
         s.dev.Frame e [.hr, .sw, .tg, .cl, .mi] (R.CL_ALARM :: s.dev.cmdRegs c.ring) ∧
         e.tableEntry t' j = s.dev.tableEntry t' j))) ∧
  (∀ (s : State) (c : CmdDesc), s.Up → s.dev.cmdReady c.ring = true → entriesOf c = 1 →
     c.arg0.toNat / 2 ^ 24 = 2 → c.arg0.toNat % 2 ^ 24 < 4096 →
     let i := c.arg0.toNat % 2 ^ 24
     let es := entryWords 16 (octets c.data 0 64)
     let free := unitEntryOk es = true ∧ s.dev.fld (R.TG_CU_CTRL i) F.TG_CU_CTRL_state = enOff
     (free → Answers (.tblWrite c) s (fun e => s.dev.Frame e [.hr, .tg, .mi] (s.dev.cmdRegs c.ring) ∧
       Completes c 1 0 1 0 s.dev e ∧ e.tg = { s.dev.tg with unitTab := e.tg.unitTab } ∧
       ∀ j : Nat, j < 4096 → sGet [] e.tg.unitTab j = if j = i then es else sGet [] s.dev.tg.unitTab j)) ∧
     (¬ free → Answers (.tblWrite c) s (fun e => s.dev.Frame e [.hr] (s.dev.cmdRegs c.ring) ∧
       Completes c 1 1 0 0 s.dev e))) ∧
  (∀ (s : State) (c : CmdDesc), s.Up → s.dev.cmdReady c.ring = true → entriesOf c = 1 →
     let v := leNat (octets c.data 0 32)
     (s.dev.emWaits v true = false →
       s.dev.emFind (emProf v) (emKey v) ≠ none ∨ s.dev.emFree 0 (emBucket 0 (emProf v) (emKey v)) ≠ none ∨
         s.dev.emFree 1 (emBucket 1 (emProf v) (emKey v)) ≠ none →
       Answers (.emAdd c) s (fun e =>
         s.dev.Frame e [.hr, .cl, .mi] (s.dev.cmdRegs c.ring) ∧
         Completes c 2 0 1 0 s.dev e ∧
         (∃ l ∈ emLines (emProf v) (emKey v), e.emAt l = (if emValid v then v else v + 2 ^ 255) ∧
           ∀ l', l' ≠ l → e.emAt l' = s.dev.emAt l') ∧
         e.cl.tern = s.dev.cl.tern ∧ e.cl.act = s.dev.cl.act ∧ e.cl.tpl = s.dev.cl.tpl ∧ e.sw = s.dev.sw)) ∧
     (s.dev.emWaits v false = false →
       Answers (.emRemove c) s (fun e =>
         s.dev.Frame e [.hr, .cl, .mi] (s.dev.cmdRegs c.ring) ∧
         Completes c 3 0 1 0 s.dev e ∧
         (∀ l, s.dev.emFind (emProf v) (emKey v) = some l → emValid (e.emAt l) = false ∧
           ∀ l', l' ≠ l → e.emAt l' = s.dev.emAt l') ∧
         (s.dev.emFind (emProf v) (emKey v) = none → e.cl = s.dev.cl))))

/-- R277, R279, R281: BANK_SWAP makes the other bank active under the next epoch and the old one draining, and waits
while a drain is in progress; the end of the drain completes it; a commit registers a table's shadow image.
The model's choices that clauses rest on: log entries 94, 95. -/
def Obligations.Banks : Prop :=
  ∀ (s : State) (c : CmdDesc) (t : Fin 4) (w : Word), s.Up →
    (s.dev.cmdReady c.ring = true → s.dev.drainBank = none →
      Answers (.bankSwap c) s (fun e => s.dev.Frame e [.cl, .hr] [R.CL_BANK_STAT, R.HR_RING_DIDX c.ring] ∧
        e.activeBank = 1 - s.dev.activeBank ∧ e.epoch = (s.dev.epoch + 1) % 16 ∧
        e.drainBank = some s.dev.activeBank ∧ e.cl.drainAt = s.dev.ticks ∧ (e.ring c.ring).busy = true)) ∧
    (s.dev.cmdReady c.ring = true → s.dev.drainBank ≠ none →
      Answers (.bankSwap c) s (fun e => s.dev.Frame e [.cl, .hr] [R.HR_RING_DIDX c.ring] ∧
        e.cl.held.length = s.dev.cl.held.length + 1 ∧ (e.ring c.ring).busy = true)) ∧
    (∀ b o, s.dev.drainBank = some b → s.dev.cl.swap = some o → s.dev.inflight b = 0 → s.dev.cl.held = [] →
      Answers .bankDrainEnd s (fun e =>
        s.dev.Frame e [.hr, .cl] (R.CL_BANK_STAT :: R.CL_DRAIN_MAX :: s.dev.cmdRegs o.ring) ∧
        e.drainBank = none ∧ e.cl.swap = none ∧
        e.activeBank = s.dev.activeBank ∧ e.epoch = s.dev.epoch ∧ (e.ring o.ring).busy = false)) ∧
    Answers (.shadowCommit t w) s (fun e => s.dev.Frame e [.cl] [R.CL_SHADOW_HI t] ∧ e.reg (R.CL_SHADOW_HI t) = w ∧
      sGet none e.cl.shadow t = some ((s.dev.reg (R.CL_SHADOW_LO t)).toNat + 2 ^ 32 * w.toNat))

/-! The host rings. -/

/-- R152, R298, R394, R398: NOP, a bad opcode, TSQ_READ, CTR_SNAPSHOT and KLOG_READ complete at once with the results
that the command set gives them.
R395, R416: a challenge of 48 bytes is bound to its slot and ring, and voids every other; a wrong response completes
with status 7, and the right one starts the clear, whose end leaves the CLEAR record as record 0.
The model's choices that clauses rest on: log entries 103, 104. -/
def Obligations.ReadingAndClearing : Prop :=
  (∀ (s : State) (c : CmdDesc) (op : Byte), s.Up → s.dev.cmdReady c.ring = true →
     let n := entriesOf c
     Answers (.nop c) s (fun e => Completes c 13 0 0 0 s.dev e ∧
       s.dev.Frame e [.hr] [R.HR_RING_DIDX c.ring, R.HR_RING_DIDX (s.dev.cplRing c.ring)]) ∧
     (op.toNat = 0 ∨ 13 < op.toNat → Answers (.badOpcode op c) s (fun e =>
        s.dev.Frame e [.hr] (s.dev.cmdRegs c.ring) ∧
        Completes c op.toNat 3 0 0 s.dev e ∧
       e.flag R.HR_ALARM F.HR_ALARM_cmd_err = true)) ∧
     Answers (.tsqRead c []) s (fun e =>
       s.dev.Frame e [.hr, .tc] (s.dev.cmdRegs c.ring) ∧
       e.tc.tsq = s.dev.tc.tsq.drop n ∧
       Completes c 5 0 (s.dev.tc.tsq.take n).length (s.dev.fld R.TC_TSQ_STAT F.TC_TSQ_STAT_lost) s.dev e ∧
       (s.dev.tc.tsq ≠ [] → s.dev.hr.linkUp = true →
         .hostWrite c.addr.toNat ((s.dev.tc.tsq.take n).flatMap TsqEntry.bytes) ∈ e.out)) ∧
     (4096 < n → Answers (.ctrSnapshot c) s (fun e =>
        s.dev.Frame e [.hr] (s.dev.cmdRegs c.ring) ∧
        Completes c 6 4 0 0 s.dev e)) ∧
     (n ≤ 4096 → bit (s.dev.arg1 c) 0 = false → Answers (.ctrSnapshot c) s (fun e =>
        s.dev.Frame e [.hr] (s.dev.cmdRegs c.ring) ∧
        Completes c 6 0 n s.dev.te s.dev e ∧ (s.dev.hr.linkUp = true →
         .hostWrite c.addr.toNat (leBytes 6 s.dev.now ++ leBytes 1 s.dev.te ++
           leBytes 1 (if s.dev.timeValid then 0 else 1) ++ leBytes 4 c.arg0.toNat ++ leBytes 4 n ++ ((List.range n).map (· + c.arg0.toNat)).flatMap s.dev.ctrEntry) ∈ e.out))) ∧
     (s.dev.nv.clearing = none →
       let rs := packRecords (256 * n) (s.dev.nv.klog.drop c.arg0.toNat)
       Answers (.klogRead c) s (fun e =>
         s.dev.Frame e [.hr] (s.dev.cmdRegs c.ring) ∧
         Completes c 7 0 rs.length (c.arg0.toNat + rs.length) s.dev e ∧
         e.nv = s.dev.nv ∧ (rs ≠ [] → s.dev.hr.linkUp = true → .hostWrite c.addr.toNat rs.flatten ∈ e.out)))) ∧
  (∀ (s : State) (c : CmdDesc), s.Up →
     (s.dev.cmdReady c.ring = true → c.arg0.toNat ≤ 7 →
       Answers (.klogClearBegin c) s (fun e =>
         s.dev.Frame e [.hr] (s.dev.cmdRegs c.ring) ∧
         Completes c 8 0 48 0 s.dev e ∧
         (∃ h, (e.ring c.ring).challenge = some h ∧ h.slot = c.arg0.toNat ∧ h.bytes.length = 48 ∧ h.at_ = s.dev.ticks ∧
           (s.dev.hr.linkUp = true → .hostWrite c.addr.toNat h.bytes ∈ e.out)) ∧
         ∀ r < 64, r ≠ c.ring.val → (e.ring r).challenge = none)) ∧
     (s.dev.cmdReady c.ring = true → s.dev.nv.clearing = none → s.dev.clearAllowed c = false →
       Answers (.klogClearFinish c) s (fun e =>
         s.dev.Frame e [.hr, .log] (logRegs ++ s.dev.cmdRegs c.ring) ∧
         Completes c 9 7 0 0 s.dev e ∧ e.nv = s.dev.nv ∧
         e.flag R.ER_ALARM F.ER_ALARM_auth_fail = true ∧ (e.ring c.ring).challenge = none)) ∧
     (s.dev.cmdReady c.ring = true → s.dev.nv.clearing = none → s.dev.clearAllowed c = true → s.dev.nv.bad = [] →
       Answers (.klogClearFinish c) s (fun e =>
         s.dev.Frame e [.hr, .nv] (R.ER_STATUS :: R.ER_CLEARS :: s.dev.cmdRegs c.ring) ∧
         e.nv.clears = s.dev.nv.clears + 1 ∧ e.nv.klog = s.dev.nv.klog ∧
         e.nv.clearing.isSome = true ∧ (e.ring c.ring).busy = true ∧
         e.flag R.ER_STATUS F.ER_STATUS_clearing = true)) ∧
     (∀ m, s.dev.nv.clearing = some m → s.dev.klogQueue = [] → s.dev.nv.bad = [] →
       Answers .klogClearEnd s (fun e =>
         s.dev.Frame e [.nv, .hr] ([R.ER_STATUS, R.ER_USED, R.ER_CLEARS, R.ER_PWR_CYCLES, R.ER_MINUTES, R.ER_ALARM,
           R.ER_REFUSED] ++
           match s.dev.hr.clearFor with
           | none => []
           | some o => s.dev.cmdRegs o.ring) ∧
         e.nv.clearing = none ∧ e.nv.clears = s.dev.nv.clears ∧
         e.nv.keys = s.dev.nv.keys ∧ e.flag R.ER_ALARM F.ER_ALARM_clear_done = true ∧
         e.flag R.ER_STATUS F.ER_STATUS_clearing = false ∧
         e.nv.klog = [recordBytes s.dev.nv 0x01 (leBytes 4 s.dev.nv.clears ++ leBytes 4 m.records ++ leBytes 4 m.refused ++
           leBytes 1 m.slot ++ leBytes 3 0)])))

/-- R184, R196, R211, R298: schedule entries, primitives and a decision from the host. A word that fails its CRC
completes with status 6, the first entry refused with status 1, and a decision waits for the scheduler.
The model's choices that clauses rest on: log entries 101, 102. -/
def Obligations.SubmittingCommands : Prop :=
  ∀ (s : State) (c : CmdDesc), s.Up → s.dev.cmdReady c.ring = true →
    let w := leNat (octets c.data 0 8)
    let v := leNat (c.data.take 16)
    let x := s.dev.chan c.arg0.toNat
    let en := dtcEntryOf (octets c.data 0 16)
    (127 < c.arg0.toNat → Answers (.dtcSubmit c) s (fun e =>
       s.dev.Frame e [.hr] (s.dev.cmdRegs c.ring) ∧
       Completes c 10 4 0 0 s.dev e)) ∧
    (c.arg0.toNat ≤ 127 → entriesOf c = 1 → s.dev.isDtc c.arg0.toNat = true →
      (s.dev.chanState c.arg0.toNat = enOn → x.sched.length < 64 → 960 ≤ en.width →
        en.count = 1 ∨ en.width + 960 ≤ en.period →
        Answers (.dtcSubmit c) s (fun e =>
          s.dev.Frame e [.hr, .chans] ([R.EC_ALARM c.arg0.toNat, R.EC_DTC_REFUSED c.arg0.toNat,
            R.EC_DTC_LATE c.arg0.toNat] ++ s.dev.cmdRegs c.ring) ∧
          Completes c 10 0 1 1 s.dev e ∧
          (e.chan c.arg0.toNat).sched.length = x.sched.length + 1)) ∧
      (s.dev.chanState c.arg0.toNat ≠ enOn → Answers (.dtcSubmit c) s (fun e =>
         s.dev.Frame e [.hr, .chans] ([R.EC_ALARM c.arg0.toNat, R.EC_DTC_REFUSED c.arg0.toNat,
           R.EC_DTC_LATE c.arg0.toNat] ++ s.dev.cmdRegs c.ring) ∧
         Completes c 10 1 0 0 s.dev e ∧
        (e.chan c.arg0.toNat).sched = x.sched ∧
        e.flag (R.EC_ALARM c.arg0.toNat) F.EC_ALARM_dtc_refused = true))) ∧
    (entriesOf c = 1 → primCrcOk w = false → Answers (.primSubmit c) s (fun e =>
       s.dev.Frame e [.hr] (R.TG_ALARM :: s.dev.cmdRegs c.ring) ∧
       Completes c 11 6 0 0 s.dev e ∧
      e.flag R.TG_ALARM F.TG_ALARM_word_err = true)) ∧
    (entriesOf c = 1 → primCrcOk w = true → bits w 63 60 = 1 → Answers (.primSubmit c) s (fun e =>
       s.dev.Frame e [.hr, .tg] (R.TG_ALARM :: R.TG_IN_LOSS 193 :: s.dev.cmdRegs c.ring) ∧
       Completes c 11 0 1 0 s.dev e)) ∧
    (decCrcOk v = false → Answers (.decSubmit c) s (fun e =>
       s.dev.Frame e [.hr, .log] (R.TG_ALARM :: logRegs ++ s.dev.cmdRegs c.ring) ∧
       Completes c 12 6 0 0 s.dev e ∧ e.tg.own = s.dev.tg.own)) ∧
    (decCrcOk v = true → bits v 127 124 = 2 → bits v 63 60 = 3 →
      (s.dev.engineOn = false → Answers (.decSubmit c) s (fun e =>
         s.dev.Frame e [.hr] (s.dev.cmdRegs c.ring) ∧
         Completes c 12 1 0 0 s.dev e ∧
        e.tg.own = s.dev.tg.own)) ∧
      (s.dev.engineOn = true → Answers (.decSubmit c) s (fun e =>
         s.dev.Frame e [.hr, .tg] [R.HR_RING_DIDX c.ring] ∧
         (e.ring c.ring).busy = true ∧
        e.tg.own.length = s.dev.tg.own.length + 1 ∧
        ∃ y ∈ e.tg.own, y.action = (decOf v).action ∧ y.tDec = s.dev.now ∧ y.loc = bit c.arg0.toNat 0 ∧
          y.down = bit c.arg0.toNat 1 ∧ y.tExec = (if (decOf v).tExec = 0 then
            t48Add s.dev.now (ns (s.dev.fld R.TG_BUDGET F.TG_BUDGET_budget) : Nat) else (decOf v).tExec))))

/-- R289, R293, R304: a poll stores the host index of a waiting command ring; an index beyond the ring, a failed read
of the ring and the eighth failure of the doorbell page stop it, with the error code of each and the enable cleared.
R303, R305, R346: an enable leads to STARTING with both indices 0, or leaves the ring OFF with err 1 on a configuration
that fails its check; STARTING ends in ON, or in STOPPING with the enable 0; STOPPING ends in OFF once no command is in execution; a function-level reset stops the rings that run, and with every
ring OFF returns the HR registers to reset.
R308, R425: a page base is committed by the write of its high half, with every ring OFF, and refused otherwise.
The model's choices that clauses rest on: log entries 96, 97, 98, 108. -/
def Obligations.Rings : Prop :=
  (∀ (s : State) (r : Fin 64) (w : Word), s.Up →
     (s.dev.hr.linkUp = true → s.dev.ringType r = 1 ∨ s.dev.ringType r = 3 → s.dev.ringState r = enOn →
       ((w.toNat + 2 ^ 32 - s.dev.didx r) % 2 ^ 32 ≤ s.dev.ringSize r →
         Answers (.doorbellPoll [(r, w)]) s (fun e => s.dev.Frame e [.hr] [R.HR_RING_HIDX r] ∧
           e.reg (R.HR_RING_HIDX r) = w ∧ e.hr.rings = s.dev.hr.rings)) ∧
       (s.dev.ringSize r < (w.toNat + 2 ^ 32 - s.dev.didx r) % 2 ^ 32 → s.dev.inFault = false →
         Answers (.doorbellPoll [(r, w)]) s (fun e =>
           s.dev.Frame e [.hr] [R.HR_RING_HIDX r, R.HR_RING_CTRL r, R.HR_ALARM] ∧ e.ringState r = enStopping ∧
           e.fld (R.HR_RING_CTRL r) F.HR_RING_CTRL_err = 2 ∧ e.flag (R.HR_RING_CTRL r) F.HR_RING_CTRL_enable = false ∧
           e.flag R.HR_ALARM F.HR_ALARM_ring_err = true))) ∧
     (s.dev.ringState r = enOn → s.dev.inFault = false →
       Answers (.hostMemoryError (.ring r)) s (fun e =>
         s.dev.Frame e [.hr] [R.HR_MEM_ERR, R.HR_RING_CTRL r, R.HR_ALARM, R.PC_ALARM] ∧ e.ringState r = enStopping ∧
         e.fld (R.HR_RING_CTRL r) F.HR_RING_CTRL_err = 3 ∧ e.flag R.HR_ALARM F.HR_ALARM_host_mem_err = true)) ∧
     (s.dev.hr.dbFails < 7 → Answers (.hostMemoryError .doorbell) s (fun e =>
       s.dev.Frame e [.hr] [R.HR_MEM_ERR, R.PC_ALARM] ∧ e.hr.dbFails = s.dev.hr.dbFails + 1)) ∧
     (7 ≤ s.dev.hr.dbFails → s.dev.ringState r = enOn → s.dev.inFault = false → Answers (.hostMemoryError .doorbell) s (fun e =>
        s.dev.Frame e [.hr] ([R.HR_MEM_ERR, R.HR_ALARM, R.PC_ALARM] ++ (List.range 64).map R.HR_RING_CTRL) ∧
        e.hr.dbFails = 0 ∧ e.ringState r = enStopping ∧ e.fld (R.HR_RING_CTRL r) F.HR_RING_CTRL_err = 4))) ∧
  (∀ (s : State) (r : Fin 64), s.Up →
     (s.dev.inFault = false → s.dev.ringState r = enStarting →
       (s.dev.flag (R.HR_RING_CTRL r) F.HR_RING_CTRL_enable = true →
         Answers (.ringStartingEnd r) s (fun e => e.ringState r = enOn ∧ s.dev.Frame e [] [R.HR_RING_CTRL r])) ∧
       (s.dev.flag (R.HR_RING_CTRL r) F.HR_RING_CTRL_enable = false →
         Answers (.ringStartingEnd r) s (fun e => e.ringState r = enStopping ∧ s.dev.Frame e [] [R.HR_RING_CTRL r]))) ∧
     (s.dev.inFault = false → s.dev.mayStart (.ring r) = true → s.dev.ringState r = enOff →
       (s.dev.ringValid r = true → Answers (.enableWrite (.ring r) 1#32) s (fun e => e.ringState r = enStarting ∧
         e.didx r = 0 ∧ e.hidx r = 0 ∧
         s.dev.Frame e [.hr] [R.HR_RING_CTRL r, R.HR_RING_DIDX r, R.HR_RING_HIDX r])) ∧
       (s.dev.ringValid r = false → Answers (.enableWrite (.ring r) 1#32) s (fun e => e.ringState r = enOff ∧
         e.fld (R.HR_RING_CTRL r) F.HR_RING_CTRL_err = 1 ∧ e.flag R.HR_ALARM F.HR_ALARM_cfg_reject = true ∧
         s.dev.Frame e [] [R.HR_RING_CTRL r, R.HR_ALARM]))) ∧
     (s.dev.inFault = false → s.dev.ringState r = enStopping → (s.dev.ring r).busy = false →
       s.dev.flag (R.HR_RING_CTRL r) F.HR_RING_CTRL_enable = false → s.dev.hr.flr = false →
       Answers (.ringStoppingEnd r) s (fun e => e.ringState r = enOff ∧ (e.ring r).posted = [] ∧
         s.dev.Frame e [.hr] [R.HR_RING_CTRL r])) ∧
     (s.dev.ringState r = enOn → s.dev.inFault = false → Answers .functionLevelReset s (fun e => e.ringState r = enStopping ∧
       e.flag (R.HR_RING_CTRL r) F.HR_RING_CTRL_enable = false ∧ e.hr.flr = true ∧
       ∀ o, inHr o = false → e.reg o = s.dev.reg o)) ∧
     ((∀ q < 64, s.dev.ringState q = enOff) → Answers .functionLevelReset s (fun e =>
       (∀ o, inHr o = true → o ≠ R.HR_PCIE_STAT → o ≠ R.HR_ALARM → e.reg o = resetWord o) ∧
       e.reg R.HR_ALARM = putField 0 F.HR_ALARM_flr 1 ∧ (∀ o, inHr o = false → e.reg o = s.dev.reg o) ∧
       e.sw = s.dev.sw ∧ e.tg = s.dev.tg ∧ e.nv = s.dev.nv))) ∧
  (∀ (s : State) (w : Word), s.Up →
     (s.dev.ringsActive = [] →
       Answers (.pageBaseCommit true w) s (fun e => s.dev.Frame e [.hr] [R.HR_DB_BASE_HI] ∧ e.reg R.HR_DB_BASE_HI = w ∧
         e.hr.dbBase = w.toNat * 2 ^ 32 + (s.dev.reg R.HR_DB_BASE_LO).toNat) ∧
       Answers (.pageBaseCommit false w) s (fun e => s.dev.Frame e [.hr] [R.HR_ST_BASE_HI] ∧ e.reg R.HR_ST_BASE_HI = w ∧
         e.hr.stBase = w.toNat * 2 ^ 32 + (s.dev.reg R.HR_ST_BASE_LO).toNat)) ∧
     (s.dev.ringsActive ≠ [] → Answers (.pageBaseCommit true w) s (fun e => s.dev.Frame e [] [R.HR_ALARM] ∧
       e.flag R.HR_ALARM F.HR_ALARM_cfg_reject = true ∧ e.hr.dbBase = s.dev.hr.dbBase)))

/-- R244, R290, R295, R296, R306: a TXP descriptor brings its frame to port 65 and advances the ring; one out of range
sends nothing and completes with status 4; posted buffers are taken up to the host index; a moderated vector covers
every entry written before it. The model's choices that clauses rest on: log entries 99, 105, 106. -/
def Obligations.RingFrames : Prop :=
  ∀ (s : State) (r : Fin 64) (x : TxpDesc) (bufs : List RxpBuf), s.Up →
    let cls := s.dev.fld (R.HR_RING_CFG r) F.HR_RING_CFG_cls % 8
    (s.dev.ringType r = 3 → s.dev.ringState r = enOn → s.dev.hidx r ≠ s.dev.didx r →
      s.dev.backPressured 65 cls = false → s.dev.inFault = false →
      (s.dev.txpOk x = true → x.cpl = false →
        Answers (.txpDescriptor r x) s (fun e => e.didx r = (s.dev.didx r + 1) % 2 ^ 32 ∧
          e.sw.arrive = s.dev.sw.arrive ++ [{ s.dev.txpFrame r x with id := s.dev.sw.nextId }] ∧
          s.dev.Frame e [.hr, .sw] [R.HR_RING_DIDX r, R.PC_ALARM])) ∧
      (s.dev.txpOk x = false → s.dev.cplRoom r = true →
        Answers (.txpDescriptor r x) s (fun e =>
          s.dev.Frame e [.hr] [R.HR_RING_DIDX r, R.HR_RING_DIDX (s.dev.cplRing r), R.HR_ALARM, R.HR_CMD_ERR,
            R.PC_ALARM] ∧
          e.didx r = (s.dev.didx r + 1) % 2 ^ 32 ∧ e.sw = s.dev.sw ∧
          (s.dev.hr.linkUp = true → .hostWrite (s.dev.entryAddr (s.dev.cplRing r) (s.dev.didx (s.dev.cplRing r)))
            (cplBytes s.dev.v3 { ring := r, index := s.dev.didx r, opcode := 0, cookie := x.cookie.toNat, kind := 3 } 4 0
              0) ∈ e.out) ∧ e.flag R.HR_ALARM F.HR_ALARM_cmd_err = true))) ∧
    (s.dev.ringType r = 4 → s.dev.ringState r = enOn → (∀ c < 8, s.dev.queue 65 c = []) → s.dev.txRun 65 = none →
      Answers (.rxpFill r bufs) s (fun e => e.sw = s.dev.sw ∧ s.dev.Frame e [.hr] [] ∧
        (e.ring r).posted = (s.dev.ring r).posted ++
          bufs.take ((s.dev.hidx r + 2 ^ 32 - s.dev.didx r) % 2 ^ 32 - (s.dev.ring r).posted.length))) ∧
    ((s.dev.ring r).fresh ≠ 0 → s.dev.fld (R.HR_RING_MOD r) F.HR_RING_MOD_count ≠ 0 →
      s.dev.fld (R.HR_RING_MOD r) F.HR_RING_MOD_time ≠ 0 →
      Answers (.interruptModeration r) s (fun e => (e.ring r).fresh = 0 ∧ s.dev.Frame e [.hr] [] ∧
        ((s.dev.msixWord (16 * r + 12)).toNat % 2 = 1 → r.val ∈ e.hr.pba) ∧
        ((s.dev.msixWord (16 * r + 12)).toNat % 2 = 0 → s.dev.hr.linkUp = true →
          .msix r ((s.dev.msixWord (16 * r)).toNat + 2 ^ 32 * (s.dev.msixWord (16 * r + 4)).toNat)
            (s.dev.msixWord (16 * r + 8)).toNat ∈ e.out)))

/-- R300: a telemetry record has 512 bytes and is written to the ring HR_CTRL names; one that finds it full or not ON
is lost, counted in the ring's lost field, and sets tel_lost. A rail mean outside its operating range sets
PC_ALARM.supply_range (R400).
The model's choices that clauses rest on: log entry 158. -/
def Obligations.TelemetryRing : Prop :=
  ∀ (s : State) (m : TelMeas), s.Up → s.dev.stage = .glaze ∨ s.dev.stage = .yielded →
    s.dev.flag R.PC_TEL_CFG F.PC_TEL_CFG_enable = true →
    let r := s.dev.fld R.HR_CTRL F.HR_CTRL_tel_ring
    let supply (e : Dev) : Prop := e.flag R.PC_ALARM F.PC_ALARM_supply_range =
      (s.dev.flag R.PC_ALARM F.PC_ALARM_supply_range || supplyBad m)
    (s.dev.telRecord m).length = 512 ∧
    (s.dev.ringState r = enOn → s.dev.ringType r = 7 → s.dev.ringFull r = false →
      Answers (.telemetryRecord m) s (fun e => e.didx r = (s.dev.didx r + 1) % 2 ^ 32 ∧
        (s.dev.hr.linkUp = true → .hostWrite (s.dev.entryAddr r (s.dev.didx r)) (s.dev.telRecord m) ∈ e.out) ∧
        e.pc.telSeq = (s.dev.pc.telSeq + 1) % 65536 ∧ supply e ∧
        s.dev.Frame e [.hr, .pc] [R.HR_RING_DIDX r, R.PC_ALARM])) ∧
    (s.dev.ringState r ≠ enOn ∨ s.dev.ringFull r = true → Answers (.telemetryRecord m) s (fun e =>
      e.didx r = s.dev.didx r ∧ (e.ring r).lost = ((s.dev.ring r).lost + 1) % 2 ^ 32 ∧
      e.flag R.HR_ALARM F.HR_ALARM_tel_lost = true ∧ e.pc.telSeq = (s.dev.pc.telSeq + 1) % 65536 ∧ supply e ∧
      s.dev.Frame e [.hr, .pc] [R.HR_ALARM, R.PC_ALARM]))

/-! The pail port. -/

/-- R312–R315, R323: a word transfers when it is presented and the PI_READY launched 16 edges before is high. In packet
mode it joins the inbound FIFO, or ends a packet longer than max_frame, which is discarded; in primitive mode a good word is on its way to the engine input as source 192, and one of bad parity is counted
and discarded. The first whole packet enters port 64, padded and with its FCS.
R311, R313, R316, R317: one outbound edge. With PO_READY high the head of the FIFO transfers, otherwise the status
word is driven; a drop command acts 16 edges after it was sampled and skips the rest of the packet in progress, or is
void. The model's choices that clauses rest on: log entries 110, 111, 113. -/
def Obligations.PailTransfers : Prop :=
  (∀ (s : State) (data : Word64) (sb : Byte), s.Up → s.dev.pailState ≠ enOff → s.dev.inFault = false →
     let w : PailWord := { data := data, sb := sb, bad := !pailParity data sb }
     let part := (s.dev.pl.inq.reverse.takeWhile fun x => !x.eop).reverse ++ [w]
     let head := s.dev.pl.inq.take (s.dev.pl.inq.length + 1 - part.length)
     (s.dev.piGoverned = true → s.dev.flag R.PL_CFG F.PL_CFG_pi_mode = false → s.dev.pl.skipping = false →
       (pailOctets part ≤ s.dev.fld R.PL_CFG F.PL_CFG_max_frame →
         Answers (.piWord data sb true) s (fun e => s.dev.Frame e [.pl] [R.PL_STATUS] ∧
           e.pl.inq = s.dev.pl.inq ++ [w] ∧ e.pl.skipping = false ∧ e.pl.ready.length = 16 ∧
           e.pl.outq = s.dev.pl.outq)) ∧
       (s.dev.fld R.PL_CFG F.PL_CFG_max_frame < pailOctets part → (∀ x ∈ part, x.bad = false) →
         Answers (.piWord data sb true) s (fun e =>
           s.dev.Frame e [.pl] [R.PL_STATUS, R.PL_PI_LENGTH, R.PL_ALARM, R.PC_ALARM] ∧
           e.pl.inq = head ∧ e.pl.skipping = !w.eop ∧ e.flag R.PL_ALARM F.PL_ALARM_length = true))) ∧
     (s.dev.piGoverned = true → s.dev.flag R.PL_CFG F.PL_CFG_pi_mode = true →
       (pailParity data sb = false →
         Answers (.piWord data sb true) s (fun e => e.pl.inq = s.dev.pl.inq ∧ e.tg = s.dev.tg ∧
           e.flag R.PL_ALARM F.PL_ALARM_parity = true ∧
           s.dev.Frame e [.pl] [R.PL_PI_PARITY, R.PL_ALARM, R.PC_ALARM])) ∧
       (pailParity data sb = true → primCrcOk data.toNat = true → bits data.toNat 63 60 = 1 → bit sb.toNat 7 = true →
         Answers (.piWord data sb true) s (fun e => e.pl.inq = s.dev.pl.inq ∧ s.dev.Frame e [.pl, .tg] [] ∧
           e.tg = { s.dev.tg with flight := s.dev.tg.flight ++ [(192, primOf data.toNat)] }))) ∧
     (∀ valid, s.dev.piGoverned = false ∨ valid = false →
       Answers (.piWord data sb valid) s (fun e => e.pl.inq = s.dev.pl.inq ∧
         e.pl.ready = s.dev.pl.ready.drop (s.dev.pl.ready.length - 15) ++ [e.pl.ready.getLastD false] ∧
         s.dev.Frame e [.pl] [])) ∧
     (∀ body last rest, s.dev.pl.inq = body ++ last :: rest → (∀ x ∈ body, x.eop = false) → last.eop = true →
       (∀ c < 8, s.dev.backPressured 64 c = false) →
       ((∀ x ∈ body ++ [last], x.bad = false) → bit last.sb.toNat 3 = false →
         let bs := pailFrame (body ++ [last])
         14 ≤ bs.length →
         Answers .piPacketAdmit s (fun e => e.pl.inq = rest ∧
           e.sw.arrive = s.dev.sw.arrive ++
             [{ s.dev.ownFrame 64 none (bs ++ List.replicate (60 - bs.length) 0) with id := s.dev.sw.nextId }] ∧
           s.dev.Frame e [.pl, .sw] [R.PL_STATUS, R.PC_ALARM])) ∧
       ((∃ x ∈ body ++ [last], x.bad = true) →
         Answers .piPacketAdmit s (fun e =>
           s.dev.Frame e [.pl] [R.PL_STATUS, R.PL_PI_PARITY, R.PL_ALARM, R.PC_ALARM] ∧
           e.pl.inq = rest ∧ e.sw = s.dev.sw ∧
           e.flag R.PL_ALARM F.PL_ALARM_parity = true)))) ∧
  (∀ (s : State), s.Up → s.Inv → s.dev.pailState ≠ enOff → s.dev.inFault = false → s.dev.inGlaze = true →
     (∀ w rest, s.dev.pl.outq = w :: rest → s.dev.pl.training = false → s.dev.pl.drops = [] →
       Answers (.poWord true) s (fun e => e.pl.outq = rest ∧ e.pl.inPacket = !w.eop ∧ e.pl.inq = s.dev.pl.inq ∧
         e.out = .pail w.data w.sb true :: s.dev.out ∧ s.dev.Frame e [.pl] [R.PL_STATUS])) ∧
     (s.dev.pl.training = false → s.dev.pl.drops = [] →
       Answers (.poWord false) s (fun e => e = { s.dev with pl := { s.dev.pl with edges := s.dev.pl.edges + 1 }
                                                            out := s.dev.pailStatus :: s.dev.out })) ∧
     (∀ ready, s.dev.pl.training = true → s.dev.pl.drops = [] →
       Answers (.poWord ready) s (fun e => e = { s.dev with pl := { s.dev.pl with edges := s.dev.pl.edges + 1 }
                                                            out := pailTraining (s.dev.pl.edges % 2 == 0) :: s.dev.out })) ∧
     Answers .poDrop s (fun e => e = { s.dev with pl := { s.dev.pl with
       drops := s.dev.pl.drops ++ [(16, if s.dev.pl.inPacket then some s.dev.pl.packetNo else none)] } }) ∧
     (∀ body last rest, s.dev.pl.outq = body ++ last :: rest → (∀ x ∈ body, x.eop = false) → last.eop = true →
       s.dev.pl.inPacket = true → s.dev.pl.drops = [(1, some s.dev.pl.packetNo)] → s.dev.pl.training = false →
       Answers (.poWord false) s (fun e => e.pl.outq = rest ∧ e.pl.inPacket = false ∧ e.pl.drops = [] ∧
         s.dev.Frame e [.pl] [R.PL_STATUS, R.PL_PO_DROP, R.PC_ALARM])) ∧
     (s.dev.pl.inPacket = false → s.dev.pl.drops = [(1, none)] → s.dev.pl.training = false →
       Answers (.poWord false) s (fun e =>
         s.dev.Frame e [.pl] [R.PL_PO_DROP_VOID, R.PL_ALARM, R.PC_ALARM] ∧
         e.pl.outq = s.dev.pl.outq ∧ e.pl.drops = [] ∧
         e.flag R.PL_ALARM F.PL_ALARM_drop_void = true)) ∧
     Answers .poTrainingEnd s (fun e => e = { s.dev with pl := { s.dev.pl with training := false } }))

/-- R320, R322: the loss of PI_CLK discards the partial packet at the tail and ends the alignment; its return and the
alignment are reported; STARTING ends in ON, and STOPPING in OFF with both FIFOs empty.
The model's choices that clauses rest on: log entry 112. -/
def Obligations.PailStates : Prop :=
  ∀ (s : State), s.Up →
    (s.dev.pailState = enOn →
      Answers .piClockLoss s (fun e =>
        s.dev.Frame e [.pl] [R.PL_STATUS, R.PL_PI_PARTIAL, R.PL_ALARM, R.PC_ALARM] ∧
        e.flag R.PL_STATUS F.PL_STATUS_pi_clk = false ∧
        e.flag R.PL_STATUS F.PL_STATUS_pi_aligned = false ∧ e.flag R.PL_ALARM F.PL_ALARM_align_lost = true ∧
        e.pl.inq = (s.dev.pl.inq.reverse.dropWhile fun w => !w.eop).reverse ∧ e.pl.outq = s.dev.pl.outq)) ∧
    Answers .piClockReturn s (fun e => s.dev.Frame e [] [R.PL_STATUS] ∧ e.pl = s.dev.pl ∧
      e.flag R.PL_STATUS F.PL_STATUS_pi_clk = true) ∧
    (s.dev.pailState = enStarting ∨ s.dev.pailState = enOn → s.dev.inFault = false →
      Answers .piAlignment s (fun e => s.dev.Frame e [] [R.PL_STATUS] ∧ e.pl = s.dev.pl ∧
        e.flag R.PL_STATUS F.PL_STATUS_pi_aligned = true)) ∧
    (s.dev.inFault = false → s.dev.pailState = enStarting → s.dev.stage = .glaze →
      s.dev.flag R.PL_CTRL F.PL_CTRL_enable = true →
      Answers .pailStartingEnd s (fun e => s.dev.Frame e [] [R.PL_CTRL] ∧ e.pailState = enOn ∧ e.pl = s.dev.pl)) ∧
    (s.dev.inFault = false → s.dev.pailState = enStopping → s.dev.pl.inq = [] → s.dev.pl.outq = [] →
      s.dev.flag R.PL_CTRL F.PL_CTRL_enable = false →
      Answers .pailStoppingEnd s (fun e => s.dev.Frame e [.pl] [R.PL_CTRL, R.PL_STATUS] ∧ e.pailState = enOff ∧
        e.pl = Pl.reset))

/-! Enumeration. -/

/-- R342, R345, R435: a walk of the root starts on enum_go in glaze, or 1 s after the last CHANGE: a new walk number,
address 1, and the next free address from 2 on. A node that is no root refuses enum_go.
R342: ASSIGN gives the node its address and its parent's gap; a node without a downlink answers DONE with the next
address, and tells a budget other than its own. The model's choices that clauses rest on: log entries 126, 128, 129. -/
def Obligations.EnumWalk : Prop :=
  (∀ (s : State) (w : Word), s.Up → s.dev.stage = .glaze → s.dev.mayWalk = true → s.dev.walking = false →
     (getField w F.GL_CTRL_enum_go = 1 → getField w F.GL_CTRL_glaze = 0 →
       getField w F.GL_CTRL_glaze_src = s.dev.fld R.GL_CTRL F.GL_CTRL_glaze_src →
       getField w F.GL_CTRL_enum_root = s.dev.fld R.GL_CTRL F.GL_CTRL_enum_root →
       (s.dev.enumRoot = true → Answers (.enumGo w) s (fun e =>
          s.dev.Frame e [.en] ([R.GL_CTRL, R.GL_ADDR, R.GL_ENUM_STAT, R.GL_ALARM] ++
            (List.range 64).map R.GL_PORT_RANGE ++ (List.range 64).map R.GL_PORT_RANGE_END) ∧
          e.enumSeqNow = (s.dev.enumSeqNow + 1) % 256 ∧
         e.fld R.GL_ADDR F.GL_ADDR_addr = 1 ∧ e.flag R.GL_ADDR F.GL_ADDR_valid = true ∧ e.en.acc = 0 ∧ e.en.next = 2 ∧
         e.stage = .glaze)) ∧
       (s.dev.enumRoot = false → Answers (.enumGo w) s (fun e => e.en = s.dev.en ∧
         e.flag R.GL_ALARM F.GL_ALARM_stage_reject = true ∧ s.dev.Frame e [] [R.GL_CTRL, R.GL_ALARM]))) ∧
     (s.dev.enumRoot = true → s.dev.en.armed = true → s.dev.flag R.GL_CTRL F.GL_CTRL_enum_auto = true →
       Answers .enumAutoWalk s (fun e =>
         s.dev.Frame e [.en] ([R.GL_ADDR, R.GL_ENUM_STAT, R.GL_ALARM] ++ (List.range 64).map R.GL_PORT_RANGE ++
           (List.range 64).map R.GL_PORT_RANGE_END) ∧
         e.enumSeqNow = (s.dev.enumSeqNow + 1) % 256 ∧ e.en.armed = false ∧
         e.fld R.GL_ADDR F.GL_ADDR_addr = 1 ∧ e.flag R.GL_ADDR F.GL_ADDR_valid = true))) ∧
  (∀ (s : State) (p : Fin 64) (b : BitVec 108), s.Up → s.dev.stage = .glaze → s.dev.mayWalk = true →
     s.dev.enumRoot = false → s.dev.isPairPort p = false → s.dev.linkUp p = true →
     (p.val, enumOp b, enumSeq b) ∉ s.dev.en.acted →
     Answers (.enumAssign p b) s (fun e =>
       s.dev.Frame e [.en] ([R.GL_ADDR, R.GL_ENUM_STAT, R.GL_ALARM, R.TG_UPLINK] ++
         (List.range 64).map R.GL_PORT_RANGE ++ (List.range 64).map R.GL_PORT_RANGE_END) ∧
       e.flag R.GL_ADDR F.GL_ADDR_valid = true ∧ e.flag R.GL_ADDR F.GL_ADDR_refused = false ∧
       e.fld R.GL_ADDR F.GL_ADDR_port = p ∧ e.fld R.GL_ADDR F.GL_ADDR_addr = enumAddr b ∧
       e.fld R.TG_UPLINK F.TG_UPLINK_parent_gap = enumGap b ∧ e.en.acc = enumAcc b ∧ e.en.up = some p.val ∧
       e.en.next = enumAddr b + 1 ∧ e.enumSeqNow = enumSeq b ∧
       ((∀ q : Nat, q < 64 → q ≠ p.val → (s.dev.linkUp q && (s.dev.port q).role == 1) = false) →
         e.walking = false ∧ e.en.sendUp = some (enumBody 2 (enumAddr b + 1) 0 0 0 (enumSeq b)
           (enumBudget b != s.dev.budget)))))

/-- R341–R343, R345: DONE closes the range of its port and moves the next free address; a silent port is released with
an empty range; the last port's answer leads to DONE upward. A message is acted on once.
R342, R343, R345: a refused node holds no address; a released one clears its ranges too; CHANGE arms the root's next
walk or tells the host, and is relayed upward by 16 blocks; 1.0 s ends firing step 4.
The model's choices that clauses rest on: log entries 126, 128. -/
def Obligations.EnumMessages : Prop :=
  (∀ (s : State) (p : Fin 64) (b : BitVec 108), s.Up → s.Inv → s.dev.stage = .glaze → s.dev.linkUp p = true →
     (s.dev.mayWalk = true → s.dev.enumRoot = false → s.dev.en.cur = some p.val → s.dev.en.ports = [] →
       (enumSeq b = s.dev.enumSeqNow → s.dev.isForerunner p = false → enumMismatch b = false →
         (p.val, enumOp b, enumSeq b) ∉ s.dev.en.acted →
         Answers (.enumDone p b) s (fun e =>
           s.dev.Frame e [.en] [R.GL_PORT_RANGE p, R.GL_PORT_RANGE_END p, R.GL_ENUM_STAT] ∧
           e.flag (R.GL_PORT_RANGE p) F.GL_PORT_RANGE_valid = true ∧
           e.fld (R.GL_PORT_RANGE p) F.GL_PORT_RANGE_first = s.dev.en.next % 2 ^ 24 ∧
           e.fld (R.GL_PORT_RANGE_END p) F.GL_PORT_RANGE_END_end = enumAddr b ∧ e.en.next = enumAddr b ∧
           e.en.sendUp = some (enumBody 2 (enumAddr b) 0 0 0 (enumSeq b) s.dev.en.mismatch))) ∧
       (s.dev.walking = true → Answers (.enumPortTimeout p) s (fun e =>
          s.dev.Frame e [.en] [R.GL_PORT_RANGE p, R.GL_PORT_RANGE_END p, R.GL_ENUM_STAT, R.GL_ALARM] ∧
          e.flag (R.GL_PORT_RANGE p) F.GL_PORT_RANGE_valid = false ∧ e.walking = false ∧ e.en.next = s.dev.en.next ∧
         sGet 0 e.en.sendDown p = s.dev.plainBody 4 ∧
         e.en.sendUp = some (enumBody 2 s.dev.en.next 0 0 0 s.dev.enumSeqNow s.dev.en.mismatch)))) ∧
     Answers (.enumWorking p b) s (fun e => e = { s.dev with en := { s.dev.en with acted := e.en.acted } }) ∧
     ((p.val, enumOp b, enumSeq b) ∈ s.dev.en.acted →
       Answers (.enumAssign p b) s (fun e => e = s.dev) ∧ Answers (.enumDone p b) s (fun e => e = s.dev) ∧
       Answers (.enumRefuse p b) s (fun e => e = s.dev) ∧ Answers (.enumRelease p b) s (fun e => e = s.dev) ∧
       Answers (.enumChange p b) s (fun e => e = s.dev))) ∧
  (∀ (s : State) (p : Fin 64) (b : BitVec 108), s.Up →
     (s.dev.stage = .glaze → s.dev.linkUp p = true → (p.val, enumOp b, enumSeq b) ∉ s.dev.en.acted →
       (s.dev.enumRoot = false → s.dev.isPairPort p = false →
         Answers (.enumRefuse p b) s (fun e => e.flag R.GL_ADDR F.GL_ADDR_valid = false ∧
           e.flag R.GL_ADDR F.GL_ADDR_refused = true ∧ e.flag R.GL_ALARM F.GL_ALARM_refused = true ∧
           e.enumSeqNow = enumSeq b ∧ s.dev.Frame e [.en] [R.GL_ADDR, R.GL_ALARM, R.GL_ENUM_STAT]) ∧
         Answers (.enumRelease p b) s (fun e =>
           s.dev.Frame e [.en] ([R.GL_ADDR, R.GL_ENUM_STAT, R.GL_ALARM] ++ (List.range 64).map R.GL_PORT_RANGE ++
             (List.range 64).map R.GL_PORT_RANGE_END) ∧
           e.flag R.GL_ADDR F.GL_ADDR_valid = false ∧
           e.flag R.GL_ADDR F.GL_ADDR_refused = false ∧
           ∀ q : Fin 64, e.flag (R.GL_PORT_RANGE q) F.GL_PORT_RANGE_valid = false)) ∧
       (s.dev.mayWalk = true → s.dev.enumRoot = true → s.dev.flag R.GL_CTRL F.GL_CTRL_enum_auto = true →
         Answers (.enumChange p b) s (fun e => e.en.armed = true ∧ s.dev.Frame e [.en] [])) ∧
       (s.dev.mayWalk = true → s.dev.enumRoot = true → s.dev.flag R.GL_CTRL F.GL_CTRL_enum_auto = false →
         Answers (.enumChange p b) s (fun e => e.flag R.GL_ALARM F.GL_ALARM_enum_change = true ∧
           s.dev.Frame e [.en] [R.GL_ALARM])) ∧
       (s.dev.mayWalk = true → s.dev.enumRoot = false → s.dev.en.up ≠ none →
         Answers (.enumChange p b) s (fun e => e.en.changes = 16 ∧ s.dev.Frame e [.en] []))) ∧
     (s.dev.stage = .firing → s.dev.fireStep = 4 →
       Answers .enumFiringTimeout s (fun e => e.stage = .glaze ∧ e.fireStep = 0)))

/-! The stages. -/

/-- R330: reset and the fall of PWR_OK lead to OFF from every stage, connected scan chains included: every register is
at its reset value, and the non-volatile store, the straps and what has left the device stand.
R327, R333, R387: RESET_RELEASE counts a power cycle. Without a bisque image the device is in SAFE with cause 1 and
its two records queued; with an accepted image without records it is in BISQUE and has none to apply before its first lock attempt. Out of OFF
nothing happens. The model's choices that clauses rest on: log entries 10, 115. -/
def Obligations.Reset : Prop :=
  (∀ (s : State), s.dev.ca.storing = false →
     Answers .resetAssert s (fun e => e = Dev.cold s.dev.nv s.dev.pins s.dev.out s.dev.free) ∧
     Answers .pwrOkFall s (fun e => e = Dev.cold s.dev.nv s.dev.pins s.dev.out s.dev.free)) ∧
  (∀ (s : State) (temps : List Int), s.dev.mi.scan = false →
     (s.dev.stage = .off → s.dev.nv.bisque.length < 256 → s.dev.nv.clearing = none →
       Answers (.resetRelease temps) s (fun e => e.stage = .safe ∧ e.safeCause = 1 ∧
         e.nv.pwr = min (s.dev.nv.pwr + 1) 0xFFFFFFFF ∧ e.nv.klog = s.dev.nv.klog ∧ e.cleaner = 7 ∧ e.selRef = 0x7F)) ∧
     (s.dev.stage = .off → 256 ≤ s.dev.nv.bisque.length → little s.dev.nv.bisque 0 4 = 1 →
       imageLen s.dev.nv.bisque = 0 →
       little s.dev.nv.bisque 8 4 = 0 → s.dev.nv.openFuse = true →
       Answers (.resetRelease temps) s (fun e => e.stage = .bisque ∧
         e.load = some { kind := 1, recs := [], next := 0, refused := 0 } ∧ e.nv.pwr = min (s.dev.nv.pwr + 1) 0xFFFFFFFF)) ∧
     (s.dev.stage ≠ .off → s.Inv → Answers (.resetRelease temps) s (fun e => e = s.dev)))

/-- R327, R335, R336, R364: the way from BISQUE through the steps of FIRING; an unrepairable failure leads to SAFE;
without a glaze image, or with glaze_src = 1, step 3 waits for GL_CTRL.glaze, which a node that is no root follows
into GLAZE.
R286, R333, R451: the PCIe link trains once PCIE_PERST_B is high and the device is out of reset, in SAFE too; its fall
takes the link down and stops every ring. The model's choices that clauses rest on: log entries 116, 123, 142. -/
def Obligations.FiringAndPcie : Prop :=
  (∀ (s : State) (temps : List Int) (row : Nat) (w : Word), s.Up →
     (s.dev.stage = .bisque → s.dev.rootLocked = true →
       Answers .bisqueComplete s (fun e => e.stage = .firing ∧ e.fireStep = 1)) ∧
     (s.dev.stage = .firing → s.dev.fireStep = 1 →
       Answers (.firingBistDone []) s (fun e => e.stage = .firing ∧ e.fireStep = 2 ∧ e.regs = s.dev.settle.regs) ∧
       Answers (.firingBistDone [{ mem := 12, row := row }]) s (fun e => e.stage = .safe ∧ e.safeCause = 4)) ∧
     (s.dev.stage = .firing → s.dev.fireStep = 2 →
       Answers (.firingCalibrationDone temps []) s (fun e => e.stage = .firing ∧ e.fireStep = 3 ∧
         (s.dev.flag R.GL_CTRL F.GL_CTRL_glaze_src = true → e.glazeWait = true) ∧
         ∀ i : Fin 16, e.flag (R.CA_TEMP i) F.CA_TEMP_valid = true)) ∧
     (s.dev.stage = .firing → s.dev.fireStep = 3 → s.dev.glazeWait = false →
       (s.dev.nv.glaze.length < 256 → Answers .glazeImageLoaded s (fun e =>
          s.dev.Frame e [.stage, .log] logRegs ∧
          e.stage = .firing ∧ e.glazeWait = true)) ∧
       (256 ≤ s.dev.nv.glaze.length → little s.dev.nv.glaze 0 4 = 2 → imageLen s.dev.nv.glaze = 0 →
         little s.dev.nv.glaze 8 4 = 0 → s.dev.nv.openFuse = true → s.dev.enumRoot = false →
         (∀ l, s.dev.load = some l → l.recs = []) →
         Answers .glazeImageLoaded s (fun e => e.stage = .glaze ∧ e.fireStep = 0))) ∧
     (s.dev.stage = .firing → s.dev.glazeWait = true → s.dev.enumRoot = false → getField w F.GL_CTRL_glaze = 1 →
       getField w F.GL_CTRL_enum_go = 0 → getField w F.GL_CTRL_enum_root = 0 →
       Answers (.glazeWrite w) s (fun e => e.stage = .glaze ∧ e.glazeWait = false)) ∧
     (s.dev.glazeWait = false → getField w F.GL_CTRL_glaze = 1 → getField w F.GL_CTRL_enum_go = 0 →
       Answers (.glazeWrite w) s (fun e => e.stage = s.dev.stage ∧
         e.flag R.GL_ALARM F.GL_ALARM_stage_reject = true ∧ s.dev.Frame e [] [R.GL_CTRL, R.GL_ALARM]))) ∧
  (∀ (s : State) (speed width : Fin 16) (r : Fin 64), s.Awake →
     Answers (.pciePerstRelease speed width) s (fun e => s.dev.Frame e [.board, .hr] [R.HR_PCIE_STAT] ∧
       e.hr.linkUp = true ∧
       e.fld R.HR_PCIE_STAT F.HR_PCIE_STAT_speed = speed ∧ e.fld R.HR_PCIE_STAT F.HR_PCIE_STAT_width = width ∧
       e.stage = s.dev.stage) ∧
     (s.dev.ringState r = enOn → s.dev.inFault = false → Answers .pciePerstAssert s (fun e => e.hr.linkUp = false ∧
       e.ringState r = enStopping ∧ e.flag (R.HR_RING_CTRL r) F.HR_RING_CTRL_enable = false ∧
       (∀ o, inHr o = false → e.reg o = s.dev.reg o) ∧ e.stage = s.dev.stage)))

/-! Memory integrity. -/

/-- R349: a word of 64 data bits and its check bits reads back; one bit turned over is corrected and named, and two are
found. The check matrix is the model's (log entry 167).
R351, R352, R354, R356, R362: in GLAZE, out of FAULT, churn reads the next line. A clean read changes nothing; a
corrected word is counted, entered in the table and written back; an uncorrectable read counts, alarms and diverts the
line; a line already diverted is not counted again. In FAULT churn pauses.
The model's choices that clauses rest on: log entries 130, 133, 135, 167. -/
def Obligations.ChurnReads : Prop :=
  (∀ (x : Word64) (b c : Fin 72), decodeWord (encodeWord x) = .good x ∧
    decodeWord (encodeWord x ^^^ BitVec.twoPow 72 b) = .corrected x b ∧
    (b ≠ c → decodeWord (encodeWord x ^^^ BitVec.twoPow 72 b ^^^ BitVec.twoPow 72 c) = .double)) ∧
  ∀ (s : State) (m line : Nat) (r : LineRead), s.Up → s.dev.stage = .glaze →
    walkLine 11 s.dev.mi.churnLine = (m, line) →
    let next := if s.dev.mi.churnLine + 1 < walkTotal then s.dev.mi.churnLine + 1 else 0
    let table := (List.range 32).flatMap fun i => [R.MI_CE_ENT_LO i, R.MI_CE_ENT_HI i]
    (s.dev.inFault = true → s.Inv → Answers (.churnStep r) s (fun e => e = s.dev)) ∧
    (s.dev.inFault = false → s.dev.divertedCount < s.dev.fld R.PS_YIELD_CFG F.PS_YIELD_CFG_ue_limit →
      ((∃ ws, lineFound m r.flips = .data ws []) ∨ s.dev.diverted m line = true →
        Answers (.churnStep r) s (fun e => e.mi.churnLine = next ∧ e.mi.diverted = s.dev.mi.diverted ∧
          s.dev.Frame e [.mi] [R.MI_CHURN_STAT])) ∧
      (∀ ws w b, w < 32 → b < 72 → lineFound m r.flips = .data ws [(w, b)] →
        s.dev.diverted m line = false → (∀ i < 32, s.dev.flag (R.MI_CE_ENT_HI i) F.MI_CE_ENT_HI_repeats = false) →
        Answers (.churnStep r) s (fun e => e.mi.churnLine = next ∧ e.mi.diverted = s.dev.mi.diverted ∧
          (m, line) ∈ e.mi.writeBack ∧
          e.fld (R.MI_MEM_CE m) F.MI_MEM_CE_count = min (s.dev.fld (R.MI_MEM_CE m) F.MI_MEM_CE_count + 1) (2 ^ 32 - 1) ∧
          e.fld (R.MI_CE_ENT_LO 0) F.MI_CE_ENT_LO_mem = m ∧
            e.fld (R.MI_CE_ENT_LO 0) F.MI_CE_ENT_LO_line = line % 2 ^ 20 ∧
          e.fld (R.MI_CE_ENT_LO 0) F.MI_CE_ENT_LO_word = w ∧ e.fld (R.MI_CE_ENT_HI 0) F.MI_CE_ENT_HI_repeats = 1 ∧
          e.fld (R.MI_CE_ENT_HI 0) F.MI_CE_ENT_HI_bit = b ∧
          s.dev.Frame e [.mi] ([R.MI_CHURN_STAT, R.MI_MEM_CE m, R.PC_ALARM] ++ table))) ∧
      (lineFound m r.flips = .inner ∨ lineFound m r.flips = .outer → s.dev.diverted m line = false → m ≤ 9 →
        Answers (.churnStep r) s (fun e => e.mi.churnLine = next ∧ (m, line) ∈ e.mi.diverted ∧
          e.flag R.MI_ALARM F.MI_ALARM_ue = true ∧
          e.fld (R.MI_MEM_UE m) F.MI_MEM_UE_count = min (s.dev.fld (R.MI_MEM_UE m) F.MI_MEM_UE_count + 1) (2 ^ 32 - 1) ∧
          s.dev.Frame e [.log, .mi] [R.MI_CHURN_STAT, R.MI_MEM_UE m, R.MI_ALARM, R.CL_ALARM, R.MI_MEM_SPARE m, R.ER_QLOST,
            R.ER_ALARM, R.PC_ALARM])))

/-- R351, R352, R355, R356: a restored line is diverted no longer and leaves a record; a line restored from the shadow
holds what was read; a failed shadow read sets refetch_err and waits for its retry. A write-back ends, and CE_CLEAR
empties the table and its overflow count. The model's choices that clauses rest on: log entries 131, 132. -/
def Obligations.LineRestoration : Prop :=
  ∀ (s : State) (mem line : Nat) (readOk : Bool) (data : BitVec 512) (w : Word), s.Up →
    (s.Inv → Answers (.correctedWriteBack mem line) s (fun e =>
      e = { s.dev with mi := { s.dev.mi with writeBack := s.dev.mi.writeBack.filter (· != (mem, line)) } })) ∧
    (s.Inv → s.dev.activeRestore mem line = none →
      Answers (.lineRestoreDone mem line readOk data) s (fun e => e = s.dev)) ∧
    (∀ x, s.dev.activeRestore mem line = some x → x.retry = false → mem ≠ 2 → mem ≠ 11 →
      (x.src = 1 → readOk = false → Answers (.lineRestoreDone mem line readOk data) s (fun e =>
        e.flag R.MI_ALARM F.MI_ALARM_refetch_err = true ∧ e.mi.diverted = s.dev.mi.diverted ∧
        e.mi.restoring = (s.dev.mi.restoring.map fun y =>
          if y.mem == mem && y.line == line then { y with retry := true } else y) ∧
        s.dev.Frame e [.mi] [R.MI_ALARM, R.PC_ALARM])) ∧
      (readOk = true → s.dev.klogQueue.length < 64 → Answers (.lineRestoreDone mem line readOk data) s (fun e =>
        (mem, line) ∉ e.mi.diverted ∧ e.activeRestore mem line = none ∧
        e.klogQueue = s.dev.klogQueue ++
          [recordBytes s.dev.nv 0x09 (leBytes 1 mem ++ leBytes 1 1 ++ leBytes 1 x.src ++ leBytes 1 0 ++ leBytes 4 line)] ∧
        (mem = 1 → x.src = 1 → sGet 0 e.cl.em line = data.toNat % 2 ^ 256) ∧ s.dev.Frame e [.mi, .log, .cl] []))) ∧
    (s.Inv → Answers (.refetchRetry mem line) s (fun e =>
      e = { s.dev with mi := { s.dev.mi with restoring := s.dev.mi.restoring.map fun y =>
        if y.mem == mem && y.line == line then { y with retry := false } else y } })) ∧
    (getField w F.MI_CE_CLEAR_clear = 1 → Answers (.ceClear w) s (fun e => e.reg R.MI_CE_OVF = 0 ∧
      (∀ i : Fin 32, e.reg (R.MI_CE_ENT_LO i) = 0 ∧ e.reg (R.MI_CE_ENT_HI i) = 0) ∧
      s.dev.Frame e [] (R.MI_CE_OVF :: (List.range 32).flatMap fun i => [R.MI_CE_ENT_LO i, R.MI_CE_ENT_HI i])))

/-- R364–R366: an online turn starts on the next bank, once the spare one holds no cell, and runs its four phases: the
bank's cells go to the spare one and come back. A spare that fails its test ends the turn for good, and a bank that
fails phase 3 is retired.
R367, R415: with TEST_MODE high, scan entry logs itself, zeroizes the eight key slots, logs that, and connects the
scan chains; a full log refuses it, and with TEST_MODE low nothing comes about.
The model's choices that clauses rest on: log entries 134, 152. -/
def Obligations.BankTestsAndScan : Prop :=
  (∀ (s : State) (b : Nat), s.Up → s.dev.stage = .glaze → s.dev.inFault = false → b < 48 →
     (s.dev.mi.phase = 0 → s.dev.flag R.MI_BIST_CFG F.MI_BIST_CFG_online = true → s.dev.nextTestBank = some b →
       (s.dev.mi.spareBad = false → s.dev.cellsIn 48 = 0 → Answers .bankTestStart s (fun e => e.mi.phase = 1 ∧
         e.fld R.MI_STATUS F.MI_STATUS_bank = b ∧ s.dev.Frame e [.mi] [R.MI_STATUS])) ∧
       (s.dev.mi.spareBad = true → s.Inv → Answers .bankTestStart s (fun e => e = s.dev))) ∧
     (s.dev.fld R.MI_STATUS F.MI_STATUS_bank = b →
       (∀ n, (n = 1 ∨ n = 2 ∨ n = 3) → s.dev.mi.phase = n → Answers (.bankTestPhaseEnd false) s (fun e =>
         e.mi.phase = n + 1 ∧ (n = 2 → e.cellsIn b = 0 ∧ e.cellsIn 48 = s.dev.cellsIn 48 + s.dev.cellsIn b) ∧
         (n ≠ 2 → e.sw = s.dev.sw) ∧ s.dev.Frame e [.mi, .sw] [])) ∧
       (s.dev.mi.phase = 4 → Answers (.bankTestPhaseEnd false) s (fun e => e.mi.phase = 0 ∧
         e.cellsIn 48 = 0 ∧ e.cellsIn b = s.dev.cellsIn b + s.dev.cellsIn 48 ∧
         e.fld R.MI_STATUS F.MI_STATUS_bank = 0x3F ∧ s.dev.Frame e [.mi, .sw] [R.MI_STATUS])) ∧
       (s.dev.mi.phase = 1 → Answers (.bankTestPhaseEnd true) s (fun e => e.mi.phase = 0 ∧ e.mi.spareBad = true ∧
         e.flag R.MI_ALARM F.MI_ALARM_spare_fail = true ∧ e.fld R.MI_STATUS F.MI_STATUS_bank = 0x3F ∧
         s.dev.Frame e [.log, .mi] [R.MI_STATUS, R.MI_ALARM, R.ER_QLOST, R.ER_ALARM, R.PC_ALARM])) ∧
       (s.dev.mi.phase = 3 → s.dev.retired b = false → 8192 ≤ s.dev.cellsUsable →
         Answers (.bankTestPhaseEnd true) s (fun e => e.mi.phase = 0 ∧ e.retired b = true ∧
           e.cellsUsable = s.dev.cellsUsable - 8192 ∧ e.flag R.SW_ALARM F.SW_ALARM_bank_retired = true ∧
           e.fld R.MI_STATUS F.MI_STATUS_bank = 0x3F ∧ (∀ a, a ≠ b → a < 48 → e.retired a = s.dev.retired a) ∧
           s.dev.Frame e [.log, .mi] [R.MI_STATUS, R.MI_RETIRED_LO, R.MI_RETIRED_HI, R.SW_BUF_STAT, R.SW_POOL_STAT, R.SW_ALARM,
             R.ER_QLOST, R.ER_ALARM, R.PC_ALARM])))) ∧
  (∀ (s : State), s.Awake →
     (s.dev.pins.testMode = false → s.Inv → Answers .scanEnter s (fun e => e = s.dev)) ∧
     (s.dev.pins.testMode = true → s.dev.klogQueue = [] → s.dev.flag R.ER_STATUS F.ER_STATUS_full = true →
       Answers .scanEnter s (fun e => e.mi.scan = false ∧ e.nv = s.dev.nv ∧ s.dev.Frame e [.mi] [])) ∧
     (s.dev.pins.testMode = true → s.dev.klogQueue = [] → s.dev.flag R.ER_STATUS F.ER_STATUS_full = false →
       s.dev.nv.klogUsed + 1024 ≤ 1023 * 256 → s.dev.nv.bad = [] →
       Answers .scanEnter s (fun e =>
         s.dev.Frame e [.mi, .nv] [R.PS_SEC_STATUS, R.PS_ALARM, R.ER_STATUS, R.ER_USED, R.ER_CLEARS, R.ER_PWR_CYCLES,
           R.ER_MINUTES] ∧
         e.mi.scan = true ∧ e.nv.keys = List.replicate 8 none ∧
         e.nv.klog = s.dev.nv.klog ++ [recordBytes s.dev.nv 0x0C [], recordBytes s.dev.nv 0x13 [2, 0, 0, 0]] ∧
         e.fld R.PS_SEC_STATUS F.PS_SEC_STATUS_filled = 0 ∧ e.flag R.PS_ALARM F.PS_ALARM_zeroized = true ∧
         e.stage = s.dev.stage)))

/-! Calibration. -/

/-- R379–R382: an op starts in glaze from idle, with arguments that R380 asks and the temperature R381 asks;
measurement A leads to B, and two that agree within the tolerance give D, their mean, to the item's delta, or replace
the table of a code-density op; two that disagree, and a timeout, end the op and change no delta.
The model's choices that clauses rest on: log entries 141, 143, 144. -/
def Obligations.CalibrationOps : Prop :=
  ∀ (s : State) (w : Word) (o : CalOp) (value a : Int) (table : List (BitVec 16)), s.Up →
    ((s.dev.stage ≠ .glaze ∨ s.dev.fld R.CA_STATUS F.CA_STATUS_state ≠ 0) →
      Answers (.calOpStart w) s (fun e => e.flag R.CA_ALARM F.CA_ALARM_cfg_reject = true ∧ e.ca = s.dev.ca ∧
        s.dev.Frame e [] [R.CA_ALARM])) ∧
    (s.dev.stage = .glaze → s.dev.fld R.CA_STATUS F.CA_STATUS_state = 0 → getField w F.CA_CMD_go = 1 →
      o = { op := getField w F.CA_CMD_op, set := getField w F.CA_CMD_set,
            allSet := getField w F.CA_CMD_all_sets == 1, target := getField w F.CA_CMD_target,
            ref := getField w F.CA_CMD_ref, a := none, waits := false } →
      (s.dev.opArgsOk o = false → Answers (.calOpStart w) s (fun e => e.ca = s.dev.ca ∧
        e.fld R.CA_STATUS F.CA_STATUS_result = 5 ∧ e.fld R.CA_STATUS F.CA_STATUS_state = 0 ∧
        s.dev.Frame e [] [R.CA_CMD, R.CA_RESULT_A, R.CA_RESULT_B, R.CA_STATUS])) ∧
      (s.dev.opArgsOk o = true → s.dev.opTempOk o = false → Answers (.calOpStart w) s (fun e => e.ca = s.dev.ca ∧
        e.fld R.CA_STATUS F.CA_STATUS_result = 3 ∧ e.fld R.CA_STATUS F.CA_STATUS_state = 0 ∧
        e.flag R.CA_ALARM F.CA_ALARM_temp_window = true ∧
        s.dev.Frame e [] [R.CA_CMD, R.CA_RESULT_A, R.CA_RESULT_B, R.CA_STATUS, R.CA_ALARM])) ∧
      (s.dev.opArgsOk o = true → s.dev.opTempOk o = true →
        (∀ c : Fin 128, s.dev.flag (R.EC_STATUS c) F.EC_STATUS_cal = false) →
        Answers (.calOpStart w) s (fun e =>
          s.dev.Frame e [.ca, .chans] ([R.CA_CMD, R.CA_RESULT_A, R.CA_RESULT_B, R.CA_STATUS] ++
            (List.range 128).map R.EC_STATUS) ∧
          e.ca = { s.dev.ca with op := some o } ∧
          e.fld R.CA_STATUS F.CA_STATUS_result = 0 ∧ e.fld R.CA_STATUS F.CA_STATUS_state = 1))) ∧
    (s.dev.ca.op = some o → o.waits = false → o.a = none → s.dev.opTempOk o = true →
      Answers (.calMeasurementEnd value table) s (fun e => e.ca.op = some { o with a := some value } ∧
        e.reg R.CA_RESULT_A = delayWord value ∧ e.fld R.CA_STATUS F.CA_STATUS_state = 2 ∧
        s.dev.Frame e [.ca] [R.CA_RESULT_A, R.CA_STATUS])) ∧
    (s.dev.ca.op = some o → o.waits = false → o.a = some a →
      (o.op = 3 → o.allSet = false → agreeDelay a value = true →
        (-32768 ≤ s.dev.deltaInForce (itemKey 4 o.target 0) o.set + meanOf a value ∧
          s.dev.deltaInForce (itemKey 4 o.target 0) o.set + meanOf a value ≤ 32768) →
        Answers (.calMeasurementEnd value table) s (fun e => e.ca.op = none ∧
          e.deltaInForce (itemKey 4 o.target 0) o.set =
            s.dev.deltaInForce (itemKey 4 o.target 0) o.set + meanOf a value ∧
          e.ca.stored = s.dev.ca.stored ∧ e.fld R.CA_STATUS F.CA_STATUS_result = 1 ∧
          e.fld R.CA_STATUS F.CA_STATUS_state = 0 ∧ s.dev.Frame e [.ca] [R.CA_RESULT_B, R.CA_STATUS])) ∧
      (o.op = 1 → s.dev.privileged o.target = false → agreeScale a value = true →
       Answers (.calMeasurementEnd value table) s (fun e =>
         s.dev.Frame e [.ca, .chans] [R.CA_RESULT_B, R.CA_STATUS, R.EC_STATUS o.target] ∧
         e.ca.op = none ∧
        (e.chan o.target).table = table ∧ (e.chan o.target).scd = meanOf a value ∧ e.ca.pending = s.dev.ca.pending ∧
        e.fld R.CA_STATUS F.CA_STATUS_result = 1 ∧ e.fld R.CA_STATUS F.CA_STATUS_state = 0)) ∧
      (o.op ≠ 1 → agreeDelay a value = false → Answers (.calMeasurementEnd value table) s (fun e =>
         s.dev.Frame e [.ca, .chans] [R.CA_RESULT_B, R.CA_STATUS, R.CA_ALARM, R.EC_STATUS o.target] ∧
         e.ca.op = none ∧
        e.ca.pending = s.dev.ca.pending ∧ e.flag R.CA_ALARM F.CA_ALARM_disagree = true ∧
        e.fld R.CA_STATUS F.CA_STATUS_result = 2 ∧ e.fld R.CA_STATUS F.CA_STATUS_state = 0))) ∧
    (s.dev.ca.op = some o → Answers .calOpTimeout s (fun e =>
       s.dev.Frame e [.ca, .chans] [R.CA_STATUS, R.CA_ALARM, R.EC_STATUS o.target] ∧
       e.ca = { s.dev.ca with op := none } ∧
      e.flag R.CA_ALARM F.CA_ALARM_timeout = true ∧ e.fld R.CA_STATUS F.CA_STATUS_result = 4 ∧
      e.fld R.CA_STATUS F.CA_STATUS_state = 0))

/-- R372–R374, R382, R383, R386: a delta written in range is pending, another is refused; a discard drops every
pending delta; a store puts every delta in force into the older copy under the next number; a block that fails takes a
spare, and a store that finds none left is refused and leaves the deltas pending. A sensor update reports the means,
alarms outside the range, and recomputes the lanes of a sensor that has changed, except in FAULT.
The model's choices that clauses rest on: log entries 137, 139, 140, 145. -/
def Obligations.DeltaLayer : Prop :=
  ∀ (s : State) (w : Word) (temps : List Int), s.Up →
    (let kind := s.dev.fld R.CA_DELTA_SEL F.CA_DELTA_SEL_kind
     let index := s.dev.fld R.CA_DELTA_SEL F.CA_DELTA_SEL_index
     let rate := if kind ≤ 3 then s.dev.fld R.CA_DELTA_SEL F.CA_DELTA_SEL_rate else 0
     let ok := s.dev.fld R.CA_STATUS F.CA_STATUS_state = 0 ∧ index < (kindCount kind).1 ∧ rate < (kindCount kind).2 ∧
       (signed 32 w.toNat).natAbs ≤ deltaLimit kind
     (ok → Answers (.deltaWrite w) s (fun e => e.deltaInForce (itemKey kind index rate)
        (s.dev.fld R.CA_DELTA_SEL F.CA_DELTA_SEL_set) = signed 32 w.toNat ∧ e.ca.dirty = true ∧
        e.ca.stored = s.dev.ca.stored ∧ e.nv = s.dev.nv ∧ s.dev.Frame e [.ca] [])) ∧
     (¬ ok → Answers (.deltaWrite w) s (fun e => e.ca = s.dev.ca ∧ e.flag R.CA_ALARM F.CA_ALARM_cfg_reject = true ∧
        s.dev.Frame e [] [R.CA_ALARM]))) ∧
    (getField w F.CA_STORE_discard = 1 → getField w F.CA_STORE_store = 0 →
      Answers (.deltaDiscard w) s (fun e => e.ca = { s.dev.ca with pending := [], dirty := true } ∧ e.nv = s.dev.nv ∧
        s.dev.Frame e [.ca] [])) ∧
    (getField w F.CA_STORE_discard = 0 → getField w F.CA_STORE_store = 1 →
      s.dev.stage = .firing ∨ s.dev.stage = .glaze ∨ s.dev.stage = .yielded →
      (s.dev.fld R.CA_STATUS F.CA_STATUS_state = 0 → Answers (.deltaStore w) s (fun e =>
        e.ca = { s.dev.ca with storing := true } ∧ e.fld R.CA_STATUS F.CA_STATUS_state = 3 ∧ e.nv = s.dev.nv ∧
        s.dev.Frame e [.ca] [R.CA_STATUS])) ∧
      (s.dev.fld R.CA_STATUS F.CA_STATUS_state ≠ 0 → s.Inv → Answers (.deltaStore w) s (fun e => e = s.dev))) ∧
    (s.dev.ca.storing = true → s.dev.nv.copyA.good = true → s.dev.nv.copyB.good = true → s.dev.nv.bad = [] →
      (s.dev.nv.copyA.seq < s.dev.nv.copyB.seq → Answers (.deltaStoreEnd []) s (fun e =>
        e.nv.copyA = { seq := s.dev.nv.copyB.seq + 1, good := true, deltas := s.dev.deltasInForce } ∧
        e.nv.copyB = s.dev.nv.copyB ∧ e.ca.stored = s.dev.deltasInForce ∧ e.ca.pending = [] ∧
        e.ca.storing = false ∧ e.fld R.CA_STATUS F.CA_STATUS_state = 0 ∧
        e.fld R.CA_DELTA_STAT F.CA_DELTA_STAT_seq = (s.dev.nv.copyB.seq + 1) % 65536 ∧
        e.flag R.CA_DELTA_STAT F.CA_DELTA_STAT_copy = false ∧
        s.dev.Frame e [.ca, .log, .nv] [R.CA_STATUS, R.CA_DELTA_STAT, R.ER_QLOST, R.ER_ALARM, R.PC_ALARM])) ∧
      (s.dev.nv.copyB.seq ≤ s.dev.nv.copyA.seq → Answers (.deltaStoreEnd []) s (fun e =>
         s.dev.Frame e [.ca, .nv, .log] ([R.CA_STATUS, R.CA_DELTA_STAT] ++ logRegs) ∧
         e.nv.copyB = { seq := s.dev.nv.copyA.seq + 1, good := true, deltas := s.dev.deltasInForce } ∧
        e.nv.copyA = s.dev.nv.copyA ∧ e.ca.stored = s.dev.deltasInForce ∧ e.ca.pending = [] ∧
        e.flag R.CA_DELTA_STAT F.CA_DELTA_STAT_copy = true)) ∧
      (s.dev.nv.spares = 0 → Answers (.deltaStoreEnd [0]) s (fun e =>
        e.nv = { s.dev.nv with bad := e.nv.bad } ∧ e.ca = { s.dev.ca with storing := false } ∧
        e.flag R.CA_ALARM F.CA_ALARM_store_fail = true ∧ e.fld R.CA_STATUS F.CA_STATUS_state = 0 ∧
        s.dev.Frame e [.ca, .log, .nv] [R.CA_STATUS, R.CA_ALARM, R.ER_QLOST, R.ER_ALARM, R.PC_ALARM])) ∧
      (0 < s.dev.nv.spares → s.dev.nv.place = [] → Answers (.deltaStoreEnd [0]) s (fun e =>
        e.nv.spares = s.dev.nv.spares - 1 ∧ e.ca.stored = s.dev.deltasInForce ∧ e.ca.pending = [] ∧
        e.fld R.CA_STATUS F.CA_STATUS_state = 0 ∧
        s.dev.Frame e [.ca, .log, .nv] [R.CA_STATUS, R.CA_DELTA_STAT, R.ER_QLOST, R.ER_ALARM, R.PC_ALARM]))) ∧
    ((∀ i : Fin 16, -32768 ≤ temps.getD i 0 ∧ temps.getD i 0 < 32768) →
      Answers (.sensorUpdate temps) s (fun e =>
        s.dev.Frame e [.ca, .chans] ([R.CA_ALARM, R.PC_ALARM] ++ (List.range 16).map R.CA_TEMP ++
          (List.range 128).map R.EC_IN_DELAY ++ (List.range 128).map R.EC_OUT_DELAY) ∧
        (∀ i : Fin 16, e.flag (R.CA_TEMP i) F.CA_TEMP_valid = true ∧ e.temp i = temps.getD i 0 ∧
          e.flag (R.CA_TEMP i) F.CA_TEMP_failed = s.dev.flag (R.CA_TEMP i) F.CA_TEMP_failed) ∧
        ((∃ i < 13, s.dev.flag (R.CA_TEMP i) F.CA_TEMP_failed = false ∧
          (temps.getD i 0 < -880 ∨ 1760 < temps.getD i 0)) → e.flag R.CA_ALARM F.CA_ALARM_temp_range = true) ∧
        (s.dev.inFault = true → e.ca = s.dev.ca ∧
          s.dev.Frame e [.ca, .chans] (R.CA_ALARM :: (List.range 16).map R.CA_TEMP)) ∧
        (s.dev.inFault = false → e.ca.dirty = false ∧
          ∀ n : Fin 64, s.dev.temp (n.val / 8) ≠ temps.getD (n.val / 8) 0 → sGet 0 e.ca.laneNew n = 1)))

/-! The kiln log and the bandwidth windows. -/

/-- R331, R387, R389, R390, R393, R395, R399: the oldest queued record is appended where it fits, with a spare in place of
a block that fails, and lost where none is left; during a clear it waits. A minute is counted. The cursor reads the record it names, or none. Every
port's window is published. The model's choices that clauses rest on: log entries 137, 138. -/
def Obligations.KilnLog : Prop :=
  ∀ (s : State) (spare : Bool) (r : List Byte) (rest : List (List Byte)) (w : Word), s.Awake →
    let pos := placeRecord s.dev.nv.klogUsed r.length
    let block := klogBase + 1 + (pos - r.length) / 256
    (s.Inv → (s.dev.klogQueue = [] ∨ s.dev.nv.clearing ≠ none) →
      Answers (.kilnRecordStore spare) s (fun e => e = s.dev)) ∧
    (s.dev.klogQueue = r :: rest → s.dev.nv.clearing = none → s.dev.flag R.ER_STATUS F.ER_STATUS_full = false →
      (pos ≤ 1023 * 256 →
        (s.dev.nv.bad = [] → Answers (.kilnRecordStore false) s (fun e =>
          e.nv.klog = s.dev.nv.klog ++ [r] ∧ e.klogQueue = rest ∧
          sGet 0 e.nv.wear block = sGet 0 s.dev.nv.wear block + 1 ∧
          e.fld R.ER_USED F.ER_USED_bytes = pos ∧
          s.dev.Frame e [.log, .nv] [R.ER_STATUS, R.ER_USED, R.ER_CLEARS, R.ER_PWR_CYCLES, R.ER_MINUTES])) ∧
        (0 < s.dev.nv.spares → Answers (.kilnRecordStore true) s (fun e =>
           s.dev.Frame e [.log, .nv] ([R.ER_STATUS, R.ER_USED, R.ER_CLEARS, R.ER_PWR_CYCLES, R.ER_MINUTES] ++ logRegs) ∧
           e.nv.klog = s.dev.nv.klog ++ [r] ∧
          e.nv.spares = s.dev.nv.spares - 1)) ∧
        (s.dev.nv.spares = 0 → Answers (.kilnRecordStore true) s (fun e =>
           s.dev.Frame e [.log, .nv] ([R.ER_REFUSED] ++ logRegs) ∧
           e.nv = { s.dev.nv with bad := e.nv.bad } ∧
          e.fld R.ER_REFUSED F.ER_REFUSED_count = min (s.dev.fld R.ER_REFUSED F.ER_REFUSED_count + 1) (2 ^ 32 - 1))))) ∧
    (s.dev.nv.bad = [] → Answers .operatingMinute s (fun e => e.nv.minutes = min (s.dev.nv.minutes + 1) 0xFFFFFFFF ∧
      e.fld R.ER_MINUTES F.ER_MINUTES_count = min (s.dev.nv.minutes + 1) 0xFFFFFFFF ∧ e.nv.klog = s.dev.nv.klog ∧
      s.dev.Frame e [.nv] [R.ER_STATUS, R.ER_USED, R.ER_CLEARS, R.ER_PWR_CYCLES, R.ER_MINUTES])) ∧
    Answers (.cursorWrite w) s (fun e => e.curReading = true ∧
      e.fld R.ER_CURSOR F.ER_CURSOR_index = getField w F.ER_CURSOR_index ∧
      e.flag R.ER_CURSOR F.ER_CURSOR_ready = false ∧ s.dev.Frame e [.log] [R.ER_CURSOR]) ∧
    (getField w F.ER_ADVANCE_next = 1 → Answers (.cursorAdvance w) s (fun e => e.curReading = true ∧
      e.fld R.ER_CURSOR F.ER_CURSOR_index = (s.dev.fld R.ER_CURSOR F.ER_CURSOR_index + 1) % 2 ^ 24 ∧
      e.flag R.ER_CURSOR F.ER_CURSOR_ready = false ∧ s.dev.Frame e [.log] [R.ER_CURSOR])) ∧
    (s.dev.curReading = true →
      (∀ x, s.dev.nv.clearing = none → s.dev.nv.klog[s.dev.fld R.ER_CURSOR F.ER_CURSOR_index]? = some x →
        Answers .cursorReady s (fun e => e.curReading = false ∧ e.flag R.ER_CURSOR F.ER_CURSOR_ready = true ∧
          e.flag R.ER_CURSOR F.ER_CURSOR_none = false ∧
          (∀ i : Fin 64, e.reg (R.ER_WIN i) = BitVec.ofNat 32 (little x (4 * i) 4)) ∧
          s.dev.Frame e [.log] (R.ER_CURSOR :: (List.range 64).map R.ER_WIN))) ∧
      (s.dev.nv.clearing ≠ none ∨ s.dev.nv.klog[s.dev.fld R.ER_CURSOR F.ER_CURSOR_index]? = none →
        Answers .cursorReady s (fun e => e.curReading = false ∧ e.flag R.ER_CURSOR F.ER_CURSOR_ready = true ∧
          e.flag R.ER_CURSOR F.ER_CURSOR_none = true ∧ s.dev.Frame e [.log] [R.ER_CURSOR]))) ∧
    Answers .bwWindowEnd s (fun e =>
      s.dev.Frame e [.pc] ((List.range 67).map R.PC_BW_RX ++ (List.range 67).map R.PC_BW_TX) ∧
      e.pc.ctrs = s.dev.pc.ctrs ∧
      e.pc.bwLen = s.dev.fld R.PC_BW_CFG F.PC_BW_CFG_window ∧ e.pc.bwCount = (s.dev.pc.bwCount + 1) % 256 ∧
      ∀ p : Fin 67,
        let now (k : Nat) : Nat := (sGet Ctr.zero s.dev.pc.ctrs (portCtr p k)).value.toNat
        let n (k key : Nat) : Nat := (now k + 2 ^ 48 - sGet 0 s.dev.pc.bwBase key) % 2 ^ 48
        e.fld (R.PC_BW_RX p) F.PC_BW_RX_rate = min (n 1 (2 * p) * 8 / (s.dev.pc.bwLen * 1000)) 0xFFFFFF ∧
        e.fld (R.PC_BW_TX p) F.PC_BW_TX_rate = min (n 3 (2 * p + 1) * 8 / (s.dev.pc.bwLen * 1000)) 0xFFFFFF ∧
        e.fld (R.PC_BW_RX p) F.PC_BW_RX_window = (s.dev.pc.bwCount + 1) % 256 ∧
        e.fld (R.PC_BW_TX p) F.PC_BW_TX_window = (s.dev.pc.bwCount + 1) % 256 ∧
        sGet 0 e.pc.bwBase (2 * p) = now 1)

/-- R391: a record that does not fit, and every later one until a clear, is refused: ER_REFUSED advances, full reads
1, and the first refusal sets the alarm; earlier records stand whatever comes; and a record formed with fewer than 64
waiting is queued, and stored where the log is not full and it fits. -/
def Obligations.KilnRefusal : Prop :=
  ∀ (s : State) (spare : Bool) (r : List Byte) (rest : List (List Byte)) (typ : Nat) (body : List Byte), s.Awake →
    s.dev.nv.clearing = none →
    let full := s.dev.flag R.ER_STATUS F.ER_STATUS_full
    let fits := placeRecord s.dev.nv.klogUsed r.length ≤ 1023 * 256
    (s.dev.klogQueue = r :: rest →
      (full = true ∨ ¬ fits → Answers (.kilnRecordStore spare) s (fun e => e.nv = s.dev.nv ∧ e.klogQueue = rest ∧
        e.fld R.ER_REFUSED F.ER_REFUSED_count = min (s.dev.fld R.ER_REFUSED F.ER_REFUSED_count + 1) (2 ^ 32 - 1) ∧
        e.flag R.ER_STATUS F.ER_STATUS_full = true ∧ (full = false → e.flag R.ER_ALARM F.ER_ALARM_full = true) ∧
        (full = true → s.dev.Frame e [.log] [R.ER_REFUSED, R.PC_ALARM]) ∧
        s.dev.Frame e [.log] [R.ER_REFUSED, R.ER_STATUS, R.ER_ALARM, R.PC_ALARM])) ∧
      (full = false → fits → s.dev.nv.bad = [] → Answers (.kilnRecordStore false) s (fun e =>
         s.dev.Frame e [.log, .nv] [R.ER_STATUS, R.ER_USED, R.ER_CLEARS, R.ER_PWR_CYCLES, R.ER_MINUTES] ∧
         e.nv.klog = s.dev.nv.klog ++ [r] ∧
        e.klogQueue = rest))) ∧
    Answers (.kilnRecordStore spare) s (fun e => s.dev.nv.klog <+: e.nv.klog) ∧
    (s.dev.klogQueue.length < 64 →
      (s.dev.record typ body).klogQueue = s.dev.klogQueue ++ [recordBytes s.dev.nv typ body])

/-! The active-standby pair and the saggar. -/

/-- R408, R409, R411, R412, R420: a WAITING device claims, or stands by when ACT_IN rises; an ACTIVE one resolves the
tie; a STANDBY takes over when ACT_IN falls, and later gives its Isazu classes the credit it holds; a write of PS_WDOG
stores its period. The model's choices that clauses rest on: log entries 146, 147, 148, 149. -/
def Obligations.PairClaims : Prop :=
  ∀ (s : State) (phase : Int) (w : Word), s.Up →
    (s.dev.pairState = 1 → s.dev.ps.actIn = false →
      (s.dev.timeValid = true ∨ s.dev.flag R.PS_PAIR_CFG F.PS_PAIR_CFG_claim_any = true →
        Answers .claimTimeout s (fun e => e.pairState = 3 ∧ e.ps.claimAt = some s.dev.ticks ∧
          e.stage = s.dev.stage ∧ s.dev.Frame e [.ps] [R.PS_PAIR_STATUS])) ∧
      (s.dev.timeValid = false → s.dev.flag R.PS_PAIR_CFG F.PS_PAIR_CFG_claim_any = false → s.Inv →
        Answers .claimTimeout s (fun e => e = s.dev))) ∧
    (s.dev.pairState = 1 → Answers .actInRise s (fun e =>
       s.dev.Frame e [.ps, .en, .tc, .chans, .tg, .ca, .log] (R.PS_PAIR_STATUS :: R.GL_ENUM_STAT :: logRegs ++
         s.dev.validRegs) ∧
       e.ps.actIn = true ∧ e.pairState = 2 ∧
      e.stage = s.dev.stage)) ∧
    (∀ t, s.dev.pairState = 3 → s.dev.ps.claimAt = some t →
      let lost := s.dev.ticks - t < 50 ∨ (s.dev.ticks - t ≤ 75 ∧ s.dev.pins.pairRole = true)
      (lost → Answers .actInRise s (fun e =>
         s.dev.Frame e [.ps, .en, .tc, .chans, .tg, .ca, .log] (R.PS_PAIR_STATUS :: R.GL_ENUM_STAT :: logRegs ++
           s.dev.validRegs) ∧
         e.ps.actIn = true ∧ e.pairState = 2 ∧ e.stage = s.dev.stage)) ∧
      (¬ lost → Answers .actInRise s (fun e => e.ps.actIn = true ∧ e.pairState = 3 ∧
        (s.dev.klogQueue.length < 64 → e.klogQueue = s.dev.klogQueue ++
          [recordBytes s.dev.nv 0x11 [1, (if s.dev.pins.pairRole then 1 else 0), 0, 0]]) ∧
        s.dev.Frame e [.log, .ps] [R.ER_QLOST, R.ER_ALARM, R.PC_ALARM]))) ∧
    (s.dev.pairState ≠ 1 → s.dev.pairState ≠ 3 → s.Inv → Answers .actInRise s (fun e =>
      e = { s.dev with ps := { s.dev.ps with actIn := true } })) ∧
    (s.dev.pairState = 2 → Answers (.actInFall phase) s (fun e => e.ps.actIn = false ∧ e.pairState = 3 ∧
      e.ps.resync = true ∧ e.flag R.PS_ALARM F.PS_ALARM_takeover = true ∧
      e.reg R.PS_TAKE_STAT = BitVec.ofNat 32 (unsigned 32 phase) ∧
      (s.dev.enumRoot = true → e.flag R.GL_ADDR F.GL_ADDR_valid = true ∧ e.fld R.GL_ADDR F.GL_ADDR_addr = 1) ∧
      e.stage = s.dev.stage)) ∧
    (s.dev.pairState ≠ 2 → s.Inv → Answers (.actInFall phase) s (fun e =>
      e = { s.dev with ps := { s.dev.ps with actIn := false } })) ∧
    (s.dev.ps.resync = true → Answers .creditResyncEnd s (fun e => e.ps.resync = false ∧ s.dev.Frame e [.ps, .sw] [] ∧
      ∀ p : Fin 64, s.dev.isazu p = true → s.dev.linkUp p = true →
        (∀ c : Fin 8, (e.credit p c).granted = ((s.dev.credit p c).received + (s.dev.credit p c).aside) % 65536) ∧
        (s.dev.portOn p = true → s.dev.inFault = false →
          .credit p ((List.range 8).map fun c => (e.credit p c).granted) ∈ e.out))) ∧
    Answers (.watchdogKick w) s (fun e => e.fld R.PS_WDOG F.PS_WDOG_period = getField w F.PS_WDOG_period ∧
      s.dev.Frame e [] [R.PS_WDOG])

/-- R408, R412, R413: an ACTIVE device yields on each condition that PS_YIELD_CFG enables for it, and counts the
frames it holds; a return discards them and leads to WAITING, or on to STANDBY while ACT_IN is high.
The model's choices that clauses rest on: log entries 150, 151. -/
def Obligations.Yielding : Prop :=
  ∀ (s : State) (w : Word), s.Up →
    let yielded (e : Dev) : Prop := e.stage = .yielded ∧ e.pairState = 4 ∧
      e.flag R.PS_ALARM F.PS_ALARM_yielded = true ∧ e.reg R.PS_LOST = BitVec.ofNat 32 s.dev.framesHeld
    (s.dev.pairState = 3 →
      (bit (s.dev.fld R.PS_YIELD_CFG F.PS_YIELD_CFG_en) 0 = true → Answers .watchdogExpiry s yielded) ∧
      (bit (s.dev.fld R.PS_YIELD_CFG F.PS_YIELD_CFG_en) 2 = true → s.dev.timeValid = false →
        Answers .tvLimitExpiry s yielded) ∧
      (bit (s.dev.fld R.PS_YIELD_CFG F.PS_YIELD_CFG_en) 4 = true → getField w F.PS_CMD_yield = 1 →
        getField w F.PS_CMD_rejoin = 0 → getField w F.PS_CMD_zeroize = 0 → getField w F.PS_CMD_key_write = 0 →
        getField w F.PS_CMD_img_store = 0 → Answers (.yield w) s yielded)) ∧
    (s.dev.pairState ≠ 3 → s.Inv → Answers .watchdogExpiry s (fun e => e = s.dev) ∧
      Answers .tvLimitExpiry s (fun e => e = s.dev)) ∧
    (getField w F.PS_CMD_rejoin = 1 → getField w F.PS_CMD_yield = 0 → getField w F.PS_CMD_zeroize = 0 →
      getField w F.PS_CMD_key_write = 0 → getField w F.PS_CMD_img_store = 0 →
      (s.dev.pairState = 4 → Answers (.rejoin w) s (fun e => e.stage = .glaze ∧ e.sw.store = [] ∧
        e.ps.claimAt = none ∧ e.pairState = if s.dev.ps.actIn then 2 else 1)) ∧
      (s.dev.pairState ≠ 4 → Answers (.rejoin w) s (fun e => e.stage = s.dev.stage ∧
        e.flag R.PS_ALARM F.PS_ALARM_refused = true ∧ s.dev.Frame e [] [R.PS_CMD, R.PS_ALARM])))

/-- R414, R415, R417, R418: a key goes to an empty slot only, and a zeroization empties all eight; an image that fails
its checks is not stored, and one that passes replaces the previous one when its store ends, or is refused by the MRAM;
the open fuse blows on its two codes in order. Each leaves its record.
The model's choices that clauses rest on: log entries 137, 152, 153, 155, 157. -/
def Obligations.Saggar : Prop :=
  ∀ (s : State) (w : Word) (key bs : List Byte) (kind : Nat), s.Up →
    let acts (f : Field) : Nat := getField w f
    let rec_ (e : Dev) (typ : Nat) (body : List Byte) : Prop :=
      s.dev.klogQueue.length < 64 → e.klogQueue = s.dev.klogQueue ++ [recordBytes s.dev.nv typ body]
    let log : List Nat := [R.ER_QLOST, R.ER_ALARM, R.PC_ALARM]
    (acts F.PS_CMD_yield = 0 → acts F.PS_CMD_rejoin = 0 → acts F.PS_CMD_zeroize = 1 → acts F.PS_CMD_key_write = 0 →
      acts F.PS_CMD_img_store = 0 →
      Answers (.zeroize w true) s (fun e => e.nv = { s.dev.nv with keys := List.replicate 8 none } ∧
        e.fld R.PS_SEC_STATUS F.PS_SEC_STATUS_filled = 0 ∧ e.flag R.PS_ALARM F.PS_ALARM_zeroized = true ∧
        rec_ e 0x13 [1, 0, 0, 0] ∧ s.dev.Frame e [.log, .nv] ([R.PS_CMD, R.PS_SEC_STATUS, R.PS_ALARM] ++ log)) ∧
      Answers (.zeroize w false) s (fun e =>
        s.dev.Frame e [.log] ([R.PS_CMD, R.PS_SEC_STATUS, R.PS_ALARM] ++ log) ∧
        e.nv = s.dev.nv ∧ e.flag R.PS_ALARM F.PS_ALARM_zeroized = true ∧
        rec_ e 0x13 [1, 1, 0, 0])) ∧
    (acts F.PS_CMD_yield = 0 → acts F.PS_CMD_rejoin = 0 → acts F.PS_CMD_zeroize = 0 → acts F.PS_CMD_key_write = 1 →
      acts F.PS_CMD_img_store = 0 → key.length = 32 → s.dev.nv.keys.length = 8 →
      s.dev.fld R.PS_XFER_LEN F.PS_XFER_LEN_len = 32 →
      (s.dev.nv.keys.getD (acts F.PS_CMD_slot) none = none → Answers (.keyWrite w key) s (fun e =>
        e.nv = { s.dev.nv with keys := s.dev.nv.keys.set (acts F.PS_CMD_slot) (some key) } ∧
        bit (e.fld R.PS_SEC_STATUS F.PS_SEC_STATUS_filled) (acts F.PS_CMD_slot) = true ∧
        rec_ e 0x12 (leBytes 1 (acts F.PS_CMD_slot) ++ [1, 0, 0]) ∧
        s.dev.Frame e [.log, .nv] ([R.PS_CMD, R.PS_SEC_STATUS] ++ log))) ∧
      (s.dev.nv.keys.getD (acts F.PS_CMD_slot) none ≠ none → Answers (.keyWrite w key) s (fun e =>
        e.nv = s.dev.nv ∧ e.flag R.PS_ALARM F.PS_ALARM_refused = true ∧
        rec_ e 0x12 (leBytes 1 (acts F.PS_CMD_slot) ++ [2, 0, 0]) ∧
          s.dev.Frame e [.log] ([R.PS_CMD, R.PS_ALARM] ++ log)))) ∧
    (acts F.PS_CMD_yield = 0 → acts F.PS_CMD_rejoin = 0 → acts F.PS_CMD_zeroize = 0 → acts F.PS_CMD_key_write = 0 →
      acts F.PS_CMD_img_store = 1 → s.dev.ps.storing = none →
      bs.length = s.dev.fld R.PS_XFER_LEN F.PS_XFER_LEN_len → little bs 0 4 = kind → (kind = 1 ∨ kind = 2) →
      (s.dev.checkImage kind bs = .good ∨ s.dev.checkImage kind bs = .unsigned →
        256 + imageLen bs ≤ regionSize kind → Answers (.imgStore w bs) s (fun e => e.nv = s.dev.nv ∧
          e.ps.storing = some (kind, bs.take (256 + imageLen bs)) ∧ s.dev.Frame e [.ps] [R.PS_CMD])) ∧
      (s.dev.checkImage kind bs = .badSignature ∨ s.dev.checkImage kind bs = .badCrc →
        Answers (.imgStore w bs) s (fun e => e.nv = s.dev.nv ∧ e.ps.storing = none ∧
          e.flag R.PS_ALARM F.PS_ALARM_sig_fail = true ∧ rec_ e 0x14 (leBytes 1 kind ++ [1, 0, 0]) ∧
          s.dev.Frame e [.log] ([R.PS_CMD, R.PS_ALARM] ++ log)))) ∧
    (s.dev.ps.storing = some (1, bs) → s.dev.nv.bad = [] → Answers (.imgStoreEnd []) s (fun e => e.nv.bisque = bs ∧
      e.nv.glaze = s.dev.nv.glaze ∧ e.ps.storing = none ∧ rec_ e 0x14 [1, 0, 0, 0] ∧
        s.dev.Frame e [.log, .nv, .ps] log)) ∧
    (s.dev.ps.storing = some (2, bs) → s.dev.nv.bad = [] → Answers (.imgStoreEnd []) s (fun e => e.nv.glaze = bs ∧
      e.nv.bisque = s.dev.nv.bisque ∧ e.ps.storing = none ∧ rec_ e 0x14 [2, 0, 0, 0] ∧
        s.dev.Frame e [.log, .nv, .ps] log)) ∧
    (s.dev.ps.storing = some (kind, bs) → s.dev.nv.bad = [] → s.dev.nv.spares = 0 → bs ≠ [] →
      Answers (.imgStoreEnd [0]) s (fun e =>
        s.dev.Frame e [.log, .nv, .ps] log ∧ e.nv = { s.dev.nv with bad := e.nv.bad } ∧ e.ps.storing = none ∧
        (s.dev.klogQueue = [] →
          e.klogQueue.drop 1 = [recordBytes s.dev.nv 0x14 (leBytes 1 kind ++ [2, 0, 0])]))) ∧
    (s.dev.stage = .glaze → getField w F.PS_OPEN_code = 0x0F1E → Answers (.openCode w) s (fun e =>
      e.ps.openAt = some s.dev.ticks ∧ e.ps.blowing = s.dev.ps.blowing ∧ s.dev.Frame e [.ps] [])) ∧
    (∀ t, s.dev.ps.openAt = some t → s.dev.ticks ≤ t + tickSeconds 1 → s.dev.nv.openFuse = false →
      getField w F.PS_OPEN_code = 0xE1F0 → Answers (.openCode w) s (fun e =>
        e.ps.openAt = none ∧ e.ps.blowing = true ∧ s.dev.Frame e [.ps] [])) ∧
    (getField w F.PS_OPEN_code ≠ 0x0F1E → getField w F.PS_OPEN_code ≠ 0xE1F0 → Answers (.openCode w) s (fun e =>
      e.ps.openAt = none ∧ e.ps.blowing = s.dev.ps.blowing ∧ s.dev.Frame e [.ps] [])) ∧
    (s.dev.ps.blowing = true → Answers .openFuseBlown s (fun e => e.nv = { s.dev.nv with openFuse := true } ∧
      e.flag R.PS_SEC_STATUS F.PS_SEC_STATUS_open = true ∧ e.ps.blowing = false ∧ rec_ e 0x15 [] ∧
      s.dev.Frame e [.log, .nv, .ps] ([R.PS_SEC_STATUS] ++ log)))

/-! The setup registers. -/

/-- R346, R347: an enable written 1 in OFF starts the block where the stage lets it leave OFF, and is held where it
does not; one written 0 in ON stops the block; one written during a transition changes no state. Lanes are stated
apart, and a ring whose configuration fails its check stays OFF (Obligations.Rings).
The model's choices that clauses rest on: log entries 119, 120. -/
def Obligations.EnableRule : Prop :=
  ∀ (s : State) (t : EnTarget) (w : Word), s.Up → s.dev.inFault = false → (∀ n, t ≠ .lane n) →
    (∀ c : Fin 128, t = .chan c → s.dev.winMode c ≠ 2) →
    (getField w enField = 1 → s.dev.enState t = enOff →
      (s.dev.mayStart t = true → (∀ r : Fin 64, t = .ring r → s.dev.ringValid r = true) → Answers (.enableWrite t w) s (fun e =>
        e.enState t = enStarting ∧ e.flag (enReg t) enField = true)) ∧
      (s.dev.mayStart t = false → Answers (.enableWrite t w) s (fun e =>
        e.enState t = enOff ∧ e.flag (enReg t) enField = true ∧ s.dev.Frame e [] [enReg t]))) ∧
    (getField w enField = 0 → s.dev.enState t = enOn → Answers (.enableWrite t w) s (fun e =>
      e.enState t = enStopping ∧ e.flag (enReg t) enField = false)) ∧
    (s.dev.enState t = enStarting ∨ s.dev.enState t = enStopping → Answers (.enableWrite t w) s (fun e =>
      e.enState t = s.dev.enState t ∧ e.fld (enReg t) enField = getField w enField ∧ s.dev.Frame e [] [enReg t]))

/-- R29, R39, R41, R60, R64, R425: a changed oscillator setting starts a controlled relock of a locked ROOT,
uncounted, or the attempts of one that is not locked anew; sel_mode = 2 leads to FREERUN; a commit of CK_PPS_NEXT
joins both halves and is carried forward. The model's choices that clauses rest on: log entry 69. -/
def Obligations.ClockWrites : Prop :=
  ∀ (s : State) (m : Fin 2) (w : Word), s.Up →
    (let x := s.dev.fieldsStored R.CK_XO_CFG w
     let freq (y : Word) : Nat := getField y F.CK_XO_CFG_freq
     let pd := if getField x F.CK_XO_CFG_pd_auto = 1 then defaultPd (freq x) else getField x F.CK_XO_CFG_pd_mode
     let same := s.dev.fld R.CK_XO_CFG F.CK_XO_CFG_freq = freq x ∧
       pdFreq4 (s.dev.fld R.CK_XO_CFG F.CK_XO_CFG_freq) (s.dev.fld R.CK_XO_CFG F.CK_XO_CFG_pd_mode) = pdFreq4 (freq x) pd
     (same → Answers (.ckXoCfgWrite w) s (fun e => e.ck = s.dev.ck ∧ e.fld R.CK_XO_CFG F.CK_XO_CFG_pd_mode = pd ∧
       s.dev.Frame e [] [R.CK_XO_CFG])) ∧
     (¬ same → s.dev.rootLocked = false → Answers (.ckXoCfgWrite w) s (fun e =>
       e.ck = { s.dev.ck with restart := s.dev.ck.episode.isSome } ∧ e.fld R.CK_XO_CFG F.CK_XO_CFG_freq = freq x ∧
       e.fld R.CK_XO_CFG F.CK_XO_CFG_pd_mode = pd ∧ s.dev.Frame e [.ck] [R.CK_XO_CFG])) ∧
     (¬ same → s.dev.rootLocked = true → Answers (.ckXoCfgWrite w) s (fun e =>
       e.inFault = true ∧ e.rootLocked = false ∧ e.ck.episode = some .controlled ∧
       e.fld R.CK_SYN_STATUS F.CK_SYN_STATUS_attempts = 1 ∧ e.lossCount = s.dev.lossCount ∧
       e.fld R.CK_XO_CFG F.CK_XO_CFG_freq = freq x ∧ e.fld R.CK_XO_CFG F.CK_XO_CFG_pd_mode = pd))) ∧
    (s.dev.cleaner = 2 ∨ s.dev.cleaner = 3 ∨ s.dev.cleaner = 4 → getField w F.CK_CLN_CFG_sel_mode = 2 →
      Answers (.selModeWrite w) s (fun e =>
        s.dev.Frame e cleanParts (R.CK_CLN_CFG :: s.dev.cleanRegs) ∧
        e.cleaner = 1 ∧ e.selRef = 0x7F ∧
        e.fld R.CK_CLN_CFG F.CK_CLN_CFG_sel_mode = 2 ∧ e.flag R.CK_ALARM F.CK_ALARM_freerun = true)) ∧
    Answers (.ppsNextCommit m w) s (fun e => s.dev.Frame e [.ck] [] ∧ (e.ppsOut m).heldLo = none ∧
      (e.ppsOut m).next = carryForward (getField w F.CK_PPS_NEXT_HI_next_hi * 2 ^ 32 +
        ((s.dev.ppsOut m).heldLo.getD (BitVec.ofNat 32 (s.dev.ppsOut m).next)).toNat) (s.dev.ppsPeriod m) s.dev.now)

/-- R8, R287, R422–R424, R430: an access to a reserved offset, a partial write and a write refused in SAFE are
recorded by kind; in SAFE only W1C fields act; GL_SCRATCH takes every whole write. A read clears RC fields. In BAR2
the enabled bytes of an entry change, and an unmasked vector sends the message that it held.
The model's choices that clauses rest on: log entries 159, 160, 161. -/
def Obligations.RegisterAccess : Prop :=
  ∀ (s : State) (off : BitVec 20) (be : BitVec 4) (w : Word) (r : RegSpec), s.Awake →
    let o := off.toNat
    let recorded (kind : Nat) (e : Dev) : Prop :=
      e.fld R.GL_ACCESS_ERR F.GL_ACCESS_ERR_kind = kind ∧ e.fld R.GL_ACCESS_ERR F.GL_ACCESS_ERR_offset = o ∧
        e.fld R.GL_ACCESS_ERR F.GL_ACCESS_ERR_count = min (s.dev.fld R.GL_ACCESS_ERR F.GL_ACCESS_ERR_count + 1) 255 ∧
        e.flag R.GL_ALARM F.GL_ALARM_access_err = true
    (regSpec o = none →
      Answers (.registerWrite .bar0 off be w) s (fun e => recorded 2 e ∧
        s.dev.Frame e [] [R.GL_ACCESS_ERR, R.GL_ALARM]) ∧
      Answers (.reservedAccess off true) s (fun e => recorded 2 e ∧
        s.dev.Frame e [] [R.GL_ACCESS_ERR, R.GL_ALARM]) ∧
      Answers (.reservedAccess off false) s (fun e => recorded 1 e ∧ .readData .bar0 o 0 ∈ e.out ∧
        s.dev.Frame e [] [R.GL_ACCESS_ERR, R.GL_ALARM])) ∧
    (regSpec o = some r →
      (be ≠ 15 → Answers (.registerWrite .bar0 off be w) s (fun e => recorded 3 e ∧
        s.dev.Frame e [] [R.GL_ACCESS_ERR, R.GL_ALARM])) ∧
      (s.dev.stage = .safe → o ≠ R.GL_SCRATCH → o ≠ R.ER_CURSOR → o ≠ R.ER_ADVANCE →
        ((∀ f ∈ r.fields, f.refusedSafe w (s.dev.reg o) = false) →
          Answers (.registerWrite .bar0 off 15 w) s (fun e => s.dev.Frame e [] [o] ∧
            e.reg o = (r.fields.filter fun f => f.acc = .w1c).foldl (fun x f => f.store w x) (s.dev.reg o))) ∧
        ((∃ f ∈ r.fields, f.refusedSafe w (s.dev.reg o) = true) →
          Answers (.registerWrite .bar0 off 15 w) s (fun e => recorded 4 e ∧
            e.flag R.GL_ALARM F.GL_ALARM_stage_reject = true ∧
            s.dev.Frame e [] [o, R.GL_ACCESS_ERR, R.GL_ALARM]))) ∧
      ((∃ f ∈ r.fields, f.acc = .rc) → Answers (.clearingRead off) s (fun e =>
        .readData .bar0 o (s.dev.view o) ∈ e.out ∧ s.dev.Frame e [] [o] ∧
        e.reg o = (r.fields.filter fun f => f.acc = .rc).foldl (fun x f => putField x f.fld 0) (s.dev.reg o)))) ∧
    (o = R.GL_SCRATCH → Answers (.registerWrite .bar0 off 15 w) s (fun e => e.reg R.GL_SCRATCH = w ∧
      s.dev.Frame e [] [R.GL_SCRATCH])) ∧
    (o = R.PS_LOST → Answers (.clearingRead off) s (fun e =>
       s.dev.Frame e [] [R.PS_LOST] ∧
       e.reg R.PS_LOST = 0 ∧
      .readData .bar0 o (s.dev.reg R.PS_LOST) ∈ e.out)) ∧
    (o % 16 = 8 → o < 66 * 16 → Answers (.registerWrite .bar2 off 15 w) s (fun e => e.msixWord o = w ∧
      (∀ a, a ≠ o → e.msixWord a = s.dev.msixWord a) ∧ s.dev.Frame e [] [])) ∧
    (o % 16 = 12 → o < 66 * 16 → s.dev.hr.linkUp = true → s.dev.hr.pba.contains (o / 16) = true → w.toNat % 2 = 0 →
      Answers (.registerWrite .bar2 off 15 w) s (fun e =>
        s.dev.Frame e [] [] ∧
        e.hr.pba.contains (o / 16) = false ∧
        .msix (o / 16) ((s.dev.msixWord (o - 12)).toNat + 2 ^ 32 * (s.dev.msixWord (o - 8)).toNat)
          (s.dev.msixWord (o - 4)).toNat ∈ e.out))

/-- R403: the PC block names these offsets from 0xE_0000 and no other. -/
def Obligations.PcBlockMap : Prop :=
  ∀ o : Nat, o / 0x10000 = 14 → ((regSpec o).isSome = true ↔
    o = 0xE0000 ∨ o = 0xE0004 ∨ o = 0xE0008 ∨ ∃ p < 67, o = 0xE0100 + 8 * p ∨ o = 0xE0104 + 8 * p)

/-! The whole machine. -/

/-- The model's own rule (log entries 1, 115, 116): a step runs the command at the front of the queue with the queue's
rest; on an empty queue the block idles, or applies the next record of the image that it is loading; and the opcode
table spells no command by bits. -/
def Obligations.StepTakesFront : Prop :=
  (∀ (c : Instr) (rest : List Instr) (s : State), s.pending = c :: rest →
    step s = exec c { s with pending := rest }) ∧
  (∀ s : State, s.pending = [] → (s.dev.load = none → step s = .next s) ∧
    (s.dev.load ≠ none → s.dev.mi.scan = false →
      ∃ t, step s = .next t ∧ t.pending = [] ∧ t.dev = s.dev.loadNext.settle)) ∧
  (∀ (s : State) (nbits w : Nat), decodeTableWord nbits w = none ∧ s.withFetchWord nbits w = s)

/-- R330, R338: the machine right after reset is in OFF, every register at its reset value, with nothing waiting, no
scan chain connected, no frame, decision or record held, and the invariant holds.
The model's choices that clauses rest on: log entries 10, 11, 12. -/
def Obligations.ResetState : Prop :=
  State.reset.Inv ∧ State.reset.pending = [] ∧ State.reset.dev.stage = .off ∧ State.reset.dev.mi.scan = false ∧
    (∀ o, State.reset.dev.reg o = resetWord o) ∧ State.reset.dev.sw.store = [] ∧
    State.reset.dev.tg.pending = [] ∧ State.reset.dev.klogQueue = [] ∧ State.reset.dev.hr.linkUp = false

/-- An invariant of the model: from every state that meets it, and indeed from every state, a step that answers a next
state answers one whose stores are canonical and which owes no message; it takes one command off the queue.
The model's choices that clauses rest on: log entry 9. -/
def Obligations.StepKeepsInvariant : Prop :=
  (∀ s t : State, step s = .next t → s.Inv → t.Inv) ∧
  (∀ (c : Instr) (s t : State), exec c s = .next t → t.Inv ∧ t.pending = s.pending)

/-- R330, R367: no command is refused. Every command answers a next state until a scan chain is connected; from then
on reset and the fall of PWR_OK do, and every other command stops, because the manual gives no behaviour there.
The model's choices that clauses rest on: log entries 2, 7. -/
def Obligations.CommandsAnswer : Prop :=
  ∀ (c : Instr) (s : State),
    (s.dev.mi.scan = false → ∃ t, exec c s = .next t ∧ t.pending = s.pending) ∧
    (s.dev.mi.scan = true → c ≠ .resetAssert → c ≠ .pwrOkFall → exec c s = .fault .scanConnected)

/-- R330, R338, R427: in OFF nothing comes about but by reset, the fall of PWR_OK, the release of reset and
PCIE_PERST_B. The model's choices that clauses rest on: log entry 2. -/
def Obligations.OffHolds : Prop :=
  ∀ (c : Instr) (s : State), s.dev.stage = .off → s.dev.mi.scan = false → s.Inv →
    c ≠ .resetAssert → c ≠ .pwrOkFall → (∀ temps, c ≠ .resetRelease temps) →
    (∀ speed width, c ≠ .pciePerstRelease speed width) → c ≠ .pciePerstAssert → exec c s = .next s

/-- R327: SAFE is left only through OFF, by reset. The model's choices that clauses rest on: log entries 2, 7. -/
def Obligations.SafeIsLeftThroughOff : Prop :=
  ∀ (c : Instr) (s t : State), s.dev.stage = .safe → exec c s = .next t →
    t.dev.stage = .safe ∨ (t.dev.stage = .off ∧ (c = .resetAssert ∨ c = .pwrOkFall))
end

