-- ==== Sys2Proof/Laws/Store.lean ====
section
/-! SUPPORT. The laws of the sparse stores: what is put is got, nothing else changes, and the canonical form is kept. -/

namespace Sys2Proof.Machine

variable {α : Type}

theorem sGet_sDel_same (dflt : α) (m : Sparse α) (k : Nat) : sGet dflt (sDel m k) k = dflt := by
  induction m with
  | nil => rfl
  | cons e m ih =>
    obtain ⟨j, v⟩ := e
    by_cases h : j = k
    · simpa [sDel, h] using ih
    · have : k ≠ j := fun e => h e.symm
      simpa [sDel, sGet, h, this] using ih

theorem sGet_sDel_ne (dflt : α) (m : Sparse α) {j k : Nat} (h : j ≠ k) : sGet dflt (sDel m k) j = sGet dflt m j := by
  induction m with
  | nil => rfl
  | cons e m ih =>
    obtain ⟨i, v⟩ := e
    by_cases hi : i = k
    · subst hi
      simpa [sDel, sGet, h] using ih
    · by_cases hj : j = i
      · simp [sDel, sGet, hi, hj]
      · simpa [sDel, sGet, hi, hj] using ih

theorem sGet_sIns_same (dflt : α) (m : Sparse α) (k : Nat) (v : α) (h : ∀ e ∈ m, e.1 ≠ k) :
    sGet dflt (sIns m k v) k = v := by
  induction m with
  | nil => simp [sIns, sGet]
  | cons e m ih =>
    obtain ⟨j, x⟩ := e
    have hj : k ≠ j := fun e => h (j, x) (by simp) e.symm
    by_cases hlt : k < j
    · simp [sIns, hlt, sGet]
    · simpa [sIns, hlt, sGet, hj] using ih fun e he => h e (by simp [he])

theorem sGet_sIns_ne (dflt : α) (m : Sparse α) {j k : Nat} (v : α) (h : j ≠ k) :
    sGet dflt (sIns m k v) j = sGet dflt m j := by
  induction m with
  | nil => simp [sIns, sGet, h]
  | cons e m ih =>
    obtain ⟨i, x⟩ := e
    by_cases hlt : k < i
    · simp [sIns, hlt, sGet, h]
    · by_cases hj : j = i
      · simp [sIns, hlt, sGet, hj]
      · simpa [sIns, hlt, sGet, hj] using ih

/-- A store reads a key just put as the value put. -/
@[simp] theorem sGet_sPut_same [DecidableEq α] (dflt : α) (m : Sparse α) (k : Nat) (v : α) :
    sGet dflt (sPut dflt m k v) k = v := by
  unfold sPut
  split
  · next h => rw [sGet_sDel_same, h]
  · exact sGet_sIns_same _ _ _ _ fun e he => by simpa using (List.mem_filter.mp he).2

/-- Putting a key leaves every other key. -/
theorem sGet_sPut_ne [DecidableEq α] (dflt dflt' : α) (m : Sparse α) {j k : Nat} (v : α) (h : j ≠ k) :
    sGet dflt (sPut dflt' m k v) j = sGet dflt m j := by
  unfold sPut
  split
  · exact sGet_sDel_ne _ _ h
  · rw [sGet_sIns_ne _ _ _ h, sGet_sDel_ne _ _ h]

/-! The canonical form. -/

theorem sWfFrom_mono [DecidableEq α] (dflt : Nat → α) {m : Sparse α} {lo lo' : Nat} (h : lo' ≤ lo)
    (hm : sWfFrom dflt lo m = true) : sWfFrom dflt lo' m = true := by
  cases m with
  | nil => rfl
  | cons e m =>
    obtain ⟨j, v⟩ := e
    simp only [sWfFrom, Bool.and_eq_true, decide_eq_true_eq] at hm ⊢
    exact ⟨⟨by omega, hm.1.2⟩, hm.2⟩

theorem sWfFrom_le [DecidableEq α] (dflt : Nat → α) {m : Sparse α} {lo : Nat}
    (hm : sWfFrom dflt lo m = true) : ∀ e ∈ m, lo ≤ e.1 := by
  induction m generalizing lo with
  | nil => simp
  | cons e m ih =>
    obtain ⟨j, v⟩ := e
    simp only [sWfFrom, Bool.and_eq_true, decide_eq_true_eq] at hm
    intro e he
    rcases List.mem_cons.mp he with rfl | he
    · exact hm.1.1
    · exact Nat.le_trans (by omega) (ih hm.2 e he)

theorem sWfFrom_sDel [DecidableEq α] (dflt : Nat → α) {m : Sparse α} {lo : Nat} (k : Nat)
    (hm : sWfFrom dflt lo m = true) : sWfFrom dflt lo (sDel m k) = true := by
  induction m generalizing lo with
  | nil => rfl
  | cons e m ih =>
    obtain ⟨j, v⟩ := e
    simp only [sWfFrom, Bool.and_eq_true, decide_eq_true_eq] at hm
    by_cases h : j = k
    · have := ih (lo := lo) (sWfFrom_mono dflt (by omega) hm.2)
      simpa [sDel, h] using this
    · have := ih hm.2
      simp only [sDel] at this ⊢
      simp [h, sWfFrom, hm.1.1, hm.1.2, this]

theorem sWfFrom_sIns [DecidableEq α] (dflt : Nat → α) {m : Sparse α} {lo k : Nat} {v : α} (hlo : lo ≤ k)
    (hv : v ≠ dflt k) (hk : ∀ e ∈ m, e.1 ≠ k) (hm : sWfFrom dflt lo m = true) :
    sWfFrom dflt lo (sIns m k v) = true := by
  induction m generalizing lo with
  | nil => simp [sIns, sWfFrom, hlo, hv]
  | cons e m ih =>
    obtain ⟨j, x⟩ := e
    have hj : j ≠ k := hk (j, x) (by simp)
    have hm' := hm
    simp only [sWfFrom, Bool.and_eq_true, decide_eq_true_eq] at hm
    by_cases hlt : k < j
    · simp only [sIns, hlt, if_true, sWfFrom, Bool.and_eq_true, decide_eq_true_eq]
      exact ⟨⟨hlo, hv⟩, ⟨⟨by omega, hm.1.2⟩, hm.2⟩⟩
    · have := ih (lo := j + 1) (by omega) (fun e he => hk e (by simp [he])) hm.2
      simp [sIns, hlt, sWfFrom, hm.1.1, hm.1.2, this]

/-- Putting a key keeps the canonical form. -/
theorem sWf_sPut [DecidableEq α] (dflt : Nat → α) {m : Sparse α} (k : Nat) (v : α) (hm : sWf dflt m = true) :
    sWf dflt (sPut (dflt k) m k v) = true := by
  unfold sPut
  split
  · exact sWfFrom_sDel dflt k hm
  · next h =>
    exact sWfFrom_sIns dflt (Nat.zero_le k) h (fun e he => by simpa using (List.mem_filter.mp he).2)
      (sWfFrom_sDel dflt k hm)

/-- The canonical form is canonical. -/
theorem sWf_sNorm [DecidableEq α] (dflt : Nat → α) (m : Sparse α) : sWf dflt (sNorm dflt m) = true := by
  induction m with
  | nil => rfl
  | cons e m ih => exact sWf_sPut dflt _ _ ih

/-- The canonical form reads as the store does. -/
@[simp] theorem sGet_sNorm [DecidableEq α] (dflt : Nat → α) (m : Sparse α) (k : Nat) :
    sGet (dflt k) (sNorm dflt m) k = sGet (dflt k) m k := by
  induction m with
  | nil => rfl
  | cons e m ih =>
    obtain ⟨j, v⟩ := e
    by_cases h : k = j
    · subst h
      simp [sNorm, sGet]
    · rw [show sNorm dflt ((j, v) :: m) = sPut (dflt j) (sNorm dflt m) j v from rfl, sGet_sPut_ne _ _ _ _ h, ih]
      simp [sGet, h]

theorem sGet_of_lt [DecidableEq α] (dflt : Nat → α) {m : Sparse α} {lo k : Nat} (d : α) (hm : sWfFrom dflt lo m = true)
    (h : k < lo) : sGet d m k = d := by
  induction m generalizing lo with
  | nil => rfl
  | cons e m ih =>
    obtain ⟨j, v⟩ := e
    simp only [sWfFrom, Bool.and_eq_true, decide_eq_true_eq] at hm
    have hj : k ≠ j := by omega
    simpa [sGet, hj] using ih hm.2 (by omega)

/-- Two canonical stores that read alike are one. -/
theorem sWf_ext [DecidableEq α] (dflt : Nat → α) {m m' : Sparse α} {lo : Nat} (hm : sWfFrom dflt lo m = true)
    (hm' : sWfFrom dflt lo m' = true) (h : ∀ k, sGet (dflt k) m k = sGet (dflt k) m' k) : m = m' := by
  induction m generalizing lo m' with
  | nil =>
    cases m' with
    | nil => rfl
    | cons e m' =>
      obtain ⟨j, v⟩ := e
      simp only [sWfFrom, Bool.and_eq_true, decide_eq_true_eq] at hm'
      exact absurd (by simpa [sGet] using (h j).symm) hm'.1.2
  | cons e m ih =>
    obtain ⟨j, v⟩ := e
    have hm0 := hm
    simp only [sWfFrom, Bool.and_eq_true, decide_eq_true_eq] at hm
    cases m' with
    | nil => exact absurd (by simpa [sGet] using h j) hm.1.2
    | cons e' m' =>
      obtain ⟨j', v'⟩ := e'
      have hm0' := hm'
      simp only [sWfFrom, Bool.and_eq_true, decide_eq_true_eq] at hm'
      have hjj : j = j' := by
        rcases Nat.lt_trichotomy j j' with hl | he | hl
        · have := h j
          have hn : j ≠ j' := by omega
          rw [show sGet (dflt j) ((j', v') :: m') j = dflt j by
            simpa [sGet, hn] using sGet_of_lt dflt (dflt j) hm'.2 (by omega)] at this
          exact absurd (by simpa [sGet] using this) hm.1.2
        · exact he
        · have := h j'
          have hn : j' ≠ j := by omega
          rw [show sGet (dflt j') ((j, v) :: m) j' = dflt j' by
            simpa [sGet, hn] using sGet_of_lt dflt (dflt j') hm.2 (by omega)] at this
          exact absurd (by simpa [sGet] using this.symm) hm'.1.2
      subst hjj
      have hv : v = v' := by simpa [sGet] using h j
      subst hv
      have := ih hm.2 hm'.2 fun k => by
        by_cases hk : k = j
        · subst hk
          rw [sGet_of_lt dflt _ hm.2 (by omega), sGet_of_lt dflt _ hm'.2 (by omega)]
        · simpa [sGet, hk] using h k
      rw [this]

/-- A canonical store is its own canonical form. -/
theorem sNorm_of_wf [DecidableEq α] (dflt : Nat → α) {m : Sparse α} (hm : sWf dflt m = true) : sNorm dflt m = m :=
  sWf_ext dflt (sWf_sNorm dflt m) hm fun k => sGet_sNorm dflt m k

end Sys2Proof.Machine
end

