-- ==== Sys2Proof/Laws/Regs.lean ====
section
/-! SUPPORT. The laws of registers and their fields: a field reads back what was put, other fields and other registers
are unchanged. -/

namespace Sys2Proof.Machine

/-- A bit range that lies within a register. -/
def Field.ok (f : Field) : Prop := f.lo ≤ f.hi ∧ f.hi < 32

/-- Two bit ranges without a common bit. -/
def Field.apart (f g : Field) : Prop := f.hi < g.lo ∨ g.hi < f.lo

/-- A number in three parts around a bit range. -/
theorem splitAt (x lo n : Nat) : x = (x / 2 ^ (lo + n)) * 2 ^ (lo + n) + (x / 2 ^ lo % 2 ^ n) * 2 ^ lo + x % 2 ^ lo := by
  have h1 := Nat.div_add_mod x (2 ^ lo)
  have h2 := Nat.div_add_mod (x / 2 ^ lo) (2 ^ n)
  rw [Nat.div_div_eq_div_mul, ← Nat.pow_add] at h2
  have h3 : (2 : Nat) ^ (lo + n) = 2 ^ lo * 2 ^ n := Nat.pow_add ..
  calc x = 2 ^ lo * (x / 2 ^ lo) + x % 2 ^ lo := h1.symm
    _ = 2 ^ lo * (2 ^ n * (x / 2 ^ (lo + n)) + x / 2 ^ lo % 2 ^ n) + x % 2 ^ lo := by rw [h2]
    _ = _ := by rw [h3]; ring

/-- The number that a word with a field replaced holds. -/
theorem putField_toNat (w : Word) (f : Field) (v : Nat) (hf : f.ok) :
    (putField w f v).toNat = (w.toNat / 2 ^ (f.lo + (f.hi + 1 - f.lo))) * 2 ^ (f.lo + (f.hi + 1 - f.lo)) +
      (v % 2 ^ (f.hi + 1 - f.lo)) * 2 ^ f.lo + w.toNat % 2 ^ f.lo := by
  obtain ⟨h1, h2⟩ := hf
  generalize hn : f.hi + 1 - f.lo = n
  have hw := splitAt w.toNat f.lo n
  have hlt : w.toNat < 2 ^ 32 := w.isLt
  have hv : v % 2 ^ n < 2 ^ n := Nat.mod_lt _ (Nat.two_pow_pos _)
  have hc : w.toNat % 2 ^ f.lo < 2 ^ f.lo := Nat.mod_lt _ (Nat.two_pow_pos _)
  have hA : w.toNat / 2 ^ (f.lo + n) < 2 ^ (32 - (f.lo + n)) := by
    rw [Nat.div_lt_iff_lt_mul (Nat.two_pow_pos _), ← Nat.pow_add]
    rwa [show 32 - (f.lo + n) + (f.lo + n) = 32 by omega]
  have hb : (v % 2 ^ n) * 2 ^ f.lo + w.toNat % 2 ^ f.lo < 2 ^ (f.lo + n) := by
    rw [Nat.add_comm f.lo n, Nat.pow_add]
    calc (v % 2 ^ n) * 2 ^ f.lo + w.toNat % 2 ^ f.lo < (v % 2 ^ n) * 2 ^ f.lo + 2 ^ f.lo := by omega
      _ = (v % 2 ^ n + 1) * 2 ^ f.lo := by ring
      _ ≤ 2 ^ n * 2 ^ f.lo := Nat.mul_le_mul_right _ hv
  have hX : (w.toNat / 2 ^ (f.lo + n)) * 2 ^ (f.lo + n) + (v % 2 ^ n) * 2 ^ f.lo + w.toNat % 2 ^ f.lo < 2 ^ 32 := by
    calc _ = (w.toNat / 2 ^ (f.lo + n)) * 2 ^ (f.lo + n) + ((v % 2 ^ n) * 2 ^ f.lo + w.toNat % 2 ^ f.lo) := by omega
      _ < (w.toNat / 2 ^ (f.lo + n)) * 2 ^ (f.lo + n) + 2 ^ (f.lo + n) := by omega
      _ = (w.toNat / 2 ^ (f.lo + n) + 1) * 2 ^ (f.lo + n) := by ring
      _ ≤ 2 ^ (32 - (f.lo + n)) * 2 ^ (f.lo + n) := Nat.mul_le_mul_right _ hA
      _ = 2 ^ 32 := by rw [← Nat.pow_add, show 32 - (f.lo + n) + (f.lo + n) = 32 by omega]
  unfold putField getField
  simp only [hn, BitVec.toNat_ofNat, Nat.shiftRight_eq_div_pow]
  rw [Nat.mod_eq_of_lt]
  · omega
  · omega

/-- A field reads back what was put, reduced to its width. -/
theorem getField_putField_same (w : Word) (f : Field) (v : Nat) (hf : f.ok) :
    getField (putField w f v) f = v % 2 ^ (f.hi + 1 - f.lo) := by
  have h := putField_toNat w f v hf
  unfold getField
  generalize f.hi + 1 - f.lo = n at h ⊢
  have hc : w.toNat % 2 ^ f.lo < 2 ^ f.lo := Nat.mod_lt _ (Nat.two_pow_pos _)
  have h3 : (2 : Nat) ^ (f.lo + n) = 2 ^ n * 2 ^ f.lo := by rw [Nat.add_comm, Nat.pow_add]
  rw [h, Nat.shiftRight_eq_div_pow, h3, ← Nat.mul_assoc, ← Nat.add_mul,
    Nat.add_comm, Nat.add_mul_div_right _ _ (Nat.two_pow_pos _), Nat.div_eq_of_lt hc, Nat.zero_add, Nat.add_comm,
    Nat.add_mul_mod_self_right, Nat.mod_mod]

/-- A field apart from the one put reads as before. -/
theorem getField_putField_apart (w : Word) (f g : Field) (v : Nat) (hf : f.ok) (hg : g.ok) (h : f.apart g) :
    getField (putField w f v) g = getField w g := by
  have hX := putField_toNat w f v hf
  have hw := splitAt w.toNat f.lo (f.hi + 1 - f.lo)
  unfold getField
  obtain ⟨f1, f2⟩ := hf
  obtain ⟨g1, g2⟩ := hg
  have hv : v % 2 ^ (f.hi + 1 - f.lo) < 2 ^ (f.hi + 1 - f.lo) := Nat.mod_lt _ (Nat.two_pow_pos _)
  generalize hn : f.hi + 1 - f.lo = n at hX hw hv
  generalize (putField w f v).toNat = X at hX
  have hc : w.toNat % 2 ^ f.lo < 2 ^ f.lo := Nat.mod_lt _ (Nat.two_pow_pos _)
  rcases h with h | h
  · have hA : X / 2 ^ (f.lo + n) = w.toNat / 2 ^ (f.lo + n) := by
      have hb : (v % 2 ^ n) * 2 ^ f.lo + w.toNat % 2 ^ f.lo < 2 ^ (f.lo + n) := by
        rw [Nat.add_comm f.lo n, Nat.pow_add]
        calc (v % 2 ^ n) * 2 ^ f.lo + w.toNat % 2 ^ f.lo < (v % 2 ^ n) * 2 ^ f.lo + 2 ^ f.lo := by omega
          _ = (v % 2 ^ n + 1) * 2 ^ f.lo := by ring
          _ ≤ 2 ^ n * 2 ^ f.lo := Nat.mul_le_mul_right _ hv
      rw [hX, Nat.add_assoc, Nat.add_comm, Nat.add_mul_div_right _ _ (Nat.two_pow_pos _), Nat.div_eq_of_lt hb,
        Nat.zero_add]
    have e : g.lo = (f.lo + n) + (g.lo - (f.lo + n)) := by omega
    rw [Nat.shiftRight_eq_div_pow, Nat.shiftRight_eq_div_pow, e, Nat.pow_add, ← Nat.div_div_eq_div_mul,
      ← Nat.div_div_eq_div_mul, hA]
  · have hm : X % 2 ^ f.lo = w.toNat % 2 ^ f.lo := by
      have h3 : (2 : Nat) ^ (f.lo + n) = 2 ^ n * 2 ^ f.lo := by rw [Nat.add_comm, Nat.pow_add]
      rw [hX, h3, ← Nat.mul_assoc, ← Nat.add_mul, Nat.add_comm, Nat.add_mul_mod_self_right, Nat.mod_mod]
    have e : g.lo + (g.hi + 1 - g.lo) ≤ f.lo := by omega
    have hd : (2 : Nat) ^ (g.lo + (g.hi + 1 - g.lo)) ∣ 2 ^ f.lo := Nat.pow_dvd_pow 2 e
    have hm' : X % 2 ^ (g.lo + (g.hi + 1 - g.lo)) = w.toNat % 2 ^ (g.lo + (g.hi + 1 - g.lo)) := by
      rw [← Nat.mod_mod_of_dvd X hd, hm, Nat.mod_mod_of_dvd _ hd]
    have key (x : Nat) : x / 2 ^ g.lo % 2 ^ (g.hi + 1 - g.lo) = x % 2 ^ (g.lo + (g.hi + 1 - g.lo)) / 2 ^ g.lo := by
      rw [Nat.pow_add, Nat.mod_mul_right_div_self]
    rw [Nat.shiftRight_eq_div_pow, Nat.shiftRight_eq_div_pow, key, key, hm']

/-- Putting what a field holds changes nothing. -/
theorem putField_getField (w : Word) (f : Field) (hf : f.ok) : putField w f (getField w f) = w := by
  apply BitVec.eq_of_toNat_eq
  rw [putField_toNat w f _ hf]
  unfold getField
  rw [Nat.mod_mod, Nat.shiftRight_eq_div_pow]
  exact (splitAt w.toNat f.lo _).symm

/-! Registers. -/

@[simp] theorem Dev.reg_setReg_same (d : Dev) (o : Nat) (w : Word) : (d.setReg o w).reg o = w := by
  simp [Dev.reg, Dev.setReg]

theorem Dev.reg_setReg_ne (d : Dev) {o o' : Nat} (w : Word) (h : o' ≠ o) : (d.setReg o w).reg o' = d.reg o' := by
  simp [Dev.reg, Dev.setReg, sGet_sPut_ne _ _ _ _ h]

/-- What a register reads after a write of one register. -/
theorem Dev.reg_setReg (d : Dev) (o o' : Nat) (w : Word) :
    (d.setReg o w).reg o' = if o' = o then w else d.reg o' := by
  split
  · next h => subst h; simp
  · next h => exact d.reg_setReg_ne w h

theorem Dev.reg_setFld (d : Dev) (o o' : Nat) (f : Field) (v : Nat) :
    (d.setFld o f v).reg o' = if o' = o then putField (d.reg o) f v else d.reg o' := d.reg_setReg ..

theorem Dev.reg_setFld_ne (d : Dev) {o o' : Nat} (f : Field) (v : Nat) (h : o' ≠ o) :
    (d.setFld o f v).reg o' = d.reg o' := d.reg_setReg_ne _ h

theorem Dev.fld_setFld_same (d : Dev) (o : Nat) (f : Field) (v : Nat) (hf : f.ok) :
    (d.setFld o f v).fld o f = v % 2 ^ (f.hi + 1 - f.lo) := by
  simp [Dev.fld, Dev.setFld, getField_putField_same _ _ _ hf]

theorem Dev.fld_setFld_apart (d : Dev) (o : Nat) (f g : Field) (v : Nat) (hf : f.ok) (hg : g.ok) (h : f.apart g) :
    (d.setFld o f v).fld o g = d.fld o g := by
  simp [Dev.fld, Dev.setFld, getField_putField_apart _ _ _ _ hf hg h]

theorem Dev.fld_setFld_ne (d : Dev) {o o' : Nat} (f g : Field) (v : Nat) (h : o' ≠ o) :
    (d.setFld o f v).fld o' g = d.fld o' g := by
  simp [Dev.fld, d.reg_setFld_ne f v h]

theorem Dev.fld_setReg_ne (d : Dev) {o o' : Nat} (w : Word) (g : Field) (h : o' ≠ o) :
    (d.setReg o w).fld o' g = d.fld o' g := by
  simp [Dev.fld, d.reg_setReg_ne w h]

end Sys2Proof.Machine
end

