-- ==== Sys2Proof/Laws/State.lean ====
section
/-! SUPPORT. One lemma per field per update of the device, each true by unfolding, so that no later proof unfolds a record update: the
register write, the field write, and what leaves the device. -/

namespace Sys2Proof.Machine

/-! A register write changes the register store only. -/

@[simp] theorem Dev.setReg_stage (d : Dev) (o : Nat) (w : Word) : (d.setReg o w).stage = d.stage := rfl
@[simp] theorem Dev.setReg_safeCause (d : Dev) (o : Nat) (w : Word) : (d.setReg o w).safeCause = d.safeCause := rfl
@[simp] theorem Dev.setReg_fireStep (d : Dev) (o : Nat) (w : Word) : (d.setReg o w).fireStep = d.fireStep := rfl
@[simp] theorem Dev.setReg_glazeWait (d : Dev) (o : Nat) (w : Word) : (d.setReg o w).glazeWait = d.glazeWait := rfl
@[simp] theorem Dev.setReg_load (d : Dev) (o : Nat) (w : Word) : (d.setReg o w).load = d.load := rfl
@[simp] theorem Dev.setReg_latch (d : Dev) (o : Nat) (w : Word) : (d.setReg o w).latch = d.latch := rfl
@[simp] theorem Dev.setReg_pins (d : Dev) (o : Nat) (w : Word) : (d.setReg o w).pins = d.pins := rfl
@[simp] theorem Dev.setReg_ticks (d : Dev) (o : Nat) (w : Word) : (d.setReg o w).ticks = d.ticks := rfl
@[simp] theorem Dev.setReg_free (d : Dev) (o : Nat) (w : Word) : (d.setReg o w).free = d.free := rfl
@[simp] theorem Dev.setReg_out (d : Dev) (o : Nat) (w : Word) : (d.setReg o w).out = d.out := rfl
@[simp] theorem Dev.setReg_klogQueue (d : Dev) (o : Nat) (w : Word) : (d.setReg o w).klogQueue = d.klogQueue := rfl
@[simp] theorem Dev.setReg_curReading (d : Dev) (o : Nat) (w : Word) : (d.setReg o w).curReading = d.curReading := rfl
@[simp] theorem Dev.setReg_nv (d : Dev) (o : Nat) (w : Word) : (d.setReg o w).nv = d.nv := rfl
@[simp] theorem Dev.setReg_hr (d : Dev) (o : Nat) (w : Word) : (d.setReg o w).hr = d.hr := rfl
@[simp] theorem Dev.setReg_ck (d : Dev) (o : Nat) (w : Word) : (d.setReg o w).ck = d.ck := rfl
@[simp] theorem Dev.setReg_tc (d : Dev) (o : Nat) (w : Word) : (d.setReg o w).tc = d.tc := rfl
@[simp] theorem Dev.setReg_chans (d : Dev) (o : Nat) (w : Word) : (d.setReg o w).chans = d.chans := rfl
@[simp] theorem Dev.setReg_ec (d : Dev) (o : Nat) (w : Word) : (d.setReg o w).ec = d.ec := rfl
@[simp] theorem Dev.setReg_tg (d : Dev) (o : Nat) (w : Word) : (d.setReg o w).tg = d.tg := rfl
@[simp] theorem Dev.setReg_mi (d : Dev) (o : Nat) (w : Word) : (d.setReg o w).mi = d.mi := rfl
@[simp] theorem Dev.setReg_ca (d : Dev) (o : Nat) (w : Word) : (d.setReg o w).ca = d.ca := rfl
@[simp] theorem Dev.setReg_pc (d : Dev) (o : Nat) (w : Word) : (d.setReg o w).pc = d.pc := rfl
@[simp] theorem Dev.setReg_ps (d : Dev) (o : Nat) (w : Word) : (d.setReg o w).ps = d.ps := rfl
@[simp] theorem Dev.setReg_en (d : Dev) (o : Nat) (w : Word) : (d.setReg o w).en = d.en := rfl
@[simp] theorem Dev.setReg_lanes (d : Dev) (o : Nat) (w : Word) : (d.setReg o w).lanes = d.lanes := rfl
@[simp] theorem Dev.setReg_ports (d : Dev) (o : Nat) (w : Word) : (d.setReg o w).ports = d.ports := rfl
@[simp] theorem Dev.setReg_sw (d : Dev) (o : Nat) (w : Word) : (d.setReg o w).sw = d.sw := rfl
@[simp] theorem Dev.setReg_cl (d : Dev) (o : Nat) (w : Word) : (d.setReg o w).cl = d.cl := rfl
@[simp] theorem Dev.setReg_pl (d : Dev) (o : Nat) (w : Word) : (d.setReg o w).pl = d.pl := rfl

@[simp] theorem Dev.setFld_stage (d : Dev) (o : Nat) (f : Field) (v : Nat) : (d.setFld o f v).stage = d.stage := rfl
@[simp] theorem Dev.setFld_safeCause (d : Dev) (o : Nat) (f : Field) (v : Nat) : (d.setFld o f v).safeCause = d.safeCause := rfl
@[simp] theorem Dev.setFld_fireStep (d : Dev) (o : Nat) (f : Field) (v : Nat) : (d.setFld o f v).fireStep = d.fireStep := rfl
@[simp] theorem Dev.setFld_glazeWait (d : Dev) (o : Nat) (f : Field) (v : Nat) : (d.setFld o f v).glazeWait = d.glazeWait := rfl
@[simp] theorem Dev.setFld_load (d : Dev) (o : Nat) (f : Field) (v : Nat) : (d.setFld o f v).load = d.load := rfl
@[simp] theorem Dev.setFld_latch (d : Dev) (o : Nat) (f : Field) (v : Nat) : (d.setFld o f v).latch = d.latch := rfl
@[simp] theorem Dev.setFld_pins (d : Dev) (o : Nat) (f : Field) (v : Nat) : (d.setFld o f v).pins = d.pins := rfl
@[simp] theorem Dev.setFld_ticks (d : Dev) (o : Nat) (f : Field) (v : Nat) : (d.setFld o f v).ticks = d.ticks := rfl
@[simp] theorem Dev.setFld_free (d : Dev) (o : Nat) (f : Field) (v : Nat) : (d.setFld o f v).free = d.free := rfl
@[simp] theorem Dev.setFld_out (d : Dev) (o : Nat) (f : Field) (v : Nat) : (d.setFld o f v).out = d.out := rfl
@[simp] theorem Dev.setFld_klogQueue (d : Dev) (o : Nat) (f : Field) (v : Nat) : (d.setFld o f v).klogQueue = d.klogQueue := rfl
@[simp] theorem Dev.setFld_curReading (d : Dev) (o : Nat) (f : Field) (v : Nat) : (d.setFld o f v).curReading = d.curReading := rfl
@[simp] theorem Dev.setFld_nv (d : Dev) (o : Nat) (f : Field) (v : Nat) : (d.setFld o f v).nv = d.nv := rfl
@[simp] theorem Dev.setFld_hr (d : Dev) (o : Nat) (f : Field) (v : Nat) : (d.setFld o f v).hr = d.hr := rfl
@[simp] theorem Dev.setFld_ck (d : Dev) (o : Nat) (f : Field) (v : Nat) : (d.setFld o f v).ck = d.ck := rfl
@[simp] theorem Dev.setFld_tc (d : Dev) (o : Nat) (f : Field) (v : Nat) : (d.setFld o f v).tc = d.tc := rfl
@[simp] theorem Dev.setFld_chans (d : Dev) (o : Nat) (f : Field) (v : Nat) : (d.setFld o f v).chans = d.chans := rfl
@[simp] theorem Dev.setFld_ec (d : Dev) (o : Nat) (f : Field) (v : Nat) : (d.setFld o f v).ec = d.ec := rfl
@[simp] theorem Dev.setFld_tg (d : Dev) (o : Nat) (f : Field) (v : Nat) : (d.setFld o f v).tg = d.tg := rfl
@[simp] theorem Dev.setFld_mi (d : Dev) (o : Nat) (f : Field) (v : Nat) : (d.setFld o f v).mi = d.mi := rfl
@[simp] theorem Dev.setFld_ca (d : Dev) (o : Nat) (f : Field) (v : Nat) : (d.setFld o f v).ca = d.ca := rfl
@[simp] theorem Dev.setFld_pc (d : Dev) (o : Nat) (f : Field) (v : Nat) : (d.setFld o f v).pc = d.pc := rfl
@[simp] theorem Dev.setFld_ps (d : Dev) (o : Nat) (f : Field) (v : Nat) : (d.setFld o f v).ps = d.ps := rfl
@[simp] theorem Dev.setFld_en (d : Dev) (o : Nat) (f : Field) (v : Nat) : (d.setFld o f v).en = d.en := rfl
@[simp] theorem Dev.setFld_lanes (d : Dev) (o : Nat) (f : Field) (v : Nat) : (d.setFld o f v).lanes = d.lanes := rfl
@[simp] theorem Dev.setFld_ports (d : Dev) (o : Nat) (f : Field) (v : Nat) : (d.setFld o f v).ports = d.ports := rfl
@[simp] theorem Dev.setFld_sw (d : Dev) (o : Nat) (f : Field) (v : Nat) : (d.setFld o f v).sw = d.sw := rfl
@[simp] theorem Dev.setFld_cl (d : Dev) (o : Nat) (f : Field) (v : Nat) : (d.setFld o f v).cl = d.cl := rfl
@[simp] theorem Dev.setFld_pl (d : Dev) (o : Nat) (f : Field) (v : Nat) : (d.setFld o f v).pl = d.pl := rfl

/-! What leaves the device is noted only. -/

@[simp] theorem Dev.emit_stage (d : Dev) (o : Out) : (d.emit o).stage = d.stage := rfl
@[simp] theorem Dev.emit_safeCause (d : Dev) (o : Out) : (d.emit o).safeCause = d.safeCause := rfl
@[simp] theorem Dev.emit_fireStep (d : Dev) (o : Out) : (d.emit o).fireStep = d.fireStep := rfl
@[simp] theorem Dev.emit_glazeWait (d : Dev) (o : Out) : (d.emit o).glazeWait = d.glazeWait := rfl
@[simp] theorem Dev.emit_load (d : Dev) (o : Out) : (d.emit o).load = d.load := rfl
@[simp] theorem Dev.emit_regs (d : Dev) (o : Out) : (d.emit o).regs = d.regs := rfl
@[simp] theorem Dev.emit_latch (d : Dev) (o : Out) : (d.emit o).latch = d.latch := rfl
@[simp] theorem Dev.emit_pins (d : Dev) (o : Out) : (d.emit o).pins = d.pins := rfl
@[simp] theorem Dev.emit_ticks (d : Dev) (o : Out) : (d.emit o).ticks = d.ticks := rfl
@[simp] theorem Dev.emit_free (d : Dev) (o : Out) : (d.emit o).free = d.free := rfl
@[simp] theorem Dev.emit_klogQueue (d : Dev) (o : Out) : (d.emit o).klogQueue = d.klogQueue := rfl
@[simp] theorem Dev.emit_curReading (d : Dev) (o : Out) : (d.emit o).curReading = d.curReading := rfl
@[simp] theorem Dev.emit_nv (d : Dev) (o : Out) : (d.emit o).nv = d.nv := rfl
@[simp] theorem Dev.emit_hr (d : Dev) (o : Out) : (d.emit o).hr = d.hr := rfl
@[simp] theorem Dev.emit_ck (d : Dev) (o : Out) : (d.emit o).ck = d.ck := rfl
@[simp] theorem Dev.emit_tc (d : Dev) (o : Out) : (d.emit o).tc = d.tc := rfl
@[simp] theorem Dev.emit_chans (d : Dev) (o : Out) : (d.emit o).chans = d.chans := rfl
@[simp] theorem Dev.emit_ec (d : Dev) (o : Out) : (d.emit o).ec = d.ec := rfl
@[simp] theorem Dev.emit_tg (d : Dev) (o : Out) : (d.emit o).tg = d.tg := rfl
@[simp] theorem Dev.emit_mi (d : Dev) (o : Out) : (d.emit o).mi = d.mi := rfl
@[simp] theorem Dev.emit_ca (d : Dev) (o : Out) : (d.emit o).ca = d.ca := rfl
@[simp] theorem Dev.emit_pc (d : Dev) (o : Out) : (d.emit o).pc = d.pc := rfl
@[simp] theorem Dev.emit_ps (d : Dev) (o : Out) : (d.emit o).ps = d.ps := rfl
@[simp] theorem Dev.emit_en (d : Dev) (o : Out) : (d.emit o).en = d.en := rfl
@[simp] theorem Dev.emit_lanes (d : Dev) (o : Out) : (d.emit o).lanes = d.lanes := rfl
@[simp] theorem Dev.emit_ports (d : Dev) (o : Out) : (d.emit o).ports = d.ports := rfl
@[simp] theorem Dev.emit_sw (d : Dev) (o : Out) : (d.emit o).sw = d.sw := rfl
@[simp] theorem Dev.emit_cl (d : Dev) (o : Out) : (d.emit o).cl = d.cl := rfl
@[simp] theorem Dev.emit_pl (d : Dev) (o : Out) : (d.emit o).pl = d.pl := rfl

end Sys2Proof.Machine
end

