-- ==== Sys2Proof/Laws/Ops.lean ====
section
/-! SUPPORT. What the named operations leave alone: the alarms, the messages, the end of a command; and when a command answers a next
state. -/

namespace Sys2Proof.Machine

/-! An alarm changes its flag and the messages owed. -/

@[simp] theorem Dev.raise_stage (d : Dev) (o : Nat) (f : Field) : (d.raise o f).stage = d.stage := by
  unfold Dev.raise; split; · rfl
  · dsimp only; split; · rfl
    · split <;> rfl
@[simp] theorem Dev.raise_safeCause (d : Dev) (o : Nat) (f : Field) : (d.raise o f).safeCause = d.safeCause := by
  unfold Dev.raise; split; · rfl
  · dsimp only; split; · rfl
    · split <;> rfl
@[simp] theorem Dev.raise_fireStep (d : Dev) (o : Nat) (f : Field) : (d.raise o f).fireStep = d.fireStep := by
  unfold Dev.raise; split; · rfl
  · dsimp only; split; · rfl
    · split <;> rfl
@[simp] theorem Dev.raise_glazeWait (d : Dev) (o : Nat) (f : Field) : (d.raise o f).glazeWait = d.glazeWait := by
  unfold Dev.raise; split; · rfl
  · dsimp only; split; · rfl
    · split <;> rfl
@[simp] theorem Dev.raise_load (d : Dev) (o : Nat) (f : Field) : (d.raise o f).load = d.load := by
  unfold Dev.raise; split; · rfl
  · dsimp only; split; · rfl
    · split <;> rfl
@[simp] theorem Dev.raise_latch (d : Dev) (o : Nat) (f : Field) : (d.raise o f).latch = d.latch := by
  unfold Dev.raise; split; · rfl
  · dsimp only; split; · rfl
    · split <;> rfl
@[simp] theorem Dev.raise_pins (d : Dev) (o : Nat) (f : Field) : (d.raise o f).pins = d.pins := by
  unfold Dev.raise; split; · rfl
  · dsimp only; split; · rfl
    · split <;> rfl
@[simp] theorem Dev.raise_ticks (d : Dev) (o : Nat) (f : Field) : (d.raise o f).ticks = d.ticks := by
  unfold Dev.raise; split; · rfl
  · dsimp only; split; · rfl
    · split <;> rfl
@[simp] theorem Dev.raise_free (d : Dev) (o : Nat) (f : Field) : (d.raise o f).free = d.free := by
  unfold Dev.raise; split; · rfl
  · dsimp only; split; · rfl
    · split <;> rfl
@[simp] theorem Dev.raise_out (d : Dev) (o : Nat) (f : Field) : (d.raise o f).out = d.out := by
  unfold Dev.raise; split; · rfl
  · dsimp only; split; · rfl
    · split <;> rfl
@[simp] theorem Dev.raise_klogQueue (d : Dev) (o : Nat) (f : Field) : (d.raise o f).klogQueue = d.klogQueue := by
  unfold Dev.raise; split; · rfl
  · dsimp only; split; · rfl
    · split <;> rfl
@[simp] theorem Dev.raise_curReading (d : Dev) (o : Nat) (f : Field) : (d.raise o f).curReading = d.curReading := by
  unfold Dev.raise; split; · rfl
  · dsimp only; split; · rfl
    · split <;> rfl
@[simp] theorem Dev.raise_nv (d : Dev) (o : Nat) (f : Field) : (d.raise o f).nv = d.nv := by
  unfold Dev.raise; split; · rfl
  · dsimp only; split; · rfl
    · split <;> rfl
@[simp] theorem Dev.raise_ck (d : Dev) (o : Nat) (f : Field) : (d.raise o f).ck = d.ck := by
  unfold Dev.raise; split; · rfl
  · dsimp only; split; · rfl
    · split <;> rfl
@[simp] theorem Dev.raise_tc (d : Dev) (o : Nat) (f : Field) : (d.raise o f).tc = d.tc := by
  unfold Dev.raise; split; · rfl
  · dsimp only; split; · rfl
    · split <;> rfl
@[simp] theorem Dev.raise_chans (d : Dev) (o : Nat) (f : Field) : (d.raise o f).chans = d.chans := by
  unfold Dev.raise; split; · rfl
  · dsimp only; split; · rfl
    · split <;> rfl
@[simp] theorem Dev.raise_ec (d : Dev) (o : Nat) (f : Field) : (d.raise o f).ec = d.ec := by
  unfold Dev.raise; split; · rfl
  · dsimp only; split; · rfl
    · split <;> rfl
@[simp] theorem Dev.raise_tg (d : Dev) (o : Nat) (f : Field) : (d.raise o f).tg = d.tg := by
  unfold Dev.raise; split; · rfl
  · dsimp only; split; · rfl
    · split <;> rfl
@[simp] theorem Dev.raise_mi (d : Dev) (o : Nat) (f : Field) : (d.raise o f).mi = d.mi := by
  unfold Dev.raise; split; · rfl
  · dsimp only; split; · rfl
    · split <;> rfl
@[simp] theorem Dev.raise_ca (d : Dev) (o : Nat) (f : Field) : (d.raise o f).ca = d.ca := by
  unfold Dev.raise; split; · rfl
  · dsimp only; split; · rfl
    · split <;> rfl
@[simp] theorem Dev.raise_pc (d : Dev) (o : Nat) (f : Field) : (d.raise o f).pc = d.pc := by
  unfold Dev.raise; split; · rfl
  · dsimp only; split; · rfl
    · split <;> rfl
@[simp] theorem Dev.raise_ps (d : Dev) (o : Nat) (f : Field) : (d.raise o f).ps = d.ps := by
  unfold Dev.raise; split; · rfl
  · dsimp only; split; · rfl
    · split <;> rfl
@[simp] theorem Dev.raise_en (d : Dev) (o : Nat) (f : Field) : (d.raise o f).en = d.en := by
  unfold Dev.raise; split; · rfl
  · dsimp only; split; · rfl
    · split <;> rfl
@[simp] theorem Dev.raise_lanes (d : Dev) (o : Nat) (f : Field) : (d.raise o f).lanes = d.lanes := by
  unfold Dev.raise; split; · rfl
  · dsimp only; split; · rfl
    · split <;> rfl
@[simp] theorem Dev.raise_ports (d : Dev) (o : Nat) (f : Field) : (d.raise o f).ports = d.ports := by
  unfold Dev.raise; split; · rfl
  · dsimp only; split; · rfl
    · split <;> rfl
@[simp] theorem Dev.raise_sw (d : Dev) (o : Nat) (f : Field) : (d.raise o f).sw = d.sw := by
  unfold Dev.raise; split; · rfl
  · dsimp only; split; · rfl
    · split <;> rfl
@[simp] theorem Dev.raise_cl (d : Dev) (o : Nat) (f : Field) : (d.raise o f).cl = d.cl := by
  unfold Dev.raise; split; · rfl
  · dsimp only; split; · rfl
    · split <;> rfl
@[simp] theorem Dev.raise_pl (d : Dev) (o : Nat) (f : Field) : (d.raise o f).pl = d.pl := by
  unfold Dev.raise; split; · rfl
  · dsimp only; split; · rfl
    · split <;> rfl

/-! A message of a vector changes the pending set or what has left the device. -/

@[simp] theorem Dev.message_stage (d : Dev) (v : Nat) : (d.message v).stage = d.stage := by
  unfold Dev.message; split <;> rfl
@[simp] theorem Dev.message_safeCause (d : Dev) (v : Nat) : (d.message v).safeCause = d.safeCause := by
  unfold Dev.message; split <;> rfl
@[simp] theorem Dev.message_fireStep (d : Dev) (v : Nat) : (d.message v).fireStep = d.fireStep := by
  unfold Dev.message; split <;> rfl
@[simp] theorem Dev.message_glazeWait (d : Dev) (v : Nat) : (d.message v).glazeWait = d.glazeWait := by
  unfold Dev.message; split <;> rfl
@[simp] theorem Dev.message_load (d : Dev) (v : Nat) : (d.message v).load = d.load := by
  unfold Dev.message; split <;> rfl
@[simp] theorem Dev.message_regs (d : Dev) (v : Nat) : (d.message v).regs = d.regs := by
  unfold Dev.message; split <;> rfl
@[simp] theorem Dev.message_latch (d : Dev) (v : Nat) : (d.message v).latch = d.latch := by
  unfold Dev.message; split <;> rfl
@[simp] theorem Dev.message_pins (d : Dev) (v : Nat) : (d.message v).pins = d.pins := by
  unfold Dev.message; split <;> rfl
@[simp] theorem Dev.message_ticks (d : Dev) (v : Nat) : (d.message v).ticks = d.ticks := by
  unfold Dev.message; split <;> rfl
@[simp] theorem Dev.message_free (d : Dev) (v : Nat) : (d.message v).free = d.free := by
  unfold Dev.message; split <;> rfl
@[simp] theorem Dev.message_klogQueue (d : Dev) (v : Nat) : (d.message v).klogQueue = d.klogQueue := by
  unfold Dev.message; split <;> rfl
@[simp] theorem Dev.message_curReading (d : Dev) (v : Nat) : (d.message v).curReading = d.curReading := by
  unfold Dev.message; split <;> rfl
@[simp] theorem Dev.message_nv (d : Dev) (v : Nat) : (d.message v).nv = d.nv := by
  unfold Dev.message; split <;> rfl
@[simp] theorem Dev.message_ck (d : Dev) (v : Nat) : (d.message v).ck = d.ck := by
  unfold Dev.message; split <;> rfl
@[simp] theorem Dev.message_tc (d : Dev) (v : Nat) : (d.message v).tc = d.tc := by
  unfold Dev.message; split <;> rfl
@[simp] theorem Dev.message_chans (d : Dev) (v : Nat) : (d.message v).chans = d.chans := by
  unfold Dev.message; split <;> rfl
@[simp] theorem Dev.message_ec (d : Dev) (v : Nat) : (d.message v).ec = d.ec := by
  unfold Dev.message; split <;> rfl
@[simp] theorem Dev.message_tg (d : Dev) (v : Nat) : (d.message v).tg = d.tg := by
  unfold Dev.message; split <;> rfl
@[simp] theorem Dev.message_mi (d : Dev) (v : Nat) : (d.message v).mi = d.mi := by
  unfold Dev.message; split <;> rfl
@[simp] theorem Dev.message_ca (d : Dev) (v : Nat) : (d.message v).ca = d.ca := by
  unfold Dev.message; split <;> rfl
@[simp] theorem Dev.message_pc (d : Dev) (v : Nat) : (d.message v).pc = d.pc := by
  unfold Dev.message; split <;> rfl
@[simp] theorem Dev.message_ps (d : Dev) (v : Nat) : (d.message v).ps = d.ps := by
  unfold Dev.message; split <;> rfl
@[simp] theorem Dev.message_en (d : Dev) (v : Nat) : (d.message v).en = d.en := by
  unfold Dev.message; split <;> rfl
@[simp] theorem Dev.message_lanes (d : Dev) (v : Nat) : (d.message v).lanes = d.lanes := by
  unfold Dev.message; split <;> rfl
@[simp] theorem Dev.message_ports (d : Dev) (v : Nat) : (d.message v).ports = d.ports := by
  unfold Dev.message; split <;> rfl
@[simp] theorem Dev.message_sw (d : Dev) (v : Nat) : (d.message v).sw = d.sw := by
  unfold Dev.message; split <;> rfl
@[simp] theorem Dev.message_cl (d : Dev) (v : Nat) : (d.message v).cl = d.cl := by
  unfold Dev.message; split <;> rfl
@[simp] theorem Dev.message_pl (d : Dev) (v : Nat) : (d.message v).pl = d.pl := by
  unfold Dev.message; split <;> rfl

/-! The messages that a command owes. -/

@[simp] theorem Dev.flushIrq_stage (d : Dev) : d.flushIrq.stage = d.stage := by
  unfold Dev.flushIrq; dsimp only; split <;> split <;> simp
@[simp] theorem Dev.flushIrq_safeCause (d : Dev) : d.flushIrq.safeCause = d.safeCause := by
  unfold Dev.flushIrq; dsimp only; split <;> split <;> simp
@[simp] theorem Dev.flushIrq_fireStep (d : Dev) : d.flushIrq.fireStep = d.fireStep := by
  unfold Dev.flushIrq; dsimp only; split <;> split <;> simp
@[simp] theorem Dev.flushIrq_glazeWait (d : Dev) : d.flushIrq.glazeWait = d.glazeWait := by
  unfold Dev.flushIrq; dsimp only; split <;> split <;> simp
@[simp] theorem Dev.flushIrq_load (d : Dev) : d.flushIrq.load = d.load := by
  unfold Dev.flushIrq; dsimp only; split <;> split <;> simp
@[simp] theorem Dev.flushIrq_regs (d : Dev) : d.flushIrq.regs = d.regs := by
  unfold Dev.flushIrq; dsimp only; split <;> split <;> simp
@[simp] theorem Dev.flushIrq_latch (d : Dev) : d.flushIrq.latch = d.latch := by
  unfold Dev.flushIrq; dsimp only; split <;> split <;> simp
@[simp] theorem Dev.flushIrq_pins (d : Dev) : d.flushIrq.pins = d.pins := by
  unfold Dev.flushIrq; dsimp only; split <;> split <;> simp
@[simp] theorem Dev.flushIrq_ticks (d : Dev) : d.flushIrq.ticks = d.ticks := by
  unfold Dev.flushIrq; dsimp only; split <;> split <;> simp
@[simp] theorem Dev.flushIrq_free (d : Dev) : d.flushIrq.free = d.free := by
  unfold Dev.flushIrq; dsimp only; split <;> split <;> simp
@[simp] theorem Dev.flushIrq_klogQueue (d : Dev) : d.flushIrq.klogQueue = d.klogQueue := by
  unfold Dev.flushIrq; dsimp only; split <;> split <;> simp
@[simp] theorem Dev.flushIrq_curReading (d : Dev) : d.flushIrq.curReading = d.curReading := by
  unfold Dev.flushIrq; dsimp only; split <;> split <;> simp
@[simp] theorem Dev.flushIrq_nv (d : Dev) : d.flushIrq.nv = d.nv := by
  unfold Dev.flushIrq; dsimp only; split <;> split <;> simp
@[simp] theorem Dev.flushIrq_ck (d : Dev) : d.flushIrq.ck = d.ck := by
  unfold Dev.flushIrq; dsimp only; split <;> split <;> simp
@[simp] theorem Dev.flushIrq_tc (d : Dev) : d.flushIrq.tc = d.tc := by
  unfold Dev.flushIrq; dsimp only; split <;> split <;> simp
@[simp] theorem Dev.flushIrq_chans (d : Dev) : d.flushIrq.chans = d.chans := by
  unfold Dev.flushIrq; dsimp only; split <;> split <;> simp
@[simp] theorem Dev.flushIrq_ec (d : Dev) : d.flushIrq.ec = d.ec := by
  unfold Dev.flushIrq; dsimp only; split <;> split <;> simp
@[simp] theorem Dev.flushIrq_tg (d : Dev) : d.flushIrq.tg = d.tg := by
  unfold Dev.flushIrq; dsimp only; split <;> split <;> simp
@[simp] theorem Dev.flushIrq_mi (d : Dev) : d.flushIrq.mi = d.mi := by
  unfold Dev.flushIrq; dsimp only; split <;> split <;> simp
@[simp] theorem Dev.flushIrq_ca (d : Dev) : d.flushIrq.ca = d.ca := by
  unfold Dev.flushIrq; dsimp only; split <;> split <;> simp
@[simp] theorem Dev.flushIrq_pc (d : Dev) : d.flushIrq.pc = d.pc := by
  unfold Dev.flushIrq; dsimp only; split <;> split <;> simp
@[simp] theorem Dev.flushIrq_ps (d : Dev) : d.flushIrq.ps = d.ps := by
  unfold Dev.flushIrq; dsimp only; split <;> split <;> simp
@[simp] theorem Dev.flushIrq_en (d : Dev) : d.flushIrq.en = d.en := by
  unfold Dev.flushIrq; dsimp only; split <;> split <;> simp
@[simp] theorem Dev.flushIrq_lanes (d : Dev) : d.flushIrq.lanes = d.lanes := by
  unfold Dev.flushIrq; dsimp only; split <;> split <;> simp
@[simp] theorem Dev.flushIrq_ports (d : Dev) : d.flushIrq.ports = d.ports := by
  unfold Dev.flushIrq; dsimp only; split <;> split <;> simp
@[simp] theorem Dev.flushIrq_sw (d : Dev) : d.flushIrq.sw = d.sw := by
  unfold Dev.flushIrq; dsimp only; split <;> split <;> simp
@[simp] theorem Dev.flushIrq_cl (d : Dev) : d.flushIrq.cl = d.cl := by
  unfold Dev.flushIrq; dsimp only; split <;> split <;> simp
@[simp] theorem Dev.flushIrq_pl (d : Dev) : d.flushIrq.pl = d.pl := by
  unfold Dev.flushIrq; dsimp only; split <;> split <;> simp

/-! The end of a command. -/

@[simp] theorem Dev.settle_stage (d : Dev) : d.settle.stage = d.stage := by simp [Dev.settle]
@[simp] theorem Dev.settle_safeCause (d : Dev) : d.settle.safeCause = d.safeCause := by simp [Dev.settle]
@[simp] theorem Dev.settle_fireStep (d : Dev) : d.settle.fireStep = d.fireStep := by simp [Dev.settle]
@[simp] theorem Dev.settle_glazeWait (d : Dev) : d.settle.glazeWait = d.glazeWait := by simp [Dev.settle]
@[simp] theorem Dev.settle_load (d : Dev) : d.settle.load = d.load := by simp [Dev.settle]
@[simp] theorem Dev.settle_latch (d : Dev) : d.settle.latch = d.latch := by simp [Dev.settle]
@[simp] theorem Dev.settle_pins (d : Dev) : d.settle.pins = d.pins := by simp [Dev.settle]
@[simp] theorem Dev.settle_ticks (d : Dev) : d.settle.ticks = d.ticks := by simp [Dev.settle]
@[simp] theorem Dev.settle_free (d : Dev) : d.settle.free = d.free := by simp [Dev.settle]
@[simp] theorem Dev.settle_klogQueue (d : Dev) : d.settle.klogQueue = d.klogQueue := by simp [Dev.settle]
@[simp] theorem Dev.settle_curReading (d : Dev) : d.settle.curReading = d.curReading := by simp [Dev.settle]
@[simp] theorem Dev.settle_nv (d : Dev) : d.settle.nv = d.nv := by simp [Dev.settle]
@[simp] theorem Dev.settle_ck (d : Dev) : d.settle.ck = d.ck := by simp [Dev.settle]
@[simp] theorem Dev.settle_tc (d : Dev) : d.settle.tc = d.tc := by simp [Dev.settle]
@[simp] theorem Dev.settle_chans (d : Dev) : d.settle.chans = d.chans := by simp [Dev.settle]
@[simp] theorem Dev.settle_ec (d : Dev) : d.settle.ec = d.ec := by simp [Dev.settle]
@[simp] theorem Dev.settle_tg (d : Dev) : d.settle.tg = d.tg := by simp [Dev.settle]
@[simp] theorem Dev.settle_mi (d : Dev) : d.settle.mi = d.mi := by simp [Dev.settle]
@[simp] theorem Dev.settle_ca (d : Dev) : d.settle.ca = d.ca := by simp [Dev.settle]
@[simp] theorem Dev.settle_ps (d : Dev) : d.settle.ps = d.ps := by simp [Dev.settle]
@[simp] theorem Dev.settle_en (d : Dev) : d.settle.en = d.en := by simp [Dev.settle]
@[simp] theorem Dev.settle_lanes (d : Dev) : d.settle.lanes = d.lanes := by simp [Dev.settle]
@[simp] theorem Dev.settle_ports (d : Dev) : d.settle.ports = d.ports := by simp [Dev.settle]
@[simp] theorem Dev.settle_sw (d : Dev) : d.settle.sw = d.sw := by simp [Dev.settle]
@[simp] theorem Dev.settle_cl (d : Dev) : d.settle.cl = d.cl := by simp [Dev.settle]
@[simp] theorem Dev.settle_pl (d : Dev) : d.settle.pl = d.pl := by simp [Dev.settle]

/-- A register reads the same after the end of a command. -/
@[simp] theorem Dev.reg_settle (d : Dev) (o : Nat) : d.settle.reg o = d.reg o := by
  simp [Dev.reg, Dev.settle]

@[simp] theorem Dev.fld_settle (d : Dev) (o : Nat) (f : Field) : d.settle.fld o f = d.fld o f := by simp [Dev.fld]

@[simp] theorem Dev.flag_settle (d : Dev) (o : Nat) (f : Field) : d.settle.flag o f = d.flag o f := by simp [Dev.flag]

@[simp] theorem Dev.reg_emit (d : Dev) (x : Out) (o : Nat) : (d.emit x).reg o = d.reg o := rfl

theorem Dev.message_irq64 (d : Dev) (v : Nat) : (d.message v).hr.irq64 = d.hr.irq64 := by
  unfold Dev.message; split <;> rfl

theorem Dev.message_irq65 (d : Dev) (v : Nat) : (d.message v).hr.irq65 = d.hr.irq65 := by
  unfold Dev.message; split <;> rfl

/-- No message is owed after the end of a command. -/
theorem Dev.settle_irq (d : Dev) : d.settle.hr.irq64 = false ∧ d.settle.hr.irq65 = false := by
  simp only [Dev.settle, Dev.flushIrq]
  split <;> split <;> simp_all [Dev.message_irq64, Dev.message_irq65]

/-- The addressed stores are canonical after the end of a command. -/
theorem Dev.settle_canonical (d : Dev) : sWf resetWord d.settle.regs = true ∧
    sWf msixReset d.settle.hr.msix = true ∧ sWf (fun _ => Ctr.zero) d.settle.pc.ctrs = true :=
  ⟨sWf_sNorm _ _, sWf_sNorm _ _, sWf_sNorm _ _⟩

/-- The end of a command changes nothing of a device whose stores are canonical and that owes no message. -/
theorem Dev.settle_eq (d : Dev) (hr : sWf resetWord d.regs = true) (hm : sWf msixReset d.hr.msix = true)
    (hc : sWf (fun _ => Ctr.zero) d.pc.ctrs = true) (h64 : d.hr.irq64 = false) (h65 : d.hr.irq65 = false) :
    d.settle = d := by
  have hf : d.flushIrq = d := by simp [Dev.flushIrq, h64, h65]
  simp only [Dev.settle, hf, sNorm_of_wf _ hr, sNorm_of_wf _ hm, sNorm_of_wf _ hc]

/-- What an alarm flag does to the registers: its own bit, and no other. -/
theorem Dev.reg_raise (d : Dev) (o o' : Nat) (f : Field) :
    (d.raise o f).reg o' = if o' = o ∧ d.flag o f = false then putField (d.reg o) f 1 else d.reg o' := by
  unfold Dev.raise
  by_cases h : d.flag o f = true
  · simp [h]
  · simp only [h, Bool.false_eq_true, if_false, and_true]
    have key (e : Dev) (he : e.regs = (d.setFld o f 1).regs) :
        e.reg o' = if o' = o then putField (d.reg o) f 1 else d.reg o' := by
      rw [show e.reg o' = (d.setFld o f 1).reg o' by simp [Dev.reg, he]]
      exact d.reg_setFld o o' f 1
    split
    · exact key _ rfl
    · split
      · exact key _ rfl
      · exact key _ rfl

/-! When a command answers a next state. -/

theorem always_next {s : State} {f : Dev → Dev} (h : s.dev.mi.scan = false) :
    always s f = .next { s with dev := (f s.dev).settle } := by simp [always, h]

theorem awake_next {s : State} {f : Dev → Dev} (h : s.dev.mi.scan = false) (h1 : s.dev.stage ≠ .off) :
    awake s f = .next { s with dev := (f s.dev).settle } := by simp [awake, always, h, h1]

theorem running_next {s : State} {f : Dev → Dev} (h : s.dev.mi.scan = false) (h1 : s.dev.stage ≠ .off)
    (h2 : s.dev.stage ≠ .safe) : running s f = .next { s with dev := (f s.dev).settle } := by
  simp [running, always, h, h1, h2]

/-- What a command that answers a next state has done. -/
theorem always_inv {s t : State} {f : Dev → Dev} (h : always s f = .next t) :
    s.dev.mi.scan = false ∧ t = { s with dev := (f s.dev).settle } := by
  unfold always at h
  split at h
  · cases h
  · next hs => exact ⟨by simpa using hs, by cases h; rfl⟩

end Sys2Proof.Machine
end

