-- ==== Sys2Proof/Laws/Frames.lean ====
section
/-! SUPPORT. The frames of the shared operations: how frames compose, and for each operation over registers, alarms, counters and records,
and for the ones that validity and the references go through, which units and registers it may touch. -/

namespace Sys2Proof.Machine

variable {d e f : Dev} {p q : List Part} {r t : List Nat}

theorem Dev.Frame.refl (d : Dev) (p : List Part) (r : List Nat) : d.Frame d p r := by
  refine ⟨fun u _ => ?_, fun _ _ => rfl⟩
  cases u <;> simp [Dev.SamePart]

theorem Dev.SamePart.trans {u : Part} (h : d.SamePart e u) (h' : e.SamePart f u) : d.SamePart f u := by
  cases u <;> simp only [Dev.SamePart] at * <;> simp [*]

theorem Dev.Frame.trans (h : d.Frame e p r) (h' : e.Frame f p r) : d.Frame f p r :=
  ⟨fun u hu => (h.1 u hu).trans (h'.1 u hu), fun o ho => (h'.2 o ho).trans (h.2 o ho)⟩

theorem Dev.Frame.mono (h : d.Frame e p r) (hp : p ⊆ q) (hr : r ⊆ t) : d.Frame e q t :=
  ⟨fun u hu => h.1 u fun x => hu (hp x), fun o ho => h.2 o fun x => ho (hr x)⟩

/-- A fold of steps with one frame has that frame. -/
theorem Dev.Frame.foldl {α : Type} {g : Dev → α → Dev} (hg : ∀ (d : Dev) (x : α), d.Frame (g d x) p r) (xs : List α) (d : Dev) :
    d.Frame (xs.foldl g d) p r := by
  induction xs generalizing d with
  | nil => exact .refl d p r
  | cons x xs ih => exact (hg d x).trans (ih (g d x))

/-! Registers, alarms, counters, messages. -/

theorem Dev.frame_setReg (d : Dev) {o : Nat} (w : Word) (p : List Part) (h : o ∈ r) : d.Frame (d.setReg o w) p r := by
  refine ⟨fun u _ => ?_, fun o' ho => d.reg_setReg_ne w fun e => ho (e ▸ h)⟩
  cases u <;> simp [Dev.SamePart]

theorem Dev.frame_setFld (d : Dev) {o : Nat} (f : Field) (v : Nat) (p : List Part) (h : o ∈ r) :
    d.Frame (d.setFld o f v) p r := d.frame_setReg _ p h

theorem Dev.frame_setFlag (d : Dev) {o : Nat} (f : Field) (b : Bool) (p : List Part) (h : o ∈ r) :
    d.Frame (d.setFlag o f b) p r := d.frame_setFld f _ p h

theorem Dev.frame_setSigned (d : Dev) {o : Nat} (f : Field) (v : Int) (p : List Part) (h : o ∈ r) :
    d.Frame (d.setSigned o f v) p r := d.frame_setFld f _ p h

theorem Dev.frame_addSat (d : Dev) {o : Nat} (f : Field) (n : Nat) (p : List Part) (h : o ∈ r) :
    d.Frame (d.addSat o f n) p r := d.frame_setFld f _ p h

/-- An alarm flag: its own register only. -/
theorem Dev.frame_raise (d : Dev) {o : Nat} (f : Field) (p : List Part) (h : o ∈ r) : d.Frame (d.raise o f) p r := by
  refine ⟨fun u _ => ?_, fun o' ho => ?_⟩
  · unfold Dev.raise
    cases u <;> simp only [Dev.SamePart] <;> split <;> simp [Hr.sans] <;> split <;> (try simp) <;> split <;> simp
  · rw [Dev.reg_raise, if_neg fun (x : o' = o ∧ _) => ho (x.1 ▸ h)]

/-! A unit replaced. -/

theorem Dev.frame_ck (d : Dev) (x : Ck) (r : List Nat) (h : Part.ck ∈ p) : d.Frame { d with ck := x } p r := by
  refine ⟨fun u hu => ?_, fun _ _ => rfl⟩
  cases u <;> first | exact absurd h hu | simp [Dev.SamePart]

theorem Dev.frame_tc (d : Dev) (x : Tc) (r : List Nat) (h : Part.tc ∈ p) : d.Frame { d with tc := x } p r := by
  refine ⟨fun u hu => ?_, fun _ _ => rfl⟩
  cases u <;> first | exact absurd h hu | simp [Dev.SamePart]

theorem Dev.frame_tg (d : Dev) (x : Tg) (r : List Nat) (h : Part.tg ∈ p) : d.Frame { d with tg := x } p r := by
  refine ⟨fun u hu => ?_, fun _ _ => rfl⟩
  cases u <;> first | exact absurd h hu | simp [Dev.SamePart]

theorem Dev.frame_mi (d : Dev) (x : Mi) (r : List Nat) (h : Part.mi ∈ p) : d.Frame { d with mi := x } p r := by
  refine ⟨fun u hu => ?_, fun _ _ => rfl⟩
  cases u <;> first | exact absurd h hu | simp [Dev.SamePart]

theorem Dev.frame_ca (d : Dev) (x : Ca) (r : List Nat) (h : Part.ca ∈ p) : d.Frame { d with ca := x } p r := by
  refine ⟨fun u hu => ?_, fun _ _ => rfl⟩
  cases u <;> first | exact absurd h hu | simp [Dev.SamePart]

theorem Dev.frame_ps (d : Dev) (x : Ps) (r : List Nat) (h : Part.ps ∈ p) : d.Frame { d with ps := x } p r := by
  refine ⟨fun u hu => ?_, fun _ _ => rfl⟩
  cases u <;> first | exact absurd h hu | simp [Dev.SamePart]

theorem Dev.frame_en (d : Dev) (x : Enum) (r : List Nat) (h : Part.en ∈ p) : d.Frame { d with en := x } p r := by
  refine ⟨fun u hu => ?_, fun _ _ => rfl⟩
  cases u <;> first | exact absurd h hu | simp [Dev.SamePart]

theorem Dev.frame_sw (d : Dev) (x : Sw) (r : List Nat) (h : Part.sw ∈ p) : d.Frame { d with sw := x } p r := by
  refine ⟨fun u hu => ?_, fun _ _ => rfl⟩
  cases u <;> first | exact absurd h hu | simp [Dev.SamePart]

theorem Dev.frame_cl (d : Dev) (x : Cl) (r : List Nat) (h : Part.cl ∈ p) : d.Frame { d with cl := x } p r := by
  refine ⟨fun u hu => ?_, fun _ _ => rfl⟩
  cases u <;> first | exact absurd h hu | simp [Dev.SamePart]

theorem Dev.frame_pl (d : Dev) (x : Pl) (r : List Nat) (h : Part.pl ∈ p) : d.Frame { d with pl := x } p r := by
  refine ⟨fun u hu => ?_, fun _ _ => rfl⟩
  cases u <;> first | exact absurd h hu | simp [Dev.SamePart]

theorem Dev.frame_nv (d : Dev) (x : Nv) (r : List Nat) (h : Part.nv ∈ p) : d.Frame { d with nv := x } p r := by
  refine ⟨fun u hu => ?_, fun _ _ => rfl⟩
  cases u <;> first | exact absurd h hu | simp [Dev.SamePart]

theorem Dev.frame_chans (d : Dev) (x : Sparse Chan) (r : List Nat) (h : Part.chans ∈ p) : d.Frame { d with chans := x } p r := by
  refine ⟨fun u hu => ?_, fun _ _ => rfl⟩
  cases u <;> first | exact absurd h hu | simp [Dev.SamePart]

theorem Dev.frame_lanes (d : Dev) (x : Sparse Lane) (r : List Nat) (h : Part.lanes ∈ p) : d.Frame { d with lanes := x } p r := by
  refine ⟨fun u hu => ?_, fun _ _ => rfl⟩
  cases u <;> first | exact absurd h hu | simp [Dev.SamePart]

theorem Dev.frame_ports (d : Dev) (x : Sparse Port) (r : List Nat) (h : Part.ports ∈ p) : d.Frame { d with ports := x } p r := by
  refine ⟨fun u hu => ?_, fun _ _ => rfl⟩
  cases u <;> first | exact absurd h hu | simp [Dev.SamePart]

theorem Dev.frame_klogQueue (d : Dev) (x : List (List Byte)) (r : List Nat) (h : Part.log ∈ p) :
    d.Frame { d with klogQueue := x } p r := by
  refine ⟨fun u hu => ?_, fun _ _ => rfl⟩
  cases u <;> first | exact absurd h hu | simp [Dev.SamePart]

/-! Counters, messages, records, the end of a command. -/

/-- A counter: PC_ALARM when it wraps. -/
theorem Dev.frame_count (d : Dev) (n k : Nat) (p : List Part) (h : R.PC_ALARM ∈ r) : d.Frame (d.count n k) p r := by
  have h0 (c : Sparse Ctr) : d.Frame { d with pc := { d.pc with ctrs := c } } p r := by
    refine ⟨fun u _ => ?_, fun _ _ => rfl⟩
    cases u <;> simp [Dev.SamePart, Pc.sans]
  unfold Dev.count
  simp only []
  split
  · exact (h0 _).trans (Dev.frame_raise _ _ p h)
  · exact h0 _

theorem Dev.frame_emit (d : Dev) (x : Out) (p : List Part) (r : List Nat) : d.Frame (d.emit x) p r := by
  refine ⟨fun u _ => ?_, fun _ _ => rfl⟩
  cases u <;> simp [Dev.SamePart, Dev.emit]

theorem Dev.message_hr (d : Dev) (v : Nat) : (d.message v).hr.sans = d.hr.sans := by
  unfold Dev.message; split <;> rfl

theorem Dev.flushIrq_hr (d : Dev) : d.flushIrq.hr.sans = d.hr.sans := by
  have h65 (d : Dev) : (({ d with hr := { d.hr with irq65 := false } } : Dev).message 65).hr.sans = d.hr.sans :=
    (Dev.message_hr _ _).trans rfl
  have h64 : (({ d with hr := { d.hr with irq64 := false } } : Dev).message 64).hr.sans = d.hr.sans :=
    (Dev.message_hr _ _).trans rfl
  unfold Dev.flushIrq
  simp only []
  split <;> split <;> first | exact (h65 _).trans h64 | exact h65 _ | exact h64 | rfl

/-- The end of a command: nothing that a frame speaks of. -/
theorem Dev.frame_settle (d : Dev) (p : List Part) (r : List Nat) : d.Frame d.settle p r := by
  refine ⟨fun u _ => ?_, fun o _ => Dev.reg_settle d o⟩
  cases u <;> simp [Dev.SamePart]
  · exact d.flushIrq_hr
  · simp [Dev.settle, Pc.sans]

/-- A kiln-log record: the queue, or the loss of the record. -/
theorem Dev.frame_record (d : Dev) (typ : Nat) (body : List Byte) (hp : Part.log ∈ p)
    (h : [R.ER_QLOST, R.ER_ALARM, R.PC_ALARM] ⊆ r) : d.Frame (d.record typ body) p r := by
  simp only [List.cons_subset] at h
  unfold Dev.record
  split
  · exact ((Dev.frame_addSat _ _ _ p h.1).trans (Dev.frame_raise _ _ p h.2.1)).trans (Dev.frame_count _ _ _ p h.2.2.1)
  · exact d.frame_klogQueue _ r hp

/-- The hidden state of the channels and of the edges that wait. -/
theorem Dev.frame_ec (d : Dev) (x : Ec) (r : List Nat) (h : Part.chans ∈ p) : d.Frame { d with ec := x } p r := by
  refine ⟨fun u hu => ?_, fun _ _ => rfl⟩
  cases u <;> first | exact absurd h hu | simp [Dev.SamePart]

/-! Edge channels (R175, R185, R186). -/

theorem Dev.frame_setChan (d : Dev) (c : Nat) (x : Chan) (r : List Nat) (h : Part.chans ∈ p) :
    d.Frame (d.setChan c x) p r := d.frame_chans _ r h

theorem Dev.frame_pushMark (d : Dev) (c : Nat) (x : EdgeRec) (r : List Nat) (h : Part.chans ∈ p) :
    d.Frame (d.pushMark c x) p r := by
  unfold Dev.pushMark
  simp only []
  split
  · exact (d.frame_setChan c _ r h).trans (Dev.frame_ec _ _ r h)
  · exact (d.frame_setChan c _ r h).trans (Dev.frame_setChan _ c _ r h)

theorem Dev.frame_cutRun (d : Dev) (c : Nat) (r : List Nat) (h : Part.chans ∈ p) : d.Frame (d.cutRun c) p r := by
  unfold Dev.cutRun
  simp only []
  split
  · exact .refl d p r
  · split <;> exact d.frame_setChan c _ r h

theorem Dev.frame_deadOpen (d : Dev) (c k : Nat) (r : List Nat) (h : Part.chans ∈ p) :
    d.Frame (d.deadOpen c k) p r := by
  unfold Dev.deadOpen
  simp only []
  split
  · exact .refl d p r
  · exact (d.frame_setChan c _ r h).trans (Dev.frame_pushMark _ c _ r h)

theorem Dev.frame_deadClose (d : Dev) (c k : Nat) (r : List Nat) (h : Part.chans ∈ p) :
    d.Frame (d.deadClose c k) p r := by
  unfold Dev.deadClose
  simp only []
  split
  · exact (d.frame_setChan c _ r h).trans (Dev.frame_pushMark _ c _ r h)
  · exact .refl d p r

theorem Dev.frame_countLate (d : Dev) (c : Nat) (p : List Part) (h1 : R.EC_DTC_LATE c ∈ r) (h2 : R.EC_ALARM c ∈ r)
    (h3 : R.PC_ALARM ∈ r) : d.Frame (d.countLate c) p r :=
  ((d.frame_addSat _ _ p h1).trans (Dev.frame_raise _ _ p h2)).trans (Dev.frame_count _ _ _ p h3)

theorem Dev.frame_makeDue (d : Dev) (c lead : Nat) (g : DtcEntry → Bool) (hp : Part.chans ∈ p) (h1 : R.EC_DTC_LATE c ∈ r)
    (h2 : R.EC_ALARM c ∈ r) (h3 : R.PC_ALARM ∈ r) : d.Frame (d.makeDue c lead g) p r :=
  (d.frame_setChan c _ r hp).trans (.foldl (fun d _ => d.frame_countLate c p h1 h2 h3) _ _)

theorem Dev.frame_endRun (d : Dev) (c n : Nat) (hp : Part.chans ∈ p) (h : R.PC_ALARM ∈ r) :
    d.Frame (d.endRun c n) p r := by
  unfold Dev.endRun
  simp only []
  split
  · exact .refl d p r
  · split
    · exact ((d.frame_setChan c _ r hp).trans (Dev.frame_count _ _ _ p h)).trans (Dev.frame_pushMark _ c _ r hp)
    · exact (d.frame_setChan c _ r hp).trans (Dev.frame_count _ _ _ p h)

/-- A step over all channels has the frame that it has at each of them. -/
theorem Dev.frame_forChans {g : Dev → Nat → Dev} (hg : ∀ (d : Dev) (c : Nat), c < 128 → d.Frame (g d c) p r) (d : Dev) :
    d.Frame (d.forChans g) p r := by
  have key (xs : List Nat) (hx : ∀ c ∈ xs, c < 128) (d : Dev) : d.Frame (xs.foldl g d) p r := by
    induction xs generalizing d with
    | nil => exact .refl d p r
    | cons x xs ih =>
      exact (hg d x (hx x (by simp))).trans (ih (fun c hc => hx c (by simp [hc])) _)
  exact key _ (fun c hc => List.mem_range.1 hc) d

/-! Validity (R147). -/

/-- What the operations of validity need of a list of registers. -/
structure ValidRegs (r : List Nat) : Prop where
  status : R.TC_STATUS ∈ r
  alarm  : R.TC_ALARM ∈ r
  ca     : R.CA_STATUS ∈ r
  caAl   : R.CA_ALARM ∈ r
  tgAl   : R.TG_ALARM ∈ r
  tgLate : R.TG_LATE ∈ r
  pc     : R.PC_ALARM ∈ r
  ecAl   : ∀ c, c < 128 → R.EC_ALARM c ∈ r
  ecLate : ∀ c, c < 128 → R.EC_DTC_LATE c ∈ r

theorem validRegs_of (d : Dev) (h : d.validRegs ⊆ r) : ValidRegs r := by
  have m (o : Nat) (ho : o ∈ d.validRegs) : o ∈ r := h ho
  refine ⟨m _ ?_, m _ ?_, m _ ?_, m _ ?_, m _ ?_, m _ ?_, m _ ?_, fun c hc => m _ ?_, fun c hc => m _ ?_⟩ <;>
    simp only [Dev.validRegs, List.append_assoc, List.mem_append, List.mem_map, List.mem_range, List.mem_cons] <;>
    first | exact .inr (.inl ⟨c, hc, rfl⟩) | exact .inr (.inr (.inl ⟨c, hc, rfl⟩)) | exact .inl (by simp)

theorem Dev.frame_edgeTimeFall (d : Dev) (r : List Nat) (hp : Part.chans ∈ p) : d.Frame d.edgeTimeFall p r := by
  refine Dev.frame_forChans (fun d c _ => ?_) d
  split
  · exact d.frame_cutRun c r hp
  · exact d.frame_deadOpen c _ r hp

theorem Dev.frame_edgeTimeRise (d : Dev) (hp : Part.chans ∈ p) (h : ValidRegs r) : d.Frame d.edgeTimeRise p r := by
  refine Dev.frame_forChans (fun d c hc => ?_) d
  split
  · exact d.frame_deadClose c _ r hp
  · split
    · exact .refl d p r
    · exact (Dev.frame_setChan d c _ r hp).trans
        (Dev.frame_makeDue (d.dueAgain c 40960) c _ _ hp (h.ecLate c hc) (h.ecAl c hc) h.pc)

theorem Dev.frame_setUnitRun (d : Dev) (u : Nat) (x : UnitRun) (r : List Nat) (h : Part.tg ∈ p) :
    d.Frame (d.setUnitRun u x) p r := d.frame_tg _ r h

theorem Dev.frame_makeLate (d : Dev) (g : PendDec → Bool) (hp : Part.tg ∈ p) (h : ValidRegs r) :
    d.Frame (d.makeLate g) p r := by
  unfold Dev.makeLate
  exact (d.frame_tg _ r hp).trans (.foldl (fun d _ =>
    ((d.frame_addSat _ _ p h.tgLate).trans (Dev.frame_raise _ _ p h.tgAl)).trans (Dev.frame_count _ _ _ p h.pc)) _ _)

theorem Dev.frame_trigTimeFall (d : Dev) (hp : Part.tg ∈ p) (h : R.PC_ALARM ∈ r) : d.Frame d.trigTimeFall p r := by
  unfold Dev.trigTimeFall
  refine .foldl (fun d x => ?_) _ _
  simp only []
  split
  · exact d.frame_setUnitRun _ _ r hp
  · exact (d.frame_count _ _ p h).trans (Dev.frame_setUnitRun _ _ _ r hp)

theorem Dev.frame_trigTimeRise (d : Dev) (hp : Part.tg ∈ p) (h : ValidRegs r) : d.Frame d.trigTimeRise p r := by
  unfold Dev.trigTimeRise
  exact (Dev.Frame.foldl (fun d x => d.frame_setUnitRun _ _ r hp) _ _).trans (Dev.frame_makeLate _ _ hp h)

/-- The channels of a calibration op are live again: EC_STATUS of its target, and the records of its channels. -/
theorem Dev.frame_opRelease (d : Dev) (o : CalOp) (hp : Part.chans ∈ p) (h : R.EC_STATUS o.target ∈ r) :
    d.Frame (d.opRelease o) p r := by
  unfold Dev.opRelease
  split
  · simp only []
    split
    · exact (d.frame_setFlag _ _ p h).trans (Dev.frame_deadClose _ _ _ r hp)
    · split
      · exact d.frame_setFlag _ _ p h
      · exact (d.frame_setFlag _ _ p h).trans (Dev.frame_setFlag _ _ _ p h)
  · exact d.frame_setFlag _ _ p h
  · exact (d.frame_deadClose _ _ r hp).trans (Dev.frame_deadClose _ _ _ r hp)
  · exact d.frame_deadClose _ _ r hp

theorem Dev.frame_opEnd (d : Dev) (k : Nat) (hp : Part.chans ∈ p) (hc : Part.ca ∈ p) (h : R.CA_STATUS ∈ r)
    (ho : ∀ o, d.ca.op = some o → R.EC_STATUS o.target ∈ r) : d.Frame (d.opEnd k) p r := by
  unfold Dev.opEnd
  split
  · exact .refl d p r
  · next o hop =>
    simp only []
    refine .trans (.trans ?_ (Dev.frame_setFld _ _ _ p h)) (Dev.frame_setFld _ _ _ p h)
    split
    · exact d.frame_ca _ r hc
    · exact (d.frame_opRelease o hp (ho o hop)).trans (Dev.frame_ca _ _ r hc)

theorem Dev.frame_calAbort (d : Dev) (hp : Part.chans ∈ p) (hc : Part.ca ∈ p) (h : ValidRegs r)
    (ho : ∀ o, d.ca.op = some o → R.EC_STATUS o.target ∈ r) : d.Frame d.calAbort p r := by
  unfold Dev.calAbort
  split
  · exact (d.frame_opEnd 4 hp hc h.ca ho).trans (Dev.frame_raise _ _ p h.caAl)
  · exact .refl d p r

/-- A validity state: TC_STATUS, and what starts or stops with TIME_VALID. -/
theorem Dev.frame_setValidity (d : Dev) (st : Nat) (hp : validParts ⊆ p) (hr : d.validRegs ⊆ r) :
    d.Frame (d.setValidity st) p r := by
  have h := validRegs_of d hr
  have ht : Part.tc ∈ p := hp (by simp [validParts])
  have hc : Part.chans ∈ p := hp (by simp [validParts])
  have hg : Part.tg ∈ p := hp (by simp [validParts])
  have ha : Part.ca ∈ p := hp (by simp [validParts])
  have base (b : Bool) (x : Tc) :
      d.Frame { (d.setFld R.TC_STATUS F.TC_STATUS_state st).setFlag R.TC_STATUS F.TC_STATUS_time_valid b with tc := x } p r :=
    ((d.frame_setFld _ _ p h.status).trans (Dev.frame_setFlag _ _ _ p h.status)).trans (Dev.frame_tc _ _ r ht)
  unfold Dev.setValidity
  simp only []
  split
  · refine ((base _ _).trans ((Dev.frame_edgeTimeFall _ r hc).trans (Dev.frame_trigTimeFall _ hg h.pc))).trans
      (Dev.frame_calAbort _ hc ha h fun o ho => hr ?_)
    have hs (x : Dev) : x.edgeTimeFall.trigTimeFall.ca = x.ca :=
      ((Dev.frame_edgeTimeFall (p := [.chans, .tg]) x [R.PC_ALARM] (by simp)).trans
        (Dev.frame_trigTimeFall _ (by simp) (by simp))).1 .ca (by simp)
    rw [hs] at ho
    have ho' : d.ca.op = some o := ho
    simp [Dev.validRegs, ho']
  · split
    · exact (base _ _).trans ((Dev.frame_edgeTimeRise _ hc h).trans (Dev.frame_trigTimeRise _ hg h))
    · exact base _ _

theorem Dev.frame_validLost (d : Dev) (hp : validParts ⊆ p) (hr : d.validRegs ⊆ r) : d.Frame d.validLost p r :=
  (d.frame_setValidity 1 hp hr).trans (Dev.frame_raise _ _ p (validRegs_of d hr).alarm)

/-- The rows of validity that rest on the source and the cleaner. -/
theorem Dev.frame_validCheck (d : Dev) (hp : validParts ⊆ p) (hr : d.validRegs ⊆ r) : d.Frame d.validCheck p r := by
  have hret : d.Frame d.holdReturn p r := by
    unfold Dev.holdReturn
    split
    · exact d.frame_setValidity 2 hp hr
    · exact .refl d p r
  unfold Dev.validCheck
  split
  · split
    · split
      · exact d.frame_setValidity 2 hp hr
      · exact .refl d p r
    · split
      · exact .refl d p r
      · exact d.frame_tc _ r (hp (by simp [validParts]))
  · split
    · exact d.frame_validLost hp hr
    · split
      · exact (d.frame_setValidity 3 hp hr).trans (Dev.frame_raise _ _ p (validRegs_of d hr).alarm)
      · split
        · exact d.frame_setValidity 3 hp hr
        · exact .refl d p r
  · split
    · exact d.frame_validLost hp hr
    · exact hret
  · exact .refl d p r

/-! References and the cleaner (R35–R47). -/

theorem Dev.frame_retarget (d : Dev) (hp : Part.ck ∈ p) (h : R.CK_ALARM ∈ r) : d.Frame d.retarget p r := by
  unfold Dev.retarget
  split
  · simp only []
    split
    · exact (d.frame_ck _ r hp).trans (Dev.frame_raise _ _ p h)
    · exact d.frame_ck _ r hp
  · exact .refl d p r

theorem Dev.frame_setCleaner (d : Dev) (st sel : Nat) (p : List Part) (h : R.CK_STATUS ∈ r) :
    d.Frame (d.setCleaner st sel) p r := (d.frame_setFld _ _ p h).trans (Dev.frame_setFld _ _ _ p h)

theorem Dev.frame_showConflict (d : Dev) (c : Bool) (p : List Part) (h : R.CK_STATUS ∈ r) (h' : R.CK_ALARM ∈ r) :
    d.Frame (d.showConflict c) p r := by
  unfold Dev.showConflict
  simp only []
  refine .trans ?_ (Dev.frame_setFlag _ _ _ p h)
  split
  · exact d.frame_raise _ p h'
  · exact .refl d p r

theorem Dev.frame_enterAcquire (d : Dev) (n : Nat) (hp : Part.ck ∈ p) (h : R.CK_STATUS ∈ r) :
    d.Frame (d.enterAcquire n) p r :=
  ((d.frame_ck _ r hp).trans (Dev.frame_setCleaner _ _ _ p h)).trans (Dev.frame_setFld _ _ _ p h)

theorem Dev.frame_enterSwitching (d : Dev) (n : Nat) (hp : Part.ck ∈ p) (h : R.CK_STATUS ∈ r) :
    d.Frame (d.enterSwitching n) p r :=
  ((d.frame_ck _ r hp).trans (Dev.frame_setCleaner _ _ _ p h)).trans (Dev.frame_setFld _ _ _ p h)

theorem Dev.frame_enterFreerun (d : Dev) (hp : Part.ck ∈ p) (h : R.CK_STATUS ∈ r) (h' : R.CK_ALARM ∈ r) :
    d.Frame d.enterFreerun p r :=
  (((d.frame_ck _ r hp).trans (Dev.frame_setCleaner _ _ _ p h)).trans (Dev.frame_raise _ _ p h')).trans
    (Dev.frame_retarget _ hp h')

theorem Dev.frame_enterHold (d : Dev) (hp : Part.ck ∈ p) (h : R.CK_STATUS ∈ r) (h' : R.CK_ALARM ∈ r) :
    d.Frame d.enterHold p r := by
  unfold Dev.enterHold
  split
  · exact ((((d.frame_ck _ r hp).trans (Dev.frame_setCleaner _ _ _ p h)).trans (Dev.frame_setFld _ _ _ p h)).trans
      (Dev.frame_raise _ _ p h')).trans (Dev.frame_retarget _ hp h')
  · exact d.frame_enterFreerun hp h h'

theorem Dev.frame_enterNarrow (d : Dev) (hp : Part.ck ∈ p) (h : R.CK_STATUS ∈ r) : d.Frame d.enterNarrow p r :=
  ((d.frame_ck _ r hp).trans (Dev.frame_setCleaner _ _ _ p h)).trans (Dev.frame_setFld _ _ _ p h)

theorem Dev.frame_enterLocked (d : Dev) (p : List Part) (h : R.CK_STATUS ∈ r) : d.Frame d.enterLocked p r :=
  (d.frame_setCleaner _ _ p h).trans (Dev.frame_setFld _ _ _ p h)

/-- Selection: the cleaner's status and alarms, and its hidden state. -/
theorem Dev.frame_reselect (d : Dev) (hp : Part.ck ∈ p) (h : R.CK_STATUS ∈ r) (h' : R.CK_ALARM ∈ r) :
    d.Frame d.reselect p r := by
  unfold Dev.reselect
  simp only []
  split
  · exact .refl d p r
  split
  · split
    · exact d.frame_showConflict _ p h h'
    · exact (((d.frame_showConflict _ p h h').trans (Dev.frame_ck _ _ r hp)).trans (Dev.frame_raise _ _ p h')).trans
        (Dev.frame_retarget _ hp h')
  have hc := d.frame_showConflict d.choose.2 p h h'
  split
  · split
    · exact hc.trans (Dev.frame_enterAcquire _ _ hp h)
    · split
      · exact hc.trans (Dev.frame_enterFreerun _ hp h h')
      · split
        · exact hc.trans (Dev.frame_enterHold _ hp h h')
        · exact hc
  · have h2 (b : Bool) : d.Frame (if b then d.showConflict d.choose.2 else
        (d.showConflict d.choose.2).raise R.CK_ALARM F.CK_ALARM_sel_lost) p r := by
      split
      · exact hc
      · exact hc.trans (Dev.frame_raise _ _ p h')
    split
    · split
      · exact h2 _
      · exact (h2 _).trans (Dev.frame_enterSwitching _ _ hp h)
    · split
      · exact (h2 _).trans (Dev.frame_enterFreerun _ hp h h')
      · exact (h2 _).trans (Dev.frame_enterHold _ hp h h')

/-! A calibration op is not begun by what follows: it stays, or it has ended. -/

/-- A frame, and a calibration op in progress afterwards was in progress before. -/
structure Dev.Moves (d e : Dev) (p : List Part) (r : List Nat) : Prop where
  frame : d.Frame e p r
  op    : e.ca.op = d.ca.op ∨ e.ca.op = none

theorem Dev.Moves.refl (d : Dev) (p : List Part) (r : List Nat) : d.Moves d p r := ⟨.refl d p r, .inl rfl⟩

theorem Dev.Moves.trans (h : d.Moves e p r) (h' : e.Moves f p r) : d.Moves f p r := by
  refine ⟨h.frame.trans h'.frame, ?_⟩
  rcases h'.op with x | x
  · rcases h.op with y | y
    · exact .inl (x.trans y)
    · exact .inr (x.trans y)
  · exact .inr x

theorem Dev.Frame.moves (h : d.Frame e p r) (hc : e.ca = d.ca) : d.Moves e p r := ⟨h, .inl (by rw [hc])⟩

theorem Dev.Moves.foldl {α : Type} {g : Dev → α → Dev} {Q : Dev → Prop} (hg : ∀ (d : Dev) (x : α), Q d → d.Moves (g d x) p r)
    (hQ : ∀ (d e : Dev), d.Moves e p r → Q d → Q e) (xs : List α) (d : Dev) (h : Q d) : d.Moves (xs.foldl g d) p r := by
  induction xs generalizing d with
  | nil => exact .refl d p r
  | cons x xs ih => exact (hg d x h).trans (ih (g d x) (hQ d _ (hg d x h) h))

/-- The registers of a calibration op, of the cleaner and of validity are in `r`. -/
def Dev.CleanIn (d : Dev) (r : List Nat) : Prop := d.cleanRegs ⊆ r

theorem Dev.CleanIn.keep (h : d.Moves e p t) (hd : d.CleanIn r) : e.CleanIn r := by
  intro o ho
  apply hd
  simp only [Dev.cleanRegs, Dev.validRegs, List.append_assoc, List.mem_append] at *
  rcases ho with x | x | x | x | x
  · exact .inl x
  · exact .inr (.inl x)
  · exact .inr (.inr (.inl x))
  · exact .inr (.inr (.inr (.inl x)))
  · refine .inr (.inr (.inr (.inr ?_)))
    rcases h.op with y | y
    · rw [← y]; exact x
    · rw [y] at x; simp at x

theorem Dev.CleanIn.valid (h : d.CleanIn r) : d.validRegs ⊆ r := fun o ho =>
  h (by simp only [Dev.cleanRegs, List.mem_append]; exact .inr ho)
theorem Dev.CleanIn.status (h : d.CleanIn r) : R.CK_STATUS ∈ r := h (by simp [Dev.cleanRegs])
theorem Dev.CleanIn.alarm (h : d.CleanIn r) : R.CK_ALARM ∈ r := h (by simp [Dev.cleanRegs])

theorem cleanParts_ck (h : cleanParts ⊆ p) : Part.ck ∈ p := h (by simp [cleanParts])
theorem cleanParts_valid (h : cleanParts ⊆ p) : validParts ⊆ p := fun u hu => h (by simp [cleanParts, hu])

theorem Dev.opEnd_op (d : Dev) (k : Nat) : (d.opEnd k).ca.op = none := by
  unfold Dev.opEnd
  split
  · assumption
  · rfl

theorem Dev.calAbort_op (d : Dev) : d.calAbort.ca.op = none := by
  unfold Dev.calAbort
  split
  · rw [show ∀ (x : Dev) o g, (x.raise o g).ca = x.ca from fun x o g => (x.frame_raise (r := [o]) g [] (by simp)).1 .ca (by simp)]
    exact d.opEnd_op 4
  · exact Option.not_isSome_iff_eq_none.1 ‹_›

theorem Dev.setValidity_op (d : Dev) (st : Nat) :
    (d.setValidity st).ca.op = d.ca.op ∨ (d.setValidity st).ca.op = none := by
  unfold Dev.setValidity
  simp only []
  split
  · exact .inr (Dev.calAbort_op _)
  · split
    · have hs (x : Dev) : x.edgeTimeRise.trigTimeRise.ca = x.ca :=
        ((Dev.frame_edgeTimeRise (p := [.chans, .tg]) (r := (State.reset.dev).validRegs) x (by simp)
          (validRegs_of State.reset.dev fun _ h => h)).trans
          (Dev.frame_trigTimeRise _ (by simp) (validRegs_of State.reset.dev fun _ h => h))).1 .ca (by simp)
      exact .inl (congrArg Ca.op (hs _))
    · exact .inl rfl

theorem Dev.validLost_op (d : Dev) : d.validLost.ca.op = d.ca.op ∨ d.validLost.ca.op = none := by
  unfold Dev.validLost
  rw [Dev.raise_ca]
  exact d.setValidity_op 1

theorem Dev.validCheck_op (d : Dev) : d.validCheck.ca.op = d.ca.op ∨ d.validCheck.ca.op = none := by
  unfold Dev.validCheck Dev.holdReturn
  split
  · split
    · split
      · exact d.setValidity_op 2
      · exact .inl rfl
    · split <;> exact .inl rfl
  · split
    · exact d.validLost_op
    · split
      · rw [Dev.raise_ca]; exact d.setValidity_op 3
      · split
        · exact d.setValidity_op 3
        · exact .inl rfl
  · split
    · exact d.validLost_op
    · split
      · exact d.setValidity_op 2
      · exact .inl rfl
  · exact .inl rfl

theorem Dev.moves_validCheck (d : Dev) (hp : cleanParts ⊆ p) (h : d.CleanIn r) : d.Moves d.validCheck p r :=
  ⟨d.frame_validCheck (cleanParts_valid hp) h.valid, d.validCheck_op⟩

theorem Dev.moves_reselect (d : Dev) (hp : Part.ck ∈ p) (h : d.CleanIn r) : d.Moves d.reselect p r :=
  ⟨d.frame_reselect hp h.status h.alarm,
   .inl (congrArg Ca.op ((d.frame_reselect (p := [.ck]) (by simp) h.status h.alarm).1 .ca (by simp)))⟩

/-- What follows a change of references, ranks or modes. -/
theorem Dev.moves_refsChanged (d : Dev) (hp : cleanParts ⊆ p) (h : d.CleanIn r) : d.Moves d.refsChanged p r :=
  have h1 := d.moves_reselect (cleanParts_ck hp) h
  h1.trans (Dev.moves_validCheck _ hp (Dev.CleanIn.keep h1 h))

theorem Dev.frame_setRefH (d : Dev) (n : Nat) (x : RefH) (r : List Nat) (h : Part.ck ∈ p) :
    d.Frame (d.setRefH n x) p r := d.frame_ck _ r h

theorem Dev.frame_setQual (d : Dev) (n k : Nat) (p : List Part) (h : R.CK_REF_STATUS n ∈ r) :
    d.Frame (d.setQual n k) p r := d.frame_setFld _ _ p h

theorem Dev.frame_disqualify (d : Dev) (n : Nat) (hp : Part.ck ∈ p) (h : R.CK_REF_STATUS n ∈ r) :
    d.Frame (d.disqualify n) p r := by
  unfold Dev.disqualify
  split
  · exact .refl d p r
  · exact ((d.frame_setQual n _ p h).trans (Dev.frame_setRefH _ n _ r hp)).trans (Dev.frame_ck _ _ r hp)

theorem Dev.disqualify_ca (d : Dev) (n : Nat) : (d.disqualify n).ca = d.ca := by
  unfold Dev.disqualify; split <;> rfl

theorem Dev.frame_qualify (d : Dev) (n : Nat) (hp : Part.ck ∈ p) (h : R.CK_REF_STATUS n ∈ r) :
    d.Frame (d.qualify n) p r := (d.frame_setQual n _ p h).trans (Dev.frame_setRefH _ n _ r hp)

theorem Dev.frame_enterWtr (d : Dev) (n : Nat) (hp : Part.ck ∈ p) (h : R.CK_REF_STATUS n ∈ r) :
    d.Frame (d.enterWtr n) p r := by
  unfold Dev.enterWtr
  simp only []
  split
  · exact d.frame_qualify n hp h
  · exact (d.frame_setQual n _ p h).trans (Dev.frame_setRefH _ n _ r hp)

/-- The criteria of a reference are evaluated anew. -/
theorem Dev.moves_refEval (d : Dev) (n : Nat) (hp : cleanParts ⊆ p) (h : d.CleanIn r) (hn : R.CK_REF_STATUS n ∈ r) :
    d.Moves (d.refEval n) p r := by
  have key (e : Dev) (he : d.Moves e p r) : d.Moves e.refsChanged p r :=
    he.trans (e.moves_refsChanged hp (Dev.CleanIn.keep he h))
  unfold Dev.refEval
  split
  · exact .refl d p r
  · refine key _ ?_
    split
    · split
      · exact (d.frame_setQual n _ p hn).moves rfl
      · exact .refl d p r
    · exact (d.frame_disqualify n (cleanParts_ck hp) hn).moves (d.disqualify_ca n)

theorem Dev.moves_laneCriterion (d : Dev) (k : Nat) (ok : Bool) (hp : cleanParts ⊆ p) (h : d.CleanIn r)
    (hn : R.CK_REF_STATUS (4 + k) ∈ r) : d.Moves (d.laneCriterion k ok) p r := by
  unfold Dev.laneCriterion
  simp only []
  split
  · exact .refl d p r
  · have h1 : d.Moves (d.setRefH (4 + k) { d.refH (4 + k) with laneOk := ok }) p r :=
      (d.frame_setRefH _ _ r (cleanParts_ck hp)).moves rfl
    exact h1.trans (Dev.moves_refEval _ _ hp (Dev.CleanIn.keep h1 h) hn)

/-! Lanes and links (R79, R84, R115, R210, R345). -/

/-- What the operations on lane n need of a list of registers. -/
structure LaneIn (r : List Nat) (n : Nat) : Prop where
  status : R.LN_STATUS n ∈ r
  alarm  : R.LN_ALARM n ∈ r
  test   : R.LN_TEST n ∈ r
  fail   : R.LN_FAIL n ∈ r
  tx     : R.LN_TX_DELAY n ∈ r
  rx     : R.LN_RX_DELAY n ∈ r
  ref    : R.CK_REF_STATUS (4 + n) ∈ r

/-- What the operations on the link of port p need of a list of registers. -/
structure PortIn (r : List Nat) (p : Nat) : Prop where
  status : R.LK_STATUS p ∈ r
  alarm  : R.LK_ALARM p ∈ r
  addr   : R.GL_ADDR ∈ r
  gl     : R.GL_ALARM ∈ r
  lo     : R.TG_RELAY_NOW_LO ∈ r
  hi     : R.TG_RELAY_NOW_HI ∈ r

theorem laneIn_of {ports lanes : List Nat} {n : Nat} (h : d.linkRegs ports lanes ⊆ r) (hn : n ∈ lanes) : LaneIn r n := by
  have m {o : Nat} (ho : o ∈ d.linkRegs ports lanes) : o ∈ r := h ho
  constructor <;> refine m ?_ <;> simp only [Dev.linkRegs, List.append_assoc, List.mem_append, List.mem_map] <;>
    first
      | exact .inr (.inr (.inr (.inl ⟨n, hn, rfl⟩)))
      | exact .inr (.inr (.inr (.inr (.inl ⟨n, hn, rfl⟩))))
      | exact .inr (.inr (.inr (.inr (.inr (.inl ⟨n, hn, rfl⟩)))))
      | exact .inr (.inr (.inr (.inr (.inr (.inr (.inl ⟨n, hn, rfl⟩))))))
      | exact .inr (.inr (.inr (.inr (.inr (.inr (.inr (.inl ⟨n, hn, rfl⟩)))))))
      | exact .inr (.inr (.inr (.inr (.inr (.inr (.inr (.inr (.inl ⟨n, hn, rfl⟩))))))))
      | exact .inr (.inr (.inr (.inr (.inr (.inr (.inr (.inr (.inr (.inl ⟨n, hn, rfl⟩)))))))))

theorem portIn_of {ports lanes : List Nat} {k : Nat} (h : d.linkRegs ports lanes ⊆ r) (hk : k ∈ ports) : PortIn r k := by
  have m {o : Nat} (ho : o ∈ d.linkRegs ports lanes) : o ∈ r := h ho
  constructor <;> refine m ?_ <;> simp only [Dev.linkRegs, List.append_assoc, List.mem_append, List.mem_map] <;>
    first
      | exact .inr (.inl ⟨k, hk, rfl⟩)
      | exact .inr (.inr (.inl ⟨k, hk, rfl⟩))
      | exact .inl (by simp)

theorem cleanIn_of {ports lanes : List Nat} (h : d.linkRegs ports lanes ⊆ r) : d.CleanIn r := fun o ho =>
  h (by simp only [Dev.linkRegs, List.mem_append]; exact .inr ho)

theorem linkParts_clean (h : linkParts ⊆ p) : cleanParts ⊆ p := fun u hu => h (by simp [linkParts, hu])
theorem linkParts_lanes (h : linkParts ⊆ p) : Part.lanes ∈ p := h (by simp [linkParts])
theorem linkParts_ports (h : linkParts ⊆ p) : Part.ports ∈ p := h (by simp [linkParts])
theorem linkParts_sw (h : linkParts ⊆ p) : Part.sw ∈ p := h (by simp [linkParts])
theorem linkParts_en (h : linkParts ⊆ p) : Part.en ∈ p := h (by simp [linkParts])
theorem linkParts_ca (h : linkParts ⊆ p) : Part.ca ∈ p := h (by simp [linkParts, cleanParts, validParts])

theorem Dev.frame_setLane (d : Dev) (n : Nat) (x : Lane) (r : List Nat) (h : Part.lanes ∈ p) :
    d.Frame (d.setLane n x) p r := d.frame_lanes _ r h

theorem Dev.frame_setPort (d : Dev) (n : Nat) (x : Port) (r : List Nat) (h : Part.ports ∈ p) :
    d.Frame (d.setPort n x) p r := d.frame_ports _ r h

theorem Dev.moves_laneRef (d : Dev) (n : Nat) (hp : cleanParts ⊆ p) (h : d.CleanIn r) (hn : LaneIn r n) :
    d.Moves (d.laneRef n) p r := d.moves_laneCriterion n _ hp h hn.ref

/-- The delay constants of a lane take effect. -/
theorem Dev.moves_laneDelays (d : Dev) (n : Nat) (hp : Part.ca ∈ p) (hn : LaneIn r n) : d.Moves (d.laneDelays n) p r := by
  refine ⟨?_, .inl rfl⟩
  unfold Dev.laneDelays
  exact (((d.frame_setReg _ p hn.tx).trans (Dev.frame_setReg _ _ p hn.rx)).trans
    ((Dev.frame_ca _ _ r hp).trans (Dev.frame_ca _ _ r hp))).trans (Dev.frame_ca _ _ r hp)

theorem Dev.moves_setRate (d : Dev) (n k : Nat) (hp : Part.ca ∈ p) (hn : LaneIn r n) : d.Moves (d.setRate n k) p r := by
  unfold Dev.setRate
  split
  · exact .refl d p r
  · exact ((d.frame_setFld _ _ p hn.status).moves rfl).trans (Dev.moves_laneDelays _ n hp hn)

/-- A bring-up state that begins from idle. -/
theorem Dev.moves_freshState (d : Dev) (n st : Nat) (hp : linkParts ⊆ p) (h : d.CleanIn r) (hn : LaneIn r n) :
    d.Moves (d.freshState n st) p r := by
  unfold Dev.freshState
  simp only []
  have h1 : ∀ x, d.Moves ((((d.setBringup n st).setFlag (R.LN_STATUS n) F.LN_STATUS_cdr_lock false).setFlag (R.LN_TEST n)
      F.LN_TEST_chk_sync false).setLane n x) p r :=
    fun x => ((((d.frame_setFld _ _ p hn.status).trans (Dev.frame_setFlag _ _ _ p hn.status)).trans
      (Dev.frame_setFlag _ _ _ p hn.test)).trans (Dev.frame_setLane _ n x r (linkParts_lanes hp))).moves rfl
  exact (h1 _).trans (Dev.moves_laneRef _ n (linkParts_clean hp) (Dev.CleanIn.keep (h1 _) h) hn)

theorem Dev.moves_bringUpAt (d : Dev) (n k : Nat) (hp : linkParts ⊆ p) (h : d.CleanIn r) (hn : LaneIn r n) :
    d.Moves (d.bringUpAt n k) p r := by
  unfold Dev.bringUpAt
  have h1 := d.moves_setRate n k (linkParts_ca hp) hn
  exact h1.trans (Dev.moves_freshState _ n _ hp (Dev.CleanIn.keep h1 h) hn)

theorem Dev.CleanIn.pc (h : d.CleanIn r) : R.PC_ALARM ∈ r := (validRegs_of d h.valid).pc

theorem Dev.count_ca (d : Dev) (n k : Nat) : (d.count n k).ca = d.ca :=
  (d.frame_count (r := [R.PC_ALARM]) n k [] (by simp)).1 .ca (by simp)

theorem Dev.moves_failOne (d : Dev) (n : Nat) (hp : linkParts ⊆ p) (h : d.CleanIn r) (hn : LaneIn r n) :
    d.Moves (d.failOne n) p r := by
  unfold Dev.failOne
  split
  · exact d.moves_bringUpAt n _ hp h hn
  · have h1 : d.Moves ((((d.addSat (R.LN_FAIL n) F.LN_FAIL_count 1).setFld (R.LN_FAIL n) F.LN_FAIL_last_state
        (d.bringup n)).setFld (R.LN_FAIL n) F.LN_FAIL_last_rate (d.rateNow n)).count (laneCtr n 0)) p r :=
      ((((d.frame_addSat _ _ p hn.fail).trans (Dev.frame_setFld _ _ _ p hn.fail)).trans
        (Dev.frame_setFld _ _ _ p hn.fail)).trans (Dev.frame_count _ _ _ p h.pc)).moves (by rw [Dev.count_ca]; rfl)
    exact h1.trans (Dev.moves_freshState _ n _ hp (Dev.CleanIn.keep h1 h) hn)

/-- A lane fails a bring-up state, and with it the lanes of its port that do not stand alone (R79, R84). -/
theorem Dev.moves_laneFail (d : Dev) (n : Nat) (hp : linkParts ⊆ p) (h : d.CleanIn r) (hn : LaneIn r n)
    (hg : ∀ m ∈ d.group n, LaneIn r m) : d.Moves (d.laneFail n) p r := by
  unfold Dev.laneFail
  split
  · have key (xs : List Nat) (hx : ∀ m ∈ xs, LaneIn r m) (d : Dev) (h : d.CleanIn r) : d.Moves (xs.foldl
        (fun d m => if 1 ≤ d.bringup m && d.bringup m ≤ 5 then d.failOne m else d) d) p r := by
      induction xs generalizing d with
      | nil => exact .refl d p r
      | cons m ms ih =>
        have h1 : d.Moves (if 1 ≤ d.bringup m && d.bringup m ≤ 5 then d.failOne m else d) p r := by
          split
          · exact d.moves_failOne m hp h (hx m (by simp))
          · exact .refl d p r
        exact h1.trans (ih (fun m hm => hx m (by simp [hm])) _ (Dev.CleanIn.keep h1 h))
    exact key _ hg d h
  · exact d.moves_failOne n hp h hn

theorem Dev.frame_noteChange (d : Dev) (hp : Part.en ∈ p) (h : R.GL_ALARM ∈ r) : d.Frame d.noteChange p r := by
  unfold Dev.noteChange
  split
  · exact .refl d p r
  · split
    · split
      · exact d.frame_en _ r hp
      · exact d.frame_raise _ p h
    · split
      · exact d.frame_en _ r hp
      · exact .refl d p r

theorem Dev.frame_addrLost (d : Dev) (p : List Part) (h : R.GL_ADDR ∈ r) (h' : R.GL_ALARM ∈ r) :
    d.Frame d.addrLost p r := by
  unfold Dev.addrLost
  split
  · exact (d.frame_setFlag _ _ p h).trans (Dev.frame_raise _ _ p h')
  · exact .refl d p r

theorem Dev.frame_ite {a b d : Dev} {c : Prop} [Decidable c] (ha : d.Frame a p r) (hb : d.Frame b p r) :
    d.Frame (if c then a else b) p r := by
  split
  · exact ha
  · exact hb

theorem Dev.frame_enumLink (d : Dev) (k : Nat) (up down : Bool) (hp : Part.en ∈ p) (h : PortIn r k) :
    d.Frame (d.enumLink k up down) p r := by
  unfold Dev.enumLink
  have h1 (b : Bool) : d.Frame (if b then d.noteChange else d) p r :=
    Dev.frame_ite (d.frame_noteChange hp h.gl) (.refl d p r)
  exact Dev.frame_ite ((h1 _).trans (Dev.frame_addrLost _ p h.addr h.gl)) (h1 _)

theorem Dev.frame_relayAdmit (d : Dev) (p : List Part) (h : R.TG_RELAY_NOW_LO ∈ r) (h' : R.TG_RELAY_NOW_HI ∈ r)
    (h3 : R.TG_ALARM ∈ r) : d.Frame d.relayAdmit p r := by
  unfold Dev.relayAdmit
  have h4 (a b : Nat) : d.Frame ((d.setFld R.TG_RELAY_NOW_LO F.TG_RELAY_NOW_LO_ports_lo a).setFld R.TG_RELAY_NOW_HI
      F.TG_RELAY_NOW_HI_ports_hi b) p r := (d.frame_setFld _ _ p h).trans (Dev.frame_setFld _ _ _ p h')
  exact Dev.frame_ite ((h4 _ _).trans (Dev.frame_raise _ _ p h3)) (h4 _ _)

theorem Dev.enumLink_ca (d : Dev) (k : Nat) (up down : Bool) : (d.enumLink k up down).ca = d.ca :=
  (d.frame_enumLink (p := [.en]) (r := [R.LK_STATUS k, R.LK_ALARM k, R.GL_ADDR, R.GL_ALARM, R.TG_RELAY_NOW_LO,
    R.TG_RELAY_NOW_HI]) k up down (by simp) (by constructor <;> simp)).1 .ca (by simp)

theorem Dev.relayAdmit_ca (d : Dev) : d.relayAdmit.ca = d.ca :=
  (d.frame_relayAdmit (r := [R.TG_RELAY_NOW_LO, R.TG_RELAY_NOW_HI, R.TG_ALARM]) [] (by simp) (by simp) (by simp)).1 .ca
    (by simp)

/-- The end of a link's rise and fall: relay, enumeration, validity. -/
theorem Dev.moves_linkTail (d : Dev) (k : Nat) (up down : Bool) (hp : linkParts ⊆ p) (h : d.CleanIn r) (hk : PortIn r k) :
    d.Moves ((d.relayAdmit).enumLink k up down).validCheck p r := by
  have h1 : d.Moves d.relayAdmit p r :=
    (d.frame_relayAdmit p hk.lo hk.hi (validRegs_of d h.valid).tgAl).moves d.relayAdmit_ca
  have h2 : d.Moves (d.relayAdmit.enumLink k up down) p r :=
    h1.trans ((Dev.frame_enumLink _ k up down (linkParts_en hp) hk).moves (Dev.enumLink_ca _ k up down))
  exact h2.trans (Dev.moves_validCheck _ (linkParts_clean hp) (Dev.CleanIn.keep h2 h))

/-- The credits of a port whose link is lost: the switch core's hidden state. -/
theorem Dev.frame_creditEnd (d : Dev) (k : Nat) (r : List Nat) (h : Part.sw ∈ p) : d.Frame (d.creditEnd k) p r :=
  .foldl (fun d _ => d.frame_sw _ r h) _ _

theorem Dev.creditEnd_ca (d : Dev) (k : Nat) : (d.creditEnd k).ca = d.ca :=
  (d.frame_creditEnd (p := [.sw]) k [] (by simp)).1 .ca (by simp)

/-- The link of a port is lost. -/
theorem Dev.moves_linkFall (d : Dev) (k : Nat) (hp : linkParts ⊆ p) (h : d.CleanIn r) (hk : PortIn r k) :
    d.Moves (d.linkFall k) p r := by
  unfold Dev.linkFall
  split
  · exact .refl d p r
  · simp only []
    have h1 : d.Moves ((d.setReg (R.LK_STATUS k) 0).raise (R.LK_ALARM k) F.LK_ALARM_link_down) p r :=
      ((d.frame_setReg _ p hk.status).trans (Dev.frame_raise _ _ p hk.alarm)).moves (Dev.raise_ca _ _ _)
    have h2 : ∀ x, d.Moves (((d.setReg (R.LK_STATUS k) 0).raise (R.LK_ALARM k) F.LK_ALARM_link_down).setPort k x) p r :=
      fun x => h1.trans ((Dev.frame_setPort _ k x r (linkParts_ports hp)).moves rfl)
    have h3 (e : Dev) (he : d.Moves e p r) :
        d.Moves (((e.creditEnd k).lanesActive k).relayAdmit.enumLink k false (d.isDownlink k)).validCheck p r := by
      have h4 : d.Moves ((e.creditEnd k).lanesActive k) p r :=
        (he.trans ((e.frame_creditEnd k r (linkParts_sw hp)).moves (e.creditEnd_ca k))).trans
          ((Dev.frame_setFld _ _ _ p hk.status).moves (Dev.setFld_ca _ _ _ _))
      exact h4.trans (Dev.moves_linkTail _ k _ _ hp (Dev.CleanIn.keep h4 h) hk)
    refine h3 _ ?_
    split
    · exact (h2 _).trans ((Dev.frame_sw _ _ r (linkParts_sw hp)).moves rfl)
    · exact h2 _

end Sys2Proof.Machine
end

