-- ==== Sys2Proof/Laws/Mram.lean ====
section
/-! SUPPORT. What a write to the MRAM can do (R331): it changes the wear, the counts and the places of blocks, and nothing else while
no block fails its verification. -/

namespace Sys2Proof.Machine

/-- A write that verifies changes the counts and the places of blocks only. -/
theorem Nv.wrote_frame (nv : Nv) (b : Nat) :
    nv.wrote b = { nv with wear := (nv.wrote b).wear, worn := (nv.wrote b).worn, place := (nv.wrote b).place } := by
  unfold Nv.wrote
  simp only []
  split
  · rfl
  · split
    · split <;> rfl
    · rfl

@[simp] theorem Nv.wrote_bad (nv : Nv) (b : Nat) : (nv.wrote b).bad = nv.bad := by rw [Nv.wrote_frame]
@[simp] theorem Nv.wrote_klog (nv : Nv) (b : Nat) : (nv.wrote b).klog = nv.klog := by rw [Nv.wrote_frame]
@[simp] theorem Nv.wrote_clearing (nv : Nv) (b : Nat) : (nv.wrote b).clearing = nv.clearing := by rw [Nv.wrote_frame]
@[simp] theorem Nv.wrote_clears (nv : Nv) (b : Nat) : (nv.wrote b).clears = nv.clears := by rw [Nv.wrote_frame]
@[simp] theorem Nv.wrote_pwr (nv : Nv) (b : Nat) : (nv.wrote b).pwr = nv.pwr := by rw [Nv.wrote_frame]
@[simp] theorem Nv.wrote_minutes (nv : Nv) (b : Nat) : (nv.wrote b).minutes = nv.minutes := by rw [Nv.wrote_frame]
@[simp] theorem Nv.wrote_bisque (nv : Nv) (b : Nat) : (nv.wrote b).bisque = nv.bisque := by rw [Nv.wrote_frame]
@[simp] theorem Nv.wrote_glaze (nv : Nv) (b : Nat) : (nv.wrote b).glaze = nv.glaze := by rw [Nv.wrote_frame]
@[simp] theorem Nv.wrote_copyA (nv : Nv) (b : Nat) : (nv.wrote b).copyA = nv.copyA := by rw [Nv.wrote_frame]
@[simp] theorem Nv.wrote_copyB (nv : Nv) (b : Nat) : (nv.wrote b).copyB = nv.copyB := by rw [Nv.wrote_frame]
@[simp] theorem Nv.wrote_keys (nv : Nv) (b : Nat) : (nv.wrote b).keys = nv.keys := by rw [Nv.wrote_frame]
@[simp] theorem Nv.wrote_openFuse (nv : Nv) (b : Nat) : (nv.wrote b).openFuse = nv.openFuse := by rw [Nv.wrote_frame]
@[simp] theorem Nv.wrote_digest (nv : Nv) (b : Nat) : (nv.wrote b).digest = nv.digest := by rw [Nv.wrote_frame]
@[simp] theorem Nv.wrote_factory (nv : Nv) (b : Nat) : (nv.wrote b).factory = nv.factory := by rw [Nv.wrote_frame]
@[simp] theorem Nv.wrote_spares (nv : Nv) (b : Nat) : (nv.wrote b).spares = nv.spares := by rw [Nv.wrote_frame]

/-- While no block fails, every write takes place. -/
theorem Dev.mramWrite_good (d : Dev) (b : Nat) (told : Bool) (h : d.nv.bad = []) :
    d.mramWrite b told = ({ d with nv := d.nv.wrote b }, true) := by
  simp [Dev.mramWrite, h]

/-- While no block fails, several writes take place one after another. -/
theorem Dev.mramWrites_good (blocks : List Nat) (d : Dev) (h : d.nv.bad = []) :
    d.mramWrites blocks = ({ d with nv := blocks.foldl Nv.wrote d.nv }, true) := by
  unfold Dev.mramWrites
  induction blocks generalizing d with
  | nil => rfl
  | cons b bs ih =>
    simp only [List.foldl_cons, if_true, d.mramWrite_good b true h]
    exact ih { d with nv := d.nv.wrote b } (by simpa using h)

/-- What several writes leave alone. -/
theorem Nv.wrotes_frame (blocks : List Nat) (nv : Nv) :
    ∃ w n p, blocks.foldl Nv.wrote nv = { nv with wear := w, worn := n, place := p } := by
  induction blocks generalizing nv with
  | nil => exact ⟨nv.wear, nv.worn, nv.place, rfl⟩
  | cons b bs ih =>
    obtain ⟨w, n, p, e⟩ := ih (nv.wrote b)
    exact ⟨w, n, p, by rw [List.foldl_cons, e, nv.wrote_frame b]⟩

/-- The log header takes new counts while no block fails. -/
theorem Dev.headerWrite_good (d : Dev) (f : Nv → Nv) (h : (f d.nv).bad = []) :
    d.headerWrite f = { d with nv := (f d.nv).wrote klogBase } := by
  simp [Dev.headerWrite, ({ d with nv := f d.nv } : Dev).mramWrite_good klogBase true h]

end Sys2Proof.Machine
end

