-- ==== Sys2Proof/Machine/Timers.lean ====
section
/-! DEFINITION. The intervals that registers set, each with the command that comes when it has passed. The commands bring the time:
the model counts TIME ticks, and asks no command whether its interval has passed (DESIGN CHOICE: log entry 171). -/

namespace Sys2Proof.Machine

/-- Nanoseconds of a number of milliseconds. -/
def nsOfMs (n : Nat) : Nat := n * 1000000

/-- QUAL_TIME_EXPIRY: a reference has met its criteria for qual_time, in ns (R35). -/
def Dev.qualTime (d : Dev) : Nat := nsOfMs (100 * d.fld R.CK_TIMER_CFG F.CK_TIMER_CFG_qual_time)

/-- HOLD_LIMIT_EXPIRY: the time core has been in HOLD for hold_limit, in ns (R147). -/
def Dev.holdLimit (d : Dev) : Nat := nsOfMs (1000 * d.fld R.TC_VALID_CFG F.TC_VALID_CFG_hold_limit)

/-- CAL_TURN_START: the time from one code-density turn to the next, a 128th of the period, in ns; 0 runs none (R173). -/
def Dev.turnTime (d : Dev) : Nat := nsOfMs (1000 * d.fld R.EC_GL_CAL F.EC_GL_CAL_period) / 128

/-- STREAM_FRAME_FLUSH: the age at which the frame being gathered for template t leaves unfilled, in ns (R182). -/
def Dev.flushTime (d : Dev) (t : Nat) : Nat := 1000 * max 1 (d.fld (R.EC_STREAM_CFG t) F.EC_STREAM_CFG_flush)

/-- READOUT_CHANNEL: how long a readout waits for the records of its window, in ns (R218). -/
def Dev.readoutWait (d : Dev) : Nat := 1000 * d.fld R.TG_EXEC_CFG F.TG_EXEC_CFG_ro_wait

/-- MC_HOLD_EXPIRY: how long a multicast target may hold its frame back, in ns (R248). -/
def Dev.mcHoldTime (d : Dev) : Nat := 1000 * d.fld R.SW_MC_HOLD F.SW_MC_HOLD_limit

/-- DOWN_GRACE_EXPIRY: how long the frames of a lost link are kept, in ns (R249). -/
def Dev.graceTime (d : Dev) : Nat := nsOfMs (d.fld R.SW_DOWN_CFG F.SW_DOWN_CFG_grace)

/-- CHURN_STEP: CORE cycles from one line to the next, and the walk of all lines in CORE cycles (R362). -/
def Dev.churnInterval (d : Dev) : Nat := d.fld R.MI_CHURN_CFG F.MI_CHURN_CFG_interval
/-- CORE cycles of one walk. -/
def Dev.churnWalk (d : Dev) : Nat := walkTotal * d.churnInterval

/-- BANK_TEST_START: minutes from one online turn to the next; 0 acts as 1 (R365). -/
def Dev.bankTestMinutes (d : Dev) : Nat := max 1 (d.fld R.MI_BIST_CFG F.MI_BIST_CFG_period)

/-- CLAIM_TIMEOUT: how long ACT_IN has been low when a WAITING device claims, in ns (R408). -/
def Dev.claimTime (d : Dev) : Nat :=
  nsOfMs (d.fld R.PS_PAIR_CFG F.PS_PAIR_CFG_claim_wait + if d.pins.pairRole then 50 else 0)

/-- WATCHDOG_EXPIRY: the time since the last write of PS_WDOG, in ns (R413, R420). -/
def Dev.watchdogTime (d : Dev) : Nat := nsOfMs (d.fld R.PS_WDOG F.PS_WDOG_period)

/-- TV_LIMIT_EXPIRY: how long TIME_VALID has been low, in ns (R413). -/
def Dev.tvLimitTime (d : Dev) : Nat := nsOfMs (1000 * d.fld R.PS_YIELD_CFG F.PS_YIELD_CFG_tv_limit)

end Sys2Proof.Machine
end

