-- ==== Sys2Proof/WellFormed.lean ====
section
/-! DEFINITION. Which commands are well formed: the operands have the shape the manual gives them. The meanings are total
and do not ask for it; a sender that keeps to the manual sends well-formed commands only. -/

namespace Sys2Proof

/-- What is wrong with a command. -/
inductive IllFormed
  /-- Sensor readings that are not sixteen (R373). -/
  | sensors
  /-- A nonlinearity table that has not 256 codes (R172). -/
  | table
  /-- A memory number above 14 (R348). -/
  | memory
  /-- A calibration kind that firing does not measure. -/
  | kind
  /-- TXP octets that are not as many as the descriptor's length says (R295). -/
  | length
  /-- An RXP buffer outside 256 to 16,384 octets (R296). -/
  | buffer
  /-- More inline octets than 24 (R297). -/
  | inlineData
  /-- Pause quanta that are not one for PAUSE, eight for PFC (R237). -/
  | quanta
  /-- An offset that is no multiple of four (R422). -/
  | offset
  /-- A reserved access that names a register (R424). -/
  | notReserved
  /-- A clearing read that names no clear-on-read register (R8). -/
  | notClearing
  /-- Rails, eyes or lane counts that are not seven, 64 and 64 (R400). -/
  | telemetry
  /-- A key that is not 32 octets (R414). -/
  | key
  deriving DecidableEq, Repr

/-- `e` unless `ok`. -/
def needs (ok : Bool) (e : IllFormed) : Option IllFormed := if ok then none else some e

/-- The checks of the errors of table reads. -/
def memOk (errs : List MemErr) : Bool := errs.all fun e => e.mem ≤ 11

/-- A host command's descriptor. -/
def CmdDesc.check (d : CmdDesc) : Option IllFormed := needs (!d.inline || d.data.length ≤ 24) .inlineData

/-- Does the BAR0 offset name a clear-on-read register? -/
def clearsOnRead (o : Nat) : Bool :=
  match Machine.regSpec o with
  | some r => r.fields.any fun f => f.acc == .rc
  | none => false

/-- What is wrong with a command; none when it is well formed. -/
def Instr.check : Instr → Option IllFormed
  | .resetRelease temps | .sensorUpdate temps => needs (temps.length == 16) .sensors
  | .firingCalibrationDone temps results =>
    if temps.length != 16 then some .sensors
    else needs (results.all fun m => [6, 7, 8, 12].contains m.kind) .kind
  | .firingBistDone fails => needs (fails.all fun f => f.mem ≤ 14) .memory
  | .calTurnEnd _ _ _ table => needs (table.length == 256) .table
  | .calMeasurementEnd _ table => needs (table == [] || table.length == 256) .table
  | .classify _ errs | .decisionExecute errs _ => needs (memOk errs) .memory
  | .egressSchedule _ x => needs (memOk x.errs) .memory
  | .pfcReceived _ pfc _ quanta => needs (quanta.length == if pfc then 8 else 1) .quanta
  | .txpDescriptor _ d | .hostMemoryError (.frame _ d) =>
    needs (d.octets.length == d.len.toNat || d.len.toNat < 14 || 16380 < d.len.toNat) .length
  | .rxpFill _ bufs => needs (bufs.all fun b => 256 ≤ b.len.toNat && b.len.toNat ≤ 16384) .buffer
  | .tblWrite d | .emAdd d | .emRemove d | .tsqRead d _ | .ctrSnapshot d | .klogRead d | .klogClearBegin d
  | .klogClearFinish d | .dtcSubmit d | .primSubmit d | .decSubmit d | .nop d | .badOpcode _ d | .bankSwap d
  | .hostMemoryError (.data _ d) => d.check
  | .correctedWriteBack mem _ | .lineRestoreDone mem _ _ _ | .refetchRetry mem _ => needs (mem ≤ 11) .memory
  | .telemetryRecord m => needs (m.rails.length == 7 && m.eyes.length == 64 && m.fec.length == 64) .telemetry
  | .keyWrite _ key => needs (key.length == 32) .key
  | .registerWrite _ off _ _ => needs (off.toNat % 4 == 0) .offset
  | .reservedAccess off _ =>
    if off.toNat % 4 != 0 then some .offset else needs (Machine.regSpec off.toNat).isNone .notReserved
  | .clearingRead off => needs (clearsOnRead off.toNat) .notClearing
  | _ => none

/-- A command whose operands have the shape the manual gives them. -/
def Instr.wf (i : Instr) : Bool := i.check == none

end Sys2Proof
end

