-- ==== Sys2Proof/Tests/Slice0.lean ====
section
/-! SUPPORT. Tests: a term that each check of WellFormed refuses, values of the spec's own examples, and for every statement
with hypotheses a state and operands that meet those of each of its clauses together. -/

open Sys2Proof Sys2Proof.Machine

namespace Sys2Proof.Tests

/-! ## States and operands -/

/-- The device in glaze, every register at its reset value. -/
def glazeDev : Dev := { State.reset.dev with stage := .glaze }

/-- A device with fields set. -/
def withFields (d : Dev) (xs : List (Nat × Field × Nat)) : Dev := xs.foldl (fun d x => d.setFld x.1 x.2.1 x.2.2) d

/-- A state with an empty queue. -/
def stateOf (d : Dev) : State := { pending := [], dev := d }

/-- A lane that is port 0's only one. -/
def lane0 : Lane := { Lane.reset with port := some 0, width := 1 }

/-- A word whose low 16 bits are the CRC-16 of the rest. -/
def crcWord (v : Nat) : Word64 := BitVec.ofNat 64 (v * 65536 + crc16 64 (v * 65536))

/-- A block whose low 16 bits are the CRC-16 of the rest. -/
def crcBlock (v : Nat) : BitVec 256 := BitVec.ofNat 256 (v * 65536 + crc16 256 (v * 65536))

/-- A coincidence unit's entry: one input slot of source count at least 1. -/
def entry0 : List Word := 0x40000001#32 :: List.replicate 11 0 ++ [0x2000#32, 0, 0, 0]

/-- A running coincidence unit. -/
def unit0 : UnitRun := { entry := entry0, wins := [], next := 0, cancel := none, prescale := 0, outs := [], heldAt := none }

/-- A device with unit u in ON. -/
def devUnit (u : Nat) (x : UnitRun) : Dev :=
  (withFields glazeDev [(R.TG_CU_CTRL u, F.TG_CU_CTRL_state, 2), (R.TC_STATUS, F.TC_STATUS_time_valid, 1)]).setUnitRun u x

/-- A window that holds nothing. -/
def win0 : Win := { start := 40, counts := List.replicate 8 0, first := none, tDec := none }

/-- A window with a count in its first slot. -/
def win1 : Win := { start := 20, counts := 3 :: List.replicate 7 0, first := none, tDec := none }

/-- A unit's output. -/
def out0 : UnitOut := { tDec := 9000, first := none }

/-- A decision received. -/
def dec0 : Dec :=
  { action := 0, origin := 3, srcId := 4, dclass := 0, tExec := 90000, tDec := 80000, loc := false, down := false, rcvd := true, unit := none,
    host := none }

/-- The same in the pending store. -/
def pend0 : PendDec :=
  { dec := dec0, entered := 0, late := false, dtcDone := false, started := false, tStart := 0, teStart := 0, act := [],
    readout := [] }

/-- An edge record of channel 0. -/
def edge0 : EdgeRec :=
  { kind := 0, aux := 0, window := 0, chan := 0, seq := 5, late := false, stale := false, invalid := false, fall := false,
    te := 1, t48 := 777, dest := .none, made := 0 }

/-- A frame of 64 octets from port 0. -/
def frame0 : Frame :=
  { id := 5, port := 0, octets := List.replicate 12 0x11#8 ++ [0x12#8, 0x34#8] ++ List.replicate 50 0, cls := none, stamp := 0, te := 0,
    invalid := false, second := none, direct := none, tx := none, err := false }

/-- A PFC frame that pauses class 1 for one quantum. -/
def pfcOctets : List Byte :=
  let body : List Byte := [0x01, 0x80, 0xC2, 0, 0, 1] ++ List.replicate 6 0 ++ [0x88, 0x08, 1, 1, 0, 2, 0, 0, 0, 1] ++ List.replicate 38 0
  body ++ fcs body

/-- The same between spreader and resequencer. -/
def fly0 : Fly :=
  { frame := frame0, seq := 0, pipe := 0, bank := 0, epoch := 0, verdict := none, cls := 2, edited := frame0.octets,
    config := [], rule := 0 }

/-- The same, its head cell assigned under the registers of a device. -/
def flyIn (d : Dev) : Fly := { fly0 with config := d.regs.filter fun e => headConfig e.1 }

/-- Its entry in a queue. -/
def entryOf0 : QEntry :=
  { id := 5, cls := 2, octets := frame0.octets, frame := frame0, multi := false, whey := none, bank := 0, epoch := 0, tag := 0 }

/-- Its transmission. -/
def run0 : TxRun := { entry := entryOf0, sent := frame0.octets, bad := false, left := [] }

/-- A device with parts of the switch core set. -/
def devSw (d : Dev) (x : Sw) : Dev := { d with sw := x }

/-- A device in glaze whose ring 0 is a command ring with one command waiting, and ring 1 its completion ring. -/
def ringDev : Dev :=
  withFields { glazeDev with hr := { Hr.reset with linkUp := true } } [(R.HR_RING_CFG 0, F.HR_RING_CFG_type, 1), (R.HR_RING_CFG 0, F.HR_RING_CFG_size_log2, 6),
    (R.HR_RING_CFG 0, F.HR_RING_CFG_cpl_ring, 1), (R.HR_RING_CTRL 0, F.HR_RING_CTRL_state, 2), (R.HR_RING_HIDX 0, F.HR_RING_HIDX_hidx, 1),
    (R.HR_RING_CFG 1, F.HR_RING_CFG_type, 2), (R.HR_RING_CFG 1, F.HR_RING_CFG_size_log2, 6), (R.HR_RING_CTRL 1, F.HR_RING_CTRL_state, 2)]

/-- A command of ring 0 with inline data. -/
def cmd0 : CmdDesc :=
  { ring := 0, inline := true, count := 1, arg0 := 0, addr := 0, arg1 := 0, cookie := 0xC0, data := [] }

/-- A decision: two words with its CRC-8. -/
def decWord : Nat :=
  let v := 2 * 2 ^ 124 + 5 * 2 ^ 80 + 3 * 2 ^ 60
  v + crc8 120 (v / 256)

/-! ## Well-formedness: a term that each check refuses. -/

/-- A host command with 25 inline octets. -/
def longCmd : CmdDesc := { cmd0 with data := List.replicate 25 0 }

/-- A TXP descriptor of 64 octets that carries none. -/
def shortTxp : TxpDesc :=
  { bufAddr := 0, len := 64, tsId := 0, tsReq := false, oneStep := false, direct := false, cpl := false, port := 0, tsRef := 0,
    cookie := 0, octets := [] }

theorem test_wf_refuses_sensors : (Instr.sensorUpdate []).check = some .sensors := by decide
theorem test_wf_refuses_firing_kind :
    (Instr.firingCalibrationDone (List.replicate 16 0) [{ kind := 5, index := 0, a := 0, b := 0, table := [] }]).check =
      some .kind := by decide
theorem test_wf_refuses_memory : (Instr.firingBistDone [{ mem := 15, row := 0 }]).check = some .memory := by decide
theorem test_wf_refuses_table : (Instr.calMeasurementEnd 0 [0]).check = some .table := by decide
theorem test_wf_refuses_quanta : (Instr.pfcReceived 0 true 0 [0]).check = some .quanta := by decide
theorem test_wf_refuses_length : (Instr.txpDescriptor 0 shortTxp).check = some .length := by decide
theorem test_wf_refuses_buffer : (Instr.rxpFill 0 [{ addr := 0, len := 255 }]).check = some .buffer := by decide
theorem test_wf_refuses_inline_data : (Instr.nop longCmd).check = some .inlineData := by decide
theorem test_wf_refuses_offset : (Instr.registerWrite .bar0 2 15 0).check = some .offset := by decide +kernel
theorem test_wf_refuses_named_offset : (Instr.reservedAccess 0x10000 true).check = some .notReserved := by decide +kernel
theorem test_wf_refuses_plain_read : (Instr.clearingRead 0x10000).check = some .notClearing := by decide +kernel
theorem test_wf_refuses_telemetry :
    (Instr.telemetryRecord { rails := [], power := 0, eyes := [], fec := [] }).check =
      some .telemetry := by decide
theorem test_wf_refuses_key : (Instr.keyWrite 0 []).check = some .key := by decide
theorem test_wf_takes_nop : (Instr.nop cmd0).wf = true := by decide

/-! ## The interface -/

theorem test_no_word_spells_a_command : decodeTableWord 16 0x1234 = none := by decide
theorem test_empty_queue_idles : step State.reset = .next State.reset := rfl

/-- The device after a command, or the device before it where the command stops. -/
def after (c : Instr) (s : State) : State :=
  match exec c s with
  | .next t => t
  | _ => s

/-! ## Values of the spec's own examples -/

/-- The kiln-log example of chapter 15: the bytes of a refused step. -/
theorem test_refused_step_record :
    ((({ glazeDev with nv := { glazeDev.nv with pwr := 37, minutes := 1000000 } } : Dev).recStep 2 3 1
      (-98304000)).klogQueue) =
      [[0x25, 0x00, 0x10, 0x05, 0x40, 0x42, 0x0F, 0x00, 0x02, 0x03, 0x01, 0x00, 0x00, 0x00, 0x24, 0xFA, 0xFF, 0xFF, 0x00,
        0x00]] := by decide +kernel

/-- R393: as shipped the log uses 24 bytes in one record. -/
theorem test_shipped_log : Nv.shipped.klogUsed = 24 ∧ Nv.shipped.klog.length = 1 := by decide +kernel

/-- The bandwidth example of R399. -/
theorem test_bandwidth_example : bwRate 8750000000 100 = 0x0AAE60 := by decide

/-- The interpolation example of R375: factory values and deltas at 45 and 65 °C, the sensor at 57.25 °C. -/
theorem test_interpolation_example :
    ((({ withFields glazeDev [(R.CA_TEMP 0, F.CA_TEMP_temp, 916)] with
        nv := { glazeDev.nv with factory := [(setKey (itemKey 0 0 0) 4, 126563), (setKey (itemKey 0 0 0) 5, 127035)] }
        ca := { Ca.reset with live := [(setKey (itemKey 0 0 0) 4, 98), (setKey (itemKey 0 0 0) 5, 72)] } } : Dev).itemValue
      0 0 0)) = 0x1EFD6 := by decide +kernel

/-- The calibration example of R383: A = 223 and B = 269 agree, and D = 246. -/
theorem test_calibration_example : agreeDelay 223 269 = true ∧ meanOf 223 269 = 246 := by decide

/-- The enumeration example of chapter 12: the acc of branch 3, over 25,480 ns of fibre at 1 word in 8. -/
theorem test_acc_of_branch_3 :
    (withFields glazeDev [(R.GL_CTRL, F.GL_CTRL_enum_root, 1), (R.LK_STATUS 0, F.LK_STATUS_ver, 3),
      (R.LK_STATUS 0, F.LK_STATUS_share_now, 3), (R.LK_DLY_RTT_LO 0 0, ⟨31, 0⟩, 3339714560)]).accChild 0 = 0x63D24 := by
  decide +kernel

/-- The example of R425: two writes set PPS_OUT0 to 3 s, while the counter reads 2 s. -/
theorem test_pps_next_example :
    let s1 := after (.registerWrite .bar0 0x10788 15 0x5E000000) (stateOf { glazeDev with tc := { Tc.reset with acc := 2000000000 * 2 ^ 40 } })
    let s2 := after (.registerWrite .bar0 0x1078C 15 0xB2D0) s1
    s2.dev.view (R.CK_PPS_NEXT_HI 0) = 0xB2D0#32 ∧ s2.dev.view (R.CK_PPS_NEXT_LO 0) = 0x5E000000#32 := by decide +kernel

/-- R421: a write to a reserved offset is recorded with kind 2. -/
theorem test_reserved_write :
    (after (.reservedAccess 0xE000C true) (stateOf glazeDev)).dev.fld R.GL_ACCESS_ERR F.GL_ACCESS_ERR_kind = 2 := by
  decide +kernel

/-- The frame of R317's example: 1,514 octets are 190 words, with nb = 1 in the last. -/
theorem test_pail_frame :
    (pailWords (List.replicate 1514 0) false).length = 190 ∧
      ((pailWords (List.replicate 1514 0) false).getLast?.map fun w => bits w.sb.toNat 7 4) = some 9 := by decide +kernel

/-- FIPS 180-4: the digest of the octets of "abc" begins with CB00 753F 45A3 5E8B. -/
theorem test_sha384_of_abc :
    (Crypto.sha384 [0x61, 0x62, 0x63]).take 8 = [0xCB, 0x00, 0x75, 0x3F, 0x45, 0xA3, 0x5E, 0x8B] := by decide +kernel

/-- R327: SAFE answers a register access, and a reset leads to OFF. -/
theorem test_safe_to_off :
    (after .resetAssert (stateOf { glazeDev with stage := .safe })).dev.stage = .off := by decide +kernel

/-! ## The hypotheses of the statements are met -/

theorem witness_References :
    (∃ (s : State), s.Up ∧ s.dev.ca.op = none) ∧
    (∃ (s : State) (n : Fin 68), s.Up ∧ s.dev.ca.op = none ∧ s.dev.flag (R.CK_REF_STATUS n) F.CK_REF_STATUS_active = false) ∧
    (∃ (s : State) (n : Fin 68) (ppt : Int), s.Up ∧ s.dev.ca.op = none ∧ s.dev.isPps n = false ∧ s.dev.rootLocked = true ∧ s.dev.flag (R.CK_REF_STATUS n) F.CK_REF_STATUS_active = true ∧ ppt.natAbs < 2 ^ 31) ∧
    (∃ (s : State) (n : Fin 68), s.Up ∧ s.dev.ca.op = none ∧ s.dev.qual n = 1 ∧ (s.dev.refH n).disqOnce = false) ∧
    (∃ (s : State) (n : Fin 68), s.Up ∧ s.dev.ca.op = none ∧ s.dev.qual n = 1 ∧ (s.dev.refH n).disqOnce = true ∧ s.dev.cleaner ≠ 5) ∧
    (∃ (s : State) (n : Fin 68), s.Up ∧ s.dev.ca.op = none ∧ s.dev.qual n = 1 ∧ (s.dev.refH n).disqOnce = true ∧ s.dev.cleaner = 5) ∧
    (∃ (s : State) (n : Fin 68), s.Up ∧ s.dev.ca.op = none ∧ s.dev.qual n = 2 ∧ s.dev.cleaner ≠ 5) ∧
    (∃ (s : State) (n : Fin 68), s.Up ∧ s.dev.ca.op = none ∧ s.dev.qual n = 2 ∧ s.dev.cleaner = 5) ∧
    (∃ (s : State) (n : Fin 68) (w : Word), s.Up ∧ s.dev.ca.op = none ∧ s.dev.qual n = 2 ∧ getField w F.CK_REF_CFG_wtr_clear = 1 ∧ getField w F.CK_REF_CFG_freq = s.dev.fld (R.CK_REF_CFG n) F.CK_REF_CFG_freq) :=
  ⟨⟨(stateOf (withFields glazeDev [(R.CK_REF_STATUS 0, F.CK_REF_STATUS_active, 1)])), by decide +kernel⟩,
   ⟨(stateOf (glazeDev)), 0, by decide +kernel⟩,
   ⟨(stateOf (withFields glazeDev [(R.CK_SYN_STATUS, F.CK_SYN_STATUS_locked, 1), (R.CK_REF_STATUS 0, F.CK_REF_STATUS_active, 1)])), 0, 9200000, by decide +kernel⟩,
   ⟨(stateOf (withFields glazeDev [(R.CK_REF_STATUS 0, F.CK_REF_STATUS_qual, 1)])), 0, by decide +kernel⟩,
   ⟨(stateOf ((withFields glazeDev [(R.CK_REF_STATUS 0, F.CK_REF_STATUS_qual, 1)] : Dev).setRefH 0 { RefH.reset with disqOnce := true })), 0, by decide +kernel⟩,
   ⟨(stateOf ((withFields glazeDev [(R.CK_REF_STATUS 0, F.CK_REF_STATUS_qual, 1), (R.CK_STATUS, F.CK_STATUS_state, 5)] : Dev).setRefH 0 { RefH.reset with disqOnce := true })), 0, by decide +kernel⟩,
   ⟨(stateOf (withFields glazeDev [(R.CK_REF_STATUS 0, F.CK_REF_STATUS_qual, 2)])), 0, by decide +kernel⟩,
   ⟨(stateOf (withFields glazeDev [(R.CK_REF_STATUS 0, F.CK_REF_STATUS_qual, 2), (R.CK_STATUS, F.CK_STATUS_state, 5)])), 0, by decide +kernel⟩,
   ⟨(stateOf (withFields glazeDev [(R.CK_REF_STATUS 0, F.CK_REF_STATUS_qual, 2)])), 0, (putField (putField (0#32) F.CK_REF_CFG_wtr_clear 1) F.CK_REF_CFG_freq 1), by decide +kernel⟩⟩

theorem witness_CleanerRows :
    (∃ (s : State), s.Up ∧ s.dev.ck.buildOut = true) ∧
    (∃ (s : State), s.Up ∧ s.dev.cleaner = 2 ∧ s.dev.ck.buildOut = false) ∧
    (∃ (s : State), s.Up ∧ s.dev.cleaner = 2 ∧ s.dev.selRef < 68) ∧
    (∃ (s : State), s.Up ∧ s.dev.cleaner = 3 ∧ s.dev.fld R.CK_STATUS F.CK_STATUS_bw_now < s.dev.ck.bwFinal ∧ s.dev.ck.bwFinal < 16) ∧
    (∃ (s : State), s.Up ∧ s.dev.cleaner = 3 ∧ s.dev.fld R.CK_STATUS F.CK_STATUS_bw_now = s.dev.ck.bwFinal) ∧
    (∃ (s : State), s.Up ∧ (s.dev.cleaner = 3 ∨ s.dev.cleaner = 4)) ∧
    (∃ (s : State), s.Up ∧ s.dev.cleaner = 5 ∧ s.dev.ck.swLost = false ∧ s.dev.ck.swClose = true ∧ ((∀ n, n < 68 → (s.dev.refH n).held = false)) ∧ s.dev.choose.1 = some s.dev.selRef) :=
  ⟨⟨(stateOf ({ (withFields glazeDev [(R.CK_STATUS, F.CK_STATUS_state, 5)] : Dev) with ck := { Ck.reset with buildOut := true } })), by decide +kernel⟩,
   ⟨(stateOf (withFields glazeDev [(R.CK_STATUS, F.CK_STATUS_state, 2), (R.CK_STATUS, F.CK_STATUS_sel_ref, 3)])), by decide +kernel⟩,
   ⟨(stateOf (withFields glazeDev [(R.CK_STATUS, F.CK_STATUS_state, 2), (R.CK_STATUS, F.CK_STATUS_sel_ref, 3)])), by decide +kernel⟩,
   ⟨(stateOf ({ (withFields glazeDev [(R.CK_STATUS, F.CK_STATUS_state, 3), (R.CK_STATUS, F.CK_STATUS_bw_now, 11)] : Dev) with ck := { Ck.reset with bwFinal := 12 } })), by decide +kernel⟩,
   ⟨(stateOf ({ (withFields glazeDev [(R.CK_STATUS, F.CK_STATUS_state, 3), (R.CK_STATUS, F.CK_STATUS_bw_now, 12)] : Dev) with ck := { Ck.reset with bwFinal := 12 } })), by decide +kernel⟩,
   ⟨(stateOf (withFields glazeDev [(R.CK_STATUS, F.CK_STATUS_state, 4), (R.CK_STATUS, F.CK_STATUS_sel_ref, 3)])), by decide +kernel⟩,
   ⟨(stateOf ({ (withFields glazeDev [(R.CK_STATUS, F.CK_STATUS_state, 5), (R.CK_STATUS, F.CK_STATUS_sel_ref, 3), (R.CK_REF_STATUS 3, F.CK_REF_STATUS_qual, 3), (R.CK_REF_CFG 3, F.CK_REF_CFG_rank, 1), (R.CK_REF_CFG 3, F.CK_REF_CFG_freq, 2)] : Dev) with ck := { Ck.reset with swClose := true } })), by decide +kernel⟩⟩

theorem witness_HoldoverAndLock :
    (∃ (s : State), s.Up ∧ s.dev.cleaner = 4) ∧
    (∃ (s : State), s.Up ∧ s.dev.steeredState = true) ∧
    (∃ (s : State), s.Up ∧ s.dev.ck.episode = some .first ∧ s.dev.load = none) ∧
    (∃ (s : State), s.Up ∧ s.dev.rootLocked = true ∧ s.dev.pairState ≠ 3) ∧
    (∃ (s : State), s.Up ∧ s.dev.inFault = true ∧ s.dev.ck.idled = false) ∧
    (∃ (s : State), s.Up ∧ s.dev.ck.episode ≠ none ∧ s.dev.ck.restart = false ∧ s.dev.load = none ∧ s.dev.fld R.CK_SYN_STATUS F.CK_SYN_STATUS_attempts < 8) ∧
    (∃ (s : State), s.Up ∧ ∃ l, s.dev.load = some l ∧ l.recs = [] ∧ s.dev.stage = .bisque ∧ s.dev.rootLocked = false) :=
  ⟨⟨(stateOf (withFields glazeDev [(R.CK_STATUS, F.CK_STATUS_state, 4)])), by decide +kernel⟩,
   ⟨(stateOf (withFields glazeDev [(R.CK_STATUS, F.CK_STATUS_state, 6)])), by decide +kernel⟩,
   ⟨(stateOf ({ (glazeDev : Dev) with ck := { Ck.reset with episode := some .first } })), by decide +kernel⟩,
   ⟨(stateOf (withFields glazeDev [(R.CK_SYN_STATUS, F.CK_SYN_STATUS_locked, 1)])), by decide +kernel⟩,
   ⟨(stateOf (withFields glazeDev [(R.CK_STATUS, F.CK_STATUS_state, 7)])), by decide +kernel⟩,
   ⟨(stateOf ({ (withFields glazeDev [(R.CK_SYN_STATUS, F.CK_SYN_STATUS_attempts, 7), (R.CK_STATUS, F.CK_STATUS_state, 7)] : Dev) with ck := { Ck.reset with episode := some .loss } })), by decide +kernel⟩,
   ⟨(stateOf { (glazeDev : Dev) with stage := .bisque, load := some { kind := 1, recs := [], next := 0, refused := 0 } }), by decide +kernel, { kind := 1, recs := [], next := 0, refused := 0 }, by decide +kernel⟩⟩

theorem witness_ClockOutputs :
    (∃ (s : State), s.Up ∧ s.Inv ∧ s.dev.fld R.CK_SYNC_CFG F.CK_SYNC_CFG_mode = 0) ∧
    (∃ (s : State), s.Up ∧ s.Inv ∧ s.dev.fld R.CK_SYNC_CFG F.CK_SYNC_CFG_mode = 1 ∧ s.dev.rootLocked = true ∧ s.dev.ck.syncLast = none ∧ ((∀ k, k < 8 → s.dev.outState k ≠ enStopping))) ∧
    (∃ (s : State) (m : Fin 2), s.Up ∧ s.Inv ∧ s.dev.ppsState m = enOn ∧ s.dev.inFault = false) ∧
    (∃ (s : State) (m : Fin 2), s.Up ∧ s.Inv ∧ (s.dev.ppsOut m).pulsing = true) ∧
    (∃ (s : State) (n : Fin 8), s.Up ∧ s.Inv ∧ s.dev.inFault = false ∧ s.dev.stage ≠ .yielded ∧ s.dev.outState n = enStarting ∧ s.dev.flag (R.CK_OUT_CFG n) enField = true) ∧
    (∃ (s : State) (n : Fin 8), s.Up ∧ s.Inv ∧ s.dev.inFault = false ∧ s.dev.stage ≠ .yielded ∧ s.dev.outState n = enStopping ∧ s.dev.flag (R.CK_OUT_CFG n) enField = false) ∧
    (∃ (s : State) (m : Fin 2), s.Up ∧ s.Inv ∧ s.dev.inFault = false ∧ s.dev.stage ≠ .yielded ∧ s.dev.ppsState m = enStarting ∧ s.dev.flag (R.CK_PPS_CFG m) enField = true) ∧
    (∃ (s : State) (m : Fin 2), s.Up ∧ s.Inv ∧ s.dev.inFault = false ∧ s.dev.stage ≠ .yielded ∧ s.dev.ppsState m = enStopping ∧ s.dev.flag (R.CK_PPS_CFG m) enField = false ∧ (s.dev.ppsOut m).pulsing = false) :=
  ⟨⟨(stateOf (glazeDev)), by decide +kernel⟩,
   ⟨(stateOf (withFields glazeDev [(R.CK_SYNC_CFG, F.CK_SYNC_CFG_mode, 1), (R.CK_SYN_STATUS, F.CK_SYN_STATUS_locked, 1)])), by decide +kernel⟩,
   ⟨(stateOf (withFields glazeDev [(R.CK_PPS_CFG 1, F.CK_PPS_CFG_state, 2)])), 1, by decide +kernel⟩,
   ⟨(stateOf ((glazeDev : Dev).setPpsOut 1 { next := 640, heldLo := none, pulsing := true, fall := 0 })), 1, by decide +kernel⟩,
   ⟨(stateOf (withFields glazeDev [(R.CK_OUT_CFG 7, F.CK_OUT_CFG_state, 1), (R.CK_OUT_CFG 7, F.CK_OUT_CFG_enable, 1)])), 7, by decide +kernel⟩,
   ⟨(stateOf (withFields glazeDev [(R.CK_OUT_CFG 7, F.CK_OUT_CFG_state, 3)])), 7, by decide +kernel⟩,
   ⟨(stateOf (withFields glazeDev [(R.CK_PPS_CFG 1, F.CK_PPS_CFG_state, 1), (R.CK_PPS_CFG 1, F.CK_PPS_CFG_enable, 1)])), 1, by decide +kernel⟩,
   ⟨(stateOf (withFields glazeDev [(R.CK_PPS_CFG 1, F.CK_PPS_CFG_state, 3)])), 1, by decide +kernel⟩⟩

theorem witness_LaneEnable :
    (∃ (s : State) (n : Fin 64), s.Up ∧ s.dev.inFault = false ∧ s.dev.laneState n = enStarting ∧ s.dev.flag (R.LN_CTRL n) F.LN_CTRL_enable = true) ∧
    (∃ (s : State) (n : Fin 64), s.Up ∧ s.dev.inFault = false ∧ s.dev.laneState n = enStopping ∧ s.dev.flag (R.LN_CTRL n) F.LN_CTRL_enable = false ∧ s.dev.bringup n ≠ 6) ∧
    (∃ (s : State) (n : Fin 64) (w : Word), s.Up ∧ s.dev.inFault = false ∧ s.dev.laneState n = enOn ∧ getField w F.LN_CTRL_enable = 1 ∧ getField w F.LN_CTRL_dormant = 1 ∧ getField w F.LN_CTRL_restart = 0 ∧ s.dev.bringup n ≠ 6 ∧ s.dev.bringup n ≠ 11) ∧
    (∃ (s : State) (n : Fin 64) (w : Word), s.Up ∧ s.dev.inFault = false ∧ s.dev.laneState n = enOn ∧ getField w F.LN_CTRL_enable = 1 ∧ getField w F.LN_CTRL_dormant = 0 ∧ getField w F.LN_CTRL_restart = 0 ∧ s.dev.bringup n = 9 ∧ (s.dev.lane n).fast = false) ∧
    (∃ (s : State) (n : Fin 64) (w : Word), s.Up ∧ s.dev.inFault = false ∧ s.dev.laneState n = enOn ∧ getField w F.LN_CTRL_enable = 1 ∧ getField w F.LN_CTRL_dormant = 0 ∧ getField w F.LN_CTRL_restart = 1 ∧ 1 ≤ s.dev.bringup n ∧ s.dev.bringup n ≤ 5) ∧
    (∃ (s : State) (n : Fin 64), s.Up ∧ s.dev.inFault = false ∧ s.dev.bringup n = 9 ∧ s.dev.flag (R.LN_CFG n) F.LN_CFG_wake_on_signal = true ∧ (s.dev.lane n).fast = false ∧ (s.dev.lane n).trained = some (s.dev.rateNow n)) ∧
    (∃ (s : State) (n : Fin 64), s.Up ∧ s.dev.inFault = false ∧ s.dev.bringup n = 9 ∧ (s.dev.lane n).fast = true) ∧
    (∃ (s : State) (n : Fin 64) (w : Word), s.Up ∧ s.dev.inFault = false ∧ s.dev.laneState n = enOn ∧ getField w F.LN_CTRL_enable = 1 ∧ getField w F.LN_CTRL_dormant = 0 ∧ getField w F.LN_CTRL_restart = 0 ∧ s.dev.bringup n = 9 ∧ (s.dev.lane n).fast = false ∧ (s.dev.lane n).trained = some (s.dev.rateNow n)) ∧
    (∃ (s : State) (n : Fin 64) (w : Word) (r : Nat), s.Up ∧ s.dev.inFault = false ∧ s.dev.laneState n = enOn ∧ getField w F.LN_CTRL_enable = 1 ∧ getField w F.LN_CTRL_dormant = 1 ∧ getField w F.LN_CTRL_restart = 0 ∧ s.dev.bringup n = 8 ∧ (s.dev.lane n).trained = some r ∧ r < 8) :=
  ⟨⟨(stateOf ((withFields glazeDev [(R.LN_CTRL 0, F.LN_CTRL_state, 1), (R.LN_CTRL 0, F.LN_CTRL_enable, 1)] : Dev).setLane 0 lane0)), 0, by decide +kernel⟩,
   ⟨(stateOf ((withFields glazeDev [(R.LN_CTRL 0, F.LN_CTRL_state, 3)] : Dev).setLane 0 lane0)), 0, by decide +kernel⟩,
   ⟨(stateOf ((withFields glazeDev [(R.LN_CTRL 0, F.LN_CTRL_state, 2), (R.LN_CTRL 0, F.LN_CTRL_enable, 1), (R.LN_STATUS 0, F.LN_STATUS_bringup, 3)] : Dev).setLane 0 lane0)), 0, (putField (putField (0#32) F.LN_CTRL_enable 1) F.LN_CTRL_dormant 1), by decide +kernel⟩,
   ⟨(stateOf ((withFields glazeDev [(R.LN_CTRL 0, F.LN_CTRL_state, 2), (R.LN_CTRL 0, F.LN_CTRL_enable, 1), (R.LN_CTRL 0, F.LN_CTRL_dormant, 1), (R.LN_STATUS 0, F.LN_STATUS_bringup, 9)] : Dev).setLane 0 { lane0 with trained := some 1 })), 0, (putField (0#32) F.LN_CTRL_enable 1), by decide +kernel⟩,
   ⟨(stateOf ((withFields glazeDev [(R.LN_CTRL 0, F.LN_CTRL_state, 2), (R.LN_CTRL 0, F.LN_CTRL_enable, 1), (R.LN_STATUS 0, F.LN_STATUS_bringup, 5)] : Dev).setLane 0 lane0)), 0, (putField (putField (0#32) F.LN_CTRL_enable 1) F.LN_CTRL_restart 1), by decide +kernel⟩,
   ⟨(stateOf ((withFields glazeDev [(R.LN_STATUS 0, F.LN_STATUS_bringup, 9), (R.LN_CFG 0, F.LN_CFG_wake_on_signal, 1)] : Dev).setLane 0 { lane0 with trained := some 0 })), 0, by decide +kernel⟩,
   ⟨(stateOf ((withFields glazeDev [(R.LN_STATUS 0, F.LN_STATUS_bringup, 9)] : Dev).setLane 0 { lane0 with fast := true })), 0, by decide +kernel⟩,
   ⟨(stateOf ((withFields glazeDev [(R.LN_CTRL 0, F.LN_CTRL_state, 2), (R.LN_CTRL 0, F.LN_CTRL_enable, 1), (R.LN_CTRL 0, F.LN_CTRL_dormant, 1), (R.LN_STATUS 0, F.LN_STATUS_bringup, 9)] : Dev).setLane 0 { lane0 with trained := some 0 })), 0, (putField (0#32) F.LN_CTRL_enable 1), by decide +kernel⟩,
   ⟨(stateOf ((withFields glazeDev [(R.LN_CTRL 0, F.LN_CTRL_state, 2), (R.LN_CTRL 0, F.LN_CTRL_enable, 1), (R.LN_STATUS 0, F.LN_STATUS_bringup, 8)] : Dev).setLane 0 { lane0 with trained := some 3 })), 0, (putField (putField (0#32) F.LN_CTRL_enable 1) F.LN_CTRL_dormant 1), 3, by decide +kernel⟩⟩

theorem witness_LaneBringup :
    (∃ (s : State) (n : Fin 64), s.Up ∧ s.dev.bringup n = 2 ∧ s.dev.etherLane n = false ∧ s.dev.laneMode n ≠ 2 ∧ (s.dev.lane n).leaving = false ∧ s.dev.flag (R.LN_CFG n) F.LN_CFG_pol_auto = true ∧ (s.dev.lane n).port = some n.val ∧ (s.dev.lane n).width = 1 ∧ (s.dev.lane n).index = 0) ∧
    (∃ (s : State) (n : Fin 64), s.Up ∧ s.dev.bringup n = 1 ∧ s.dev.rungs n ≠ []) ∧
    (∃ (s : State) (n : Fin 64), s.Up ∧ s.dev.bringup n = 2 ∧ s.dev.etherLane n = false ∧ s.dev.laneMode n ≠ 2 ∧ (s.dev.lane n).leaving = true) ∧
    (∃ (s : State) (n : Fin 64) (ppm : Int), s.Up ∧ s.dev.bringup n = 3 ∧ ppm.natAbs ≤ 200 ∧ s.dev.laneMode n = 0) ∧
    (∃ (s : State) (n : Fin 64), s.Up ∧ s.dev.bringup n = 4 ∧ (s.dev.lane n).port = some n.val ∧ s.dev.portLanes n = 1 ∧ s.dev.isazu n = true ∧ s.dev.standby = false) ∧
    (∃ (s : State) (n : Fin 64), s.Up ∧ s.dev.bringup n = 4 ∧ s.dev.etherLane n = true ∧ s.dev.flag (R.LN_CFG n) F.LN_CFG_pol_auto = true ∧ (s.dev.lane n).retried = false) ∧
    (∃ (s : State) (n : Fin 64), s.Up ∧ (s.dev.bringup n = 2 ∨ s.dev.bringup n = 3) ∧ (s.dev.lane n).fast = false) ∧
    (∃ (s : State) (n : Fin 64), s.Up ∧ s.dev.bringup n = 10 ∧ ∃ r, (s.dev.rungsNext n).find? (fun r => decide (s.dev.rateNow n < r)) = some r) ∧
    (∃ (s : State) (n : Fin 64) (cw : Word64) (_conv : Bool), s.Up ∧ s.dev.bringup n = 2 ∧ s.dev.etherLane n = false ∧ s.dev.laneMode n ≠ 2 ∧ (s.dev.lane n).leaving = false ∧ s.dev.flag (R.LN_CFG n) F.LN_CFG_pol_auto = true ∧ (s.dev.lane n).port = some n.val ∧ (s.dev.lane n).width = 1 ∧ (s.dev.lane n).index = 0 ∧ bits cw.toNat 63 60 = 5 ∧ crc16 64 cw.toNat = cw.toNat % 2 ^ 16 ∧ bits cw.toNat 59 55 = 0) ∧
    (∃ (s : State) (n : Fin 64) (cw : Word64) (_conv : Bool), s.Up ∧ s.dev.bringup n = 2 ∧ s.dev.etherLane n = false ∧ s.dev.laneMode n ≠ 2 ∧ (s.dev.lane n).leaving = false ∧ s.dev.flag (R.LN_CFG n) F.LN_CFG_pol_auto = true ∧ (s.dev.lane n).port = some n.val ∧ (s.dev.lane n).width = 1 ∧ (s.dev.lane n).index = 0 ∧ bits cw.toNat 63 60 = 5 ∧ crc16 64 cw.toNat = cw.toNat % 2 ^ 16 ∧ bits cw.toNat 59 55 ≠ 0) :=
  ⟨⟨(stateOf ((withFields glazeDev [(R.LN_STATUS 0, F.LN_STATUS_bringup, 2), (R.LN_CFG 0, F.LN_CFG_pol_auto, 1)] : Dev).setLane 0 { lane0 with run := 15, ready := true })), 0, by decide +kernel⟩,
   ⟨(stateOf ((withFields glazeDev [(R.LN_STATUS 0, F.LN_STATUS_bringup, 1)] : Dev).setLane 0 lane0)), 0, by decide +kernel⟩,
   ⟨(stateOf ((withFields glazeDev [(R.LN_STATUS 0, F.LN_STATUS_bringup, 2)] : Dev).setLane 0 { lane0 with leaving := true })), 0, by decide +kernel⟩,
   ⟨(stateOf ((withFields glazeDev [(R.LN_STATUS 0, F.LN_STATUS_bringup, 3)] : Dev).setLane 0 lane0)), 0, -200, by decide +kernel⟩,
   ⟨(stateOf ((withFields glazeDev [(R.LN_STATUS 0, F.LN_STATUS_bringup, 4), (R.LK_PORT_CFG 0, F.LK_PORT_CFG_width, 1)] : Dev).setLane 0 lane0)), 0, by decide +kernel⟩,
   ⟨(stateOf ((withFields glazeDev [(R.LN_STATUS 0, F.LN_STATUS_bringup, 4), (R.LN_CFG 0, F.LN_CFG_pol_auto, 1)] : Dev).setLane 0 { lane0 with ethernet := true })), 0, by decide +kernel⟩,
   ⟨(stateOf ((withFields glazeDev [(R.LN_STATUS 0, F.LN_STATUS_bringup, 3)] : Dev).setLane 0 lane0)), 0, by decide +kernel⟩,
   ⟨(stateOf ((withFields glazeDev [(R.LN_STATUS 0, F.LN_STATUS_bringup, 10), (R.LN_RATE_CFG 0, F.LN_RATE_CFG_ladder, 1), (R.LN_RATE_CFG 0, F.LN_RATE_CFG_allowed, 3)] : Dev).setLane 0 lane0)), 0, by decide +kernel, by decide +kernel, 1, by decide +kernel⟩,
   ⟨(stateOf ((withFields glazeDev [(R.LN_STATUS 0, F.LN_STATUS_bringup, 2), (R.LN_CFG 0, F.LN_CFG_pol_auto, 1)] : Dev).setLane 0 { lane0 with run := 15, ready := true })), 0, crcWord (5 * 2 ^ 44 + 2 ^ 38), true, by decide +kernel⟩,
   ⟨(stateOf ((withFields glazeDev [(R.LN_STATUS 0, F.LN_STATUS_bringup, 2), (R.LN_CFG 0, F.LN_CFG_pol_auto, 1)] : Dev).setLane 0 { lane0 with run := 15, ready := true })), 0, crcWord (5 * 2 ^ 44 + 2 ^ 41), true, by decide +kernel⟩⟩

theorem witness_LaneLoss :
    (∃ (s : State) (n : Fin 64), s.Up ∧ (s.dev.lane n).port = some n.val ∧ (s.dev.lane n).width = 1 ∧ s.dev.laneMode n = 0 ∧ s.dev.bringup n = 6) ∧
    (∃ (s : State) (n : Fin 64), s.Up ∧ (s.dev.lane n).port = some n.val ∧ (s.dev.lane n).width = 1 ∧ s.dev.laneMode n = 0 ∧ s.dev.bringup n = 6 ∧ s.dev.gapHolds n = false) ∧
    (∃ (s : State) (n : Fin 64), s.Up ∧ (s.dev.lane n).port = some n.val ∧ (s.dev.lane n).width = 1 ∧ s.dev.laneMode n = 0 ∧ s.dev.bringup n = 6 ∧ s.dev.gapHolds n = true) ∧
    (∃ (s : State) (n : Fin 64), s.Up ∧ (s.dev.lane n).port = some n.val ∧ (s.dev.lane n).width = 1 ∧ s.dev.laneMode n = 0 ∧ s.dev.bringup n = 2 ∧ (s.dev.lane n).fast = false) ∧
    (∃ (s : State) (n : Fin 64), s.Up ∧ (s.dev.lane n).port = some n.val ∧ (s.dev.lane n).width = 1 ∧ s.dev.laneMode n = 0 ∧ s.dev.bringup n = 6 ∧ (s.dev.lane n).gap = true ∧ (s.dev.lane n).regained = false) ∧
    (∃ (s : State) (n : Fin 64), s.Up ∧ (s.dev.lane n).port = some n.val ∧ (s.dev.lane n).width = 1 ∧ s.dev.laneMode n = 0 ∧ s.dev.bringup n = 6 ∧ (s.dev.lane n).gap = true ∧ (s.dev.lane n).regained = true ∧ s.dev.flag (R.LN_STATUS n) F.LN_STATUS_cdr_lock = true) :=
  ⟨⟨(stateOf ((withFields glazeDev [(R.LN_STATUS 0, F.LN_STATUS_bringup, 6)] : Dev).setLane 0 lane0)), 0, by decide +kernel⟩,
   ⟨(stateOf ((withFields glazeDev [(R.LN_STATUS 0, F.LN_STATUS_bringup, 6)] : Dev).setLane 0 lane0)), 0, by decide +kernel⟩,
   ⟨(stateOf ((withFields glazeDev [(R.LN_STATUS 0, F.LN_STATUS_bringup, 6)] : Dev).setLane 0 { lane0 with gap := true })), 0, by decide +kernel⟩,
   ⟨(stateOf ((withFields glazeDev [(R.LN_STATUS 0, F.LN_STATUS_bringup, 2)] : Dev).setLane 0 lane0)), 0, by decide +kernel⟩,
   ⟨(stateOf ((withFields glazeDev [(R.LN_STATUS 0, F.LN_STATUS_bringup, 6)] : Dev).setLane 0 { lane0 with gap := true })), 0, by decide +kernel⟩,
   ⟨(stateOf ((withFields glazeDev [(R.LN_STATUS 0, F.LN_STATUS_bringup, 6), (R.LN_STATUS 0, F.LN_STATUS_cdr_lock, 1)] : Dev).setLane 0 { lane0 with gap := true, regained := true })), 0, by decide +kernel⟩⟩

theorem witness_LaneMeasures :
    (∃ (s : State) (n : Fin 64), s.Up ∧ s.dev.bringup n ≠ 2 ∧ s.dev.bringup n ≠ 6) ∧
    (∃ (s : State) (n : Fin 64), s.Up ∧ s.dev.checkerRuns n = true) ∧
    (∃ (s : State) (n : Fin 64), s.Up ∧ s.dev.checkerRuns n = true ∧ s.dev.flag (R.LN_TEST n) F.LN_TEST_chk_sync = true) ∧
    (∃ (s : State) (n : Fin 64), s.Up ∧ s.dev.laneState n = enOn ∧ s.dev.inFault = false ∧ s.dev.isVersion3 n = false) ∧
    (∃ (s : State) (n : Fin 64), s.Up ∧ s.dev.bringup n = 6 ∧ s.dev.inFault = false ∧ 0 < (s.dev.lane n).phN ∧ (s.dev.lane n).phSpoilt = false) ∧
    (∃ (s : State) (n : Fin 64), s.Up ∧ s.dev.bringup n = 6 ∧ s.dev.isVersion3 n = true ∧ s.dev.gapHolds n = false ∧ (s.dev.lane n).badMarks < 2) ∧
    (∃ (s : State) (n : Fin 64), s.Up ∧ s.dev.laneState n = enOn ∧ s.dev.inFault = false ∧ s.dev.isVersion3 n = false ∧ s.dev.checkerRuns n = true ∧ s.dev.flag (R.LN_TEST n) F.LN_TEST_chk_sync = true) :=
  ⟨⟨(stateOf ((withFields glazeDev [(R.LN_STATUS 0, F.LN_STATUS_bringup, 8)] : Dev).setLane 0 lane0)), 0, by decide +kernel⟩,
   ⟨(stateOf ((withFields glazeDev [(R.LN_STATUS 0, F.LN_STATUS_bringup, 8), (R.LN_TEST 0, F.LN_TEST_chk_pat, 7)] : Dev).setLane 0 lane0)), 0, by decide +kernel⟩,
   ⟨(stateOf ((withFields glazeDev [(R.LN_STATUS 0, F.LN_STATUS_bringup, 8), (R.LN_TEST 0, F.LN_TEST_chk_pat, 7), (R.LN_TEST 0, F.LN_TEST_chk_sync, 1)] : Dev).setLane 0 lane0)), 0, by decide +kernel⟩,
   ⟨(stateOf ((withFields glazeDev [(R.LN_CTRL 0, F.LN_CTRL_state, 2), (R.LN_STATUS 0, F.LN_STATUS_bringup, 6), (R.LN_STATUS 0, F.LN_STATUS_rate_now, 3)] : Dev).setLane 0 lane0)), 0, by decide +kernel⟩,
   ⟨(stateOf ((withFields glazeDev [(R.LN_STATUS 0, F.LN_STATUS_bringup, 6)] : Dev).setLane 0 { lane0 with phN := 3, phFirst := 7, phSum := 9 })), 0, by decide +kernel⟩,
   ⟨(stateOf ((withFields glazeDev [(R.LN_STATUS 0, F.LN_STATUS_bringup, 6)] : Dev).setLane 0 { lane0 with badMarks := 1 })), 0, by decide +kernel⟩,
   ⟨(stateOf ((withFields glazeDev [(R.LN_CTRL 0, F.LN_CTRL_state, 2), (R.LN_STATUS 0, F.LN_STATUS_bringup, 8), (R.LN_STATUS 0, F.LN_STATUS_rate_now, 3), (R.LN_TEST 0, F.LN_TEST_chk_pat, 7), (R.LN_TEST 0, F.LN_TEST_chk_sync, 1)] : Dev).setLane 0 lane0)), 0, by decide +kernel⟩⟩

theorem witness_PortRegisters :
    (∃ (s : State), s.Awake ∧ s.dev.stage ≠ .safe) ∧
    (∃ (s : State) (p : Fin 64), s.Awake ∧ s.dev.stage ≠ .safe ∧ s.dev.lanesOff p (s.dev.portLanes p) = true) ∧
    (∃ (s : State) (p : Fin 64) (w : Word), s.Awake ∧ s.dev.stage ≠ .safe ∧ s.dev.lanesOff p (s.dev.portLanes p) = true ∧ getField w F.LK_PORT_CFG_width = 1 ∧ s.dev.laneState p = enOff ∧ ((∀ q : Nat, q < 64 → q ≠ p.val → q + s.dev.portLanes q ≤ p ∨ p < q))) ∧
    (∃ (s : State) (p : Fin 64), s.Awake ∧ s.dev.stage ≠ .safe ∧ s.dev.lanesOff p (s.dev.portLanes p) = false ∧ ∃ r : PortReg, r ≠ .isz) ∧
    (∃ (s : State), s.Awake ∧ s.dev.stage ≠ .safe) ∧
    (∃ (s : State) (p : Fin 64), s.Awake ∧ s.dev.stage ≠ .safe ∧ s.dev.inFault = false ∧ s.dev.stage ≠ .yielded ∧ s.dev.fld (R.LK_PORT_CTRL p) F.LK_PORT_CTRL_state = enStarting ∧ s.dev.flag (R.LK_PORT_CTRL p) enField = true) ∧
    (∃ (s : State) (p : Fin 64), s.Awake ∧ s.dev.stage ≠ .safe ∧ s.dev.inFault = false ∧ s.dev.stage ≠ .yielded ∧ s.dev.fld (R.LK_PORT_CTRL p) F.LK_PORT_CTRL_state = enStopping ∧ s.dev.flag (R.LK_PORT_CTRL p) enField = false ∧ s.dev.txRun p = none) :=
  ⟨⟨(stateOf (glazeDev)), by decide +kernel⟩,
   ⟨(stateOf (glazeDev)), 0, by decide +kernel⟩,
   ⟨(stateOf (glazeDev)), 63, (putField (0#32) F.LK_PORT_CFG_width 1), by decide +kernel⟩,
   ⟨(stateOf (withFields glazeDev [(R.LK_PORT_CFG 0, F.LK_PORT_CFG_width, 1), (R.LN_CTRL 0, F.LN_CTRL_state, 2)])), 0, by decide +kernel, by decide +kernel, by decide +kernel, PortReg.port, by decide +kernel⟩,
   ⟨(stateOf (withFields glazeDev [(R.LK_MAC_LO 0, F.LK_MAC_LO_mac_lo, 99)])), by decide +kernel⟩,
   ⟨(stateOf (withFields glazeDev [(R.LK_PORT_CTRL 0, F.LK_PORT_CTRL_state, 1), (R.LK_PORT_CTRL 0, F.LK_PORT_CTRL_enable, 1)])), 0, by decide +kernel⟩,
   ⟨(stateOf (withFields glazeDev [(R.LK_PORT_CTRL 0, F.LK_PORT_CTRL_state, 3)])), 0, by decide +kernel⟩⟩

theorem witness_LinkBlocks :
    (∃ (s : State) (p : Fin 64) (w : Word64), s.Up ∧ s.dev.isazu p = true ∧ s.dev.rateNow p ≤ 1 ∧ capOk w = false) ∧
    (∃ (s : State) (p : Fin 64) (w : Word64), s.Up ∧ s.dev.isazu p = true ∧ s.dev.rateNow p ≤ 1 ∧ capOk w = true ∧ s.dev.allLanes p 5 = true ∧ (bit w.toNat 49 = false ∨ (s.dev.port p).sentAck = false)) ∧
    (∃ (s : State) (p : Fin 64) (w : Word64), s.Up ∧ s.dev.isazu p = true ∧ s.dev.rateNow p ≤ 1 ∧ capOk w = true ∧ s.dev.allLanes p 5 = true ∧ bit w.toNat 49 = true ∧ (s.dev.port p).sentAck = true ∧ s.dev.versionOk p w = false) ∧
    (∃ (s : State) (p : Fin 64) (w : Word64), s.Up ∧ s.dev.isazu p = true ∧ s.dev.rateNow p ≤ 1 ∧ capOk w = true ∧ s.dev.allLanes p 5 = true ∧ bit w.toNat 49 = true ∧ (s.dev.port p).sentAck = true ∧ s.dev.versionOk p w = true) ∧
    (∃ (s : State) (p : Fin 64) (q : Prim), s.Up ∧ s.Inv ∧ s.dev.trigLink p = true ∧ s.dev.portLanes p = 1 ∧ s.dev.isPairPort p = false ∧ q.srcId < 65536 ∧ q.t32p < 2 ^ 32 ∧ s.dev.engineOn = false) ∧
    (∃ (s : State) (p : Fin 64) (q : Prim), s.Up ∧ s.Inv ∧ s.dev.trigLink p = true ∧ s.dev.portLanes p = 1 ∧ s.dev.isPairPort p = false ∧ q.srcId < 65536 ∧ q.t32p < 2 ^ 32 ∧ s.dev.engineOn = true ∧ s.dev.noPrimitives p = false ∧ s.dev.relays p = false) ∧
    (∃ (s : State) (p : Fin 64) (q : Prim), s.Up ∧ s.Inv ∧ s.dev.trigLink p = true ∧ s.dev.portLanes p = 1 ∧ s.dev.isPairPort p = false ∧ q.srcId < 65536 ∧ q.t32p < 2 ^ 32 ∧ s.dev.engineOn = true ∧ s.dev.uplink = some p.val ∧ s.dev.txIdle p = false ∧ s.dev.inBandLink p = false) ∧
    (∃ (s : State) (p : Fin 64) (q : Prim), s.Up ∧ s.Inv ∧ s.dev.trigLink p = true ∧ s.dev.portLanes p = 1 ∧ s.dev.isPairPort p = false ∧ q.srcId < 65536 ∧ q.t32p < 2 ^ 32 ∧ s.dev.engineOn = false ∧ s.dev.txIdle p = false ∧ s.dev.inBandLink p = false) ∧
    (∃ (s : State) (p : Fin 64) (q : Prim), s.Up ∧ s.Inv ∧ s.dev.trigLink p = true ∧ s.dev.portLanes p = 1 ∧ s.dev.isPairPort p = false ∧ q.srcId < 65536 ∧ q.t32p < 2 ^ 32 ∧ s.dev.engineOn = true ∧ s.dev.txIdle p = false ∧ s.dev.inBandLink p = false ∧ s.dev.uplink ≠ some p.val) :=
  ⟨⟨(stateOf (withFields glazeDev [(R.LK_PORT_CFG 0, F.LK_PORT_CFG_width, 1)])), 0, 0, by decide +kernel⟩,
   ⟨(stateOf (withFields glazeDev [(R.LK_PORT_CFG 0, F.LK_PORT_CFG_width, 1), (R.LN_STATUS 0, F.LN_STATUS_bringup, 5)])), 0, (crcWord (6 * 2 ^ 44 + 7 * 2 ^ 41 + 3 * 2 ^ 39 + 0 * 2 ^ 33)), by decide +kernel⟩,
   ⟨(stateOf (((withFields glazeDev [(R.LK_PORT_CFG 0, F.LK_PORT_CFG_width, 1), (R.LN_STATUS 0, F.LN_STATUS_bringup, 5)] : Dev).setPort 0 { Port.reset with sentAck := true }))), 0, (crcWord (6 * 2 ^ 44 + 2 ^ 33)), by decide +kernel⟩,
   ⟨(stateOf (((withFields glazeDev [(R.LK_PORT_CFG 0, F.LK_PORT_CFG_width, 1), (R.LN_STATUS 0, F.LN_STATUS_bringup, 5)] : Dev).setPort 0 { Port.reset with sentAck := true }))), 0, (crcWord (6 * 2 ^ 44 + 7 * 2 ^ 41 + 3 * 2 ^ 39 + 1 * 2 ^ 33)), by decide +kernel⟩,
   ⟨(stateOf (withFields glazeDev [(R.LK_PORT_CFG 0, F.LK_PORT_CFG_width, 1), (R.LK_STATUS 0, F.LK_STATUS_link_up, 1), (R.LK_STATUS 0, F.LK_STATUS_share_now, 1)])), 0, { srcId := 5, pol := true, t32p := 77 }, by decide +kernel⟩,
   ⟨(stateOf (withFields glazeDev [(R.TG_CTRL, F.TG_CTRL_state, 2), (R.LK_PORT_CFG 0, F.LK_PORT_CFG_width, 1), (R.LK_STATUS 0, F.LK_STATUS_link_up, 1), (R.LK_STATUS 0, F.LK_STATUS_share_now, 1)])), 0, { srcId := 5, pol := true, t32p := 77 }, by decide +kernel⟩,
   ⟨(stateOf (({ (withFields glazeDev [(R.TG_CTRL, F.TG_CTRL_state, 2), (R.TG_UPLINK, F.TG_UPLINK_valid, 1), (R.LK_PORT_CFG 0, F.LK_PORT_CFG_width, 1), (R.LK_STATUS 0, F.LK_STATUS_link_up, 1), (R.LK_STATUS 0, F.LK_STATUS_share_now, 1)] : Dev) with tg := { Tg.reset with upward := [BitVec.ofNat 64 (Prim.word { srcId := 5, pol := true, t32p := 77 })] } } : Dev))), 0, { srcId := 5, pol := true, t32p := 77 }, by decide +kernel⟩,
   ⟨(stateOf (withFields glazeDev [(R.LK_PORT_CFG 0, F.LK_PORT_CFG_width, 1), (R.LK_STATUS 0, F.LK_STATUS_link_up, 1), (R.LK_STATUS 0, F.LK_STATUS_share_now, 1)])), 0, { srcId := 5, pol := true, t32p := 77 }, by decide +kernel⟩,
   ⟨(stateOf ({ (withFields glazeDev [(R.TG_CTRL, F.TG_CTRL_state, 2), (R.LK_PORT_CFG 0, F.LK_PORT_CFG_width, 1), (R.LK_STATUS 0, F.LK_STATUS_link_up, 1), (R.LK_STATUS 0, F.LK_STATUS_share_now, 1)] : Dev) with tg := { Tg.reset with staged := [(0, [dec0])] } })), 0, { srcId := 5, pol := true, t32p := 77 }, by decide +kernel⟩⟩

theorem witness_PortTraffic :
    (∃ (s : State) (p : Fin 64) (octets : List Byte), s.Up ∧ s.dev.ethernet p = true ∧ s.dev.carrying p = true ∧ s.dev.isPairPort p = false ∧ 64 ≤ octets.length ∧ octets.length ≤ s.dev.maxFrame p ∧ octets.drop (octets.length - 4) = fcs (octets.take (octets.length - 4)) ∧ s.dev.inFault = false ∧ macControl octets = none) ∧
    (∃ (s : State) (p : Fin 64) (octets : List Byte), s.Up ∧ s.dev.ethernet p = true ∧ s.dev.carrying p = true ∧ s.dev.isPairPort p = false ∧ octets.length < 256 ∧ (octets.length < 64 ∨ octets.drop (octets.length - 4) ≠ fcs (octets.take (octets.length - 4)))) ∧
    (∃ (s : State) (p : Fin 64), s.Up ∧ s.Inv ∧ s.dev.inFault = false ∧ s.dev.carrying p = true ∧ s.dev.isazu p = true) ∧
    (∃ (s : State) (p : Fin 64), s.Up ∧ s.Inv ∧ s.dev.inFault = false ∧ s.dev.carrying p = true ∧ s.dev.isazu p = true ∧ s.dev.txIdle p = false ∧ s.dev.ps.resync = false) ∧
    (∃ (s : State) (p : Fin 64), s.Up ∧ s.Inv ∧ s.dev.inFault = false ∧ s.dev.carrying p = true ∧ s.dev.ethernet p = true ∧ s.dev.fld (R.LK_ETH_CFG p) F.LK_ETH_CFG_fc = 2) ∧
    (∃ (s : State) (p : Fin 64) (c : Fin 8), s.Up ∧ s.Inv ∧ s.dev.inFault = false ∧ s.dev.carrying p = true ∧ s.dev.ethernet p = true ∧ bit (sGet 0 s.dev.sw.paused p) c = true) ∧
    (∃ (s : State) (p : Fin 64), s.Up ∧ s.Inv ∧ s.dev.inFault = false ∧ s.dev.carrying p = true ∧ s.dev.ethernet p = true ∧ s.dev.xoff p ≠ 0 ∧ s.dev.fld (R.LK_ETH_CFG p) F.LK_ETH_CFG_fc = 2 ∧ s.dev.txRun p = none ∧ sGet none s.dev.sw.fcDue p = none ∧ s.dev.txIdle p = false) ∧
    (∃ (s : State) (p : Fin 64) (octets : List Byte), s.Up ∧ s.dev.ethernet p = true ∧ s.dev.carrying p = true ∧ s.dev.isPairPort p = false ∧ 64 ≤ octets.length ∧ octets.length ≤ s.dev.maxFrame p ∧ octets.drop (octets.length - 4) = fcs (octets.take (octets.length - 4)) ∧ s.dev.inFault = false ∧ s.dev.fld (R.LK_ETH_CFG p) F.LK_ETH_CFG_fc = 2 ∧ ∃ classes quanta, macControl octets = some (true, classes, quanta)) :=
  ⟨⟨(stateOf (withFields glazeDev [(R.LK_PORT_CFG 0, F.LK_PORT_CFG_width, 1), (R.LK_PORT_CFG 0, F.LK_PORT_CFG_protocol, 1), (R.LK_PORT_CTRL 0, F.LK_PORT_CTRL_state, 2), (R.LK_STATUS 0, F.LK_STATUS_link_up, 1)])), 0, ((List.replicate 60 0x5A#8 ++ fcs (List.replicate 60 0x5A#8))), by decide +kernel⟩,
   ⟨(stateOf (withFields glazeDev [(R.LK_PORT_CFG 0, F.LK_PORT_CFG_width, 1), (R.LK_PORT_CFG 0, F.LK_PORT_CFG_protocol, 1), (R.LK_PORT_CTRL 0, F.LK_PORT_CTRL_state, 2), (R.LK_STATUS 0, F.LK_STATUS_link_up, 1)])), 0, (List.replicate 63 0), by decide +kernel⟩,
   ⟨(stateOf (withFields glazeDev [(R.LK_PORT_CFG 0, F.LK_PORT_CFG_width, 1), (R.LK_PORT_CTRL 0, F.LK_PORT_CTRL_state, 2), (R.LK_STATUS 0, F.LK_STATUS_link_up, 1)])), 0, by decide +kernel⟩,
   ⟨(stateOf (withFields glazeDev [(R.LK_PORT_CFG 0, F.LK_PORT_CFG_width, 1), (R.LK_PORT_CTRL 0, F.LK_PORT_CTRL_state, 2), (R.LK_STATUS 0, F.LK_STATUS_link_up, 1)])), 0, by decide +kernel⟩,
   ⟨(stateOf (withFields glazeDev [(R.LK_ETH_CFG 0, F.LK_ETH_CFG_fc, 2), (R.LK_PORT_CFG 0, F.LK_PORT_CFG_width, 1), (R.LK_PORT_CFG 0, F.LK_PORT_CFG_protocol, 1), (R.LK_PORT_CTRL 0, F.LK_PORT_CTRL_state, 2), (R.LK_STATUS 0, F.LK_STATUS_link_up, 1)])), 0, by decide +kernel⟩,
   ⟨(stateOf (({ (withFields glazeDev [(R.LK_ETH_CFG 0, F.LK_ETH_CFG_fc, 2), (R.LK_PORT_CFG 0, F.LK_PORT_CFG_width, 1), (R.LK_PORT_CFG 0, F.LK_PORT_CFG_protocol, 1), (R.LK_PORT_CTRL 0, F.LK_PORT_CTRL_state, 2), (R.LK_STATUS 0, F.LK_STATUS_link_up, 1)] : Dev) with sw := { Sw.reset with paused := [(0, 1)] } } : Dev))), 0, 0, by decide +kernel⟩,
   ⟨(stateOf (({ (withFields glazeDev [(R.LK_ETH_CFG 0, F.LK_ETH_CFG_fc, 2), (R.LK_PORT_CFG 0, F.LK_PORT_CFG_width, 1), (R.LK_PORT_CFG 0, F.LK_PORT_CFG_protocol, 1), (R.LK_PORT_CTRL 0, F.LK_PORT_CTRL_state, 2), (R.LK_STATUS 0, F.LK_STATUS_link_up, 1)] : Dev) with sw := { Sw.reset with bp := [(0, 3)] } } : Dev))), 0, by decide +kernel⟩,
   ⟨(stateOf (withFields glazeDev [(R.LK_ETH_CFG 0, F.LK_ETH_CFG_fc, 2), (R.LK_PORT_CFG 0, F.LK_PORT_CFG_width, 1), (R.LK_PORT_CFG 0, F.LK_PORT_CFG_protocol, 1), (R.LK_PORT_CTRL 0, F.LK_PORT_CTRL_state, 2), (R.LK_STATUS 0, F.LK_STATUS_link_up, 1)])), 0, pfcOctets, by decide +kernel, by decide +kernel, by decide +kernel, by decide +kernel, by decide +kernel, by decide +kernel, by decide +kernel, by decide +kernel, by decide +kernel, 2, [0, 1, 0, 0, 0, 0, 0, 0], by decide +kernel⟩⟩

theorem witness_LinkDelay :
    (∃ (s : State) (p : Fin 64) (blk : BitVec 256), s.Up ∧ s.Inv ∧ s.dev.isazu p = true ∧ s.dev.isVersion3 p = true ∧ 0 < s.dev.portLanes p ∧ crc16 256 blk.toNat ≠ blk.toNat % 2 ^ 16) ∧
    (∃ (s : State) (p : Fin 64) (blk : BitVec 256), s.Up ∧ s.Inv ∧ s.dev.isazu p = true ∧ s.dev.isVersion3 p = true ∧ 0 < s.dev.portLanes p ∧ crc16 256 blk.toNat = blk.toNat % 2 ^ 16 ∧ bits blk.toNat 255 248 = 0 ∧ s.dev.bringup p ≠ 6 ∧ (s.dev.port p).invalid = bit blk.toNat 126) ∧
    (∃ (s : State) (p : Fin 64), s.Up ∧ s.Inv ∧ s.dev.isazu p = true ∧ s.dev.framing3 p = true ∧ 0 < s.dev.portLanes p ∧ s.dev.txIdle p = false ∧ s.dev.allLanes p 5 = false ∧ s.dev.linkUp p = false) ∧
    (∃ (s : State) (p : Fin 64) (x : Samples), s.Up ∧ s.Inv ∧ s.dev.isazu p = true ∧ (s.dev.lane p).closed = some x ∧ 0 < s.dev.portLanes p ∧ s.dev.publishable p x = true ∧ s.dev.fld (R.LK_TC_CFG p) F.LK_TC_CFG_enable = 0 ∧ s.dev.timeLane p ≠ 0 ∧ s.dev.stage ≠ .firing) ∧
    (∃ (s : State) (p : Fin 64) (x : Samples), s.Up ∧ s.Inv ∧ s.dev.isazu p = true ∧ (s.dev.lane p).closed = some x ∧ 0 < s.dev.portLanes p ∧ s.dev.publishable p x = false) ∧
    (∃ (s : State) (p : Fin 64) (w : Word64), s.Up ∧ s.Inv ∧ s.dev.isazu p = true ∧ 3 ≤ s.dev.rateNow p ∧ s.dev.linkUp p = true ∧ s.dev.engineOn = false ∧ 1 ≤ bits w.toNat 63 60 ∧ bits w.toNat 63 60 ≤ 3) :=
  ⟨⟨(stateOf ((withFields glazeDev [(R.LK_PORT_CFG 0, F.LK_PORT_CFG_width, 1), (R.LN_STATUS 0, F.LN_STATUS_bringup, 5)] : Dev).setLane 0 lane0)), 0, 0x800#256, by decide +kernel⟩,
   ⟨(stateOf (((withFields glazeDev [(R.LK_PORT_CFG 0, F.LK_PORT_CFG_width, 1), (R.LN_STATUS 0, F.LN_STATUS_bringup, 5)] : Dev).setLane 0 lane0).setPort 0 { Port.reset with invalid := false })), 0, (crcBlock 5), by decide +kernel⟩,
   ⟨(stateOf ((withFields glazeDev [(R.LK_PORT_CFG 0, F.LK_PORT_CFG_width, 1), (R.LN_STATUS 0, F.LN_STATUS_bringup, 4)] : Dev).setLane 0 lane0)), 0, by decide +kernel⟩,
   ⟨(stateOf ((withFields glazeDev [(R.LK_PORT_CFG 0, F.LK_PORT_CFG_width, 1), (R.LN_STATUS 0, F.LN_STATUS_bringup, 5), (R.LK_PORT_CFG 0, F.LK_PORT_CFG_time_lane, 1)] : Dev).setLane 0 { lane0 with closed := some { fwdSum := 600000, fwdN := 160, revSum := 500000, revN := 160, spoilt := false } })), 0, { fwdSum := 600000, fwdN := 160, revSum := 500000, revN := 160, spoilt := false }, by decide +kernel⟩,
   ⟨(stateOf ((withFields glazeDev [(R.LK_PORT_CFG 0, F.LK_PORT_CFG_width, 1), (R.LN_STATUS 0, F.LN_STATUS_bringup, 5)] : Dev).setLane 0 { lane0 with closed := some Samples.zero })), 0, Samples.zero, by decide +kernel⟩,
   ⟨(stateOf ((withFields glazeDev [(R.LK_PORT_CFG 0, F.LK_PORT_CFG_width, 1), (R.LN_STATUS 0, F.LN_STATUS_rate_now, 3), (R.LK_STATUS 0, F.LK_STATUS_link_up, 1)] : Dev).setLane 0 lane0)), 0, (BitVec.ofNat 64 (2 ^ 60 + 12345)), by decide +kernel⟩⟩

theorem witness_CounterRegisters :
    (∃ (s : State), s.Awake ∧ s.dev.stage ≠ .safe) ∧
    (∃ (s : State), s.Awake ∧ s.Inv) ∧
    (∃ (s : State) (w : Word), s.Awake ∧ s.dev.stage ≠ .safe ∧ let v : Nat := getField w F.TC_INCR_HI_value_hi * 2 ^ 32 + (s.dev.reg R.TC_INCR_LO).toNat; ((5 * v : Nat) - (8 * 2 ^ 40 : Nat) : Int).natAbs * 1000 ≤ 8 * 2 ^ 40) :=
  ⟨⟨(stateOf (glazeDev)), by decide +kernel⟩,
   ⟨(stateOf (({ (glazeDev : Dev) with tc := { Tc.reset with acc := 99999999999999999999999 } } : Dev))), by decide +kernel⟩,
   ⟨(stateOf (withFields glazeDev [(R.TC_INCR_LO, F.TC_INCR_LO_value_lo, 0x9999999A)])), 0x199#32, by decide +kernel⟩⟩

theorem witness_TimeAccumulator :
    (∃ (s : State), s.Up) ∧
    (∃ (s : State), s.dev.mi.scan = false ∧ s.dev.stage = .off ∧ s.dev.tc = Tc.reset ∧ s.dev.regs = [] ∧ s.dev.nv.bisque = [] ∧ s.dev.nv.clearing = none) :=
  ⟨⟨(stateOf (glazeDev)), by decide +kernel⟩,
   ⟨(stateOf (State.reset.dev)), by decide +kernel⟩⟩

theorem witness_CounterStep :
    (∃ (s : State), s.Up ∧ s.dev.tc.step = none) ∧
    (∃ (s : State), s.Up ∧ s.dev.tc.step.isSome = true ∧ s.dev.validity ≠ 2) ∧
    (∃ (s : State) (r : StepReq), s.Up ∧ s.dev.tc.step = some r ∧ let ch := r.change s.dev.now; let bad := s.dev.inFault = true ∨ ch = 0 ∨ (ns (s.dev.reg R.TC_STEP_LIMIT).toNat < ch.natAbs ∧ r.force = false); bad) ∧
    (∃ (s : State) (r : StepReq), s.Up ∧ s.dev.tc.step = some r ∧ let ch := r.change s.dev.now; let bad := s.dev.inFault = true ∨ ch = 0 ∨ (ns (s.dev.reg R.TC_STEP_LIMIT).toNat < ch.natAbs ∧ r.force = false); ¬ bad) ∧
    (∃ (s : State) (r : StepReq), s.Up ∧ s.dev.tc.step = some r ∧ let ch := r.change s.dev.now; let bad := s.dev.inFault = true ∨ ch = 0 ∨ (ns (s.dev.reg R.TC_STEP_LIMIT).toNat < ch.natAbs ∧ r.force = false); ¬ bad ∧ s.dev.exchangeLane 0 = true) :=
  ⟨⟨(stateOf (withFields glazeDev [(R.TC_CTRL, F.TC_CTRL_incr_src, 0)])), by decide +kernel⟩,
   ⟨(stateOf (({ (glazeDev : Dev) with tc := { Tc.reset with step := some { value := 100000, absolute := false, force := false, onPps := false } } } : Dev))), by decide +kernel⟩,
   ⟨(stateOf (({ (glazeDev : Dev) with tc := { Tc.reset with step := some { value := 0, absolute := false, force := false, onPps := false } } } : Dev))), { value := 0, absolute := false, force := false, onPps := false }, by decide +kernel⟩,
   ⟨(stateOf (({ (withFields glazeDev [(R.TC_STEP_LIMIT, F.TC_STEP_LIMIT_limit, 1000)] : Dev) with tc := { Tc.reset with step := some { value := 100000, absolute := false, force := false, onPps := false } } } : Dev))), { value := 100000, absolute := false, force := false, onPps := false }, by decide +kernel⟩,
   ⟨(stateOf (({ (withFields glazeDev [(R.TC_STEP_LIMIT, F.TC_STEP_LIMIT_limit, 1000), (R.LN_STATUS 0, F.LN_STATUS_bringup, 6)] : Dev) with tc := { Tc.reset with step := some { value := 100000, absolute := false, force := false, onPps := false } }, lanes := [(0, lane0)] } : Dev))), { value := 100000, absolute := false, force := false, onPps := false }, by decide +kernel⟩⟩

theorem witness_TimeSources :
    (∃ (s : State) (w : Word), s.Up ∧ s.dev.standby = false ∧ s.dev.validity = 0 ∧ s.dev.fld R.TC_SRC_CFG F.TC_SRC_CFG_source = 0 ∧ s.dev.inFault = false ∧ (getField w F.TC_SRC_CFG_source = 1 ∨ getField w F.TC_SRC_CFG_source = 2)) ∧
    (∃ (s : State) (w : Word), s.Up ∧ s.dev.standby = false ∧ s.dev.validity ≠ 0 ∧ s.dev.fld R.TC_SRC_CFG F.TC_SRC_CFG_source ≠ 0 ∧ getField w F.TC_SRC_CFG_source = 0) ∧
    (∃ (s : State) (w : Word), s.Up ∧ s.dev.standby = false ∧ s.dev.fld R.TC_SRC_CFG F.TC_SRC_CFG_source = 3 ∧ s.dev.locked = true ∧ s.dev.validity = 2 ∧ getField w F.TC_CTRL_host_valid = 0) ∧
    (∃ (s : State) (w : Word), s.Up ∧ s.dev.standby = false ∧ s.dev.fld R.TC_SRC_CFG F.TC_SRC_CFG_source = 3 ∧ s.dev.locked = true ∧ (s.dev.validity = 1 ∨ s.dev.validity = 3) ∧ getField w F.TC_CTRL_host_valid = 1) ∧
    (∃ (s : State), s.Up ∧ s.dev.standby = false ∧ s.dev.validity = 3) ∧
    (∃ (s : State) (k : Fin 4), s.Up ∧ s.dev.isPps k = true ∧ s.dev.timeSource = 1 ∧ s.dev.fld R.TC_SRC_CFG F.TC_SRC_CFG_refin = k) ∧
    (∃ (s : State), s.Up ∧ s.dev.timeSource = 1) ∧
    (∃ (s : State), s.Up ∧ ∃ lo, s.dev.tc.heldLo = some lo) :=
  ⟨⟨(stateOf (glazeDev)), (putField (0#32) F.TC_SRC_CFG_source 1), by decide +kernel⟩,
   ⟨(stateOf (withFields glazeDev [(R.TC_SRC_CFG, F.TC_SRC_CFG_source, 1), (R.TC_STATUS, F.TC_STATUS_state, 2), (R.TC_STATUS, F.TC_STATUS_time_valid, 1)])), 0, by decide +kernel⟩,
   ⟨(stateOf (withFields glazeDev [(R.TC_SRC_CFG, F.TC_SRC_CFG_source, 3), (R.TC_STATUS, F.TC_STATUS_state, 2), (R.CK_STATUS, F.CK_STATUS_state, 4)])), 0, by decide +kernel⟩,
   ⟨(stateOf (withFields glazeDev [(R.TC_SRC_CFG, F.TC_SRC_CFG_source, 3), (R.TC_STATUS, F.TC_STATUS_state, 1), (R.CK_STATUS, F.CK_STATUS_state, 4)])), (putField (0#32) F.TC_CTRL_host_valid 1), by decide +kernel⟩,
   ⟨(stateOf (withFields glazeDev [(R.TC_STATUS, F.TC_STATUS_state, 3)])), by decide +kernel⟩,
   ⟨(stateOf (withFields glazeDev [(R.TC_SRC_CFG, F.TC_SRC_CFG_source, 1), (R.TC_SRC_CFG, F.TC_SRC_CFG_refin, 2), (R.CK_REF_CFG 2, F.CK_REF_CFG_freq, 0)])), 2, by decide +kernel⟩,
   ⟨(stateOf (withFields glazeDev [(R.TC_SRC_CFG, F.TC_SRC_CFG_source, 1)])), by decide +kernel⟩,
   ⟨(stateOf (({ (glazeDev : Dev) with tc := { Tc.reset with heldLo := some 5#32 } } : Dev))), by decide +kernel, 5#32, by decide +kernel⟩⟩

theorem witness_EngineInput :
    (∃ (s : State), s.Up ∧ s.dev.engineOn = true ∧ s.dev.tg.merge.length < 32) ∧
    (∃ (s : State), s.Up ∧ s.dev.engineOn = true ∧ 32 ≤ s.dev.tg.merge.length) ∧
    (∃ (s : State) (src : Fin 194) (p : Prim) (rest : List (Nat × Prim)), s.Up ∧ s.dev.engineOn = true ∧ s.dev.tg.merge = (src.val, p) :: rest ∧ s.dev.timeValid = false) ∧
    (∃ (s : State) (src : Fin 194) (p : Prim) (rest : List (Nat × Prim)), s.Up ∧ s.dev.engineOn = true ∧ s.dev.tg.merge = (src.val, p) :: rest ∧ let m := sGet 0 s.dev.tg.chanMap p.srcId; s.dev.timeValid = true ∧ bit m 15 = false) ∧
    (∃ (s : State) (src : Fin 194) (p : Prim) (rest : List (Nat × Prim)), s.Up ∧ s.dev.engineOn = true ∧ s.dev.tg.merge = (src.val, p) :: rest ∧ let m := sGet 0 s.dev.tg.chanMap p.srcId; s.dev.timeValid = true ∧ bit m 15 = true ∧ s.dev.mi.diverted.contains (6, p.srcId / 16) = false ∧ ∃ u x, s.dev.tg.run = [(u, x)]) :=
  ⟨⟨(stateOf (withFields glazeDev [(R.TG_CTRL, F.TG_CTRL_state, 2)])), by decide +kernel⟩,
   ⟨(stateOf (({ (withFields glazeDev [(R.TG_CTRL, F.TG_CTRL_state, 2)] : Dev) with tg := { Tg.reset with merge := List.replicate 32 (0, { srcId := 5, pol := true, t32p := 77 }) } } : Dev))), by decide +kernel⟩,
   ⟨(stateOf (({ (withFields glazeDev [(R.TG_CTRL, F.TG_CTRL_state, 2)] : Dev) with tg := { Tg.reset with merge := [(7, { srcId := 5, pol := true, t32p := 77 })] } } : Dev))), 7, { srcId := 5, pol := true, t32p := 77 }, [], by decide +kernel⟩,
   ⟨(stateOf (({ (withFields glazeDev [(R.TG_CTRL, F.TG_CTRL_state, 2), (R.TC_STATUS, F.TC_STATUS_time_valid, 1)] : Dev) with tg := { Tg.reset with merge := [(7, { srcId := 5, pol := true, t32p := 77 })] } } : Dev))), 7, { srcId := 5, pol := true, t32p := 77 }, [], by decide +kernel⟩,
   ⟨(stateOf (({ (withFields glazeDev [(R.TG_CTRL, F.TG_CTRL_state, 2), (R.TC_STATUS, F.TC_STATUS_time_valid, 1)] : Dev) with tg := { Tg.reset with merge := [(7, { srcId := 5, pol := true, t32p := 77 })], chanMap := [(5, 0x8000)], run := [(3, { unit0 with wins := [win0] })] } } : Dev))), 7, { srcId := 5, pol := true, t32p := 77 }, [], by decide +kernel, by decide +kernel, by decide +kernel, by decide +kernel, by decide +kernel, by decide +kernel, 3, { unit0 with wins := [win0] }, by decide +kernel⟩⟩

theorem witness_CoincidenceUnits :
    (∃ (s : State) (u : Fin 4096) (x : UnitRun), s.Up ∧ s.dev.unitRun? u = some x ∧ s.dev.fld (R.TG_CU_CTRL u) F.TG_CU_CTRL_state = enOn ∧ s.dev.timeValid = true ∧ cancelled x.cancel s.dev.ticks x.next = true) ∧
    (∃ (s : State) (u : Fin 4096) (x : UnitRun), s.Up ∧ s.dev.unitRun? u = some x ∧ s.dev.fld (R.TG_CU_CTRL u) F.TG_CU_CTRL_state = enOn ∧ s.dev.timeValid = true ∧ cancelled x.cancel s.dev.ticks x.next = false ∧ x.wins.length < 64) ∧
    (∃ (s : State) (u : Fin 4096) (x : UnitRun), s.Up ∧ s.dev.unitRun? u = some x ∧ ∃ w ws, x.wins = w :: ws ∧ x.heldAt = none ∧ (windowHolds x.entry w = false ∨ windowVetoed x.entry w = true)) ∧
    (∃ (s : State) (u : Fin 4096) (x : UnitRun), s.Up ∧ s.dev.unitRun? u = some x ∧ ∃ w ws, x.wins = w :: ws ∧ x.heldAt = none ∧ windowHolds x.entry w = true ∧ windowVetoed x.entry w = false ∧ entryBits x.entry 10 15 0 ≤ 1) ∧
    (∃ (s : State) (u : Fin 4096) (x : UnitRun) (o : UnitOut) (os : List UnitOut), s.Up ∧ s.dev.unitRun? u = some x ∧ x.outs = o :: os ∧ bit (x.entry.getD 12 0).toNat 15 = false ∧ bit (x.entry.getD 12 0).toNat 13 = true ∧ s.dev.standby = false ∧ (((∀ y ∈ s.dev.tg.own, y.unit ≠ some u.val) ∧ s.dev.tg.pending.length < 32768)) ∧ x.heldAt = none) ∧
    (∃ (s : State) (u : Fin 4096) (x : UnitRun) (o : UnitOut) (os : List UnitOut), s.Up ∧ s.dev.unitRun? u = some x ∧ x.outs = o :: os ∧ bit (x.entry.getD 12 0).toNat 15 = false ∧ bit (x.entry.getD 12 0).toNat 13 = true ∧ s.dev.standby = false ∧ (((∀ y ∈ s.dev.tg.own, y.unit ≠ some u.val) ∧ s.dev.tg.pending.length < 32768)) ∧ x.heldAt ≠ none) ∧
    (∃ (s : State) (u : Fin 4096) (x : UnitRun) (o : UnitOut) (os : List UnitOut), s.Up ∧ s.dev.unitRun? u = some x ∧ x.outs = o :: os ∧ bit (x.entry.getD 12 0).toNat 15 = false ∧ bit (x.entry.getD 12 0).toNat 13 = true ∧ s.dev.standby = false ∧ x.heldAt = none ∧ ((∃ y ∈ s.dev.tg.own, y.unit = some u.val))) :=
  ⟨⟨(stateOf (devUnit 0 { unit0 with cancel := some ⟨5, 100, 0⟩, next := 50 })), 0, { unit0 with cancel := some ⟨5, 100, 0⟩, next := 50 }, by decide +kernel⟩,
   ⟨(stateOf (devUnit 0 { unit0 with cancel := some ⟨5, 45, 0⟩, next := 50 })), 0, { unit0 with cancel := some ⟨5, 45, 0⟩, next := 50 }, by decide +kernel⟩,
   ⟨(stateOf (devUnit 0 { unit0 with wins := [win0] })), 0, { unit0 with wins := [win0] }, by decide +kernel, by decide +kernel, ((win0 : Win)), (([] : List Win)), by decide +kernel⟩,
   ⟨(stateOf (devUnit 0 { unit0 with wins := [win1, win0] })), 0, { unit0 with wins := [win1, win0] }, by decide +kernel, by decide +kernel, ((win1 : Win)), (([win0] : List Win)), by decide +kernel⟩,
   ⟨(stateOf (devUnit 0 { unit0 with outs := [out0] })), 0, { unit0 with outs := [out0] }, out0, [], by decide +kernel⟩,
   ⟨(stateOf (devUnit 0 { unit0 with outs := [out0], heldAt := some 4 })), 0, { unit0 with outs := [out0], heldAt := some 4 }, out0, [], by decide +kernel⟩,
   ⟨(stateOf (({ (devUnit 0 { unit0 with outs := [out0] } : Dev) with tg := { Tg.reset with run := [(0, { unit0 with outs := [out0] })], own := [{ dec0 with unit := some 0 }] } } : Dev))), 0, { unit0 with outs := [out0] }, out0, [], by decide +kernel⟩⟩

theorem witness_EngineAndDecisions :
    (∃ (s : State) (x : Dec) (xs : List Dec), s.Up ∧ s.dev.standby = false ∧ s.dev.tg.received = x :: xs ∧ x.rcvd = true ∧ x.host = none ∧ s.dev.flag (R.TG_CLASS_CFG x.dclass) F.TG_CLASS_CFG_exec = true) ∧
    (∃ (s : State) (y : PendDec), s.Up ∧ s.dev.standby = false ∧ s.dev.tg.pending = [y] ∧ y.started = false ∧ s.dev.timeValid = true ∧ s.dev.mi.diverted.contains (8, y.dec.action) = false ∧ (s.dev.action y.dec.action).getD 0 0 &&& 0xF0000000#32 = 0x40000000#32 ∧ (s.dev.action y.dec.action).getD 5 0 &&& 0xFF00#32 = 0x0100#32) ∧
    (∃ (s : State) (y : PendDec) (c : Nat), s.Up ∧ s.dev.standby = false ∧ s.dev.tg.pending = [y] ∧ y.started = true ∧ y.readout = [c] ∧ (s.dev.chan c).hist = []) ∧
    (∃ (s : State) (u : Fin 4096), s.Up ∧ s.dev.inFault = false ∧ s.dev.fld (R.TG_CU_CTRL u) F.TG_CU_CTRL_state = enStarting ∧ s.dev.engineOn = true ∧ s.dev.flag (R.TG_CU_CTRL u) F.TG_CU_CTRL_enable = true ∧ s.dev.mi.diverted.contains (7, u.val) = false ∧ s.dev.mi.stuck.contains (7, u.val) = false) ∧
    (∃ (s : State) (u : Fin 4096), s.Up ∧ s.dev.inFault = false ∧ s.dev.fld (R.TG_CU_CTRL u) F.TG_CU_CTRL_state = enStopping ∧ s.dev.flag (R.TG_CU_CTRL u) F.TG_CU_CTRL_enable = false ∧ (s.dev.unitRun? u).all (fun x => x.wins.isEmpty && x.outs.isEmpty) = true) ∧
    (∃ (s : State), s.Up ∧ s.dev.inFault = false ∧ s.dev.fld R.TG_CTRL F.TG_CTRL_state = enStarting ∧ s.dev.flag R.TG_CTRL F.TG_CTRL_enable = true ∧ s.dev.stage = .glaze) ∧
    (∃ (s : State), s.Up ∧ s.dev.inFault = false ∧ s.dev.fld R.TG_CTRL F.TG_CTRL_state = enStopping ∧ s.dev.flag R.TG_CTRL F.TG_CTRL_enable = false ∧ s.dev.unitsActive = [] ∧ s.dev.tg.pending = [] ∧ s.dev.tg.own = [] ∧ s.dev.tg.received = []) :=
  ⟨⟨(stateOf (({ (withFields glazeDev [(R.TG_CLASS_CFG 0, F.TG_CLASS_CFG_exec, 1)] : Dev) with tg := { Tg.reset with received := [dec0] } } : Dev))), dec0, [], by decide +kernel⟩,
   ⟨(stateOf (({ (withFields glazeDev [(R.TC_STATUS, F.TC_STATUS_time_valid, 1)] : Dev) with tg := { Tg.reset with pending := [pend0], actTab := [(0, [0x40000000#32, 0, 0, 0, 0, 0x103#32])] } } : Dev))), pend0, by decide +kernel⟩,
   ⟨(stateOf (({ (glazeDev : Dev) with tg := { Tg.reset with pending := [{ pend0 with started := true, readout := [3] }] } } : Dev))), { pend0 with started := true, readout := [3] }, 3, by decide +kernel⟩,
   ⟨(stateOf (withFields glazeDev [(R.TG_CU_CTRL 5, F.TG_CU_CTRL_state, 1), (R.TG_CU_CTRL 5, F.TG_CU_CTRL_enable, 1), (R.TG_CTRL, F.TG_CTRL_state, 2)])), 5, by decide +kernel⟩,
   ⟨(stateOf (withFields glazeDev [(R.TG_CU_CTRL 5, F.TG_CU_CTRL_state, 3)])), 5, by decide +kernel⟩,
   ⟨(stateOf (withFields glazeDev [(R.TG_CTRL, F.TG_CTRL_state, 1), (R.TG_CTRL, F.TG_CTRL_enable, 1)])), by decide +kernel⟩,
   ⟨(stateOf (withFields glazeDev [(R.TG_CTRL, F.TG_CTRL_state, 3)])), by decide +kernel⟩⟩

theorem witness_EdgeCrossings :
    (∃ (s : State) (c : Fin 128) (fall : Bool) (k : Fin 5) (code : Byte), s.Up ∧ s.dev.tdcOn c = true ∧ s.dev.chanLive c = true ∧ s.dev.selected c fall = true ∧ let at_ := s.dev.ticks * 10485760 + k.val * 2097152 + s.dev.interp c code.toNat; let x := s.dev.chan c; let blind := ∃ l, x.lastEdge = some l ∧ at_ < l + 15728640; blind) ∧
    (∃ (s : State) (c : Fin 128) (fall : Bool) (k : Fin 5) (code : Byte), s.Up ∧ s.dev.tdcOn c = true ∧ s.dev.chanLive c = true ∧ s.dev.selected c fall = true ∧ let at_ := s.dev.ticks * 10485760 + k.val * 2097152 + s.dev.interp c code.toNat; let x := s.dev.chan c; let blind := ∃ l, x.lastEdge = some l ∧ at_ < l + 15728640; s.dev.beforeLive c (s.dev.stampOf c k code.toNat) = false ∧ ¬ blind ∧ s.dev.winMode c = 0 ∧ x.queue.length < 512) ∧
    (∃ (s : State) (c : Fin 128) (fall : Bool) (k : Fin 5) (code : Byte), s.Up ∧ s.dev.tdcOn c = true ∧ s.dev.chanLive c = true ∧ s.dev.selected c fall = true ∧ let at_ := s.dev.ticks * 10485760 + k.val * 2097152 + s.dev.interp c code.toNat; let x := s.dev.chan c; let blind := ∃ l, x.lastEdge = some l ∧ at_ < l + 15728640; s.dev.beforeLive c (s.dev.stampOf c k code.toNat) = false ∧ ¬ blind ∧ s.dev.winMode c = 0 ∧ 512 ≤ x.queue.length) ∧
    (∃ (s : State) (c : Fin 128) (fall : Bool) (k : Fin 5) (code : Byte), s.Up ∧ s.dev.tdcOn c = true ∧ s.dev.chanLive c = true ∧ s.dev.selected c fall = true ∧ let at_ := s.dev.ticks * 10485760 + k.val * 2097152 + s.dev.interp c code.toNat; let x := s.dev.chan c; let blind := ∃ l, x.lastEdge = some l ∧ at_ < l + 15728640; s.dev.beforeLive c (s.dev.stampOf c k code.toNat) = false ∧ ¬ blind ∧ s.dev.winMode c = 2 ∧ x.wins = []) ∧
    (∃ (s : State) (c : Fin 128) (fall : Bool) (k : Fin 5) (code : Byte), s.Up ∧ s.dev.tdcOn c = true ∧ s.dev.chanLive c = true ∧ s.dev.selected c fall = true ∧ let at_ := s.dev.ticks * 10485760 + k.val * 2097152 + s.dev.interp c code.toNat; let x := s.dev.chan c; let blind := ∃ l, x.lastEdge = some l ∧ at_ < l + 15728640; s.dev.beforeLive c (s.dev.stampOf c k code.toNat) = false ∧ ¬ blind ∧ s.dev.winMode c = 1) ∧
    (∃ (s : State) (c : Fin 128) (fall : Bool) (k : Fin 5) (code : Byte), s.Up ∧ s.dev.tdcOn c = true ∧ s.dev.chanLive c = true ∧ s.dev.selected c fall = true ∧ let at_ := s.dev.ticks * 10485760 + k.val * 2097152 + s.dev.interp c code.toNat; let x := s.dev.chan c; let blind := ∃ l, x.lastEdge = some l ∧ at_ < l + 15728640; s.dev.beforeLive c (s.dev.stampOf c k code.toNat) = true ∧ ¬ blind) ∧
    (∃ (s : State) (w : EdgeWait), s.Up ∧ s.dev.ec.waits = [w] ∧ w.rec_.kind = 1 ∧ w.due = s.dev.ticks + 1 ∧ s.dev.tick.inWindow w.chan w.rec_.te w.rec_.t48 = true ∧ (s.dev.chan w.chan).queue.length < 512) ∧
    (∃ (s : State) (w : EdgeWait), s.Up ∧ s.dev.ec.waits = [w] ∧ w.rec_.kind = 1 ∧ w.due = s.dev.ticks + 1 ∧ s.dev.tick.inWindow w.chan w.rec_.te w.rec_.t48 = false) :=
  ⟨⟨(stateOf (((withFields glazeDev [(R.EC_PAD 0, F.EC_PAD_edges, 2), (R.EC_CTRL 0, F.EC_CTRL_state, 2), (R.TC_STATUS, F.TC_STATUS_time_valid, 1)] : Dev).setChan 0 { Chan.reset with lastEdge := some 1000 }))), 0, false, 0, 0, by decide +kernel⟩,
   ⟨(stateOf (withFields glazeDev [(R.EC_PAD 0, F.EC_PAD_edges, 2), (R.EC_WIN_CFG 0, F.EC_WIN_CFG_mode, 0), (R.EC_CTRL 0, F.EC_CTRL_state, 2), (R.TC_STATUS, F.TC_STATUS_time_valid, 1), (R.EC_OUT_CFG 0, F.EC_OUT_CFG_trig, 1), (R.EC_OUT_CFG 0, F.EC_OUT_CFG_src_id, 9)])), 0, true, 3, 7, by decide +kernel⟩,
   ⟨(stateOf (((withFields glazeDev [(R.EC_PAD 0, F.EC_PAD_edges, 2), (R.EC_WIN_CFG 0, F.EC_WIN_CFG_mode, 0), (R.EC_CTRL 0, F.EC_CTRL_state, 2), (R.TC_STATUS, F.TC_STATUS_time_valid, 1)] : Dev).setChan 0 { Chan.reset with queue := List.replicate 512 edge0 }))), 0, false, 0, 0, by decide +kernel⟩,
   ⟨(stateOf (withFields glazeDev [(R.EC_PAD 0, F.EC_PAD_edges, 2), (R.EC_WIN_CFG 0, F.EC_WIN_CFG_mode, 2), (R.EC_CTRL 0, F.EC_CTRL_state, 2), (R.TC_STATUS, F.TC_STATUS_time_valid, 1)])), 0, false, 0, 0, by decide +kernel⟩,
   ⟨(stateOf (((withFields glazeDev [(R.EC_PAD 0, F.EC_PAD_edges, 2), (R.EC_WIN_CFG 0, F.EC_WIN_CFG_mode, 1), (R.EC_CTRL 0, F.EC_CTRL_state, 2), (R.TC_STATUS, F.TC_STATUS_time_valid, 1), (R.EC_OUT_CFG 0, F.EC_OUT_CFG_trig, 1)] : Dev).setChan 0 Chan.reset))), 0, true, 3, 7, by decide +kernel⟩,
   ⟨(stateOf (((withFields glazeDev [(R.EC_PAD 0, F.EC_PAD_edges, 2), (R.EC_WIN_CFG 0, F.EC_WIN_CFG_mode, 0), (R.EC_CTRL 0, F.EC_CTRL_state, 2), (R.TC_STATUS, F.TC_STATUS_time_valid, 1), (R.EC_OUT_CFG 0, F.EC_OUT_CFG_trig, 1)] : Dev).setChan 0 { Chan.reset with latest := some ⟨9000000, 0, 0⟩ }))), 0, true, 3, 7, by decide +kernel⟩,
   ⟨(stateOf { (withFields glazeDev [(R.EC_WIN_CFG 0, F.EC_WIN_CFG_mode, 0)] : Dev) with ec := { Ec.reset with waits := [{ chan := 0, due := 1, rec_ := { edge0 with kind := 1 } }] } }), { chan := 0, due := 1, rec_ := { edge0 with kind := 1 } }, by decide +kernel⟩,
   ⟨(stateOf { (withFields glazeDev [(R.EC_WIN_CFG 0, F.EC_WIN_CFG_mode, 2)] : Dev) with ec := { Ec.reset with waits := [{ chan := 0, due := 1, rec_ := { edge0 with kind := 1 } }] } }), { chan := 0, due := 1, rec_ := { edge0 with kind := 1 } }, by decide +kernel⟩⟩

theorem witness_ChannelWindowsAndStreams :
    (∃ (s : State) (c : Fin 128), s.Up ∧ s.dev.tdcOn c = true ∧ s.dev.winMode c = 2) ∧
    (∃ (s : State) (c : Fin 128), s.Up ∧ s.dev.chanState c = enOff) ∧
    (∃ (s : State) (c : Fin 128), s.Up ∧ s.dev.chanState c ≠ enOff) ∧
    (∃ (s : State) (c : Fin 128) (r : EdgeRec) (rs : List EdgeRec), s.Up ∧ (s.dev.chan c).queue = r :: rs ∧ (s.dev.chan c).held = [] ∧ s.dev.serves c = true ∧ r.dest.hist = true ∧ r.dest.stream = 0) ∧
    (∃ (s : State) (c : Fin 128), s.Up ∧ (s.dev.chan c).gather ≠ [] ∧ s.dev.backPressured 66 (s.dev.tplClass c) = false) ∧
    (∃ (s : State) (c : Fin 128), s.Up ∧ s.dev.isDtc c = false ∧ s.dev.inFault = false ∧ s.dev.inGlaze = true ∧ s.dev.chanState c = enStarting ∧ s.dev.flag (R.EC_CTRL c) F.EC_CTRL_enable = true ∧ s.dev.timeValid = true ∧ (s.dev.chan c).dead = [3] ∧ (s.dev.chan c).queue = [] ∧ (s.dev.chan c).latest = none ∧ s.dev.hasWaits c = false ∧ (s.dev.chan c).waiting.all (fun w => w.trim.isNone) = true) ∧
    (∃ (s : State) (c : Fin 128), s.Up ∧ s.dev.isDtc c = false ∧ s.dev.inFault = false ∧ s.dev.inGlaze = true ∧ s.dev.chanState c = enStopping ∧ s.dev.flag (R.EC_CTRL c) F.EC_CTRL_enable = false ∧ (s.dev.chan c).queue = [] ∧ (s.dev.chan c).held = [] ∧ s.dev.hasWaits c = false) ∧
    (∃ (s : State) (c : Fin 128) (m : ScaleMeas), s.Up ∧ s.dev.tdcOn c = true ∧ s.dev.winMode c = 2 ∧ m.crossed = false ∧ (m.c2 - m.c1 - (s.dev.chan c).scd).natAbs ≤ 256 ∧ 0 ≤ m.c2 - m.c1 ∧ m.c2 - m.c1 < 65536) ∧
    (∃ (s : State) (c : Fin 128) (m : ScaleMeas), s.Up ∧ s.dev.tdcOn c = true ∧ s.dev.winMode c = 2 ∧ m.crossed = false ∧ 256 < (m.c2 - m.c1 - (s.dev.chan c).scd).natAbs) :=
  ⟨⟨(stateOf (withFields glazeDev [(R.EC_WIN_CFG 0, F.EC_WIN_CFG_mode, 2), (R.EC_CTRL 0, F.EC_CTRL_state, 2), (R.TC_STATUS, F.TC_STATUS_time_valid, 1)])), 0, by decide +kernel⟩,
   ⟨(stateOf (glazeDev)), 0, by decide +kernel⟩,
   ⟨(stateOf (withFields glazeDev [(R.EC_CTRL 0, F.EC_CTRL_state, 2), (R.TC_STATUS, F.TC_STATUS_time_valid, 1)])), 0, by decide +kernel⟩,
   ⟨(stateOf (((withFields glazeDev [(R.EC_OUT_CFG 0, F.EC_OUT_CFG_hist, 1), (R.EC_CTRL 0, F.EC_CTRL_state, 2), (R.TC_STATUS, F.TC_STATUS_time_valid, 1)] : Dev).setChan 0 { Chan.reset with queue := [{ edge0 with dest := { hist := true, stream := 0, target := 0 } }] }))), 0, { edge0 with dest := { hist := true, stream := 0, target := 0 } }, [], by decide +kernel⟩,
   ⟨(stateOf (((withFields glazeDev [(R.EC_OUT_CFG 0, F.EC_OUT_CFG_stream, 2), (R.EC_CTRL 0, F.EC_CTRL_state, 2), (R.TC_STATUS, F.TC_STATUS_time_valid, 1)] : Dev).setChan 0 { Chan.reset with gather := [edge0] }))), 0, by decide +kernel⟩,
   ⟨(stateOf (((withFields glazeDev [(R.EC_CTRL 0, F.EC_CTRL_state, 1), (R.EC_CTRL 0, F.EC_CTRL_enable, 1), (R.TC_STATUS, F.TC_STATUS_time_valid, 1)] : Dev).setChan 0 { Chan.reset with dead := [3] }))), 0, by decide +kernel⟩,
   ⟨(stateOf (withFields glazeDev [(R.EC_CTRL 0, F.EC_CTRL_state, 3)])), 0, by decide +kernel⟩,
   ⟨(stateOf (((withFields glazeDev [(R.EC_WIN_CFG 0, F.EC_WIN_CFG_mode, 2), (R.EC_CTRL 0, F.EC_CTRL_state, 2)] : Dev).setChan 0 { Chan.reset with scd := 0x4000 }))), 0, { chan := 0, c1 := 7, c2 := 0x4010, crossed := false }, by decide +kernel⟩,
   ⟨(stateOf (((withFields glazeDev [(R.EC_WIN_CFG 0, F.EC_WIN_CFG_mode, 2), (R.EC_CTRL 0, F.EC_CTRL_state, 2)] : Dev).setChan 0 { Chan.reset with scd := 0x4000 }))), 0, { chan := 0, c1 := 7, c2 := 0x8010, crossed := false }, by decide +kernel⟩⟩

theorem witness_ChannelCalibration :
    (∃ (s : State) (c : Fin 128), s.Up ∧ s.dev.ca.op = none ∧ s.dev.stage = .glaze ∧ s.dev.tdcOn c = true ∧ s.dev.privileged c = false ∧ s.dev.turnRuns = false ∧ s.dev.ec.turn = c.val ∧ s.dev.fld R.EC_GL_CAL F.EC_GL_CAL_period ≠ 0) ∧
    (∃ (s : State) (c : Fin 128) (a : Int) (b : Int), s.Up ∧ s.dev.ca.op = none ∧ s.dev.flag (R.EC_STATUS c) F.EC_STATUS_cal = true ∧ s.dev.isDtc c = false ∧ s.dev.privileged c = false ∧ agreeScale a b = true) ∧
    (∃ (s : State) (c : Fin 128) (a : Int) (b : Int), s.Up ∧ s.dev.ca.op = none ∧ s.dev.flag (R.EC_STATUS c) F.EC_STATUS_cal = true ∧ s.dev.isDtc c = false ∧ s.dev.privileged c = false ∧ agreeScale a b = false) ∧
    (∃ (s : State) (c : Fin 128) (w : ChanNew), s.Up ∧ s.dev.ca.op = none ∧ (s.dev.chan c).waiting = some w ∧ w.trim = none ∧ s.dev.privileged c = true ∧ w.turn = true) ∧
    (∃ (s : State) (c : Fin 128) (w : ChanNew), s.Up ∧ s.dev.ca.op = none ∧ (s.dev.chan c).waiting = some w ∧ w.trim = none ∧ s.dev.privileged c = false ∧ s.dev.flag (R.EC_STATUS c) F.EC_STATUS_cal = false ∧ s.dev.inFault = false) ∧
    (∃ (s : State) (c : Fin 128) (w : ChanNew), s.Up ∧ s.dev.ca.op = none ∧ (s.dev.chan c).waiting = some w ∧ w.trim = none ∧ s.dev.privileged c = false) ∧
    (∃ (s : State) (c : Fin 128) (a b : TurnMeas), s.Up ∧ s.dev.ca.op = none ∧ s.dev.flag (R.EC_STATUS c) F.EC_STATUS_cal = true ∧ s.dev.isDtc c = false ∧ s.dev.privileged c = false ∧ agreeScale a.scale b.scale = true ∧ s.dev.tdcOn c = true ∧ s.dev.timeValid = true ∧ (s.dev.chan c).dead = [1]) :=
  ⟨⟨(stateOf (withFields glazeDev [(R.EC_GL_CAL, F.EC_GL_CAL_period, 3), (R.EC_CTRL 0, F.EC_CTRL_state, 2), (R.TC_STATUS, F.TC_STATUS_time_valid, 1)])), 0, by decide +kernel⟩,
   ⟨(stateOf (withFields glazeDev [(R.EC_STATUS 0, F.EC_STATUS_cal, 1), (R.EC_CTRL 0, F.EC_CTRL_state, 2), (R.TC_STATUS, F.TC_STATUS_time_valid, 1)])), 0, 0x4000, 0x4005, by decide +kernel⟩,
   ⟨(stateOf (withFields glazeDev [(R.EC_STATUS 0, F.EC_STATUS_cal, 1), (R.EC_CTRL 0, F.EC_CTRL_state, 2), (R.TC_STATUS, F.TC_STATUS_time_valid, 1)])), 0, 0x4000, 0x4050, by decide +kernel⟩,
   ⟨(stateOf (((withFields glazeDev [(R.EC_CTRL 0, F.EC_CTRL_privileged, 1), (R.EC_CTRL 0, F.EC_CTRL_state, 2), (R.TC_STATUS, F.TC_STATUS_time_valid, 1)] : Dev).setChan 0 { Chan.reset with waiting := some { table := [5#16], scale := 0x4001, inDelay := 3, outDelay := 4, turn := true, trim := none } }))), 0, { table := [5#16], scale := 0x4001, inDelay := 3, outDelay := 4, turn := true, trim := none }, by decide +kernel⟩,
   ⟨(stateOf (((withFields glazeDev [(R.EC_CTRL 0, F.EC_CTRL_state, 2), (R.TC_STATUS, F.TC_STATUS_time_valid, 1)] : Dev).setChan 0 { Chan.reset with waiting := some { table := [5#16], scale := 0x4001, inDelay := 3, outDelay := 4, turn := false, trim := none } }))), 0, { table := [5#16], scale := 0x4001, inDelay := 3, outDelay := 4, turn := false, trim := none }, by decide +kernel⟩,
   ⟨(stateOf (((withFields glazeDev [(R.EC_CTRL 0, F.EC_CTRL_state, 2), (R.TC_STATUS, F.TC_STATUS_time_valid, 1)] : Dev).setChan 0 { Chan.reset with waiting := some { table := [5#16], scale := 0x4001, inDelay := 3, outDelay := 4, turn := false, trim := none } }))), 0, { table := [5#16], scale := 0x4001, inDelay := 3, outDelay := 4, turn := false, trim := none }, by decide +kernel⟩,
   ⟨(stateOf (((withFields glazeDev [(R.EC_STATUS 0, F.EC_STATUS_cal, 1), (R.EC_CTRL 0, F.EC_CTRL_state, 2), (R.TC_STATUS, F.TC_STATUS_time_valid, 1)] : Dev).setChan 0 { Chan.reset with dead := [1] }))), 0, ⟨0x4000, 0⟩, ⟨0x4005, 0⟩, by decide +kernel⟩⟩

theorem witness_ScheduledPulses :
    (∃ (s : State) (c : Fin 128) (x : DtcEntry) (rest : List DtcEntry), s.Up ∧ s.Inv ∧ s.dev.isDtc c = true ∧ s.dev.inFault = false ∧ s.dev.chanState c = enOn ∧ s.dev.timeValid = true ∧ s.dev.standby = false ∧ (s.dev.chan c).sched = x :: rest ∧ (s.dev.chan c).running = none ∧ (s.dev.chan c).lastFall = none ∧ x.due = none) ∧
    (∃ (s : State) (c : Fin 128) (run : DtcRun), s.Up ∧ s.Inv ∧ s.dev.isDtc c = true ∧ s.dev.inFault = false ∧ (s.dev.chan c).running = some run ∧ (s.dev.chan c).queue.length < 512 ∧ s.dev.flag (R.EC_OUT_CFG c) F.EC_OUT_CFG_report = true) ∧
    (∃ (s : State) (c : Fin 128), s.Up ∧ s.Inv ∧ s.dev.isDtc c = true ∧ s.dev.inFault = false ∧ s.dev.chanState c = enStopping ∧ s.dev.flag (R.EC_CTRL c) F.EC_CTRL_enable = false ∧ (s.dev.chan c).running = none) ∧
    (∃ (s : State) (c : Fin 128) (run : DtcRun), s.Up ∧ s.Inv ∧ s.dev.isDtc c = true ∧ s.dev.inFault = false ∧ (s.dev.chan c).running = some run ∧ (s.dev.chan c).queue.length < 512 ∧ s.dev.hasWaits c = false ∧ s.dev.flag (R.EC_OUT_CFG c) F.EC_OUT_CFG_report = true) :=
  ⟨⟨(stateOf (((withFields glazeDev [(R.EC_PAD 0, F.EC_PAD_dir, 1), (R.EC_CTRL 0, F.EC_CTRL_state, 2), (R.TC_STATUS, F.TC_STATUS_time_valid, 1)] : Dev).setChan 0 { Chan.reset with sched := [{ tag := 7, period := 100, width := 8, count := 2, t48 := 5000, due := none }] }))), 0, { tag := 7, period := 100, width := 8, count := 2, t48 := 5000, due := none }, [], by decide +kernel⟩,
   ⟨(stateOf (((withFields glazeDev [(R.EC_PAD 0, F.EC_PAD_dir, 1), (R.EC_OUT_CFG 0, F.EC_OUT_CFG_report, 1), (R.EC_CTRL 0, F.EC_CTRL_state, 2), (R.TC_STATUS, F.TC_STATUS_time_valid, 1)] : Dev).setChan 0 { Chan.reset with running := some { entry := { tag := 7, period := 100, width := 8, count := 2, t48 := 5000, due := none }, start := 3, late := false, moved := 0, te := 0, invalid := false, stale := false, limit := none } }))), 0, { entry := { tag := 7, period := 100, width := 8, count := 2, t48 := 5000, due := none }, start := 3, late := false, moved := 0, te := 0, invalid := false, stale := false, limit := none }, by decide +kernel⟩,
   ⟨(stateOf (withFields glazeDev [(R.EC_PAD 0, F.EC_PAD_dir, 1), (R.EC_CTRL 0, F.EC_CTRL_state, 3)])), 0, by decide +kernel⟩,
   ⟨(stateOf (((withFields glazeDev [(R.EC_PAD 0, F.EC_PAD_dir, 1), (R.EC_OUT_CFG 0, F.EC_OUT_CFG_report, 1), (R.EC_CTRL 0, F.EC_CTRL_state, 2)] : Dev).setChan 0 { Chan.reset with running := some { entry := { tag := 7, period := 100, width := 8, count := 2, t48 := 5000, due := none }, start := 3, late := false, moved := 0, te := 0, invalid := false, stale := false, limit := some 1 } }))), 0, { entry := { tag := 7, period := 100, width := 8, count := 2, t48 := 5000, due := none }, start := 3, late := false, moved := 0, te := 0, invalid := false, stale := false, limit := some 1 }, by decide +kernel⟩⟩

theorem witness_IngressCells :
    (∃ (s : State) (f : Frame) (fs : List Frame), s.Up ∧ s.Inv ∧ s.dev.stage = .glaze ∧ s.dev.inFault = false ∧ s.dev.sw.arrive = f :: fs ∧ (f.second ≠ none ∨ s.dev.orderBlocked f.port = false)) ∧
    (∃ (s : State) (id : Nat) (x : Fly), s.Up ∧ s.Inv ∧ s.dev.sw.fly.find? (fun y => y.frame.id == id) = some x ∧ x.needsCells = true ∧ s.dev.stored x = false ∧ let p := x.frame.port; s.dev.isazu p = true ∧ 0 < (s.dev.credit p x.start).aside) ∧
    (∃ (s : State) (id : Nat) (x : Fly), s.Up ∧ s.Inv ∧ s.dev.sw.fly.find? (fun y => y.frame.id == id) = some x ∧ x.needsCells = true ∧ s.dev.stored x = false ∧ let p := x.frame.port; (s.dev.isazu p = false ∨ (s.dev.credit p x.start).aside = 0) ∧ ∃ k, s.dev.space p x.cls = some (k, false) ∧ k ≠ .hdrm) ∧
    (∃ (s : State) (id : Nat) (x : Fly), s.Up ∧ s.Inv ∧ s.dev.sw.fly.find? (fun y => y.frame.id == id) = some x ∧ x.needsCells = true ∧ s.dev.stored x = false ∧ let p := x.frame.port; (s.dev.isazu p = false ∨ (s.dev.credit p x.start).aside = 0) ∧ s.dev.space p x.cls = some (.hdrm, false)) ∧
    (∃ (s : State) (id : Nat) (x : Fly), s.Up ∧ s.Inv ∧ s.dev.sw.fly.find? (fun y => y.frame.id == id) = some x ∧ x.needsCells = true ∧ s.dev.stored x = false ∧ let p := x.frame.port; (s.dev.isazu p = false ∨ (s.dev.credit p x.start).aside = 0) ∧ ∃ k, s.dev.space p x.cls = some (k, true)) ∧
    (∃ (s : State) (id : Nat) (x : Fly), s.Up ∧ s.Inv ∧ s.dev.sw.fly.find? (fun y => y.frame.id == id) = some x ∧ x.needsCells = true ∧ s.dev.stored x = false ∧ let p := x.frame.port; (s.dev.isazu p = false ∨ (s.dev.credit p x.start).aside = 0) ∧ s.dev.space p x.cls = none) ∧
    (∃ (s : State) (f : Frame) (fs : List Frame), s.Up ∧ s.Inv ∧ s.dev.stage = .glaze ∧ s.dev.inFault = false ∧ s.dev.sw.arrive = f :: fs ∧ (f.second ≠ none ∨ s.dev.orderBlocked f.port = false) ∧ ∃ y, f.second = some y) :=
  ⟨⟨(stateOf (devSw (glazeDev) { Sw.reset with arrive := [frame0] })), frame0, [], by decide +kernel⟩,
   ⟨(stateOf ((devSw (glazeDev) { Sw.reset with fly := [{ fly0 with verdict := some (.unicast 3) }] }).setCredit 0 2 { Credit.zero with aside := 3 })), 5, { fly0 with verdict := some (.unicast 3) }, by decide +kernel⟩,
   ⟨(stateOf (devSw (withFields glazeDev [(R.SW_TC_CFG 0 2, F.SW_TC_CFG_alpha, 2), (R.SW_TC_CFG 0 2, F.SW_TC_CFG_rsv, 0), (R.SW_POOL_STAT, F.SW_POOL_STAT_shared, 1000)]) { Sw.reset with fly := [{ fly0 with verdict := some (.unicast 3) }] })), 5, { fly0 with verdict := some (.unicast 3) }, by decide +kernel, by decide +kernel, by decide +kernel, by decide +kernel, by decide +kernel, by decide +kernel, ((.shared : Space)), by decide +kernel⟩,
   ⟨(stateOf (devSw (withFields glazeDev [(R.SW_TC_CFG 0 2, F.SW_TC_CFG_rsv, 0), (R.SW_POOL_STAT, F.SW_POOL_STAT_shared, 0), (R.LK_PORT_CFG 0, F.LK_PORT_CFG_protocol, 1), (R.SW_PORT_HDRM 0, F.SW_PORT_HDRM_cells, 5)]) { Sw.reset with fly := [{ fly0 with verdict := some (.unicast 3) }] })), 5, { fly0 with verdict := some (.unicast 3) }, by decide +kernel⟩,
   ⟨(stateOf (devSw (withFields glazeDev [(R.SW_TC_CFG 0 2, F.SW_TC_CFG_rsv, 0), (R.SW_TC_CFG 0 2, F.SW_TC_CFG_alpha, 0), (R.SW_POOL_STAT, F.SW_POOL_STAT_shared, 9), (R.LK_PORT_CFG 0, F.LK_PORT_CFG_protocol, 1), (R.SW_PORT_HDRM 0, F.SW_PORT_HDRM_cells, 0)]) { Sw.reset with fly := [{ fly0 with verdict := some (.unicast 3) }], store := [{ id := 9, port := 0, cls := 2, start := 2, cells := [.shared], banks := [0], bad := false }] })), 5, { fly0 with verdict := some (.unicast 3) }, by decide +kernel, by decide +kernel, by decide +kernel, by decide +kernel, by decide +kernel, by decide +kernel, ((.shared : Space)), by decide +kernel⟩,
   ⟨(stateOf (devSw (withFields glazeDev [(R.SW_TC_CFG 0 2, F.SW_TC_CFG_rsv, 0), (R.SW_BUF_STAT, F.SW_BUF_STAT_cells_usable, 0), (R.LK_PORT_CFG 0, F.LK_PORT_CFG_protocol, 1), (R.SW_PORT_HDRM 0, F.SW_PORT_HDRM_cells, 0)]) { Sw.reset with fly := [{ fly0 with verdict := some (.unicast 3) }] })), 5, { fly0 with verdict := some (.unicast 3) }, by decide +kernel⟩,
   ⟨(stateOf (devSw (glazeDev) { Sw.reset with arrive := [{ frame0 with second := some { cls := 2, tag := 0, bank := 0, epoch := 0, order := 2 } }] })), { frame0 with second := some { cls := 2, tag := 0, bank := 0, epoch := 0, order := 2 } }, [], by decide +kernel, by decide +kernel, by decide +kernel, by decide +kernel, by decide +kernel, by decide +kernel, { cls := 2, tag := 0, bank := 0, epoch := 0, order := 2 }, by decide +kernel⟩⟩

theorem witness_ReleasesAndDiscards :
    (∃ (s : State) (x : Fly) (xs : List Fly), s.Up ∧ s.dev.sw.fly = x :: xs ∧ x.verdict = some .discard ∧ x.frame.second = none) ∧
    (∃ (s : State) (x : Fly) (xs : List Fly), s.Up ∧ s.dev.sw.fly = x :: xs ∧ ∃ p, x.verdict = some (.unicast p) ∧ ((x.frame.second = none → s.dev.stored x = true)) ∧ x.frame.err = false ∧ x.frame.second = none ∧ s.dev.orderHeld x = true) ∧
    (∃ (s : State) (x : Fly) (xs : List Fly), s.Up ∧ s.dev.sw.fly = x :: xs ∧ ∃ p, x.verdict = some (.unicast p) ∧ ((x.frame.second = none → s.dev.stored x = true)) ∧ x.frame.err = false ∧ x.frame.second = none ∧ s.dev.orderHeld x = false ∧ s.dev.cutThrough x p (x.entry x.cls x.edited false none 0) = false ∧ s.dev.isPairPort p = false ∧ s.dev.downed p = false) ∧
    (∃ (s : State) (x : Fly) (xs : List Fly), s.Up ∧ s.dev.sw.fly = x :: xs ∧ x.verdict = none ∧ s.Inv) ∧
    (∃ (s : State), s.Up) ∧
    (∃ (s : State), s.Up ∧ ∃ (p : Fin 64), p.val ∈ s.dev.sw.lost) ∧
    (∃ (s : State) (x : Fly) (xs : List Fly), s.Up ∧ s.dev.sw.fly = x :: xs ∧ ∃ p, x.verdict = some (.unicast p) ∧ ((x.frame.second = none → s.dev.stored x = true)) ∧ x.frame.err = false ∧ x.frame.second = none ∧ s.dev.orderHeld x = false ∧ s.dev.cutThrough x p (x.entry x.cls x.edited false none 0) = true) ∧
    (∃ (s : State) (x : Fly) (xs : List Fly), s.Up ∧ s.dev.sw.fly = x :: xs ∧ ∃ p, x.verdict = some (.unicast p) ∧ s.dev.stored x = true ∧ x.frame.err = true ∧ x.frame.second = none ∧ s.dev.orderHeld x = false ∧ s.dev.cutThrough x p (x.entry x.cls x.edited false none 0) = false) ∧
    (∃ (s : State) (x : Fly) (xs : List Fly), s.Up ∧ s.dev.sw.fly = x :: xs ∧ ∃ p y, x.frame.second = some y ∧ x.verdict = some (.unicast p) ∧ x.frame.err = false ∧ s.dev.sw.order = [] ∧ s.dev.isPairPort p = false ∧ s.dev.downed p = false) ∧
    (∃ (s : State) (x : Fly) (xs : List Fly), s.Up ∧ s.dev.sw.fly = x :: xs ∧ ∃ w, x.verdict = some (.whey w) ∧ s.dev.stored x = true ∧ x.frame.err = false ∧ x.frame.second = none ∧ s.dev.isPairPort 65 = false ∧ s.dev.downed 65 = false) ∧
    (∃ (s : State) (x : Fly) (xs : List Fly), s.Up ∧ s.dev.sw.fly = x :: xs ∧ ∃ tag, x.verdict = some (.recirculate tag) ∧ s.dev.stored x = true ∧ x.frame.err = false ∧ x.frame.second = none ∧ s.dev.orderHeld x = false ∧ s.dev.isPairPort 66 = false ∧ s.dev.downed 66 = false) ∧
    (∃ (s : State) (x : Fly) (xs : List Fly), s.Up ∧ s.dev.sw.fly = x :: xs ∧ ∃ g, x.verdict = some (.group g) ∧ s.dev.stored x = true ∧ x.frame.err = false ∧ x.frame.second = none ∧ s.dev.orderHeld x = false ∧ s.dev.flag R.PS_PAIR_CFG F.PS_PAIR_CFG_enable = false ∧ let t := sGet 0 s.dev.sw.groups g; let ps := groupPorts t x.frame.port; bit t 127 = true ∧ ps ≠ [] ∧ ∀ p ∈ ps, s.dev.downed p = false ∧ (p ≤ 64 → x.edited.length ≤ s.dev.maxFrame p)) :=
  ⟨⟨(stateOf (devSw (glazeDev) { Sw.reset with fly := [{ fly0 with verdict := some .discard }] })), { fly0 with verdict := some .discard }, [], by decide +kernel⟩,
   ⟨(stateOf (devSw (glazeDev) { Sw.reset with fly := [{ fly0 with verdict := some (.unicast 3) }], recirc := [(9, 0, 2)], store := [{ id := 5, port := 0, cls := 2, start := 2, cells := [.shared], banks := [0], bad := false }] })), { fly0 with verdict := some (.unicast 3) }, [], by decide +kernel, by decide +kernel, 3, by decide +kernel⟩,
   ⟨(stateOf (devSw (glazeDev) { Sw.reset with fly := [{ fly0 with verdict := some (.unicast 3) }], store := [{ id := 5, port := 0, cls := 2, start := 2, cells := [.shared], banks := [0], bad := false }] })), { fly0 with verdict := some (.unicast 3) }, [], by decide +kernel, by decide +kernel, 3, by decide +kernel⟩,
   ⟨(stateOf (devSw (glazeDev) { Sw.reset with fly := [fly0] })), fly0, [], by decide +kernel⟩,
   ⟨(stateOf (devSw (glazeDev) { Sw.reset with queues := [(26, [entryOf0, { entryOf0 with multi := true }])] })), by decide +kernel⟩,
   ⟨(stateOf (devSw (glazeDev) { Sw.reset with queues := [(26, [entryOf0])], lost := [3] })), by decide +kernel, 3, by decide +kernel⟩,
   ⟨(stateOf (devSw (withFields glazeDev [(R.SW_PORT_CFG 3, F.SW_PORT_CFG_ct_en, 1), (R.LK_PORT_CFG 3, F.LK_PORT_CFG_width, 1), (R.LK_PORT_CFG 3, F.LK_PORT_CFG_protocol, 1), (R.LK_ETH_CFG 3, F.LK_ETH_CFG_eth_mode, 2), (R.LK_PORT_CTRL 3, F.LK_PORT_CTRL_state, 2), (R.LK_STATUS 3, F.LK_STATUS_link_up, 1), (R.LK_PORT_CFG 0, F.LK_PORT_CFG_protocol, 1), (R.LK_ETH_CFG 0, F.LK_ETH_CFG_eth_mode, 2)]) { Sw.reset with fly := [{ fly0 with verdict := some (.unicast 3) }], store := [{ id := 5, port := 0, cls := 2, start := 2, cells := [.shared], banks := [0], bad := false }] })), { fly0 with verdict := some (.unicast 3) }, [], by decide +kernel, by decide +kernel, 3, by decide +kernel⟩,
   ⟨(stateOf (devSw (withFields glazeDev []) { Sw.reset with fly := [{ fly0 with verdict := some (.unicast 3), frame := { frame0 with err := true } }], store := [{ id := 5, port := 0, cls := 2, start := 2, cells := [.shared], banks := [0], bad := false }] })), { fly0 with verdict := some (.unicast 3), frame := { frame0 with err := true } }, [], by decide +kernel, by decide +kernel, 3, by decide +kernel⟩,
   ⟨(stateOf (devSw (withFields glazeDev []) { Sw.reset with fly := [{ fly0 with verdict := some (.unicast 3), frame := { frame0 with second := some { cls := 2, tag := 0, bank := 0, epoch := 0, order := 2 } } }], store := [{ id := 5, port := 0, cls := 2, start := 2, cells := [.shared], banks := [0], bad := false }], recirc := [(5, 0, 2)] })), { fly0 with verdict := some (.unicast 3), frame := { frame0 with second := some { cls := 2, tag := 0, bank := 0, epoch := 0, order := 2 } } }, [], by decide +kernel, by decide +kernel, 3, { cls := 2, tag := 0, bank := 0, epoch := 0, order := 2 }, by decide +kernel⟩,
   ⟨(stateOf (devSw (withFields glazeDev []) { Sw.reset with fly := [{ fly0 with verdict := some (.whey { reason := 3, ruleId := 0, bank := 0, epoch := 0, pass := 0 }) }], store := [{ id := 5, port := 0, cls := 2, start := 2, cells := [.shared], banks := [0], bad := false }] })), { fly0 with verdict := some (.whey { reason := 3, ruleId := 0, bank := 0, epoch := 0, pass := 0 }) }, [], by decide +kernel, by decide +kernel, { reason := 3, ruleId := 0, bank := 0, epoch := 0, pass := 0 }, by decide +kernel⟩,
   ⟨(stateOf (devSw (withFields glazeDev []) { Sw.reset with fly := [{ fly0 with verdict := some (.recirculate 9) }], store := [{ id := 5, port := 0, cls := 2, start := 2, cells := [.shared], banks := [0], bad := false }] })), { fly0 with verdict := some (.recirculate 9) }, [], by decide +kernel, by decide +kernel, 9, by decide +kernel⟩,
   ⟨(stateOf (devSw (withFields glazeDev []) { Sw.reset with fly := [{ fly0 with verdict := some (.group 6) }], store := [{ id := 5, port := 0, cls := 2, start := 2, cells := [.shared], banks := [0], bad := false }], groups := [(6, 2 ^ 127 + 2 ^ 65 + 8)] })), { fly0 with verdict := some (.group 6) }, [], by decide +kernel, by decide +kernel, 6, by decide +kernel⟩⟩

theorem witness_Egress :
    (∃ (s : State) (p : Fin 64), s.Up ∧ s.dev.stage = .glaze ∧ s.dev.inFault = false ∧ s.dev.txRun p = none ∧ let mask := s.dev.fld (R.SW_PORT_CFG p) F.SW_PORT_CFG_sp_mask; ∃ (c : Fin 8) (q : QEntry), bit mask c = true ∧ s.dev.eligible p c = some q ∧ ((∀ c' : Fin 8, c < c' → bit mask c' = true → s.dev.eligible p c' = none))) ∧
    (∃ (s : State) (p : Fin 64), s.Up ∧ s.dev.stage = .glaze ∧ s.dev.inFault = false ∧ s.dev.txRun p = none ∧ let mask := s.dev.fld (R.SW_PORT_CFG p) F.SW_PORT_CFG_sp_mask; ((∀ c : Fin 8, bit mask c = true → s.dev.eligible p c = none)) ∧ sGet 0 s.dev.sw.turn p < 8) ∧
    (∃ (s : State) (p : Fin 64), s.Up ∧ s.dev.stage = .glaze ∧ s.dev.inFault = false ∧ s.dev.txRun p = none ∧ ((∀ c : Fin 8, s.dev.eligible p c = none)) ∧ s.Inv) ∧
    (∃ (s : State) (p : Fin 67) (x : TxRun), s.Up ∧ s.dev.txRun p = some x ∧ (p.val < 64 ∨ s.dev.sw.parts = [])) ∧
    (∃ (s : State) (p : Fin 67) (x : TxRun), s.Up ∧ s.dev.txRun p = some x ∧ (p.val < 64 ∨ s.dev.sw.parts = []) ∧ x.bad = true ∧ p.val < 64 ∧ sGet 0 s.dev.sw.targets x.entry.id ≤ 1) ∧
    (∃ (s : State) (p : Fin 67) (x : TxRun), s.Up ∧ s.dev.txRun p = some x ∧ (p.val < 64 ∨ s.dev.sw.parts = []) ∧ p.val = 65) ∧
    (∃ (s : State) (x : Departure) (c : Fin 8) (q : QEntry) (qs : List QEntry), s.Up ∧ s.dev.stage = .glaze ∧ s.dev.inFault = false ∧ x.errs = [] ∧ s.dev.txRun 66 = none ∧ bit (s.dev.fld (R.SW_PORT_CFG 66) F.SW_PORT_CFG_sp_mask) c = true ∧ s.dev.queue 66 c = q :: qs ∧ ∀ c' : Fin 8, c < c' → s.dev.queue 66 c' = []) :=
  ⟨⟨(stateOf (devSw (withFields glazeDev [(R.SW_PORT_CFG 3, F.SW_PORT_CFG_sp_mask, 4), (R.LK_PORT_CFG 3, F.LK_PORT_CFG_width, 1), (R.LK_PORT_CFG 3, F.LK_PORT_CFG_protocol, 1), (R.LK_PORT_CTRL 3, F.LK_PORT_CTRL_state, 2), (R.LK_STATUS 3, F.LK_STATUS_link_up, 1)]) { Sw.reset with queues := [(26, [entryOf0]), (25, [entryOf0])] })), 3, by decide +kernel, by decide +kernel, by decide +kernel, by decide +kernel, 2, entryOf0, by decide +kernel⟩,
   ⟨(stateOf (devSw (withFields glazeDev [(R.SW_PORT_CFG 3, F.SW_PORT_CFG_sp_mask, 0), (R.LK_PORT_CFG 3, F.LK_PORT_CFG_width, 1), (R.LK_PORT_CFG 3, F.LK_PORT_CFG_protocol, 1), (R.LK_PORT_CTRL 3, F.LK_PORT_CTRL_state, 2), (R.LK_STATUS 3, F.LK_STATUS_link_up, 1)]) { Sw.reset with queues := [(26, [entryOf0]), (25, [entryOf0])] })), 3, by decide +kernel⟩,
   ⟨(stateOf (glazeDev)), 3, by decide +kernel⟩,
   ⟨(stateOf (devSw (withFields glazeDev [(R.LK_PORT_CFG 3, F.LK_PORT_CFG_width, 1), (R.LK_PORT_CFG 3, F.LK_PORT_CFG_protocol, 1), (R.LK_PORT_CTRL 3, F.LK_PORT_CTRL_state, 2), (R.LK_STATUS 3, F.LK_STATUS_link_up, 1)]) { Sw.reset with tx := [(3, some run0)], targets := [(5, 2)], store := [{ id := 5, port := 0, cls := 2, start := 2, cells := [.shared], banks := [0], bad := false }] })), 3, run0, by decide +kernel⟩,
   ⟨(stateOf (devSw (withFields glazeDev [(R.LK_STATUS 3, F.LK_STATUS_ver, 3)]) { Sw.reset with tx := [(3, some { run0 with bad := true, left := [7] })], fcDue := [(3, some 3)], store := [{ id := 5, port := 0, cls := 2, start := 2, cells := [.shared], banks := [0], bad := false }] })), 3, { run0 with bad := true, left := [7] }, by decide +kernel⟩,
   ⟨(stateOf (devSw glazeDev { Sw.reset with tx := [(65, some run0)] })), 65, run0, by decide +kernel⟩,
   ⟨(stateOf (devSw (withFields glazeDev [(R.SW_PORT_CFG 66, F.SW_PORT_CFG_sp_mask, 4)]) { Sw.reset with queues := [(530, [{ entryOf0 with tag := 9 }])] })), { errs := [], lane := 0, load := 0 }, 2, { entryOf0 with tag := 9 }, [], by decide +kernel⟩⟩

theorem witness_Classification :
    (∃ (s : State) (id : Nat) (x : Fly), s.Up ∧ s.dev.sw.fly.find? (fun y => y.frame.id == id) = some x ∧ x.verdict = none ∧ s.dev.standby = false ∧ x.frame.direct = none ∧ x.frame.second = none ∧ let o := R.CL_PORT_CFG x.frame.port; let g := x.assigned s.dev; let q := parse x.frame.octets; q.slow = none ∧ s.dev.ptpKnown x.frame.port q = false ∧ g.flag o F.CL_PORT_CFG_em_en = false ∧ g.flag o F.CL_PORT_CFG_tcam_en = false ∧ g.fld o F.CL_PORT_CFG_miss = 1) ∧
    (∃ (s : State) (id : Nat) (x : Fly), s.Up ∧ s.dev.sw.fly.find? (fun y => y.frame.id == id) = some x ∧ x.verdict = none ∧ s.dev.standby = false ∧ x.frame.direct = none ∧ x.frame.second = none ∧ let o := R.CL_PORT_CFG x.frame.port; let g := x.assigned s.dev; let q := parse x.frame.octets; q.slow = none ∧ s.dev.ptpKnown x.frame.port q = false ∧ g.flag o F.CL_PORT_CFG_em_en = false ∧ g.flag o F.CL_PORT_CFG_tcam_en = false ∧ g.fld o F.CL_PORT_CFG_miss = 2 ∧ let t := g.fld o F.CL_PORT_CFG_miss_port; t ≤ 65 ∧ ((t = 65 ∨ x.frame.octets.length ≤ s.dev.maxFrame t))) ∧
    (∃ (s : State) (id : Nat) (x : Fly), s.Up ∧ s.dev.sw.fly.find? (fun y => y.frame.id == id) = some x ∧ x.verdict = none ∧ s.dev.standby = false ∧ x.frame.direct = none ∧ x.frame.second = none ∧ let o := R.CL_PORT_CFG x.frame.port; let g := x.assigned s.dev; let q := parse x.frame.octets; q.slow = none ∧ s.dev.ptpKnown x.frame.port q = false ∧ g.flag o F.CL_PORT_CFG_em_en = false ∧ g.flag o F.CL_PORT_CFG_tcam_en = false ∧ g.fld o F.CL_PORT_CFG_miss = 0 ∧ s.dev.fld (R.CL_WHEY_LIM 1) F.CL_WHEY_LIM_rate = 0) ∧
    (∃ (s : State) (id : Nat) (l : Nat) (a : Nat) (t : Nat) (x : Fly), s.Up ∧ s.dev.sw.fly.find? (fun y => y.frame.id == id) = some x ∧ x.verdict = none ∧ s.dev.standby = false ∧ x.frame.direct = none ∧ x.frame.second = none ∧ s.dev.mi.diverted = [] ∧ let f := x.frame; let o := R.CL_PORT_CFG f.port; let q := parse f.octets; let g := x.assigned s.dev; let cls := g.entryClass f q; let ep := g.fld o F.CL_PORT_CFG_eprof0; let tp := g.fld o F.CL_PORT_CFG_tprof0; q.slow = none ∧ s.dev.ptpKnown f.port q = false ∧ g.flag o F.CL_PORT_CFG_em_en = true ∧ s.dev.flag R.CL_TBL_CFG F.CL_TBL_CFG_em_mode = true ∧ s.dev.emFind ep (g.key f q cls ep 12) = some l ∧ bit (emBanks (s.dev.emAt l)) x.bank = true ∧ ((g.flag o F.CL_PORT_CFG_tcam_en = false ∨ (s.dev.ternFind x.bank tp (g.key f q cls tp 40)).all (fun v => !bit v 1310) = true)) ∧ bits (s.dev.emAt l) 31 0 = a ∧ bits a 31 29 = 1 ∧ a % 65536 = t ∧ t ≤ 65 ∧ ((t = 65 ∨ f.octets.length ≤ s.dev.maxFrame t)) ∧ f.octets.length ≤ 16384) :=
  ⟨⟨(stateOf (devSw (withFields glazeDev [(R.CL_PORT_CFG 0, F.CL_PORT_CFG_em_en, 0), (R.CL_PORT_CFG 0, F.CL_PORT_CFG_tcam_en, 0), (R.CL_PORT_CFG 0, F.CL_PORT_CFG_miss, 1)]) { Sw.reset with fly := [flyIn (withFields glazeDev [(R.CL_PORT_CFG 0, F.CL_PORT_CFG_em_en, 0), (R.CL_PORT_CFG 0, F.CL_PORT_CFG_tcam_en, 0), (R.CL_PORT_CFG 0, F.CL_PORT_CFG_miss, 1)])] })), 5, flyIn (withFields glazeDev [(R.CL_PORT_CFG 0, F.CL_PORT_CFG_em_en, 0), (R.CL_PORT_CFG 0, F.CL_PORT_CFG_tcam_en, 0), (R.CL_PORT_CFG 0, F.CL_PORT_CFG_miss, 1)]), by decide +kernel⟩,
   ⟨(stateOf (devSw (withFields glazeDev [(R.CL_PORT_CFG 0, F.CL_PORT_CFG_em_en, 0), (R.CL_PORT_CFG 0, F.CL_PORT_CFG_tcam_en, 0), (R.CL_PORT_CFG 0, F.CL_PORT_CFG_miss, 2), (R.CL_PORT_CFG 0, F.CL_PORT_CFG_miss_port, 7)]) { Sw.reset with fly := [flyIn (withFields glazeDev [(R.CL_PORT_CFG 0, F.CL_PORT_CFG_em_en, 0), (R.CL_PORT_CFG 0, F.CL_PORT_CFG_tcam_en, 0), (R.CL_PORT_CFG 0, F.CL_PORT_CFG_miss, 2), (R.CL_PORT_CFG 0, F.CL_PORT_CFG_miss_port, 7)])] })), 5, flyIn (withFields glazeDev [(R.CL_PORT_CFG 0, F.CL_PORT_CFG_em_en, 0), (R.CL_PORT_CFG 0, F.CL_PORT_CFG_tcam_en, 0), (R.CL_PORT_CFG 0, F.CL_PORT_CFG_miss, 2), (R.CL_PORT_CFG 0, F.CL_PORT_CFG_miss_port, 7)]), by decide +kernel⟩,
   ⟨(stateOf (devSw (withFields glazeDev [(R.CL_PORT_CFG 0, F.CL_PORT_CFG_em_en, 0), (R.CL_PORT_CFG 0, F.CL_PORT_CFG_tcam_en, 0), (R.CL_PORT_CFG 0, F.CL_PORT_CFG_miss, 0), (R.CL_WHEY_LIM 1, F.CL_WHEY_LIM_rate, 0)]) { Sw.reset with fly := [flyIn (withFields glazeDev [(R.CL_PORT_CFG 0, F.CL_PORT_CFG_em_en, 0), (R.CL_PORT_CFG 0, F.CL_PORT_CFG_tcam_en, 0), (R.CL_PORT_CFG 0, F.CL_PORT_CFG_miss, 0), (R.CL_WHEY_LIM 1, F.CL_WHEY_LIM_rate, 0)])] })), 5, flyIn (withFields glazeDev [(R.CL_PORT_CFG 0, F.CL_PORT_CFG_em_en, 0), (R.CL_PORT_CFG 0, F.CL_PORT_CFG_tcam_en, 0), (R.CL_PORT_CFG 0, F.CL_PORT_CFG_miss, 0), (R.CL_WHEY_LIM 1, F.CL_WHEY_LIM_rate, 0)]), by decide +kernel⟩,
   ⟨(stateOf (({ (devSw (withFields glazeDev [(R.CL_PORT_CFG 0, F.CL_PORT_CFG_em_en, 1), (R.CL_PORT_CFG 0, F.CL_PORT_CFG_tcam_en, 1), (R.CL_TBL_CFG, F.CL_TBL_CFG_em_mode, 1)]) { Sw.reset with fly := [flyIn (withFields glazeDev [(R.CL_PORT_CFG 0, F.CL_PORT_CFG_em_en, 1), (R.CL_PORT_CFG 0, F.CL_PORT_CFG_tcam_en, 1), (R.CL_TBL_CFG, F.CL_TBL_CFG_em_mode, 1)])] } : Dev) with cl := { Cl.reset with em := [(emLine 0 (emBucket 0 0 0) 0, 2 ^ 255 + 3 * 2 ^ 253 + 0x20000007)] } } : Dev))), 5, (emLine 0 (emBucket 0 0 0) 0), 0x20000007, 7, flyIn (withFields glazeDev [(R.CL_PORT_CFG 0, F.CL_PORT_CFG_em_en, 1), (R.CL_PORT_CFG 0, F.CL_PORT_CFG_tcam_en, 1), (R.CL_TBL_CFG, F.CL_TBL_CFG_em_mode, 1)]), by decide +kernel⟩⟩

theorem witness_TableCommands :
    (∃ (s : State) (c : CmdDesc) (size : Nat) (limit : Nat), s.Up ∧ s.dev.cmdReady c.ring = true ∧ let t := c.arg0.toNat / 2 ^ 24; let i := c.arg0.toNat % 2 ^ 24; let n := entriesOf c; tableShape t = some (size, limit) ∧ t ≠ 2 ∧ (((tableBank t).isSome = true → tableBank t ≠ s.dev.drainBank)) ∧ i + n ≤ limit) ∧
    (∃ (s : State) (c : CmdDesc) (size : Nat) (limit : Nat), s.Up ∧ s.dev.cmdReady c.ring = true ∧ let t := c.arg0.toNat / 2 ^ 24; let i := c.arg0.toNat % 2 ^ 24; tableShape t = some (size, limit) ∧ t ≠ 2 ∧ (((tableBank t).isSome = true → tableBank t ≠ s.dev.drainBank)) ∧ limit ≤ i) ∧
    (∃ (s : State) (c : CmdDesc) (size : Nat) (limit : Nat), s.Up ∧ s.dev.cmdReady c.ring = true ∧ let t := c.arg0.toNat / 2 ^ 24; tableShape t = some (size, limit) ∧ t ≠ 2 ∧ (((tableBank t).isSome = true → tableBank t ≠ s.dev.drainBank)) ∧ ∃ t' j size' limit', tableShape t' = some (size', limit') ∧ t' ≠ t ∧ j < limit') ∧
    (∃ (s : State) (c : CmdDesc), s.Up ∧ s.dev.cmdReady c.ring = true ∧ entriesOf c = 1 ∧ let v := leNat (octets c.data 0 32); s.dev.emWaits v true = false ∧ (s.dev.emFind (emProf v) (emKey v) ≠ none ∨ s.dev.emFree 0 (emBucket 0 (emProf v) (emKey v)) ≠ none ∨ s.dev.emFree 1 (emBucket 1 (emProf v) (emKey v)) ≠ none)) ∧
    (∃ (s : State) (c : CmdDesc), s.Up ∧ s.dev.cmdReady c.ring = true ∧ entriesOf c = 1 ∧ let v := leNat (octets c.data 0 32); s.dev.emWaits v false = false) ∧
    (∃ (s : State) (c : CmdDesc) (size : Nat) (limit : Nat), s.Up ∧ s.dev.cmdReady c.ring = true ∧ let t := c.arg0.toNat / 2 ^ 24; let i := c.arg0.toNat % 2 ^ 24; let n := entriesOf c; tableShape t = some (size, limit) ∧ t = 3 ∧ (((tableBank t).isSome = true → tableBank t ≠ s.dev.drainBank)) ∧ i + n ≤ limit) ∧
    (∃ (s : State) (c : CmdDesc), s.Up ∧ s.dev.cmdReady c.ring = true ∧ entriesOf c = 1 ∧ let v := leNat (octets c.data 0 32); s.dev.emWaits v false = false ∧ ∃ l, s.dev.emFind (emProf v) (emKey v) = some l) ∧
    (∃ (s : State) (c : CmdDesc), s.Up ∧ s.dev.cmdReady c.ring = true ∧ entriesOf c = 1 ∧ c.arg0.toNat / 2 ^ 24 = 2 ∧ c.arg0.toNat % 2 ^ 24 < 4096 ∧ let i := c.arg0.toNat % 2 ^ 24; let es := entryWords 16 (octets c.data 0 64); let free := unitEntryOk es = true ∧ s.dev.fld (R.TG_CU_CTRL i) F.TG_CU_CTRL_state = enOff; free) ∧
    (∃ (s : State) (c : CmdDesc), s.Up ∧ s.dev.cmdReady c.ring = true ∧ entriesOf c = 1 ∧ c.arg0.toNat / 2 ^ 24 = 2 ∧ c.arg0.toNat % 2 ^ 24 < 4096 ∧ let i := c.arg0.toNat % 2 ^ 24; let es := entryWords 16 (octets c.data 0 64); let free := unitEntryOk es = true ∧ s.dev.fld (R.TG_CU_CTRL i) F.TG_CU_CTRL_state = enOff; ¬ free) :=
  ⟨⟨(stateOf (ringDev)), { cmd0 with arg0 := 0x04000003#32, data := leBytes 16 99 }, 16, 16384, by decide +kernel⟩,
   ⟨(stateOf (ringDev)), { cmd0 with arg0 := 0x04004003#32, data := leBytes 16 99 }, 16, 16384, by decide +kernel⟩,
   ⟨(stateOf (ringDev)), { cmd0 with arg0 := 0x04000003#32, data := leBytes 16 99 }, 16, 16384, by decide +kernel, by decide +kernel, by decide +kernel, by decide +kernel, by decide +kernel, 7, 3, 32, 65536, by decide +kernel⟩,
   ⟨(stateOf (ringDev)), { cmd0 with data := leBytes 32 (2 ^ 255 + 3 * 2 ^ 253 + 77 * 2 ^ 57 + 0x20000007) }, by decide +kernel⟩,
   ⟨(stateOf (ringDev)), { cmd0 with data := leBytes 32 (2 ^ 255 + 3 * 2 ^ 253 + 77 * 2 ^ 57 + 0x20000007) }, by decide +kernel⟩,
   ⟨(stateOf (ringDev)), { cmd0 with arg0 := 0x03000003#32, data := leBytes 32 99 }, 32, 4096, by decide +kernel⟩,
   ⟨(stateOf { (ringDev : Dev) with cl := { Cl.reset with em := [(emLine 0 (emBucket 0 0 77) 0, 2 ^ 255 + 3 * 2 ^ 253 + 77 * 2 ^ 57 + 0x20000007)] } }), { cmd0 with data := leBytes 32 (2 ^ 255 + 3 * 2 ^ 253 + 77 * 2 ^ 57 + 0x20000007) }, by decide +kernel, by decide +kernel, by decide +kernel, by decide +kernel, (emLine 0 (emBucket 0 0 77) 0), by decide +kernel⟩,
   ⟨(stateOf (ringDev)), { cmd0 with arg0 := 0x02000003#32, data := entry0.flatMap fun w => leBytes 4 w.toNat }, by decide +kernel⟩,
   ⟨(stateOf (withFields ringDev [(R.TG_CU_CTRL 3, F.TG_CU_CTRL_state, 2)])), { cmd0 with arg0 := 0x02000003#32, data := entry0.flatMap fun w => leBytes 4 w.toNat }, by decide +kernel⟩⟩

theorem witness_Banks :
    (∃ (s : State) (c : CmdDesc), s.Up ∧ s.dev.cmdReady c.ring = true ∧ s.dev.drainBank = none) ∧
    (∃ (s : State) (c : CmdDesc), s.Up ∧ s.dev.cmdReady c.ring = true ∧ s.dev.drainBank ≠ none) ∧
    (∃ (s : State), s.Up ∧ ∃ b o, s.dev.drainBank = some b ∧ s.dev.cl.swap = some o ∧ s.dev.inflight b = 0 ∧ s.dev.cl.held = []) ∧
    (∃ (s : State), s.Up) :=
  ⟨⟨(stateOf (ringDev)), cmd0, by decide +kernel⟩,
   ⟨(stateOf (withFields ringDev [(R.CL_BANK_STAT, F.CL_BANK_STAT_draining, 1)])), cmd0, by decide +kernel⟩,
   ⟨(stateOf (({ (withFields ringDev [(R.CL_BANK_STAT, F.CL_BANK_STAT_draining, 1)] : Dev) with cl := { Cl.reset with swap := some { ring := 0, index := 0, opcode := 4, cookie := 0, kind := 1 } } } : Dev))), by decide +kernel, ((1 : Nat)), (({ ring := 0, index := 0, opcode := 4, cookie := 0, kind := 1 } : Origin)), by decide +kernel⟩,
   ⟨(stateOf (ringDev)), by decide +kernel⟩⟩

theorem witness_ReadingAndClearing :
    (∃ (s : State) (c : CmdDesc), s.Up ∧ s.dev.cmdReady c.ring = true) ∧
    (∃ (s : State) (c : CmdDesc) (op : Byte), s.Up ∧ s.dev.cmdReady c.ring = true ∧ (op.toNat = 0 ∨ 13 < op.toNat)) ∧
    (∃ (s : State) (c : CmdDesc), s.Up ∧ s.dev.cmdReady c.ring = true) ∧
    (∃ (s : State) (c : CmdDesc), s.Up ∧ s.dev.cmdReady c.ring = true ∧ let n := entriesOf c; 4096 < n) ∧
    (∃ (s : State) (c : CmdDesc), s.Up ∧ s.dev.cmdReady c.ring = true ∧ let n := entriesOf c; n ≤ 4096 ∧ bit (s.dev.arg1 c) 0 = false) ∧
    (∃ (s : State) (c : CmdDesc), s.Up ∧ s.dev.cmdReady c.ring = true ∧ s.dev.nv.clearing = none) ∧
    (∃ (s : State) (c : CmdDesc), s.Up ∧ s.dev.cmdReady c.ring = true ∧ c.arg0.toNat ≤ 7) ∧
    (∃ (s : State) (c : CmdDesc), s.Up ∧ s.dev.cmdReady c.ring = true ∧ s.dev.nv.clearing = none ∧ s.dev.clearAllowed c = false) ∧
    (∃ (s : State) (c : CmdDesc), s.Up ∧ s.dev.cmdReady c.ring = true ∧ s.dev.nv.clearing = none ∧ s.dev.clearAllowed c = true ∧ s.dev.nv.bad = []) ∧
    (∃ (s : State), s.Up ∧ ∃ m, s.dev.nv.clearing = some m ∧ s.dev.klogQueue = [] ∧ s.dev.nv.bad = []) :=
  ⟨⟨(stateOf (ringDev)), cmd0, by decide +kernel⟩,
   ⟨(stateOf (ringDev)), cmd0, 14, by decide +kernel⟩,
   ⟨(stateOf (({ (ringDev : Dev) with tc := { Tc.reset with tsq := [{ id := 3, port := 4, invalid := false, te := 5, t48 := 6, seq := 7 }] } } : Dev))), { cmd0 with count := 2 }, by decide +kernel⟩,
   ⟨(stateOf (ringDev)), { cmd0 with count := 4097 }, by decide +kernel⟩,
   ⟨(stateOf (ringDev)), { cmd0 with count := 3 }, by decide +kernel⟩,
   ⟨(stateOf (ringDev)), { cmd0 with count := 3 }, by decide +kernel⟩,
   ⟨(stateOf (ringDev)), { cmd0 with arg0 := 3#32 }, by decide +kernel⟩,
   ⟨(stateOf (ringDev)), { cmd0 with arg0 := 3#32, count := 48 }, by decide +kernel⟩,
   ⟨(stateOf ((({ (ringDev : Dev) with nv := { Nv.shipped with keys := List.replicate 8 (some (List.replicate 32 1#8)) } } : Dev)).setRing 0 { Ring.reset with challenge := some { slot := 3, bytes := [5#8], at_ := 0 } })), { cmd0 with arg0 := 3#32, count := 48, data := Crypto.hmac384 (List.replicate 32 1#8) [5#8] }, by decide +kernel⟩,
   ⟨(stateOf (({ (ringDev : Dev) with nv := { Nv.shipped with clearing := some { records := 3, refused := 0, slot := 2 } } } : Dev))), by decide +kernel, (({ records := 3, refused := 0, slot := 2 } : ClearMark)), by decide +kernel⟩⟩

theorem witness_SubmittingCommands :
    (∃ (s : State) (c : CmdDesc), s.Up ∧ s.dev.cmdReady c.ring = true ∧ 127 < c.arg0.toNat) ∧
    (∃ (s : State) (c : CmdDesc), s.Up ∧ s.dev.cmdReady c.ring = true ∧ let x := s.dev.chan c.arg0.toNat; let en := dtcEntryOf (octets c.data 0 16); c.arg0.toNat ≤ 127 ∧ entriesOf c = 1 ∧ s.dev.isDtc c.arg0.toNat = true ∧ s.dev.chanState c.arg0.toNat = enOn ∧ x.sched.length < 64 ∧ 960 ≤ en.width ∧ (en.count = 1 ∨ en.width + 960 ≤ en.period)) ∧
    (∃ (s : State) (c : CmdDesc), s.Up ∧ s.dev.cmdReady c.ring = true ∧ c.arg0.toNat ≤ 127 ∧ entriesOf c = 1 ∧ s.dev.isDtc c.arg0.toNat = true ∧ s.dev.chanState c.arg0.toNat ≠ enOn) ∧
    (∃ (s : State) (c : CmdDesc), s.Up ∧ s.dev.cmdReady c.ring = true ∧ let w := leNat (octets c.data 0 8); entriesOf c = 1 ∧ primCrcOk w = false) ∧
    (∃ (s : State) (c : CmdDesc), s.Up ∧ s.dev.cmdReady c.ring = true ∧ let w := leNat (octets c.data 0 8); entriesOf c = 1 ∧ primCrcOk w = true ∧ bits w 63 60 = 1) ∧
    (∃ (s : State) (c : CmdDesc), s.Up ∧ s.dev.cmdReady c.ring = true ∧ let v := leNat (c.data.take 16); decCrcOk v = false) ∧
    (∃ (s : State) (c : CmdDesc), s.Up ∧ s.dev.cmdReady c.ring = true ∧ let v := leNat (c.data.take 16); decCrcOk v = true ∧ bits v 127 124 = 2 ∧ bits v 63 60 = 3 ∧ s.dev.engineOn = false) ∧
    (∃ (s : State) (c : CmdDesc), s.Up ∧ s.dev.cmdReady c.ring = true ∧ let v := leNat (c.data.take 16); decCrcOk v = true ∧ bits v 127 124 = 2 ∧ bits v 63 60 = 3 ∧ s.dev.engineOn = true) :=
  ⟨⟨(stateOf (ringDev)), { cmd0 with arg0 := 128#32 }, by decide +kernel⟩,
   ⟨(stateOf (withFields ringDev [(R.EC_PAD 3, F.EC_PAD_dir, 1), (R.EC_CTRL 3, F.EC_CTRL_state, 2), (R.TC_STATUS, F.TC_STATUS_time_valid, 1)])), { cmd0 with arg0 := 3#32, data := leBytes 16 (7 * 2 ^ 120 + 5000 * 2 ^ 88 + 1000 * 2 ^ 64 + 2 * 2 ^ 48 + 900000) }, by decide +kernel⟩,
   ⟨(stateOf (withFields ringDev [(R.EC_PAD 3, F.EC_PAD_dir, 1)])), { cmd0 with arg0 := 3#32, data := leBytes 16 (7 * 2 ^ 120 + 5000 * 2 ^ 88 + 1000 * 2 ^ 64 + 2 * 2 ^ 48 + 900000) }, by decide +kernel⟩,
   ⟨(stateOf (ringDev)), { cmd0 with data := leBytes 8 5 }, by decide +kernel⟩,
   ⟨(stateOf (ringDev)), { cmd0 with data := leBytes 8 (Prim.word { srcId := 5, pol := true, t32p := 77 }) }, by decide +kernel⟩,
   ⟨(stateOf (ringDev)), { cmd0 with data := leBytes 16 5 }, by decide +kernel⟩,
   ⟨(stateOf (ringDev)), { cmd0 with data := leBytes 16 decWord }, by decide +kernel⟩,
   ⟨(stateOf (withFields ringDev [(R.TG_CTRL, F.TG_CTRL_state, 2)])), { cmd0 with data := leBytes 16 decWord }, by decide +kernel⟩⟩

theorem witness_Rings :
    (∃ (s : State) (r : Fin 64) (w : Word), s.Up ∧ s.dev.hr.linkUp = true ∧ (s.dev.ringType r = 1 ∨ s.dev.ringType r = 3) ∧ s.dev.ringState r = enOn ∧ (w.toNat + 2 ^ 32 - s.dev.didx r) % 2 ^ 32 ≤ s.dev.ringSize r) ∧
    (∃ (s : State) (r : Fin 64) (w : Word), s.Up ∧ s.dev.hr.linkUp = true ∧ (s.dev.ringType r = 1 ∨ s.dev.ringType r = 3) ∧ s.dev.ringState r = enOn ∧ s.dev.ringSize r < (w.toNat + 2 ^ 32 - s.dev.didx r) % 2 ^ 32 ∧ s.dev.inFault = false) ∧
    (∃ (s : State) (r : Fin 64), s.Up ∧ s.dev.ringState r = enOn ∧ s.dev.inFault = false) ∧
    (∃ (s : State), s.Up ∧ s.dev.hr.dbFails < 7) ∧
    (∃ (s : State) (r : Fin 64), s.Up ∧ 7 ≤ s.dev.hr.dbFails ∧ s.dev.ringState r = enOn ∧ s.dev.inFault = false) ∧
    (∃ (s : State) (r : Fin 64), s.Up ∧ s.dev.inFault = false ∧ s.dev.ringState r = enStarting ∧ s.dev.flag (R.HR_RING_CTRL r) F.HR_RING_CTRL_enable = true) ∧
    (∃ (s : State) (r : Fin 64), s.Up ∧ s.dev.inFault = false ∧ s.dev.mayStart (.ring r) = true ∧ s.dev.ringState r = enOff ∧ s.dev.ringValid r = false) ∧
    (∃ (s : State) (r : Fin 64), s.Up ∧ s.dev.inFault = false ∧ s.dev.ringState r = enStopping ∧ (s.dev.ring r).busy = false ∧ s.dev.flag (R.HR_RING_CTRL r) F.HR_RING_CTRL_enable = false ∧ s.dev.hr.flr = false) ∧
    (∃ (s : State), s.Up ∧ ((∀ q < 64, s.dev.ringState q = enOff))) ∧
    (∃ (s : State), s.Up ∧ s.dev.ringsActive = []) ∧
    (∃ (s : State), s.Up ∧ s.dev.ringsActive ≠ []) ∧
    (∃ (s : State) (r : Fin 64), s.Up ∧ s.dev.inFault = false ∧ s.dev.mayStart (.ring r) = true ∧ s.dev.ringState r = enOff ∧ s.dev.ringValid r = true) ∧
    (∃ (s : State) (r : Fin 64), s.Up ∧ s.dev.inFault = false ∧ s.dev.ringState r = enStarting ∧ s.dev.flag (R.HR_RING_CTRL r) F.HR_RING_CTRL_enable = false) :=
  ⟨⟨(stateOf (({ (ringDev : Dev) with hr := { Hr.reset with linkUp := true } } : Dev))), 0, 60#32, by decide +kernel⟩,
   ⟨(stateOf (({ (ringDev : Dev) with hr := { Hr.reset with linkUp := true } } : Dev))), 0, 65#32, by decide +kernel⟩,
   ⟨(stateOf (ringDev)), 0, by decide +kernel⟩,
   ⟨(stateOf (ringDev)), by decide +kernel⟩,
   ⟨(stateOf (({ (ringDev : Dev) with hr := { Hr.reset with dbFails := 7 } } : Dev))), 0, by decide +kernel⟩,
   ⟨(stateOf (withFields ringDev [(R.HR_RING_CTRL 0, F.HR_RING_CTRL_state, 1), (R.HR_RING_CTRL 0, F.HR_RING_CTRL_enable, 1)])), 0, by decide +kernel⟩,
   ⟨(stateOf (withFields ringDev [(R.HR_RING_CTRL 0, F.HR_RING_CTRL_state, 0), (R.HR_RING_CFG 0, F.HR_RING_CFG_size_log2, 5)])), 0, by decide +kernel⟩,
   ⟨(stateOf (withFields ringDev [(R.HR_RING_CTRL 0, F.HR_RING_CTRL_state, 3)])), 0, by decide +kernel⟩,
   ⟨(stateOf (glazeDev)), by decide +kernel⟩,
   ⟨(stateOf (glazeDev)), by decide +kernel⟩,
   ⟨(stateOf (ringDev)), by decide +kernel⟩,
   ⟨(stateOf (withFields ringDev [(R.HR_RING_CTRL 0, F.HR_RING_CTRL_state, 0)])), 0, by decide +kernel⟩,
   ⟨(stateOf (withFields ringDev [(R.HR_RING_CTRL 0, F.HR_RING_CTRL_state, 1)])), 0, by decide +kernel⟩⟩

theorem witness_RingFrames :
    (∃ (s : State) (r : Fin 64) (x : TxpDesc), s.Up ∧ let cls := s.dev.fld (R.HR_RING_CFG r) F.HR_RING_CFG_cls % 8; s.dev.ringType r = 3 ∧ s.dev.ringState r = enOn ∧ s.dev.hidx r ≠ s.dev.didx r ∧ s.dev.backPressured 65 cls = false ∧ s.dev.inFault = false ∧ s.dev.txpOk x = true ∧ x.cpl = false) ∧
    (∃ (s : State) (r : Fin 64) (x : TxpDesc), s.Up ∧ let cls := s.dev.fld (R.HR_RING_CFG r) F.HR_RING_CFG_cls % 8; s.dev.ringType r = 3 ∧ s.dev.ringState r = enOn ∧ s.dev.hidx r ≠ s.dev.didx r ∧ s.dev.backPressured 65 cls = false ∧ s.dev.inFault = false ∧ s.dev.txpOk x = false ∧ s.dev.cplRoom r = true) ∧
    (∃ (s : State) (r : Fin 64), s.Up ∧ s.dev.ringType r = 4 ∧ s.dev.ringState r = enOn ∧ ((∀ c < 8, s.dev.queue 65 c = [])) ∧ s.dev.txRun 65 = none) ∧
    (∃ (s : State) (r : Fin 64), s.Up ∧ (s.dev.ring r).fresh ≠ 0 ∧ s.dev.fld (R.HR_RING_MOD r) F.HR_RING_MOD_count ≠ 0 ∧ s.dev.fld (R.HR_RING_MOD r) F.HR_RING_MOD_time ≠ 0) ∧
    (∃ (s : State) (r : Fin 64), s.Up ∧ (s.dev.ring r).fresh ≠ 0 ∧ s.dev.fld (R.HR_RING_MOD r) F.HR_RING_MOD_count ≠ 0 ∧ s.dev.fld (R.HR_RING_MOD r) F.HR_RING_MOD_time ≠ 0 ∧ (s.dev.msixWord (16 * r + 12)).toNat % 2 = 0 ∧ s.dev.hr.linkUp = true) :=
  ⟨⟨(stateOf (withFields ringDev [(R.HR_RING_CFG 0, F.HR_RING_CFG_type, 3)])), 0, { bufAddr := 0, len := 64, tsId := 0, tsReq := false, oneStep := false, direct := false, cpl := false, port := 0, tsRef := 0, cookie := 0, octets := List.replicate 64 0 }, by decide +kernel⟩,
   ⟨(stateOf (withFields ringDev [(R.HR_RING_CFG 0, F.HR_RING_CFG_type, 3)])), 0, { bufAddr := 0, len := 13, tsId := 0, tsReq := false, oneStep := false, direct := false, cpl := false, port := 0, tsRef := 0, cookie := 0, octets := List.replicate 64 0 }, by decide +kernel⟩,
   ⟨(stateOf (withFields ringDev [(R.HR_RING_CFG 0, F.HR_RING_CFG_type, 4)])), 0, by decide +kernel⟩,
   ⟨(stateOf (((withFields ringDev [(R.HR_RING_MOD 0, F.HR_RING_MOD_count, 5), (R.HR_RING_MOD 0, F.HR_RING_MOD_time, 9)] : Dev).setRing 0 { Ring.reset with fresh := 1 }))), 0, by decide +kernel⟩,
   ⟨(stateOf { (withFields glazeDev [(R.HR_RING_MOD 0, F.HR_RING_MOD_count, 3), (R.HR_RING_MOD 0, F.HR_RING_MOD_time, 3)] : Dev) with hr := { Hr.reset with linkUp := true, rings := [(0, { Ring.reset with fresh := 2 })], msix := [(0, 4096#32), (8, 7#32), (12, 0#32)] } }), 0, by decide +kernel⟩⟩

theorem witness_TelemetryRing :
    (∃ (s : State) (m : TelMeas), s.Up ∧ (s.dev.stage = .glaze ∨ s.dev.stage = .yielded) ∧ s.dev.flag R.PC_TEL_CFG F.PC_TEL_CFG_enable = true ∧ supplyBad m = true) ∧
    (∃ (s : State) (m : TelMeas), s.Up ∧ (s.dev.stage = .glaze ∨ s.dev.stage = .yielded) ∧ s.dev.flag R.PC_TEL_CFG F.PC_TEL_CFG_enable = true ∧ supplyBad m = false ∧ let r := s.dev.fld R.HR_CTRL F.HR_CTRL_tel_ring; s.dev.ringState r = enOn ∧ s.dev.ringType r = 7 ∧ s.dev.ringFull r = false) ∧
    (∃ (s : State) (m : TelMeas), s.Up ∧ (s.dev.stage = .glaze ∨ s.dev.stage = .yielded) ∧ s.dev.flag R.PC_TEL_CFG F.PC_TEL_CFG_enable = true ∧ supplyBad m = false ∧ let r := s.dev.fld R.HR_CTRL F.HR_CTRL_tel_ring; (s.dev.ringState r ≠ enOn ∨ s.dev.ringFull r = true)) :=
  ⟨⟨(stateOf (withFields ringDev [(R.PC_TEL_CFG, F.PC_TEL_CFG_enable, 1)])), { rails := [(728, 0), (824, 0)], power := 0, eyes := [], fec := [] }, by decide +kernel⟩,
   ⟨(stateOf (withFields ringDev [(R.PC_TEL_CFG, F.PC_TEL_CFG_enable, 1), (R.HR_RING_CFG 0, F.HR_RING_CFG_type, 7), (R.HR_RING_HIDX 0, F.HR_RING_HIDX_hidx, 0)])), { rails := [(728, 0), (825, 0)], power := 0, eyes := [], fec := [] }, by decide +kernel⟩,
   ⟨(stateOf (withFields glazeDev [(R.PC_TEL_CFG, F.PC_TEL_CFG_enable, 1)])), { rails := [(728, 0), (825, 0)], power := 0, eyes := [], fec := [] }, by decide +kernel⟩⟩

theorem witness_PailTransfers :
    (∃ (s : State) (data : Word64) (sb : Byte), s.Up ∧ s.dev.pailState ≠ enOff ∧ s.dev.inFault = false ∧ let w : PailWord := { data := data, sb := sb, bad := !pailParity data sb }; let part := (s.dev.pl.inq.reverse.takeWhile fun x => !x.eop).reverse ++ [w]; s.dev.piGoverned = true ∧ s.dev.flag R.PL_CFG F.PL_CFG_pi_mode = false ∧ s.dev.pl.skipping = false ∧ pailOctets part ≤ s.dev.fld R.PL_CFG F.PL_CFG_max_frame) ∧
    (∃ (s : State) (data : Word64) (sb : Byte), s.Up ∧ s.dev.pailState ≠ enOff ∧ s.dev.inFault = false ∧ s.dev.piGoverned = true ∧ s.dev.flag R.PL_CFG F.PL_CFG_pi_mode = true ∧ pailParity data sb = false) ∧
    (∃ (s : State), s.Up ∧ s.dev.pailState ≠ enOff ∧ s.dev.inFault = false ∧ ∃ valid, (s.dev.piGoverned = false ∨ valid = false)) ∧
    (∃ (s : State), s.Up ∧ s.dev.pailState ≠ enOff ∧ s.dev.inFault = false ∧ ∃ body last rest, s.dev.pl.inq = body ++ last :: rest ∧ ((∀ x ∈ body, x.eop = false)) ∧ last.eop = true ∧ ((∀ c < 8, s.dev.backPressured 64 c = false)) ∧ ((∀ x ∈ body ++ [last], x.bad = false)) ∧ bit last.sb.toNat 3 = false ∧ let bs := pailFrame (body ++ [last]); 14 ≤ bs.length) ∧
    (∃ (s : State), s.Up ∧ s.dev.pailState ≠ enOff ∧ s.dev.inFault = false ∧ ∃ body last rest, s.dev.pl.inq = body ++ last :: rest ∧ ((∀ x ∈ body, x.eop = false)) ∧ last.eop = true ∧ ((∀ c < 8, s.dev.backPressured 64 c = false)) ∧ ((∃ x ∈ body ++ [last], x.bad = true))) ∧
    (∃ (s : State), s.Up ∧ s.Inv ∧ s.dev.pailState ≠ enOff ∧ s.dev.inFault = false ∧ s.dev.inGlaze = true ∧ ∃ w rest, s.dev.pl.outq = w :: rest ∧ s.dev.pl.training = false ∧ s.dev.pl.drops = []) ∧
    (∃ (s : State), s.Up ∧ s.Inv ∧ s.dev.pailState ≠ enOff ∧ s.dev.inFault = false ∧ s.dev.inGlaze = true ∧ s.dev.pl.training = false ∧ s.dev.pl.drops = []) ∧
    (∃ (s : State), s.Up ∧ s.Inv ∧ s.dev.pailState ≠ enOff ∧ s.dev.inFault = false ∧ s.dev.inGlaze = true ∧ s.dev.pl.training = true ∧ s.dev.pl.drops = []) ∧
    (∃ (s : State), s.Up ∧ s.Inv ∧ s.dev.pailState ≠ enOff ∧ s.dev.inFault = false ∧ s.dev.inGlaze = true) ∧
    (∃ (s : State), s.Up ∧ s.Inv ∧ s.dev.pailState ≠ enOff ∧ s.dev.inFault = false ∧ s.dev.inGlaze = true ∧ ∃ body last rest, s.dev.pl.outq = body ++ last :: rest ∧ ((∀ x ∈ body, x.eop = false)) ∧ last.eop = true ∧ s.dev.pl.inPacket = true ∧ s.dev.pl.drops = [(1, some s.dev.pl.packetNo)] ∧ s.dev.pl.training = false) ∧
    (∃ (s : State), s.Up ∧ s.Inv ∧ s.dev.pailState ≠ enOff ∧ s.dev.inFault = false ∧ s.dev.inGlaze = true ∧ s.dev.pl.inPacket = false ∧ s.dev.pl.drops = [(1, none)] ∧ s.dev.pl.training = false) ∧
    (∃ (s : State), s.Up ∧ s.Inv ∧ s.dev.pailState ≠ enOff ∧ s.dev.inFault = false ∧ s.dev.inGlaze = true) ∧
    (∃ (s : State) (data : Word64) (sb : Byte), s.Up ∧ s.dev.pailState ≠ enOff ∧ s.dev.inFault = false ∧ let w : PailWord := { data := data, sb := sb, bad := !pailParity data sb }; let part := (s.dev.pl.inq.reverse.takeWhile fun x => !x.eop).reverse ++ [w]; s.dev.piGoverned = true ∧ s.dev.flag R.PL_CFG F.PL_CFG_pi_mode = false ∧ s.dev.pl.skipping = false ∧ s.dev.fld R.PL_CFG F.PL_CFG_max_frame < pailOctets part ∧ ∀ x ∈ part, x.bad = false) ∧
    (∃ (s : State) (data : Word64) (sb : Byte), s.Up ∧ s.dev.pailState ≠ enOff ∧ s.dev.inFault = false ∧ s.dev.piGoverned = true ∧ s.dev.flag R.PL_CFG F.PL_CFG_pi_mode = true ∧ pailParity data sb = true ∧ primCrcOk data.toNat = true ∧ bits data.toNat 63 60 = 1 ∧ bit sb.toNat 7 = true) :=
  ⟨⟨(stateOf (({ (withFields glazeDev [(R.PL_CTRL, F.PL_CTRL_state, 2), (R.PL_STATUS, F.PL_STATUS_pi_aligned, 1), (R.PL_STATUS, F.PL_STATUS_pi_clk, 1)] : Dev) with pl := { Pl.reset with inq := [], ready := List.replicate 16 true } } : Dev))), 7, 0, by decide +kernel⟩,
   ⟨(stateOf (({ (withFields glazeDev [(R.PL_CTRL, F.PL_CTRL_state, 2), (R.PL_STATUS, F.PL_STATUS_pi_aligned, 1), (R.PL_STATUS, F.PL_STATUS_pi_clk, 1), (R.PL_CFG, F.PL_CFG_pi_mode, 1)] : Dev) with pl := { Pl.reset with inq := [], ready := List.replicate 16 true } } : Dev))), 3, 0, by decide +kernel⟩,
   ⟨(stateOf (({ (withFields glazeDev [(R.PL_CTRL, F.PL_CTRL_state, 2), (R.PL_STATUS, F.PL_STATUS_pi_aligned, 1), (R.PL_STATUS, F.PL_STATUS_pi_clk, 1)] : Dev) with pl := { Pl.reset with inq := [] } } : Dev))), by decide +kernel, by decide +kernel, by decide +kernel, true, by decide +kernel⟩,
   ⟨(stateOf (({ (withFields glazeDev [(R.PL_CTRL, F.PL_CTRL_state, 2), (R.PL_STATUS, F.PL_STATUS_pi_aligned, 1), (R.PL_STATUS, F.PL_STATUS_pi_clk, 1)] : Dev) with pl := { Pl.reset with inq := [{ data := 0x1111111111111111#64, sb := 0#8, bad := false }, { data := 0x1111111111111111#64, sb := 0xF0#8, bad := false }] } } : Dev))), by decide +kernel, by decide +kernel, by decide +kernel, (([{ data := 0x1111111111111111#64, sb := 0#8, bad := false }] : List PailWord)), (({ data := 0x1111111111111111#64, sb := 0xF0#8, bad := false } : PailWord)), (([] : List PailWord)), by decide +kernel⟩,
   ⟨(stateOf (({ (withFields glazeDev [(R.PL_CTRL, F.PL_CTRL_state, 2), (R.PL_STATUS, F.PL_STATUS_pi_aligned, 1), (R.PL_STATUS, F.PL_STATUS_pi_clk, 1)] : Dev) with pl := { Pl.reset with inq := [{ data := 0x1111111111111111#64, sb := 0#8, bad := true }, { data := 0x1111111111111111#64, sb := 0xF0#8, bad := false }] } } : Dev))), by decide +kernel, by decide +kernel, by decide +kernel, (([{ data := 0x1111111111111111#64, sb := 0#8, bad := true }] : List PailWord)), (({ data := 0x1111111111111111#64, sb := 0xF0#8, bad := false } : PailWord)), (([] : List PailWord)), by decide +kernel⟩,
   ⟨(stateOf (({ (withFields glazeDev [(R.PL_CTRL, F.PL_CTRL_state, 2), (R.PL_STATUS, F.PL_STATUS_pi_aligned, 1), (R.PL_STATUS, F.PL_STATUS_pi_clk, 1)] : Dev) with pl := { Pl.reset with outq := [{ data := 0x1111111111111111#64, sb := 0xF0#8, bad := false }] } } : Dev))), by decide +kernel, by decide +kernel, by decide +kernel, by decide +kernel, by decide +kernel, (({ data := 0x1111111111111111#64, sb := 0xF0#8, bad := false } : PailWord)), (([] : List PailWord)), by decide +kernel⟩,
   ⟨(stateOf (({ (withFields glazeDev [(R.PL_CTRL, F.PL_CTRL_state, 2), (R.PL_STATUS, F.PL_STATUS_pi_aligned, 1), (R.PL_STATUS, F.PL_STATUS_pi_clk, 1)] : Dev) with pl := { Pl.reset with inq := [] } } : Dev))), by decide +kernel⟩,
   ⟨(stateOf (({ (withFields glazeDev [(R.PL_CTRL, F.PL_CTRL_state, 2), (R.PL_STATUS, F.PL_STATUS_pi_aligned, 1), (R.PL_STATUS, F.PL_STATUS_pi_clk, 1)] : Dev) with pl := { Pl.reset with training := true } } : Dev))), by decide +kernel⟩,
   ⟨(stateOf (({ (withFields glazeDev [(R.PL_CTRL, F.PL_CTRL_state, 2), (R.PL_STATUS, F.PL_STATUS_pi_aligned, 1), (R.PL_STATUS, F.PL_STATUS_pi_clk, 1)] : Dev) with pl := { Pl.reset with inq := [] } } : Dev))), by decide +kernel⟩,
   ⟨(stateOf (({ (withFields glazeDev [(R.PL_CTRL, F.PL_CTRL_state, 2), (R.PL_STATUS, F.PL_STATUS_pi_aligned, 1), (R.PL_STATUS, F.PL_STATUS_pi_clk, 1)] : Dev) with pl := { Pl.reset with outq := [{ data := 0x1111111111111111#64, sb := 0#8, bad := false }, { data := 0x1111111111111111#64, sb := 0xF0#8, bad := false }], inPacket := true, packetNo := 4, drops := [(1, some 4)] } } : Dev))), by decide +kernel, by decide +kernel, by decide +kernel, by decide +kernel, by decide +kernel, (([{ data := 0x1111111111111111#64, sb := 0#8, bad := false }] : List PailWord)), (({ data := 0x1111111111111111#64, sb := 0xF0#8, bad := false } : PailWord)), (([] : List PailWord)), by decide +kernel⟩,
   ⟨(stateOf (({ (withFields glazeDev [(R.PL_CTRL, F.PL_CTRL_state, 2), (R.PL_STATUS, F.PL_STATUS_pi_aligned, 1), (R.PL_STATUS, F.PL_STATUS_pi_clk, 1)] : Dev) with pl := { Pl.reset with drops := [(1, none)] } } : Dev))), by decide +kernel⟩,
   ⟨(stateOf (({ (withFields glazeDev [(R.PL_CTRL, F.PL_CTRL_state, 2), (R.PL_STATUS, F.PL_STATUS_pi_aligned, 1), (R.PL_STATUS, F.PL_STATUS_pi_clk, 1)] : Dev) with pl := { Pl.reset with training := true } } : Dev))), by decide +kernel⟩,
   ⟨(stateOf (({ (withFields glazeDev [(R.PL_CTRL, F.PL_CTRL_state, 2), (R.PL_STATUS, F.PL_STATUS_pi_aligned, 1), (R.PL_STATUS, F.PL_STATUS_pi_clk, 1), (R.PL_CFG, F.PL_CFG_max_frame, 5)] : Dev) with pl := { Pl.reset with ready := List.replicate 16 true } } : Dev))), 7, 0, by decide +kernel⟩,
   ⟨(stateOf (({ (withFields glazeDev [(R.PL_CTRL, F.PL_CTRL_state, 2), (R.PL_STATUS, F.PL_STATUS_pi_aligned, 1), (R.PL_STATUS, F.PL_STATUS_pi_clk, 1), (R.PL_CFG, F.PL_CFG_pi_mode, 1)] : Dev) with pl := { Pl.reset with ready := List.replicate 16 true } } : Dev))), (BitVec.ofNat 64 (2 ^ 60 + 7 * 256 + crc8 56 (2 ^ 52 + 7))), 0x80, by decide +kernel⟩⟩

theorem witness_PailStates :
    (∃ (s : State), s.Up ∧ s.dev.pailState = enOn) ∧
    (∃ (s : State), s.Up) ∧
    (∃ (s : State), s.Up ∧ (s.dev.pailState = enStarting ∨ s.dev.pailState = enOn) ∧ s.dev.inFault = false) ∧
    (∃ (s : State), s.Up ∧ s.dev.inFault = false ∧ s.dev.pailState = enStarting ∧ s.dev.stage = .glaze ∧ s.dev.flag R.PL_CTRL F.PL_CTRL_enable = true) ∧
    (∃ (s : State), s.Up ∧ s.dev.inFault = false ∧ s.dev.pailState = enStopping ∧ s.dev.pl.inq = [] ∧ s.dev.pl.outq = [] ∧ s.dev.flag R.PL_CTRL F.PL_CTRL_enable = false) :=
  ⟨⟨(stateOf (withFields glazeDev [(R.PL_CTRL, F.PL_CTRL_state, 2)])), by decide +kernel⟩,
   ⟨(stateOf (glazeDev)), by decide +kernel⟩,
   ⟨(stateOf (withFields glazeDev [(R.PL_CTRL, F.PL_CTRL_state, 2)])), by decide +kernel⟩,
   ⟨(stateOf (withFields glazeDev [(R.PL_CTRL, F.PL_CTRL_state, 1), (R.PL_CTRL, F.PL_CTRL_enable, 1)])), by decide +kernel⟩,
   ⟨(stateOf (withFields glazeDev [(R.PL_CTRL, F.PL_CTRL_state, 3)])), by decide +kernel⟩⟩

theorem witness_EnumWalk :
    (∃ (s : State) (w : Word), s.Up ∧ s.dev.stage = .glaze ∧ s.dev.mayWalk = true ∧ s.dev.walking = false ∧ getField w F.GL_CTRL_enum_go = 1 ∧ getField w F.GL_CTRL_glaze = 0 ∧ getField w F.GL_CTRL_glaze_src = s.dev.fld R.GL_CTRL F.GL_CTRL_glaze_src ∧ getField w F.GL_CTRL_enum_root = s.dev.fld R.GL_CTRL F.GL_CTRL_enum_root ∧ s.dev.enumRoot = true) ∧
    (∃ (s : State) (w : Word), s.Up ∧ s.dev.stage = .glaze ∧ s.dev.mayWalk = true ∧ s.dev.walking = false ∧ getField w F.GL_CTRL_enum_go = 1 ∧ getField w F.GL_CTRL_glaze = 0 ∧ getField w F.GL_CTRL_glaze_src = s.dev.fld R.GL_CTRL F.GL_CTRL_glaze_src ∧ getField w F.GL_CTRL_enum_root = s.dev.fld R.GL_CTRL F.GL_CTRL_enum_root ∧ s.dev.enumRoot = false) ∧
    (∃ (s : State), s.Up ∧ s.dev.stage = .glaze ∧ s.dev.mayWalk = true ∧ s.dev.walking = false ∧ s.dev.enumRoot = true ∧ s.dev.en.armed = true ∧ s.dev.flag R.GL_CTRL F.GL_CTRL_enum_auto = true) ∧
    (∃ (s : State) (p : Fin 64) (b : BitVec 108), s.Up ∧ s.dev.stage = .glaze ∧ s.dev.mayWalk = true ∧ s.dev.enumRoot = false ∧ s.dev.isPairPort p = false ∧ s.dev.linkUp p = true ∧ (p.val, enumOp b, enumSeq b) ∉ s.dev.en.acted) :=
  ⟨⟨(stateOf (withFields glazeDev [(R.GL_CTRL, F.GL_CTRL_enum_root, 1)])), (putField (putField (0#32) F.GL_CTRL_enum_go 1) F.GL_CTRL_enum_root 1), by decide +kernel⟩,
   ⟨(stateOf (glazeDev)), (putField (0#32) F.GL_CTRL_enum_go 1), by decide +kernel⟩,
   ⟨(stateOf (({ (withFields glazeDev [(R.GL_CTRL, F.GL_CTRL_enum_root, 1), (R.GL_CTRL, F.GL_CTRL_enum_auto, 1)] : Dev) with en := { Enum.reset with armed := true } } : Dev))), by decide +kernel⟩,
   ⟨(stateOf (withFields glazeDev [(R.LK_STATUS 0, F.LK_STATUS_link_up, 1)])), 0, (BitVec.ofNat 108 (0x1 * 2 ^ 104 + 5 * 2 ^ 80 + 3 * 2 ^ 11)), by decide +kernel⟩⟩

theorem witness_EnumMessages :
    (∃ (s : State) (p : Fin 64) (b : BitVec 108), s.Up ∧ s.Inv ∧ s.dev.stage = .glaze ∧ s.dev.linkUp p = true ∧ s.dev.mayWalk = true ∧ s.dev.enumRoot = false ∧ s.dev.en.cur = some p.val ∧ s.dev.en.ports = [] ∧ enumSeq b = s.dev.enumSeqNow ∧ s.dev.isForerunner p = false ∧ enumMismatch b = false ∧ (p.val, enumOp b, enumSeq b) ∉ s.dev.en.acted) ∧
    (∃ (s : State) (p : Fin 64), s.Up ∧ s.Inv ∧ s.dev.stage = .glaze ∧ s.dev.linkUp p = true ∧ s.dev.mayWalk = true ∧ s.dev.enumRoot = false ∧ s.dev.en.cur = some p.val ∧ s.dev.en.ports = [] ∧ s.dev.walking = true) ∧
    (∃ (s : State) (p : Fin 64), s.Up ∧ s.Inv ∧ s.dev.stage = .glaze ∧ s.dev.linkUp p = true) ∧
    (∃ (s : State) (p : Fin 64) (b : BitVec 108), s.Up ∧ s.Inv ∧ s.dev.stage = .glaze ∧ s.dev.linkUp p = true ∧ (p.val, enumOp b, enumSeq b) ∈ s.dev.en.acted) ∧
    (∃ (s : State) (p : Fin 64) (b : BitVec 108), s.Up ∧ s.dev.stage = .glaze ∧ s.dev.linkUp p = true ∧ (p.val, enumOp b, enumSeq b) ∉ s.dev.en.acted ∧ s.dev.enumRoot = false ∧ s.dev.isPairPort p = false) ∧
    (∃ (s : State) (p : Fin 64) (b : BitVec 108), s.Up ∧ s.dev.stage = .glaze ∧ s.dev.linkUp p = true ∧ (p.val, enumOp b, enumSeq b) ∉ s.dev.en.acted ∧ s.dev.enumRoot = false ∧ s.dev.isPairPort p = false) ∧
    (∃ (s : State) (p : Fin 64) (b : BitVec 108), s.Up ∧ s.dev.stage = .glaze ∧ s.dev.linkUp p = true ∧ (p.val, enumOp b, enumSeq b) ∉ s.dev.en.acted ∧ s.dev.mayWalk = true ∧ s.dev.enumRoot = true ∧ s.dev.flag R.GL_CTRL F.GL_CTRL_enum_auto = true) ∧
    (∃ (s : State) (p : Fin 64) (b : BitVec 108), s.Up ∧ s.dev.stage = .glaze ∧ s.dev.linkUp p = true ∧ (p.val, enumOp b, enumSeq b) ∉ s.dev.en.acted ∧ s.dev.mayWalk = true ∧ s.dev.enumRoot = true ∧ s.dev.flag R.GL_CTRL F.GL_CTRL_enum_auto = false) ∧
    (∃ (s : State) (p : Fin 64) (b : BitVec 108), s.Up ∧ s.dev.stage = .glaze ∧ s.dev.linkUp p = true ∧ (p.val, enumOp b, enumSeq b) ∉ s.dev.en.acted ∧ s.dev.mayWalk = true ∧ s.dev.enumRoot = false ∧ s.dev.en.up ≠ none) ∧
    (∃ (s : State), s.Up ∧ s.dev.stage = .firing ∧ s.dev.fireStep = 4) :=
  ⟨⟨(stateOf (({ (withFields glazeDev [(R.LK_STATUS 0, F.LK_STATUS_link_up, 1), (R.GL_ENUM_STAT, F.GL_ENUM_STAT_walking, 1)] : Dev) with en := { Enum.reset with cur := some 0, up := some 7, next := 9 } } : Dev))), 0, (BitVec.ofNat 108 (2 * 2 ^ 104 + 0 * 2 ^ 11)), by decide +kernel⟩,
   ⟨(stateOf (({ (withFields glazeDev [(R.LK_STATUS 0, F.LK_STATUS_link_up, 1), (R.GL_ENUM_STAT, F.GL_ENUM_STAT_walking, 1)] : Dev) with en := { Enum.reset with cur := some 0, up := some 7, next := 9 } } : Dev))), 0, by decide +kernel⟩,
   ⟨(stateOf (withFields glazeDev [(R.LK_STATUS 0, F.LK_STATUS_link_up, 1)])), 0, by decide +kernel⟩,
   ⟨(stateOf (({ (withFields glazeDev [(R.LK_STATUS 0, F.LK_STATUS_link_up, 1)] : Dev) with en := { Enum.reset with acted := [(0, 3, 0)] } } : Dev))), 0, (BitVec.ofNat 108 (3 * 2 ^ 104 + 0 * 2 ^ 11)), by decide +kernel⟩,
   ⟨(stateOf (withFields glazeDev [(R.LK_STATUS 0, F.LK_STATUS_link_up, 1), (R.GL_ADDR, F.GL_ADDR_valid, 1)])), 0, (BitVec.ofNat 108 (3 * 2 ^ 104 + 0 * 2 ^ 11)), by decide +kernel⟩,
   ⟨(stateOf (withFields glazeDev [(R.LK_STATUS 0, F.LK_STATUS_link_up, 1), (R.GL_ADDR, F.GL_ADDR_valid, 1)])), 0, (BitVec.ofNat 108 (4 * 2 ^ 104 + 0 * 2 ^ 11)), by decide +kernel⟩,
   ⟨(stateOf (withFields glazeDev [(R.LK_STATUS 0, F.LK_STATUS_link_up, 1), (R.GL_CTRL, F.GL_CTRL_enum_root, 1), (R.GL_CTRL, F.GL_CTRL_enum_auto, 1)])), 0, (BitVec.ofNat 108 (6 * 2 ^ 104 + 0 * 2 ^ 11)), by decide +kernel⟩,
   ⟨(stateOf (withFields glazeDev [(R.LK_STATUS 0, F.LK_STATUS_link_up, 1), (R.GL_CTRL, F.GL_CTRL_enum_root, 1), (R.GL_CTRL, F.GL_CTRL_enum_auto, 0)])), 0, (BitVec.ofNat 108 (6 * 2 ^ 104 + 0 * 2 ^ 11)), by decide +kernel⟩,
   ⟨(stateOf (({ (withFields glazeDev [(R.LK_STATUS 0, F.LK_STATUS_link_up, 1), (R.LK_STATUS 7, F.LK_STATUS_link_up, 1)] : Dev) with en := { Enum.reset with up := some 7 } } : Dev))), 0, (BitVec.ofNat 108 (6 * 2 ^ 104 + 0 * 2 ^ 11)), by decide +kernel⟩,
   ⟨(stateOf (({ (glazeDev : Dev) with stage := .firing, fireStep := 4 } : Dev))), by decide +kernel⟩⟩

theorem witness_Reset :
    (∃ (s : State), s.dev.ca.storing = false) ∧
    (∃ (s : State), s.dev.mi.scan = false ∧ s.dev.stage = .off ∧ s.dev.nv.bisque.length < 256 ∧ s.dev.nv.clearing = none) ∧
    (∃ (s : State), s.dev.mi.scan = false ∧ s.dev.stage = .off ∧ 256 ≤ s.dev.nv.bisque.length ∧ little s.dev.nv.bisque 0 4 = 1 ∧ imageLen s.dev.nv.bisque = 0 ∧ little s.dev.nv.bisque 8 4 = 0 ∧ s.dev.nv.openFuse = true) ∧
    (∃ (s : State), s.dev.mi.scan = false ∧ s.dev.stage ≠ .off ∧ s.Inv) :=
  ⟨⟨(stateOf (ringDev)), by decide +kernel⟩,
   ⟨(stateOf (State.reset.dev)), by decide +kernel⟩,
   ⟨(stateOf (({ (State.reset.dev : Dev) with nv := { Nv.shipped with openFuse := true, bisque := [1#8, 0, 0, 0] ++ List.replicate 252 0 } } : Dev))), by decide +kernel⟩,
   ⟨(stateOf (ringDev)), by decide +kernel⟩⟩

theorem witness_FiringAndPcie :
    (∃ (s : State), s.Up ∧ s.dev.stage = .bisque ∧ s.dev.rootLocked = true) ∧
    (∃ (s : State), s.Up ∧ s.dev.stage = .firing ∧ s.dev.fireStep = 1) ∧
    (∃ (s : State), s.Up ∧ s.dev.stage = .firing ∧ s.dev.fireStep = 2) ∧
    (∃ (s : State), s.Up ∧ s.dev.stage = .firing ∧ s.dev.fireStep = 3 ∧ s.dev.glazeWait = false ∧ s.dev.nv.glaze.length < 256) ∧
    (∃ (s : State), s.Up ∧ s.dev.stage = .firing ∧ s.dev.fireStep = 3 ∧ s.dev.glazeWait = false ∧ 256 ≤ s.dev.nv.glaze.length ∧ little s.dev.nv.glaze 0 4 = 2 ∧ imageLen s.dev.nv.glaze = 0 ∧ little s.dev.nv.glaze 8 4 = 0 ∧ s.dev.nv.openFuse = true ∧ s.dev.enumRoot = false ∧ s.dev.load = none) ∧
    (∃ (s : State) (w : Word), s.Up ∧ s.dev.stage = .firing ∧ s.dev.glazeWait = true ∧ s.dev.enumRoot = false ∧ getField w F.GL_CTRL_glaze = 1 ∧ getField w F.GL_CTRL_enum_go = 0 ∧ getField w F.GL_CTRL_enum_root = 0) ∧
    (∃ (s : State) (w : Word), s.Up ∧ s.dev.glazeWait = false ∧ getField w F.GL_CTRL_glaze = 1 ∧ getField w F.GL_CTRL_enum_go = 0) ∧
    (∃ (s : State), s.Awake) ∧
    (∃ (s : State) (r : Fin 64), s.Awake ∧ s.dev.ringState r = enOn ∧ s.dev.inFault = false) ∧
    (∃ (s : State), s.Up ∧ s.dev.stage = .firing ∧ s.dev.fireStep = 2 ∧ s.dev.flag R.GL_CTRL F.GL_CTRL_glaze_src = true) ∧
    (∃ (s : State), s.Up ∧ s.dev.stage = .firing ∧ s.dev.fireStep = 3 ∧ s.dev.glazeWait = false ∧ 256 ≤ s.dev.nv.glaze.length ∧ little s.dev.nv.glaze 0 4 = 2 ∧ imageLen s.dev.nv.glaze = 0 ∧ little s.dev.nv.glaze 8 4 = 0 ∧ s.dev.nv.openFuse = true ∧ s.dev.enumRoot = false ∧ ∃ l, s.dev.load = some l ∧ l.recs = []) :=
  ⟨⟨(stateOf (({ (withFields glazeDev [(R.CK_SYN_STATUS, F.CK_SYN_STATUS_locked, 1)] : Dev) with stage := .bisque } : Dev))), by decide +kernel⟩,
   ⟨(stateOf (({ (glazeDev : Dev) with stage := .firing, fireStep := 1 } : Dev))), by decide +kernel⟩,
   ⟨(stateOf (({ (glazeDev : Dev) with stage := .firing, fireStep := 2 } : Dev))), by decide +kernel⟩,
   ⟨(stateOf (({ (glazeDev : Dev) with stage := .firing, fireStep := 3 } : Dev))), by decide +kernel⟩,
   ⟨(stateOf (({ (({ (glazeDev : Dev) with nv := { Nv.shipped with openFuse := true, glaze := [2#8, 0, 0, 0] ++ List.replicate 252 0 } } : Dev) : Dev) with stage := .firing, fireStep := 3 } : Dev))), by decide +kernel⟩,
   ⟨(stateOf (({ (glazeDev : Dev) with stage := .firing, fireStep := 3, glazeWait := true } : Dev))), (putField (0#32) F.GL_CTRL_glaze 1), by decide +kernel⟩,
   ⟨(stateOf (({ (glazeDev : Dev) with stage := .firing, fireStep := 1 } : Dev))), (putField (0#32) F.GL_CTRL_glaze 1), by decide +kernel⟩,
   ⟨(stateOf (glazeDev)), by decide +kernel⟩,
   ⟨(stateOf (ringDev)), 0, by decide +kernel⟩,
   ⟨(stateOf { (withFields glazeDev [(R.GL_CTRL, F.GL_CTRL_glaze_src, 1)] : Dev) with stage := .firing, fireStep := 2 }), by decide +kernel⟩,
   ⟨(stateOf (({ (({ (glazeDev : Dev) with nv := { Nv.shipped with openFuse := true, glaze := [2#8, 0, 0, 0] ++ List.replicate 252 0 } } : Dev) : Dev) with stage := .firing, fireStep := 3, load := some { kind := 2, recs := [], next := 0, refused := 0 } } : Dev))), by decide +kernel, by decide +kernel, by decide +kernel, by decide +kernel, by decide +kernel, by decide +kernel, by decide +kernel, by decide +kernel, by decide +kernel, by decide +kernel, { kind := 2, recs := [], next := 0, refused := 0 }, by decide +kernel⟩⟩

theorem witness_ChurnReads :
    (∃ (s : State) (m : Nat) (line : Nat), s.Up ∧ s.dev.stage = .glaze ∧ walkLine 11 s.dev.mi.churnLine = (m, line) ∧ s.dev.inFault = true ∧ s.Inv) ∧
    (∃ (s : State) (m : Nat) (line : Nat) (r : LineRead), s.Up ∧ s.dev.stage = .glaze ∧ walkLine 11 s.dev.mi.churnLine = (m, line) ∧ s.dev.inFault = false ∧ s.dev.divertedCount < s.dev.fld R.PS_YIELD_CFG F.PS_YIELD_CFG_ue_limit ∧ ((∃ ws, lineFound m r.flips = .data ws []) ∨ s.dev.diverted m line = true)) ∧
    (∃ (s : State) (m : Nat) (line : Nat) (r : LineRead), s.Up ∧ s.dev.stage = .glaze ∧ walkLine 11 s.dev.mi.churnLine = (m, line) ∧ s.dev.inFault = false ∧ s.dev.divertedCount < s.dev.fld R.PS_YIELD_CFG F.PS_YIELD_CFG_ue_limit ∧ ∃ ws w b, w < 32 ∧ b < 72 ∧ lineFound m r.flips = .data ws [(w, b)] ∧ s.dev.diverted m line = false ∧ ((∀ i < 32, s.dev.flag (R.MI_CE_ENT_HI i) F.MI_CE_ENT_HI_repeats = false))) ∧
    (∃ (s : State) (m : Nat) (line : Nat) (r : LineRead), s.Up ∧ s.dev.stage = .glaze ∧ walkLine 11 s.dev.mi.churnLine = (m, line) ∧ s.dev.inFault = false ∧ s.dev.divertedCount < s.dev.fld R.PS_YIELD_CFG F.PS_YIELD_CFG_ue_limit ∧ (lineFound m r.flips = .inner ∨ lineFound m r.flips = .outer) ∧ s.dev.diverted m line = false ∧ m ≤ 9) ∧
    (∃ (_ : Word64) (b c : Fin 72), b ≠ c) :=
  ⟨⟨(stateOf (withFields glazeDev [(R.CK_STATUS, F.CK_STATUS_state, 7)])), ((walkLine 11 0).1), ((walkLine 11 0).2), by decide +kernel⟩,
   ⟨(stateOf (glazeDev)), ((walkLine 11 0).1), ((walkLine 11 0).2), { flips := [] }, by decide +kernel, by decide +kernel, by decide +kernel, by decide +kernel, by decide +kernel, .inl ⟨List.replicate 4 0, by decide +kernel⟩⟩,
   ⟨(stateOf (glazeDev)), ((walkLine 11 0).1), ((walkLine 11 0).2), { flips := [(3, 9)] }, by decide +kernel, by decide +kernel, by decide +kernel, by decide +kernel, by decide +kernel, List.replicate 4 0, 3, 9, by decide +kernel⟩,
   ⟨(stateOf (({ (glazeDev : Dev) with mi := { Mi.reset with churnLine := 600000 } } : Dev))), ((walkLine 11 600000).1), ((walkLine 11 600000).2), { flips := [(3, 0), (3, 1)] }, by decide +kernel⟩,
   ⟨7, 0, 71, by decide⟩⟩

theorem witness_LineRestoration :
    (∃ (s : State), s.Up ∧ s.Inv) ∧
    (∃ (s : State) (mem : Nat) (line : Nat), s.Up ∧ s.Inv ∧ s.dev.activeRestore mem line = none) ∧
    (∃ (s : State) (mem : Nat) (line : Nat) (readOk : Bool), s.Up ∧ ∃ x, s.dev.activeRestore mem line = some x ∧ x.retry = false ∧ mem ≠ 2 ∧ mem ≠ 11 ∧ x.src = 1 ∧ readOk = false) ∧
    (∃ (s : State) (mem : Nat) (line : Nat) (readOk : Bool), s.Up ∧ ∃ x, s.dev.activeRestore mem line = some x ∧ x.retry = false ∧ mem ≠ 2 ∧ mem ≠ 11 ∧ readOk = true ∧ s.dev.klogQueue.length < 64) ∧
    (∃ (s : State), s.Up ∧ s.Inv) ∧
    (∃ (s : State) (w : Word), s.Up ∧ getField w F.MI_CE_CLEAR_clear = 1) ∧
    (∃ (s : State) (mem : Nat) (line : Nat) (readOk : Bool), s.Up ∧ mem = 1 ∧ ∃ x, s.dev.activeRestore mem line = some x ∧ x.retry = false ∧ x.src = 1 ∧ readOk = true ∧ s.dev.klogQueue.length < 64) :=
  ⟨⟨(stateOf (({ (glazeDev : Dev) with mi := { Mi.reset with writeBack := [(5, 9)] } } : Dev))), by decide +kernel⟩,
   ⟨(stateOf (glazeDev)), 5, 9, by decide +kernel⟩,
   ⟨(stateOf (({ (glazeDev : Dev) with mi := { Mi.reset with diverted := [(5, 9)], restoring := [{ mem := 5, line := 9, src := 1, retry := false, remap := false }] } } : Dev))), 5, 9, false, by decide +kernel, (({ mem := 5, line := 9, src := 1, retry := false, remap := false } : Restore)), by decide +kernel⟩,
   ⟨(stateOf (({ (glazeDev : Dev) with mi := { Mi.reset with diverted := [(5, 9)], restoring := [{ mem := 5, line := 9, src := 1, retry := false, remap := false }] } } : Dev))), 5, 9, true, by decide +kernel, (({ mem := 5, line := 9, src := 1, retry := false, remap := false } : Restore)), by decide +kernel⟩,
   ⟨(stateOf (({ (glazeDev : Dev) with mi := { Mi.reset with diverted := [(5, 9)], restoring := [{ mem := 5, line := 9, src := 1, retry := true, remap := false }] } } : Dev))), by decide +kernel⟩,
   ⟨(stateOf (withFields glazeDev [(R.MI_CE_OVF, F.MI_CE_OVF_count, 5)])), (putField (0#32) F.MI_CE_CLEAR_clear 1), by decide +kernel⟩,
   ⟨stateOf { (glazeDev : Dev) with mi := { Mi.reset with diverted := [(1, 9)], restoring := [{ mem := 1, line := 9, src := 1, retry := false, remap := false }] } }, 1, 9, true, by decide +kernel, by decide +kernel, ({ mem := 1, line := 9, src := 1, retry := false, remap := false } : Restore), by decide +kernel⟩⟩

theorem witness_BankTestsAndScan :
    (∃ (s : State) (b : Nat), s.Up ∧ s.dev.stage = .glaze ∧ s.dev.inFault = false ∧ b < 48 ∧ s.dev.mi.phase = 0 ∧ s.dev.flag R.MI_BIST_CFG F.MI_BIST_CFG_online = true ∧ s.dev.nextTestBank = some b ∧ s.dev.mi.spareBad = false ∧ s.dev.cellsIn 48 = 0) ∧
    (∃ (s : State) (b : Nat), s.Up ∧ s.dev.stage = .glaze ∧ s.dev.inFault = false ∧ b < 48 ∧ s.dev.mi.phase = 0 ∧ s.dev.flag R.MI_BIST_CFG F.MI_BIST_CFG_online = true ∧ s.dev.nextTestBank = some b ∧ s.dev.mi.spareBad = true ∧ s.Inv) ∧
    (∃ (s : State) (b : Nat), s.Up ∧ s.dev.stage = .glaze ∧ s.dev.inFault = false ∧ b < 48 ∧ s.dev.fld R.MI_STATUS F.MI_STATUS_bank = b ∧ ∃ n, ((n = 1 ∨ n = 2 ∨ n = 3)) ∧ s.dev.mi.phase = n) ∧
    (∃ (s : State) (b : Nat), s.Up ∧ s.dev.stage = .glaze ∧ s.dev.inFault = false ∧ b < 48 ∧ s.dev.fld R.MI_STATUS F.MI_STATUS_bank = b ∧ s.dev.mi.phase = 4) ∧
    (∃ (s : State) (b : Nat), s.Up ∧ s.dev.stage = .glaze ∧ s.dev.inFault = false ∧ b < 48 ∧ s.dev.fld R.MI_STATUS F.MI_STATUS_bank = b ∧ s.dev.mi.phase = 1) ∧
    (∃ (s : State) (b : Nat), s.Up ∧ s.dev.stage = .glaze ∧ s.dev.inFault = false ∧ b < 48 ∧ s.dev.fld R.MI_STATUS F.MI_STATUS_bank = b ∧ s.dev.mi.phase = 3 ∧ s.dev.retired b = false ∧ 8192 ≤ s.dev.cellsUsable) ∧
    (∃ (s : State), s.Awake ∧ s.dev.pins.testMode = false ∧ s.Inv) ∧
    (∃ (s : State), s.Awake ∧ s.dev.pins.testMode = true ∧ s.dev.klogQueue = [] ∧ s.dev.flag R.ER_STATUS F.ER_STATUS_full = true) ∧
    (∃ (s : State), s.Awake ∧ s.dev.pins.testMode = true ∧ s.dev.klogQueue = [] ∧ s.dev.flag R.ER_STATUS F.ER_STATUS_full = false ∧ s.dev.nv.klogUsed + 1024 ≤ 1023 * 256 ∧ s.dev.nv.bad = []) :=
  ⟨⟨(stateOf (withFields glazeDev [(R.MI_BIST_CFG, F.MI_BIST_CFG_online, 1)])), 0, by decide +kernel⟩,
   ⟨(stateOf (({ (withFields glazeDev [(R.MI_BIST_CFG, F.MI_BIST_CFG_online, 1)] : Dev) with mi := { Mi.reset with spareBad := true } } : Dev))), 0, by decide +kernel⟩,
   ⟨(stateOf (({ (withFields glazeDev [(R.MI_STATUS, F.MI_STATUS_bank, 0), (R.SW_BUF_STAT, F.SW_BUF_STAT_cells_usable, 100000)] : Dev) with mi := { Mi.reset with phase := 2 }, sw := { Sw.reset with store := [{ id := 5, port := 0, cls := 2, start := 2, cells := [.shared], banks := [0], bad := false }] } } : Dev))), 0, by decide +kernel, by decide +kernel, by decide +kernel, by decide +kernel, by decide +kernel, ((2 : Nat)), by decide +kernel⟩,
   ⟨(stateOf (({ (withFields glazeDev [(R.MI_STATUS, F.MI_STATUS_bank, 0), (R.SW_BUF_STAT, F.SW_BUF_STAT_cells_usable, 100000)] : Dev) with mi := { Mi.reset with phase := 4 }, sw := { Sw.reset with store := [{ id := 5, port := 0, cls := 2, start := 2, cells := [.shared], banks := [48], bad := false }] } } : Dev))), 0, by decide +kernel⟩,
   ⟨(stateOf (({ (withFields glazeDev [(R.MI_STATUS, F.MI_STATUS_bank, 0), (R.SW_BUF_STAT, F.SW_BUF_STAT_cells_usable, 100000)] : Dev) with mi := { Mi.reset with phase := 1 } } : Dev))), 0, by decide +kernel⟩,
   ⟨(stateOf (({ (withFields glazeDev [(R.MI_STATUS, F.MI_STATUS_bank, 0), (R.SW_BUF_STAT, F.SW_BUF_STAT_cells_usable, 100000)] : Dev) with mi := { Mi.reset with phase := 3 } } : Dev))), 0, by decide +kernel⟩,
   ⟨(stateOf (glazeDev)), by decide +kernel⟩,
   ⟨(stateOf (({ (withFields glazeDev [(R.ER_STATUS, F.ER_STATUS_full, 1)] : Dev) with pins := { pairRole := false, testMode := true, perstHigh := false } } : Dev))), by decide +kernel⟩,
   ⟨(stateOf (({ (glazeDev : Dev) with pins := { pairRole := false, testMode := true, perstHigh := false } } : Dev))), by decide +kernel⟩⟩

theorem witness_CalibrationOps :
    (∃ (s : State), s.Up ∧ ((s.dev.stage ≠ .glaze ∨ s.dev.fld R.CA_STATUS F.CA_STATUS_state ≠ 0))) ∧
    (∃ (s : State) (w : Word) (o : CalOp), s.Up ∧ s.dev.stage = .glaze ∧ s.dev.fld R.CA_STATUS F.CA_STATUS_state = 0 ∧ getField w F.CA_CMD_go = 1 ∧ o = { op := getField w F.CA_CMD_op, set := getField w F.CA_CMD_set, allSet := getField w F.CA_CMD_all_sets == 1, target := getField w F.CA_CMD_target, ref := getField w F.CA_CMD_ref, a := none, waits := false } ∧ s.dev.opArgsOk o = false) ∧
    (∃ (s : State) (w : Word) (o : CalOp), s.Up ∧ s.dev.stage = .glaze ∧ s.dev.fld R.CA_STATUS F.CA_STATUS_state = 0 ∧ getField w F.CA_CMD_go = 1 ∧ o = { op := getField w F.CA_CMD_op, set := getField w F.CA_CMD_set, allSet := getField w F.CA_CMD_all_sets == 1, target := getField w F.CA_CMD_target, ref := getField w F.CA_CMD_ref, a := none, waits := false } ∧ s.dev.opArgsOk o = true ∧ s.dev.opTempOk o = false) ∧
    (∃ (s : State) (w : Word) (o : CalOp), s.Up ∧ s.dev.stage = .glaze ∧ s.dev.fld R.CA_STATUS F.CA_STATUS_state = 0 ∧ getField w F.CA_CMD_go = 1 ∧ o = { op := getField w F.CA_CMD_op, set := getField w F.CA_CMD_set, allSet := getField w F.CA_CMD_all_sets == 1, target := getField w F.CA_CMD_target, ref := getField w F.CA_CMD_ref, a := none, waits := false } ∧ s.dev.opArgsOk o = true ∧ s.dev.opTempOk o = true ∧ ((∀ c : Fin 128, s.dev.flag (R.EC_STATUS c) F.EC_STATUS_cal = false))) ∧
    (∃ (s : State) (o : CalOp), s.Up ∧ s.dev.ca.op = some o ∧ o.waits = false ∧ o.a = none ∧ s.dev.opTempOk o = true) ∧
    (∃ (s : State) (o : CalOp) (value : Int) (a : Int), s.Up ∧ s.dev.ca.op = some o ∧ o.waits = false ∧ o.a = some a ∧ o.op = 3 ∧ o.allSet = false ∧ agreeDelay a value = true ∧ ((-32768 ≤ s.dev.deltaInForce (itemKey 4 o.target 0) o.set + meanOf a value ∧ s.dev.deltaInForce (itemKey 4 o.target 0) o.set + meanOf a value ≤ 32768))) ∧
    (∃ (s : State) (o : CalOp) (value : Int) (a : Int), s.Up ∧ s.dev.ca.op = some o ∧ o.waits = false ∧ o.a = some a ∧ o.op = 1 ∧ s.dev.privileged o.target = false ∧ agreeScale a value = true) ∧
    (∃ (s : State) (o : CalOp) (value : Int) (a : Int), s.Up ∧ s.dev.ca.op = some o ∧ o.waits = false ∧ o.a = some a ∧ o.op ≠ 1 ∧ agreeDelay a value = false) ∧
    (∃ (s : State) (o : CalOp), s.Up ∧ s.dev.ca.op = some o) :=
  ⟨⟨(stateOf (withFields glazeDev [(R.CA_STATUS, F.CA_STATUS_state, 1)])), by decide +kernel⟩,
   ⟨(stateOf (glazeDev)), (putField (putField (0#32) F.CA_CMD_go 1) F.CA_CMD_op 3), { op := 3, set := 0, allSet := false, target := 0, ref := 0, a := none, waits := false }, by decide +kernel⟩,
   ⟨(stateOf (withFields glazeDev [(R.EC_CTRL 0, F.EC_CTRL_state, 2), (R.EC_CTRL 1, F.EC_CTRL_state, 2)])), (putField (putField (putField (0#32) F.CA_CMD_go 1) F.CA_CMD_op 3) F.CA_CMD_ref 1), { op := 3, set := 0, allSet := false, target := 0, ref := 1, a := none, waits := false }, by decide +kernel⟩,
   ⟨(stateOf (withFields glazeDev [(R.EC_CTRL 0, F.EC_CTRL_state, 2), (R.EC_CTRL 1, F.EC_CTRL_state, 2)])), (putField (putField (putField (putField (0#32) F.CA_CMD_go 1) F.CA_CMD_op 3) F.CA_CMD_ref 1) F.CA_CMD_all_sets 1), { op := 3, set := 0, allSet := true, target := 0, ref := 1, a := none, waits := false }, by decide +kernel⟩,
   ⟨(stateOf (({ (withFields glazeDev [(R.EC_CTRL 0, F.EC_CTRL_state, 2), (R.EC_CTRL 1, F.EC_CTRL_state, 2)] : Dev) with ca := { Ca.reset with op := some { op := 3, set := 0, allSet := true, target := 0, ref := 1, a := none, waits := false } } } : Dev))), { op := 3, set := 0, allSet := true, target := 0, ref := 1, a := none, waits := false }, by decide +kernel⟩,
   ⟨(stateOf (({ (withFields glazeDev [(R.EC_CTRL 0, F.EC_CTRL_state, 2), (R.EC_CTRL 1, F.EC_CTRL_state, 2), (R.CA_TEMP 0, F.CA_TEMP_temp, 0)] : Dev) with ca := { Ca.reset with op := some { op := 3, set := 0, allSet := false, target := 0, ref := 1, a := some 100, waits := false } } } : Dev))), { op := 3, set := 0, allSet := false, target := 0, ref := 1, a := some 100, waits := false }, 90, 100, by decide +kernel⟩,
   ⟨(stateOf (({ (withFields glazeDev [(R.EC_CTRL 0, F.EC_CTRL_state, 2), (R.EC_CTRL 1, F.EC_CTRL_state, 2)] : Dev) with ca := { Ca.reset with op := some { op := 1, set := 0, allSet := false, target := 0, ref := 1, a := some 0x4000, waits := false } } } : Dev))), { op := 1, set := 0, allSet := false, target := 0, ref := 1, a := some 0x4000, waits := false }, 0x4003, 0x4000, by decide +kernel⟩,
   ⟨(stateOf (({ (withFields glazeDev [(R.EC_CTRL 0, F.EC_CTRL_state, 2), (R.EC_CTRL 1, F.EC_CTRL_state, 2)] : Dev) with ca := { Ca.reset with op := some { op := 3, set := 0, allSet := true, target := 0, ref := 1, a := some 100, waits := false } } } : Dev))), { op := 3, set := 0, allSet := true, target := 0, ref := 1, a := some 100, waits := false }, 900, 100, by decide +kernel⟩,
   ⟨(stateOf (({ (withFields glazeDev [(R.EC_CTRL 0, F.EC_CTRL_state, 2), (R.EC_CTRL 1, F.EC_CTRL_state, 2)] : Dev) with ca := { Ca.reset with op := some { op := 3, set := 0, allSet := true, target := 0, ref := 1, a := some 100, waits := false } } } : Dev))), { op := 3, set := 0, allSet := true, target := 0, ref := 1, a := some 100, waits := false }, by decide +kernel⟩⟩

theorem witness_DeltaLayer :
    (∃ (s : State) (w : Word), s.Up ∧ let kind := s.dev.fld R.CA_DELTA_SEL F.CA_DELTA_SEL_kind; let index := s.dev.fld R.CA_DELTA_SEL F.CA_DELTA_SEL_index; let rate := if kind ≤ 3 then s.dev.fld R.CA_DELTA_SEL F.CA_DELTA_SEL_rate else 0; let ok := s.dev.fld R.CA_STATUS F.CA_STATUS_state = 0 ∧ index < (kindCount kind).1 ∧ rate < (kindCount kind).2 ∧ (signed 32 w.toNat).natAbs ≤ deltaLimit kind; ok) ∧
    (∃ (s : State) (w : Word), s.Up ∧ let kind := s.dev.fld R.CA_DELTA_SEL F.CA_DELTA_SEL_kind; let index := s.dev.fld R.CA_DELTA_SEL F.CA_DELTA_SEL_index; let rate := if kind ≤ 3 then s.dev.fld R.CA_DELTA_SEL F.CA_DELTA_SEL_rate else 0; let ok := s.dev.fld R.CA_STATUS F.CA_STATUS_state = 0 ∧ index < (kindCount kind).1 ∧ rate < (kindCount kind).2 ∧ (signed 32 w.toNat).natAbs ≤ deltaLimit kind; ¬ ok) ∧
    (∃ (s : State) (w : Word), s.Up ∧ getField w F.CA_STORE_discard = 1 ∧ getField w F.CA_STORE_store = 0) ∧
    (∃ (s : State) (w : Word), s.Up ∧ getField w F.CA_STORE_discard = 0 ∧ getField w F.CA_STORE_store = 1 ∧ (s.dev.stage = .firing ∨ s.dev.stage = .glaze ∨ s.dev.stage = .yielded) ∧ s.dev.fld R.CA_STATUS F.CA_STATUS_state = 0) ∧
    (∃ (s : State) (w : Word), s.Up ∧ getField w F.CA_STORE_discard = 0 ∧ getField w F.CA_STORE_store = 1 ∧ (s.dev.stage = .firing ∨ s.dev.stage = .glaze ∨ s.dev.stage = .yielded) ∧ s.dev.fld R.CA_STATUS F.CA_STATUS_state ≠ 0 ∧ s.Inv) ∧
    (∃ (s : State), s.Up ∧ s.dev.ca.storing = true ∧ s.dev.nv.copyA.good = true ∧ s.dev.nv.copyB.good = true ∧ s.dev.nv.bad = [] ∧ s.dev.nv.copyA.seq < s.dev.nv.copyB.seq) ∧
    (∃ (s : State), s.Up ∧ s.dev.ca.storing = true ∧ s.dev.nv.copyA.good = true ∧ s.dev.nv.copyB.good = true ∧ s.dev.nv.bad = [] ∧ s.dev.nv.copyB.seq ≤ s.dev.nv.copyA.seq) ∧
    (∃ (s : State), s.Up ∧ s.dev.ca.storing = true ∧ s.dev.nv.copyA.good = true ∧ s.dev.nv.copyB.good = true ∧ s.dev.nv.bad = [] ∧ 0 < s.dev.nv.spares ∧ s.dev.nv.place = []) ∧
    (∃ (s : State) (temps : List Int), s.Up ∧ ((∀ i : Fin 16, -32768 ≤ temps.getD i 0 ∧ temps.getD i 0 < 32768))) ∧
    (∃ (s : State), s.Up ∧ s.dev.ca.storing = true ∧ s.dev.nv.copyA.good = true ∧ s.dev.nv.copyB.good = true ∧ s.dev.nv.bad = [] ∧ s.dev.nv.spares = 0) :=
  ⟨⟨(stateOf (glazeDev)), 7#32, by decide +kernel⟩,
   ⟨(stateOf (glazeDev)), 0x10000#32, by decide +kernel⟩,
   ⟨(stateOf (({ (glazeDev : Dev) with ca := { Ca.reset with pending := [(3, 4)] } } : Dev))), (putField (0#32) F.CA_STORE_discard 1), by decide +kernel⟩,
   ⟨(stateOf (glazeDev)), (putField (0#32) F.CA_STORE_store 1), by decide +kernel⟩,
   ⟨(stateOf (withFields glazeDev [(R.CA_STATUS, F.CA_STATUS_state, 1)])), (putField (0#32) F.CA_STORE_store 1), by decide +kernel⟩,
   ⟨(stateOf (({ (({ (glazeDev : Dev) with nv := { Nv.shipped with copyA := { seq := 1, good := true, deltas := [] }, copyB := { seq := 2, good := true, deltas := [] } } } : Dev) : Dev) with ca := { Ca.reset with storing := true } } : Dev))), by decide +kernel⟩,
   ⟨(stateOf (({ (({ (glazeDev : Dev) with nv := { Nv.shipped with copyA := { seq := 2, good := true, deltas := [] }, copyB := { seq := 1, good := true, deltas := [] } } } : Dev) : Dev) with ca := { Ca.reset with storing := true } } : Dev))), by decide +kernel⟩,
   ⟨(stateOf (({ (({ (glazeDev : Dev) with nv := { Nv.shipped with copyA := { seq := 2, good := true, deltas := [] }, copyB := { seq := 1, good := true, deltas := [] } } } : Dev) : Dev) with ca := { Ca.reset with storing := true } } : Dev))), by decide +kernel⟩,
   ⟨(stateOf (glazeDev)), (List.replicate 16 6400), by decide +kernel⟩,
   ⟨stateOf { (glazeDev : Dev) with nv := { Nv.shipped with spares := 0, copyA := { seq := 2, good := true, deltas := [] }, copyB := { seq := 1, good := true, deltas := [] } }, ca := { Ca.reset with storing := true } }, by decide +kernel⟩⟩

theorem witness_KilnLog :
    (∃ (s : State), s.Awake ∧ s.Inv ∧ ((s.dev.klogQueue = [] ∨ s.dev.nv.clearing ≠ none))) ∧
    (∃ (s : State) (r : List Byte) (rest : List (List Byte)), s.Awake ∧ let pos := placeRecord s.dev.nv.klogUsed r.length; s.dev.klogQueue = r :: rest ∧ s.dev.nv.clearing = none ∧ s.dev.flag R.ER_STATUS F.ER_STATUS_full = false ∧ pos ≤ 1023 * 256 ∧ s.dev.nv.bad = []) ∧
    (∃ (s : State) (r : List Byte) (rest : List (List Byte)), s.Awake ∧ let pos := placeRecord s.dev.nv.klogUsed r.length; s.dev.klogQueue = r :: rest ∧ s.dev.nv.clearing = none ∧ s.dev.flag R.ER_STATUS F.ER_STATUS_full = false ∧ pos ≤ 1023 * 256 ∧ 0 < s.dev.nv.spares) ∧
    (∃ (s : State) (r : List Byte) (rest : List (List Byte)), s.Awake ∧ let pos := placeRecord s.dev.nv.klogUsed r.length; s.dev.klogQueue = r :: rest ∧ s.dev.nv.clearing = none ∧ s.dev.flag R.ER_STATUS F.ER_STATUS_full = false ∧ pos ≤ 1023 * 256 ∧ s.dev.nv.spares = 0) ∧
    (∃ (s : State), s.Awake ∧ s.dev.nv.bad = []) ∧
    (∃ (s : State) (w : Word), s.Awake ∧ getField w F.ER_ADVANCE_next = 1) ∧
    (∃ (s : State), s.Awake ∧ s.dev.curReading = true ∧ ∃ x, s.dev.nv.clearing = none ∧ s.dev.nv.klog[s.dev.fld R.ER_CURSOR F.ER_CURSOR_index]? = some x) ∧
    (∃ (s : State), s.Awake ∧ s.dev.curReading = true ∧ (s.dev.nv.clearing ≠ none ∨ s.dev.nv.klog[s.dev.fld R.ER_CURSOR F.ER_CURSOR_index]? = none)) :=
  ⟨⟨(stateOf (glazeDev)), by decide +kernel⟩,
   ⟨(stateOf (({ (glazeDev : Dev) with klogQueue := [[0#8, 0, 4, 7, 0, 0, 0, 0]] } : Dev))), [0#8, 0, 4, 7, 0, 0, 0, 0], [], by decide +kernel⟩,
   ⟨(stateOf (({ (glazeDev : Dev) with klogQueue := [[0#8, 0, 4, 7, 0, 0, 0, 0]] } : Dev))), [0#8, 0, 4, 7, 0, 0, 0, 0], [], by decide +kernel⟩,
   ⟨(stateOf (({ (({ (glazeDev : Dev) with nv := { Nv.shipped with spares := 0 } } : Dev) : Dev) with klogQueue := [[0#8, 0, 4, 7, 0, 0, 0, 0]] } : Dev))), [0#8, 0, 4, 7, 0, 0, 0, 0], [], by decide +kernel⟩,
   ⟨(stateOf (glazeDev)), by decide +kernel⟩,
   ⟨(stateOf (glazeDev)), (putField (0#32) F.ER_ADVANCE_next 1), by decide +kernel⟩,
   ⟨(stateOf (({ (glazeDev : Dev) with curReading := true } : Dev))), by decide +kernel, by decide +kernel, (([0, 0, 20, 1] ++ List.replicate 20 0 : List Byte)), by decide +kernel⟩,
   ⟨(stateOf (({ (withFields glazeDev [(R.ER_CURSOR, F.ER_CURSOR_index, 9)] : Dev) with curReading := true } : Dev))), by decide +kernel⟩⟩

theorem witness_KilnRefusal :
    (∃ (s : State) (r : List Byte) (rest : List (List Byte)), s.Awake ∧ s.dev.nv.clearing = none ∧ let full := s.dev.flag R.ER_STATUS F.ER_STATUS_full; let fits := placeRecord s.dev.nv.klogUsed r.length ≤ 1023 * 256; s.dev.klogQueue = r :: rest ∧ (full = true ∨ ¬ fits)) ∧
    (∃ (s : State) (r : List Byte) (rest : List (List Byte)), s.Awake ∧ s.dev.nv.clearing = none ∧ let full := s.dev.flag R.ER_STATUS F.ER_STATUS_full; let fits := placeRecord s.dev.nv.klogUsed r.length ≤ 1023 * 256; s.dev.klogQueue = r :: rest ∧ full = false ∧ fits ∧ s.dev.nv.bad = []) ∧
    (∃ (s : State), s.Awake ∧ s.dev.nv.clearing = none) ∧
    (∃ (s : State) (r : List Byte) (rest : List (List Byte)), s.Awake ∧ s.dev.nv.clearing = none ∧ s.dev.klogQueue = r :: rest ∧ s.dev.flag R.ER_STATUS F.ER_STATUS_full = false ∧ ¬ placeRecord s.dev.nv.klogUsed r.length ≤ 1023 * 256) :=
  ⟨⟨(stateOf (({ (withFields glazeDev [(R.ER_STATUS, F.ER_STATUS_full, 1)] : Dev) with klogQueue := [[0#8, 0, 4, 7, 0, 0, 0, 0]] } : Dev))), [0#8, 0, 4, 7, 0, 0, 0, 0], [], by decide +kernel⟩,
   ⟨(stateOf (({ (glazeDev : Dev) with klogQueue := [[0#8, 0, 4, 7, 0, 0, 0, 0]] } : Dev))), [0#8, 0, 4, 7, 0, 0, 0, 0], [], by decide +kernel⟩,
   ⟨(stateOf (({ (glazeDev : Dev) with klogQueue := [[0#8, 0, 4, 7, 0, 0, 0, 0]] } : Dev))), by decide +kernel⟩,
   ⟨stateOf { (glazeDev : Dev) with nv := { Nv.shipped with klog := List.replicate 140 (List.replicate 2000 0#8) }, klogQueue := [[0#8, 0, 4, 7, 0, 0, 0, 0]] }, [0#8, 0, 4, 7, 0, 0, 0, 0], [], by decide +kernel⟩⟩

theorem witness_PairClaims :
    (∃ (s : State), s.Up ∧ s.dev.pairState = 1 ∧ s.dev.ps.actIn = false ∧ (s.dev.timeValid = true ∨ s.dev.flag R.PS_PAIR_CFG F.PS_PAIR_CFG_claim_any = true)) ∧
    (∃ (s : State), s.Up ∧ s.dev.pairState = 1 ∧ s.dev.ps.actIn = false ∧ s.dev.timeValid = false ∧ s.dev.flag R.PS_PAIR_CFG F.PS_PAIR_CFG_claim_any = false ∧ s.Inv) ∧
    (∃ (s : State), s.Up ∧ s.dev.pairState = 1) ∧
    (∃ (s : State), s.Up ∧ ∃ t, s.dev.pairState = 3 ∧ s.dev.ps.claimAt = some t ∧ let lost := s.dev.ticks - t < 50 ∨ (s.dev.ticks - t ≤ 75 ∧ s.dev.pins.pairRole = true); lost) ∧
    (∃ (s : State), s.Up ∧ ∃ t, s.dev.pairState = 3 ∧ s.dev.ps.claimAt = some t ∧ let lost := s.dev.ticks - t < 50 ∨ (s.dev.ticks - t ≤ 75 ∧ s.dev.pins.pairRole = true); ¬ lost) ∧
    (∃ (s : State), s.Up ∧ s.dev.pairState ≠ 1 ∧ s.dev.pairState ≠ 3 ∧ s.Inv) ∧
    (∃ (s : State), s.Up ∧ s.dev.pairState = 2) ∧
    (∃ (s : State), s.Up ∧ s.dev.pairState ≠ 2 ∧ s.Inv) ∧
    (∃ (s : State), s.Up ∧ s.dev.ps.resync = true) ∧
    (∃ (s : State), s.Up) ∧
    (∃ (s : State) (p : Nat), s.Up ∧ s.dev.ps.resync = true ∧ p < 64 ∧ s.dev.isazu p = true ∧ s.dev.linkUp p = true ∧ s.dev.portOn p = true ∧ s.dev.inFault = false) ∧
    (∃ (s : State), s.Up ∧ s.dev.pairState = 2 ∧ s.dev.enumRoot = true) :=
  ⟨⟨(stateOf (withFields glazeDev [(R.PS_PAIR_STATUS, F.PS_PAIR_STATUS_state, 1), (R.TC_STATUS, F.TC_STATUS_time_valid, 1)])), by decide +kernel⟩,
   ⟨(stateOf (withFields glazeDev [(R.PS_PAIR_STATUS, F.PS_PAIR_STATUS_state, 1)])), by decide +kernel⟩,
   ⟨(stateOf (withFields glazeDev [(R.PS_PAIR_STATUS, F.PS_PAIR_STATUS_state, 1)])), by decide +kernel⟩,
   ⟨(stateOf (({ (withFields glazeDev [(R.PS_PAIR_STATUS, F.PS_PAIR_STATUS_state, 3)] : Dev) with ps := { Ps.reset with claimAt := some 0 } } : Dev))), by decide +kernel, ((0 : Nat)), by decide +kernel⟩,
   ⟨(stateOf (({ (({ (withFields glazeDev [(R.PS_PAIR_STATUS, F.PS_PAIR_STATUS_state, 3)] : Dev) with ps := { Ps.reset with claimAt := some 0 } } : Dev) : Dev) with ticks := 90 } : Dev))), by decide +kernel, ((0 : Nat)), by decide +kernel⟩,
   ⟨(stateOf (glazeDev)), by decide +kernel⟩,
   ⟨(stateOf (({ (withFields glazeDev [(R.PS_PAIR_STATUS, F.PS_PAIR_STATUS_state, 2)] : Dev) with ps := { Ps.reset with actIn := true } } : Dev))), by decide +kernel⟩,
   ⟨(stateOf (glazeDev)), by decide +kernel⟩,
   ⟨(stateOf (({ (glazeDev : Dev) with ps := { Ps.reset with resync := true } } : Dev))), by decide +kernel⟩,
   ⟨(stateOf (glazeDev)), by decide +kernel⟩,
   ⟨stateOf { (withFields glazeDev [(R.LK_STATUS 5, F.LK_STATUS_link_up, 1), (R.LK_PORT_CTRL 5, F.LK_PORT_CTRL_state, 2)] : Dev) with ps := { Ps.reset with resync := true } }, 5, by decide +kernel⟩,
   ⟨stateOf (withFields glazeDev [(R.PS_PAIR_STATUS, F.PS_PAIR_STATUS_state, 2), (R.GL_CTRL, F.GL_CTRL_enum_root, 1)]), by decide +kernel⟩⟩

theorem witness_Yielding :
    (∃ (s : State), s.Up ∧ s.dev.pairState = 3 ∧ bit (s.dev.fld R.PS_YIELD_CFG F.PS_YIELD_CFG_en) 0 = true) ∧
    (∃ (s : State), s.Up ∧ s.dev.pairState = 3 ∧ bit (s.dev.fld R.PS_YIELD_CFG F.PS_YIELD_CFG_en) 2 = true ∧ s.dev.timeValid = false) ∧
    (∃ (s : State) (w : Word), s.Up ∧ s.dev.pairState = 3 ∧ bit (s.dev.fld R.PS_YIELD_CFG F.PS_YIELD_CFG_en) 4 = true ∧ getField w F.PS_CMD_yield = 1 ∧ getField w F.PS_CMD_rejoin = 0 ∧ getField w F.PS_CMD_zeroize = 0 ∧ getField w F.PS_CMD_key_write = 0 ∧ getField w F.PS_CMD_img_store = 0) ∧
    (∃ (s : State), s.Up ∧ s.dev.pairState ≠ 3 ∧ s.Inv) ∧
    (∃ (s : State) (w : Word), s.Up ∧ getField w F.PS_CMD_rejoin = 1 ∧ getField w F.PS_CMD_yield = 0 ∧ getField w F.PS_CMD_zeroize = 0 ∧ getField w F.PS_CMD_key_write = 0 ∧ getField w F.PS_CMD_img_store = 0 ∧ s.dev.pairState = 4) ∧
    (∃ (s : State) (w : Word), s.Up ∧ getField w F.PS_CMD_rejoin = 1 ∧ getField w F.PS_CMD_yield = 0 ∧ getField w F.PS_CMD_zeroize = 0 ∧ getField w F.PS_CMD_key_write = 0 ∧ getField w F.PS_CMD_img_store = 0 ∧ s.dev.pairState ≠ 4) :=
  ⟨⟨(stateOf (withFields glazeDev [(R.PS_PAIR_STATUS, F.PS_PAIR_STATUS_state, 3), (R.PS_YIELD_CFG, F.PS_YIELD_CFG_en, 1)])), by decide +kernel⟩,
   ⟨(stateOf (withFields glazeDev [(R.PS_PAIR_STATUS, F.PS_PAIR_STATUS_state, 3), (R.PS_YIELD_CFG, F.PS_YIELD_CFG_en, 4)])), by decide +kernel⟩,
   ⟨(stateOf (withFields glazeDev [(R.PS_PAIR_STATUS, F.PS_PAIR_STATUS_state, 3), (R.PS_YIELD_CFG, F.PS_YIELD_CFG_en, 16)])), (putField (0#32) F.PS_CMD_yield 1), by decide +kernel⟩,
   ⟨(stateOf (glazeDev)), by decide +kernel⟩,
   ⟨(stateOf (({ (withFields glazeDev [(R.PS_PAIR_STATUS, F.PS_PAIR_STATUS_state, 4)] : Dev) with stage := .yielded } : Dev))), (putField (0#32) F.PS_CMD_rejoin 1), by decide +kernel⟩,
   ⟨(stateOf (glazeDev)), (putField (0#32) F.PS_CMD_rejoin 1), by decide +kernel⟩⟩

theorem witness_Saggar :
    (∃ (s : State) (w : Word), s.Up ∧ let acts (f : Field) : Nat := getField w f; acts F.PS_CMD_yield = 0 ∧ acts F.PS_CMD_rejoin = 0 ∧ acts F.PS_CMD_zeroize = 1 ∧ acts F.PS_CMD_key_write = 0 ∧ acts F.PS_CMD_img_store = 0) ∧
    (∃ (s : State) (w : Word), s.Up ∧ let acts (f : Field) : Nat := getField w f; acts F.PS_CMD_yield = 0 ∧ acts F.PS_CMD_rejoin = 0 ∧ acts F.PS_CMD_zeroize = 1 ∧ acts F.PS_CMD_key_write = 0 ∧ acts F.PS_CMD_img_store = 0) ∧
    (∃ (s : State) (w : Word) (key : List Byte), s.Up ∧ let acts (f : Field) : Nat := getField w f; acts F.PS_CMD_yield = 0 ∧ acts F.PS_CMD_rejoin = 0 ∧ acts F.PS_CMD_zeroize = 0 ∧ acts F.PS_CMD_key_write = 1 ∧ acts F.PS_CMD_img_store = 0 ∧ key.length = 32 ∧ s.dev.nv.keys.length = 8 ∧ s.dev.fld R.PS_XFER_LEN F.PS_XFER_LEN_len = 32 ∧ s.dev.nv.keys.getD (acts F.PS_CMD_slot) none = none) ∧
    (∃ (s : State) (w : Word) (key : List Byte), s.Up ∧ let acts (f : Field) : Nat := getField w f; acts F.PS_CMD_yield = 0 ∧ acts F.PS_CMD_rejoin = 0 ∧ acts F.PS_CMD_zeroize = 0 ∧ acts F.PS_CMD_key_write = 1 ∧ acts F.PS_CMD_img_store = 0 ∧ key.length = 32 ∧ s.dev.nv.keys.length = 8 ∧ s.dev.fld R.PS_XFER_LEN F.PS_XFER_LEN_len = 32 ∧ s.dev.nv.keys.getD (acts F.PS_CMD_slot) none ≠ none) ∧
    (∃ (s : State) (w : Word) (bs : List Byte) (kind : Nat), s.Up ∧ let acts (f : Field) : Nat := getField w f; acts F.PS_CMD_yield = 0 ∧ acts F.PS_CMD_rejoin = 0 ∧ acts F.PS_CMD_zeroize = 0 ∧ acts F.PS_CMD_key_write = 0 ∧ acts F.PS_CMD_img_store = 1 ∧ s.dev.ps.storing = none ∧ bs.length = s.dev.fld R.PS_XFER_LEN F.PS_XFER_LEN_len ∧ little bs 0 4 = kind ∧ ((kind = 1 ∨ kind = 2)) ∧ (s.dev.checkImage kind bs = .good ∨ s.dev.checkImage kind bs = .unsigned) ∧ 256 + imageLen bs ≤ regionSize kind) ∧
    (∃ (s : State) (w : Word) (bs : List Byte) (kind : Nat), s.Up ∧ let acts (f : Field) : Nat := getField w f; acts F.PS_CMD_yield = 0 ∧ acts F.PS_CMD_rejoin = 0 ∧ acts F.PS_CMD_zeroize = 0 ∧ acts F.PS_CMD_key_write = 0 ∧ acts F.PS_CMD_img_store = 1 ∧ s.dev.ps.storing = none ∧ bs.length = s.dev.fld R.PS_XFER_LEN F.PS_XFER_LEN_len ∧ little bs 0 4 = kind ∧ ((kind = 1 ∨ kind = 2)) ∧ (s.dev.checkImage kind bs = .badSignature ∨ s.dev.checkImage kind bs = .badCrc)) ∧
    (∃ (s : State) (bs : List Byte), s.Up ∧ s.dev.ps.storing = some (1, bs) ∧ s.dev.nv.bad = []) ∧
    (∃ (s : State) (bs : List Byte), s.Up ∧ s.dev.ps.storing = some (2, bs) ∧ s.dev.nv.bad = []) ∧
    (∃ (s : State) (bs : List Byte) (kind : Nat), s.Up ∧ s.dev.ps.storing = some (kind, bs) ∧ s.dev.nv.bad = [] ∧ s.dev.nv.spares = 0 ∧ bs ≠ []) ∧
    (∃ (s : State) (w : Word), s.Up ∧ s.dev.stage = .glaze ∧ getField w F.PS_OPEN_code = 0x0F1E) ∧
    (∃ (s : State) (w : Word), s.Up ∧ ∃ t, s.dev.ps.openAt = some t ∧ s.dev.ticks ≤ t + tickSeconds 1 ∧ s.dev.nv.openFuse = false ∧ getField w F.PS_OPEN_code = 0xE1F0) ∧
    (∃ (s : State) (w : Word), s.Up ∧ getField w F.PS_OPEN_code ≠ 0x0F1E ∧ getField w F.PS_OPEN_code ≠ 0xE1F0) ∧
    (∃ (s : State), s.Up ∧ s.dev.ps.blowing = true) :=
  ⟨⟨(stateOf (({ (glazeDev : Dev) with nv := { Nv.shipped with keys := List.replicate 8 (some [1#8]) } } : Dev))), (putField (0#32) F.PS_CMD_zeroize 1), by decide +kernel⟩,
   ⟨(stateOf (glazeDev)), (putField (0#32) F.PS_CMD_zeroize 1), by decide +kernel⟩,
   ⟨(stateOf (withFields glazeDev [(R.PS_XFER_LEN, F.PS_XFER_LEN_len, 32)])), (putField (putField (0#32) F.PS_CMD_key_write 1) F.PS_CMD_slot 7), (List.replicate 32 9#8), by decide +kernel⟩,
   ⟨(stateOf (({ (withFields glazeDev [(R.PS_XFER_LEN, F.PS_XFER_LEN_len, 32)] : Dev) with nv := { Nv.shipped with keys := List.replicate 8 (some [1#8]) } } : Dev))), (putField (putField (0#32) F.PS_CMD_key_write 1) F.PS_CMD_slot 7), (List.replicate 32 9#8), by decide +kernel⟩,
   ⟨(stateOf (({ (withFields glazeDev [(R.PS_XFER_LEN, F.PS_XFER_LEN_len, 256)] : Dev) with nv := { Nv.shipped with openFuse := true } } : Dev))), (putField (0#32) F.PS_CMD_img_store 1), (([1#8, 0, 0, 0] ++ List.replicate 252 0)), 1, by decide +kernel⟩,
   ⟨(stateOf (withFields glazeDev [(R.PS_XFER_LEN, F.PS_XFER_LEN_len, 256)])), (putField (0#32) F.PS_CMD_img_store 1), (([1#8, 0, 0, 0, 0, 0, 0, 0, 1] ++ List.replicate 247 0)), 1, by decide +kernel⟩,
   ⟨(stateOf (({ (glazeDev : Dev) with ps := { Ps.reset with storing := some (1, ([1#8, 0, 0, 0] ++ List.replicate 252 0)) } } : Dev))), (([1#8, 0, 0, 0] ++ List.replicate 252 0)), by decide +kernel⟩,
   ⟨(stateOf (({ (glazeDev : Dev) with ps := { Ps.reset with storing := some (2, ([2#8, 0, 0, 0] ++ List.replicate 252 0)) } } : Dev))), (([2#8, 0, 0, 0] ++ List.replicate 252 0)), by decide +kernel⟩,
   ⟨(stateOf (({ (glazeDev : Dev) with nv := { Nv.shipped with spares := 0 }, ps := { Ps.reset with storing := some (2, ([2#8, 0, 0, 0] ++ List.replicate 252 0)) } } : Dev))), (([2#8, 0, 0, 0] ++ List.replicate 252 0)), 2, by decide +kernel⟩,
   ⟨(stateOf (glazeDev)), 0x0F1E#32, by decide +kernel⟩,
   ⟨(stateOf (({ (glazeDev : Dev) with ps := { Ps.reset with openAt := some 0 } } : Dev))), 0xE1F0#32, by decide +kernel, ((0 : Nat)), by decide +kernel⟩,
   ⟨(stateOf (glazeDev)), 3#32, by decide +kernel⟩,
   ⟨(stateOf (({ (glazeDev : Dev) with ps := { Ps.reset with blowing := true } } : Dev))), by decide +kernel⟩⟩

theorem witness_EnableRule :
    (∃ (s : State) (t : EnTarget) (w : Word), s.Up ∧ s.dev.inFault = false ∧ ((∀ n, t ≠ .lane n)) ∧ ((∀ c : Fin 128, t = .chan c → s.dev.winMode c ≠ 2)) ∧ getField w enField = 1 ∧ s.dev.enState t = enOff ∧ s.dev.mayStart t = true ∧ ∀ r : Fin 64, t = .ring r → s.dev.ringValid r = true) ∧
    (∃ (s : State) (t : EnTarget) (w : Word), s.Up ∧ s.dev.inFault = false ∧ ((∀ n, t ≠ .lane n)) ∧ ((∀ c : Fin 128, t = .chan c → s.dev.winMode c ≠ 2)) ∧ getField w enField = 1 ∧ s.dev.enState t = enOff ∧ s.dev.mayStart t = false) ∧
    (∃ (s : State) (t : EnTarget) (w : Word), s.Up ∧ s.dev.inFault = false ∧ ((∀ n, t ≠ .lane n)) ∧ ((∀ c : Fin 128, t = .chan c → s.dev.winMode c ≠ 2)) ∧ getField w enField = 0 ∧ s.dev.enState t = enOn) ∧
    (∃ (s : State) (t : EnTarget), s.Up ∧ s.dev.inFault = false ∧ ((∀ n, t ≠ .lane n)) ∧ ((∀ c : Fin 128, t = .chan c → s.dev.winMode c ≠ 2)) ∧ (s.dev.enState t = enStarting ∨ s.dev.enState t = enStopping)) ∧
    (∃ (s : State) (t : EnTarget) (w : Word), s.Up ∧ s.dev.inFault = false ∧ ((∀ n, t ≠ .lane n)) ∧ ((∀ c : Fin 128, t = .chan c → s.dev.winMode c ≠ 2)) ∧ getField w enField = 1 ∧ s.dev.enState t = enOff ∧ s.dev.mayStart t = true ∧ ∀ r : Fin 64, t = .ring r → s.dev.ringValid r = true) :=
  ⟨⟨(stateOf (glazeDev)), (.chan 5), 1#32, by decide +kernel⟩,
   ⟨(stateOf (glazeDev)), (.unit 5), 1#32, by decide +kernel⟩,
   ⟨(stateOf (withFields glazeDev [(R.EC_CTRL 5, F.EC_CTRL_state, 2), (R.EC_CTRL 5, F.EC_CTRL_enable, 1)])), (.chan 5), 0#32, by decide +kernel⟩,
   ⟨(stateOf (withFields glazeDev [(R.EC_CTRL 5, F.EC_CTRL_state, 1)])), (.chan 5), by decide +kernel⟩,
   ⟨(stateOf (withFields ringDev [(R.HR_RING_CTRL 0, F.HR_RING_CTRL_state, 0)])), .ring 0, 1#32, by decide +kernel⟩⟩

theorem witness_ClockWrites :
    (∃ (s : State) (w : Word), s.Up ∧ let x := s.dev.fieldsStored R.CK_XO_CFG w; let freq (y : Word) : Nat := getField y F.CK_XO_CFG_freq; let pd := if getField x F.CK_XO_CFG_pd_auto = 1 then defaultPd (freq x) else getField x F.CK_XO_CFG_pd_mode; let same := s.dev.fld R.CK_XO_CFG F.CK_XO_CFG_freq = freq x ∧ pdFreq4 (s.dev.fld R.CK_XO_CFG F.CK_XO_CFG_freq) (s.dev.fld R.CK_XO_CFG F.CK_XO_CFG_pd_mode) = pdFreq4 (freq x) pd; same) ∧
    (∃ (s : State) (w : Word), s.Up ∧ let x := s.dev.fieldsStored R.CK_XO_CFG w; let freq (y : Word) : Nat := getField y F.CK_XO_CFG_freq; let pd := if getField x F.CK_XO_CFG_pd_auto = 1 then defaultPd (freq x) else getField x F.CK_XO_CFG_pd_mode; let same := s.dev.fld R.CK_XO_CFG F.CK_XO_CFG_freq = freq x ∧ pdFreq4 (s.dev.fld R.CK_XO_CFG F.CK_XO_CFG_freq) (s.dev.fld R.CK_XO_CFG F.CK_XO_CFG_pd_mode) = pdFreq4 (freq x) pd; ¬ same ∧ s.dev.rootLocked = false) ∧
    (∃ (s : State) (w : Word), s.Up ∧ let x := s.dev.fieldsStored R.CK_XO_CFG w; let freq (y : Word) : Nat := getField y F.CK_XO_CFG_freq; let pd := if getField x F.CK_XO_CFG_pd_auto = 1 then defaultPd (freq x) else getField x F.CK_XO_CFG_pd_mode; let same := s.dev.fld R.CK_XO_CFG F.CK_XO_CFG_freq = freq x ∧ pdFreq4 (s.dev.fld R.CK_XO_CFG F.CK_XO_CFG_freq) (s.dev.fld R.CK_XO_CFG F.CK_XO_CFG_pd_mode) = pdFreq4 (freq x) pd; ¬ same ∧ s.dev.rootLocked = true) ∧
    (∃ (s : State) (w : Word), s.Up ∧ (s.dev.cleaner = 2 ∨ s.dev.cleaner = 3 ∨ s.dev.cleaner = 4) ∧ getField w F.CK_CLN_CFG_sel_mode = 2) ∧
    (∃ (s : State), s.Up) :=
  ⟨⟨(stateOf (glazeDev)), (glazeDev.reg R.CK_XO_CFG), by decide +kernel⟩,
   ⟨(stateOf (glazeDev)), (putField (glazeDev.reg R.CK_XO_CFG) F.CK_XO_CFG_freq 2), by decide +kernel⟩,
   ⟨(stateOf (withFields glazeDev [(R.CK_SYN_STATUS, F.CK_SYN_STATUS_locked, 1)])), (putField (glazeDev.reg R.CK_XO_CFG) F.CK_XO_CFG_freq 2), by decide +kernel⟩,
   ⟨(stateOf (withFields glazeDev [(R.CK_STATUS, F.CK_STATUS_state, 4)])), (putField (0#32) F.CK_CLN_CFG_sel_mode 2), by decide +kernel⟩,
   ⟨(stateOf (glazeDev)), by decide +kernel⟩⟩

theorem witness_RegisterAccess :
    (∃ (s : State) (off : BitVec 20), s.Awake ∧ let o := off.toNat; regSpec o = none) ∧
    (∃ (s : State) (off : BitVec 20) (be : BitVec 4) (r : RegSpec), s.Awake ∧ let o := off.toNat; regSpec o = some r ∧ be ≠ 15) ∧
    (∃ (s : State) (off : BitVec 20) (w : Word) (r : RegSpec), s.Awake ∧ let o := off.toNat; regSpec o = some r ∧ s.dev.stage = .safe ∧ o ≠ R.GL_SCRATCH ∧ o ≠ R.ER_CURSOR ∧ o ≠ R.ER_ADVANCE ∧ ((∀ f ∈ r.fields, f.refusedSafe w (s.dev.reg o) = false))) ∧
    (∃ (s : State) (off : BitVec 20) (w : Word) (r : RegSpec), s.Awake ∧ let o := off.toNat; regSpec o = some r ∧ s.dev.stage = .safe ∧ o ≠ R.GL_SCRATCH ∧ o ≠ R.ER_CURSOR ∧ o ≠ R.ER_ADVANCE ∧ ((∃ f ∈ r.fields, f.refusedSafe w (s.dev.reg o) = true))) ∧
    (∃ (s : State) (off : BitVec 20) (r : RegSpec), s.Awake ∧ let o := off.toNat; regSpec o = some r ∧ ((∃ f ∈ r.fields, f.acc = .rc))) ∧
    (∃ (s : State) (off : BitVec 20), s.Awake ∧ let o := off.toNat; o = R.GL_SCRATCH) ∧
    (∃ (s : State) (off : BitVec 20), s.Awake ∧ let o := off.toNat; o = R.PS_LOST) ∧
    (∃ (s : State) (off : BitVec 20), s.Awake ∧ let o := off.toNat; o % 16 = 8 ∧ o < 66 * 16) ∧
    (∃ (s : State) (off : BitVec 20) (w : Word), s.Awake ∧ let o := off.toNat; o % 16 = 12 ∧ o < 66 * 16 ∧ s.dev.hr.linkUp = true ∧ s.dev.hr.pba.contains (o / 16) = true ∧ w.toNat % 2 = 0) :=
  ⟨⟨(stateOf (glazeDev)), 0xFFFFC#20, by decide +kernel⟩,
   ⟨(stateOf (glazeDev)), (BitVec.ofNat 20 R.GL_SCRATCH), 3, (((regSpec R.GL_SCRATCH).getD { off := 0, n1 := 1, stride1 := 0, n2 := 1, stride2 := 0, reset := 0, fields := [] })), by decide +kernel⟩,
   ⟨(stateOf (({ (glazeDev : Dev) with stage := .safe } : Dev))), (BitVec.ofNat 20 R.CK_STATUS), 5#32, (((regSpec R.CK_STATUS).getD { off := 0, n1 := 1, stride1 := 0, n2 := 1, stride2 := 0, reset := 0, fields := [] })), by decide +kernel⟩,
   ⟨(stateOf (({ (glazeDev : Dev) with stage := .safe } : Dev))), (BitVec.ofNat 20 R.PS_CMD), (putField (0#32) F.PS_CMD_yield 1), (((regSpec R.PS_CMD).getD { off := 0, n1 := 1, stride1 := 0, n2 := 1, stride2 := 0, reset := 0, fields := [] })), by decide +kernel⟩,
   ⟨(stateOf (glazeDev)), (BitVec.ofNat 20 R.PS_LOST), (((regSpec R.PS_LOST).getD { off := 0, n1 := 1, stride1 := 0, n2 := 1, stride2 := 0, reset := 0, fields := [] })), by decide +kernel⟩,
   ⟨(stateOf (glazeDev)), (BitVec.ofNat 20 R.GL_SCRATCH), by decide +kernel⟩,
   ⟨(stateOf (withFields glazeDev [(R.PS_LOST, F.PS_LOST_count, 4)])), (BitVec.ofNat 20 R.PS_LOST), by decide +kernel⟩,
   ⟨(stateOf (glazeDev)), 0x18#20, by decide +kernel⟩,
   ⟨(stateOf (({ (glazeDev : Dev) with hr := { Hr.reset with linkUp := true, pba := [1] } } : Dev))), 0x1C#20, 0#32, by decide +kernel⟩⟩

theorem witness_PcBlockMap :
    ∃ (o : Nat), o / 0x10000 = 14 :=
  ⟨0xE0008, by decide +kernel⟩

theorem witness_StepTakesFront :
    (∃ (c : Instr) (rest : List Instr) (s : State), s.pending = c :: rest) ∧
    (∃ (s : State), s.pending = [] ∧ s.dev.load = none) ∧
    (∃ (s : State), s.pending = [] ∧ s.dev.load ≠ none ∧ s.dev.mi.scan = false) :=
  ⟨⟨.timeTick, [.lockDeclaration], { stateOf glazeDev with pending := [.timeTick, .lockDeclaration] }, rfl⟩,
   ⟨stateOf glazeDev, by decide +kernel⟩,
   ⟨stateOf { (glazeDev : Dev) with stage := .bisque, load := some { kind := 1, recs := [], next := 0, refused := 0 } },
    by decide +kernel⟩⟩

theorem witness_StepKeepsInvariant :
    (∃ (s t : State), step s = .next t ∧ s.Inv) ∧ (∃ (c : Instr) (s t : State), exec c s = .next t) :=
  ⟨⟨State.reset, State.reset, rfl, by decide +kernel⟩, ⟨.resetAssert, State.reset, after .resetAssert State.reset, rfl⟩⟩

theorem witness_CommandsAnswer :
    (∃ (s : State), s.dev.mi.scan = false) ∧
    (∃ (c : Instr) (s : State), s.dev.mi.scan = true ∧ c ≠ .resetAssert ∧ c ≠ .pwrOkFall) :=
  ⟨⟨stateOf glazeDev, rfl⟩,
   ⟨.timeTick, stateOf { (glazeDev : Dev) with mi := { Mi.reset with scan := true } }, by decide +kernel⟩⟩

theorem witness_OffHolds :
    ∃ (c : Instr) (s : State), s.dev.stage = .off ∧ s.dev.mi.scan = false ∧ s.Inv ∧ c ≠ .resetAssert ∧ c ≠ .pwrOkFall ∧
      (∀ temps, c ≠ .resetRelease temps) ∧ (∀ speed width, c ≠ .pciePerstRelease speed width) ∧ c ≠ .pciePerstAssert :=
  ⟨.timeTick, State.reset, by decide +kernel, by decide +kernel, by decide +kernel, by decide, by decide,
   (fun _ h => by cases h), (fun _ _ h => by cases h), by decide⟩

theorem witness_SafeIsLeftThroughOff :
    ∃ (c : Instr) (s t : State), s.dev.stage = .safe ∧ exec c s = .next t :=
  ⟨.resetAssert, stateOf { (glazeDev : Dev) with stage := .safe },
   after .resetAssert (stateOf { (glazeDev : Dev) with stage := .safe }), rfl, rfl⟩

end Sys2Proof.Tests
end

section
/-! SUPPORT and PROOF of O53. How a command that acts out of OFF answers; what the end of a command keeps of what has
left the device, of the MSI-X table and of the pending bits; how the access record, a write in SAFE, a clearing read and
a write of the MSI-X table act; and register access (R8, R287, R422–R424, R430) assembled from these. -/

namespace Sys2Proof.Machine

/-! How a command answers. -/

/-- A command that acts in every stage but OFF answers what its action makes, settled. -/
theorem Answers.of_awake {c : Instr} {s : State} {f : Dev → Dev} {Q : Dev → Prop} (hs : s.Awake)
    (hc : exec c s = awake s f) (hQ : Q (f s.dev).settle) : Answers c s Q :=
  ⟨_, hc.trans (awake_next hs.1 hs.2), rfl, hQ⟩

theorem answers_registerWrite_bar0 {s : State} {off : BitVec 20} {be : BitVec 4} {w : Word} {Q : Dev → Prop}
    (hs : s.Awake) (hQ : Q (s.dev.writeAccess off.toNat (be == 15) w).settle) :
    Answers (.registerWrite .bar0 off be w) s Q :=
  .of_awake (f := fun d => d.writeAccess off.toNat (be == 15) w) hs rfl hQ

theorem answers_registerWrite_bar2 {s : State} {off : BitVec 20} {be : BitVec 4} {w : Word} {Q : Dev → Prop}
    (hs : s.Awake) (hQ : Q (s.dev.msixWrite off.toNat be w).settle) :
    Answers (.registerWrite .bar2 off be w) s Q :=
  .of_awake (f := fun d => d.msixWrite off.toNat be w) hs rfl hQ

theorem answers_clearingRead {s : State} {off : BitVec 20} {Q : Dev → Prop}
    (hs : s.Awake) (hQ : Q (s.dev.readAccess off.toNat).settle) : Answers (.clearingRead off) s Q :=
  .of_awake (f := fun d => d.readAccess off.toNat) hs rfl hQ

/-- An access to an offset that no map names is a plain write or read of it (R424). -/
theorem answers_reservedAccess {s : State} {off : BitVec 20} {write : Bool} {Q : Dev → Prop} (hs : s.Awake)
    (hr : regSpec off.toNat = none)
    (hQ : Q (if write then s.dev.writeAccess off.toNat true 0 else s.dev.readAccess off.toNat).settle) :
    Answers (.reservedAccess off write) s Q :=
  .of_awake (f := fun d => if (regSpec off.toNat).isSome then d
    else if write then d.writeAccess off.toNat true 0 else d.readAccess off.toNat) hs rfl (by simpa [hr] using hQ)

/-! The end of a command. -/

theorem Dev.Frame.settle {d e : Dev} {p : List Part} {r : List Nat} (h : d.Frame e p r) : d.Frame e.settle p r :=
  h.trans (e.frame_settle p r)

theorem Dev.mem_out_message {d : Dev} {x : Out} (v : Nat) (h : x ∈ d.out) : x ∈ (d.message v).out := by
  unfold Dev.message
  split
  · exact h
  · exact List.mem_cons_of_mem _ h

/-- What holds of a device, and is kept by a message of a vector and by the end of owing one, holds after the messages
that a command owes. -/
theorem Dev.flushIrq_keeps {P : Dev → Prop} (d : Dev)
    (hm : ∀ (d : Dev) (v : Nat), P d → P (d.message v))
    (h64 : ∀ d : Dev, P d → P { d with hr := { d.hr with irq64 := false } })
    (h65 : ∀ d : Dev, P d → P { d with hr := { d.hr with irq65 := false } }) (h : P d) : P d.flushIrq := by
  unfold Dev.flushIrq
  dsimp only
  split <;> split
  · exact hm _ _ (h65 _ (hm _ _ (h64 _ h)))
  · exact hm _ _ (h64 _ h)
  · exact hm _ _ (h65 _ h)
  · exact h

/-- What has left the device stays noted. -/
theorem Dev.mem_out_settle {d : Dev} {x : Out} (h : x ∈ d.out) : x ∈ d.settle.out :=
  d.flushIrq_keeps (P := fun e => x ∈ e.out) (fun _ v => Dev.mem_out_message v) (fun _ h => h) (fun _ h => h) h

@[simp] theorem Dev.msixWord_message (d : Dev) (v a : Nat) : (d.message v).msixWord a = d.msixWord a := by
  unfold Dev.message
  split <;> rfl

@[simp] theorem Dev.msixWord_flushIrq (d : Dev) (a : Nat) : d.flushIrq.msixWord a = d.msixWord a :=
  d.flushIrq_keeps (P := fun e => e.msixWord a = d.msixWord a) (fun _ _ h => (Dev.msixWord_message ..).trans h)
    (fun _ h => h) (fun _ h => h) rfl

@[simp] theorem Dev.msixWord_settle (d : Dev) (a : Nat) : d.settle.msixWord a = d.msixWord a :=
  (sGet_sNorm msixReset d.flushIrq.hr.msix a).trans (d.msixWord_flushIrq a)

/-! The pending bits. -/

/-- Vector v would be sent at once, and no message of it is held (R306). -/
structure Dev.NothingHeld (d : Dev) (v : Nat) : Prop where
  unmasked : (d.msixWord (16 * v + 12)).toNat % 2 = 0
  linkUp   : d.hr.linkUp = true
  clear    : d.hr.pba.contains v = false

/-- A message held is one of a masked vector, or of any vector while the link is down; so none of `v` is held. -/
theorem Dev.NothingHeld.message {d : Dev} {v : Nat} (h : d.NothingHeld v) (u : Nat) : (d.message u).NothingHeld v := by
  refine ⟨by simpa using h.unmasked, ?_, ?_⟩
  · exact (congrArg Hr.linkUp (d.message_hr u)).trans h.linkUp
  · unfold Dev.message
    split
    · next hheld =>
      have hne : v ≠ u := by
        rintro rfl
        simp [h.unmasked, h.linkUp] at hheld
      dsimp only
      split
      · exact h.clear
      · simpa [hne] using h.clear
    · exact h.clear

/-- A message of the vector itself leaves the device. -/
theorem Dev.NothingHeld.message_eq {d : Dev} {v : Nat} (h : d.NothingHeld v) :
    d.message v = d.emit (.msix v ((d.msixWord (16 * v)).toNat + 2 ^ 32 * (d.msixWord (16 * v + 4)).toNat)
      (d.msixWord (16 * v + 8)).toNat) := if_neg (by simp [h.unmasked, h.linkUp])

theorem Dev.NothingHeld.settle {d : Dev} {v : Nat} (h : d.NothingHeld v) : d.settle.hr.pba.contains v = false :=
  (d.flushIrq_keeps (P := fun e => e.NothingHeld v) (fun _ u h => h.message u)
    (fun _ h => ⟨h.unmasked, h.linkUp, h.clear⟩) (fun _ h => ⟨h.unmasked, h.linkUp, h.clear⟩) h).clear

/-! A write of the MSI-X table (R287). -/

/-- The MSI-X table with a word at a BAR2 offset. -/
def Dev.putMsix (d : Dev) (a : Nat) (x : Word) : Dev :=
  { d with hr := { d.hr with msix := sPut (msixReset a) d.hr.msix a x } }

/-- The pending bit of a vector cleared. -/
def Dev.clearPending (d : Dev) (v : Nat) : Dev := { d with hr := { d.hr with pba := d.hr.pba.filter (· != v) } }

/-- The message that an unmasked vector held is sent (R306). -/
def Dev.sendHeld (d : Dev) (v : Nat) : Dev :=
  if (d.msixWord (16 * v + 12)).toNat % 2 = 0 ∧ d.hr.pba.contains v ∧ d.hr.linkUp then (d.clearPending v).message v
  else d

theorem Dev.msixWord_putMsix_same (d : Dev) (a : Nat) (x : Word) : (d.putMsix a x).msixWord a = x :=
  sGet_sPut_same _ _ _ _

theorem Dev.msixWord_putMsix_ne (d : Dev) {a b : Nat} (x : Word) (h : b ≠ a) :
    (d.putMsix a x).msixWord b = d.msixWord b := sGet_sPut_ne _ _ _ _ h

theorem Dev.msixWord_sendHeld (d : Dev) (v a : Nat) : (d.sendHeld v).msixWord a = d.msixWord a := by
  unfold Dev.sendHeld
  split
  · exact Dev.msixWord_message ..
  · rfl

/-- The MSI-X table and the pending bits are in no frame. -/
theorem Dev.frame_hr_sans {d : Dev} {h : Hr} (p : List Part) (r : List Nat) (hh : h.sans = d.hr.sans) :
    d.Frame { d with hr := h } p r := by
  refine ⟨fun u _ => ?_, fun _ _ => rfl⟩
  cases u <;> simp [Dev.SamePart, hh]

theorem Dev.frame_putMsix (d : Dev) (a : Nat) (x : Word) (p : List Part) (r : List Nat) :
    d.Frame (d.putMsix a x) p r := Dev.frame_hr_sans p r rfl

theorem Dev.frame_message (d : Dev) (v : Nat) (p : List Part) (r : List Nat) : d.Frame (d.message v) p r := by
  unfold Dev.message
  split
  · exact Dev.frame_hr_sans p r rfl
  · exact d.frame_emit _ p r

theorem Dev.frame_sendHeld (d : Dev) (v : Nat) (p : List Part) (r : List Nat) : d.Frame (d.sendHeld v) p r := by
  unfold Dev.sendHeld
  split
  · exact .trans (Dev.frame_hr_sans p r rfl) (Dev.frame_message _ v p r)
  · exact .refl d p r

/-- An unmasked vector that holds a message, with the link up: the message leaves the device, and nothing is held. -/
theorem Dev.sendHeld_of_held {d : Dev} {v : Nat} (hu : (d.msixWord (16 * v + 12)).toNat % 2 = 0)
    (hl : d.hr.linkUp = true) (hp : d.hr.pba.contains v = true) :
    (d.sendHeld v).NothingHeld v ∧
      .msix v ((d.msixWord (16 * v)).toNat + 2 ^ 32 * (d.msixWord (16 * v + 4)).toNat)
        (d.msixWord (16 * v + 8)).toNat ∈ (d.sendHeld v).out := by
  have hclear : (d.clearPending v).NothingHeld v := ⟨hu, hl, by simp [Dev.clearPending]⟩
  have hsent : d.sendHeld v = (d.clearPending v).message v := if_pos ⟨hu, hp, hl⟩
  refine ⟨hsent ▸ hclear.message v, ?_⟩
  rw [hsent, hclear.message_eq]
  exact List.mem_cons_self

/-- The word that a whole write leaves at a BAR2 offset of the table: of the vector control word the mask bit only, of
the low address the multiple of 4. -/
def msixStored (o : Nat) (w : Word) : Word :=
  if o % 16 = 12 then w &&& 1 else if o % 16 = 0 then w &&& ~~~3#32 else w

/-- A whole write of a word of the table: the word, and the message that its vector held. -/
theorem Dev.msixWrite_whole (d : Dev) {o : Nat} (w : Word) (h4 : o % 4 = 0) (h : o < 66 * 16) :
    d.msixWrite o 15 w = (d.putMsix o (msixStored o w)).sendHeld (o / 16) := by
  have ha : o / 4 * 4 = o := by omega
  have hmask : (List.range 4).foldl (fun m i => if (15#4).getLsbD i then m ||| (0xFF#32 <<< (8 * i)) else m) 0#32 =
      BitVec.allOnes 32 := by decide
  have hall (old : Word) : (w &&& BitVec.allOnes 32) ||| (old &&& ~~~BitVec.allOnes 32) = w := by
    rw [BitVec.not_allOnes, BitVec.and_zero, BitVec.or_zero, BitVec.and_allOnes]
  unfold Dev.msixWrite
  simp only [ha, if_neg (show ¬ 66 * 16 ≤ o by omega)]
  rw [show (15 : BitVec 4) = 15#4 from rfl, show (0 : Word) = 0#32 from rfl, hmask, hall]
  rfl

/-! The record of an access (R422, R424, R430, R436). -/

/-- The access of this kind to this offset is recorded: GL_ACCESS_ERR and its alarm. -/
def Dev.AccessRecorded (d : Dev) (o kind : Nat) (e : Dev) : Prop :=
  e.fld R.GL_ACCESS_ERR F.GL_ACCESS_ERR_kind = kind ∧ e.fld R.GL_ACCESS_ERR F.GL_ACCESS_ERR_offset = o ∧
    e.fld R.GL_ACCESS_ERR F.GL_ACCESS_ERR_count = min (d.fld R.GL_ACCESS_ERR F.GL_ACCESS_ERR_count + 1) 255 ∧
    e.flag R.GL_ALARM F.GL_ALARM_access_err = true

theorem Dev.reg_raise_ne (d : Dev) {o o' : Nat} (f : Field) (h : o' ≠ o) : (d.raise o f).reg o' = d.reg o' := by
  rw [d.reg_raise, if_neg fun x => h x.1]

theorem Dev.fld_raise_ne (d : Dev) {o o' : Nat} (f g : Field) (h : o' ≠ o) : (d.raise o f).fld o' g = d.fld o' g := by
  simp [Dev.fld, d.reg_raise_ne f h]

theorem Dev.flag_raise_same (d : Dev) (o : Nat) (f : Field) (hf : f.ok) : (d.raise o f).flag o f = true := by
  cases h : d.flag o f
  · have hw : f.hi + 1 - f.lo ≠ 0 := by have := hf.1; omega
    have hreg : (d.raise o f).reg o = putField (d.reg o) f 1 := by rw [d.reg_raise, if_pos ⟨rfl, h⟩]
    simp [Dev.flag, Dev.fld, hreg, getField_putField_same _ _ _ hf, hw]
  · simp [Dev.raise, h]

theorem Dev.flag_raise_apart (d : Dev) (o : Nat) (f g : Field) (hf : f.ok) (hg : g.ok) (h : f.apart g) :
    (d.raise o f).flag o g = d.flag o g := by
  simp only [Dev.flag, Dev.fld, d.reg_raise]
  split
  · rw [getField_putField_apart _ _ _ _ hf hg h]
  · rfl

theorem GL_ACCESS_ERR_count_ok : F.GL_ACCESS_ERR_count.ok := ⟨by decide, by decide⟩
theorem GL_ACCESS_ERR_kind_ok : F.GL_ACCESS_ERR_kind.ok := ⟨by decide, by decide⟩
theorem GL_ACCESS_ERR_offset_ok : F.GL_ACCESS_ERR_offset.ok := ⟨by decide, by decide⟩
theorem GL_ALARM_access_err_ok : F.GL_ALARM_access_err.ok := ⟨by decide, by decide⟩
theorem GL_ALARM_stage_reject_ok : F.GL_ALARM_stage_reject.ok := ⟨by decide, by decide⟩

theorem Dev.accessErr_recorded (d : Dev) {o kind : Nat} (ho : o < 2 ^ 20) (hk : kind < 16) :
    d.AccessRecorded o kind (d.accessErr o kind) := by
  have hne : R.GL_ACCESS_ERR ≠ R.GL_ALARM := by decide
  have hkind_offset : F.GL_ACCESS_ERR_offset.apart F.GL_ACCESS_ERR_kind := .inl (by decide)
  have hcount_kind : F.GL_ACCESS_ERR_kind.apart F.GL_ACCESS_ERR_count := .inl (by decide)
  have hcount_offset : F.GL_ACCESS_ERR_offset.apart F.GL_ACCESS_ERR_count := .inl (by decide)
  refine ⟨?_, ?_, ?_, ?_⟩ <;> unfold Dev.accessErr
  · rw [Dev.fld_raise_ne _ _ _ hne,
      Dev.fld_setFld_apart _ _ _ _ _ GL_ACCESS_ERR_offset_ok GL_ACCESS_ERR_kind_ok hkind_offset,
      Dev.fld_setFld_same _ _ _ _ GL_ACCESS_ERR_kind_ok]
    exact Nat.mod_eq_of_lt hk
  · rw [Dev.fld_raise_ne _ _ _ hne, Dev.fld_setFld_same _ _ _ _ GL_ACCESS_ERR_offset_ok]
    exact Nat.mod_eq_of_lt ho
  · rw [Dev.fld_raise_ne _ _ _ hne,
      Dev.fld_setFld_apart _ _ _ _ _ GL_ACCESS_ERR_offset_ok GL_ACCESS_ERR_count_ok hcount_offset,
      Dev.fld_setFld_apart _ _ _ _ _ GL_ACCESS_ERR_kind_ok GL_ACCESS_ERR_count_ok hcount_kind,
      Dev.addSat, Dev.fld_setFld_same _ _ _ _ GL_ACCESS_ERR_count_ok]
    exact Nat.mod_eq_of_lt (Nat.lt_succ_of_le (Nat.min_le_right _ 255))
  · exact Dev.flag_raise_same _ _ _ GL_ALARM_access_err_ok

theorem Dev.frame_accessErr (d : Dev) (o kind : Nat) (p : List Part) {r : List Nat} (h : R.GL_ACCESS_ERR ∈ r)
    (h' : R.GL_ALARM ∈ r) : d.Frame (d.accessErr o kind) p r :=
  (((d.frame_addSat _ _ p h).trans (Dev.frame_setFld _ _ _ p h)).trans (Dev.frame_setFld _ _ _ p h)).trans
    (Dev.frame_raise _ _ p h')

theorem Dev.AccessRecorded.settle {d e : Dev} {o kind : Nat} (h : d.AccessRecorded o kind e) :
    d.AccessRecorded o kind e.settle := by
  simpa [Dev.AccessRecorded] using h

/-- A stage reject is another alarm of GL_ALARM. -/
theorem Dev.AccessRecorded.stageReject {d e : Dev} {o kind : Nat} (h : d.AccessRecorded o kind e) :
    d.AccessRecorded o kind e.stageReject := by
  have hne : R.GL_ACCESS_ERR ≠ R.GL_ALARM := by decide
  have hapart : F.GL_ALARM_stage_reject.apart F.GL_ALARM_access_err := .inr (by decide)
  obtain ⟨hkind, hoffset, hcount, halarm⟩ := h
  unfold Dev.stageReject
  exact ⟨(Dev.fld_raise_ne _ _ _ hne).trans hkind, (Dev.fld_raise_ne _ _ _ hne).trans hoffset,
    (Dev.fld_raise_ne _ _ _ hne).trans hcount,
    (Dev.flag_raise_apart _ _ _ _ GL_ALARM_stage_reject_ok GL_ALARM_access_err_ok hapart).trans halarm⟩

/-- The record goes by the count before the access. -/
theorem Dev.AccessRecorded.of_reg_eq {d d' e : Dev} {o kind : Nat} (h : d'.AccessRecorded o kind e)
    (hreg : d'.reg R.GL_ACCESS_ERR = d.reg R.GL_ACCESS_ERR) : d.AccessRecorded o kind e := by
  simpa [Dev.AccessRecorded, Dev.fld, hreg] using h

/-- An access that is recorded and does nothing else. -/
theorem Dev.accessErr_settle (d : Dev) {o kind : Nat} (ho : o < 2 ^ 20) (hk : kind < 16) :
    d.AccessRecorded o kind (d.accessErr o kind).settle ∧
      d.Frame (d.accessErr o kind).settle [] [R.GL_ACCESS_ERR, R.GL_ALARM] :=
  ⟨(d.accessErr_recorded ho hk).settle, (d.frame_accessErr o kind [] (by simp) (by simp)).settle⟩

/-! A write of a BAR0 offset (R422–R424, R430). -/

theorem Dev.writeAccess_reserved (d : Dev) {o : Nat} (full : Bool) (w : Word) (h : regSpec o = none) :
    d.writeAccess o full w = d.accessErr o 2 := by
  simp [Dev.writeAccess, h]

theorem Dev.writeAccess_partial (d : Dev) {o : Nat} {r : RegSpec} (w : Word) (h : regSpec o = some r) :
    d.writeAccess o false w = d.accessErr o 3 := by
  simp [Dev.writeAccess, h]

theorem Dev.writeAccess_safe (d : Dev) {o : Nat} {r : RegSpec} (w : Word) (h : regSpec o = some r)
    (hs : d.stage = .safe) (h1 : o ≠ R.GL_SCRATCH) (h2 : o ≠ R.ER_CURSOR) (h3 : o ≠ R.ER_ADVANCE) :
    d.writeAccess o true w = d.writeSafe r o w := by
  simp [Dev.writeAccess, h, hs, h1, h2, h3]

/-- The word of a register after a write in SAFE: its W1C fields act, in their order. -/
def RegSpec.storedSafe (r : RegSpec) (written held : Word) : Word :=
  (r.fields.filter fun f => f.acc = .w1c).foldl (fun x f => f.store written x) held

theorem RegSpec.foldl_storeSafe (r : RegSpec) (w x : Word) :
    r.fields.foldl (fun x f => f.storeSafe w x) x = r.storedSafe w x := by
  simp [RegSpec.storedSafe, FieldSpec.storeSafe, List.foldl_filter]

theorem Dev.writeSafe_of_none_refused (d : Dev) {r : RegSpec} {o : Nat} {w : Word}
    (h : ∀ f ∈ r.fields, f.refusedSafe w (d.reg o) = false) :
    d.writeSafe r o w = d.setReg o (r.storedSafe w (d.reg o)) := by
  have hany : ¬ (r.fields.any fun f => f.refusedSafe w (d.reg o)) = true := by simpa using h
  rw [Dev.writeSafe, if_neg hany, r.foldl_storeSafe]

theorem Dev.writeSafe_of_refused (d : Dev) {r : RegSpec} {o : Nat} {w : Word}
    (h : ∃ f ∈ r.fields, f.refusedSafe w (d.reg o) = true) :
    d.writeSafe r o w = ((d.setReg o (r.storedSafe w (d.reg o))).accessErr o 4).stageReject := by
  have hany : (r.fields.any fun f => f.refusedSafe w (d.reg o)) = true := by simpa using h
  rw [Dev.writeSafe, if_pos hany, r.foldl_storeSafe]

/-- GL_ACCESS_ERR has neither RW nor WO fields: no write of it is refused. -/
theorem GL_ACCESS_ERR_not_refused {r : RegSpec} (h : regSpec R.GL_ACCESS_ERR = some r) (w x : Word) :
    ∀ f ∈ r.fields, f.refusedSafe w x = false := by
  have hacc : ∀ r ∈ regSpec R.GL_ACCESS_ERR, ∀ f ∈ r.fields, f.acc ≠ .rw ∧ f.acc ≠ .wo := by decide
  intro f hf
  obtain ⟨hrw, hwo⟩ := hacc r h f hf
  simp [FieldSpec.refusedSafe, hrw, hwo]

/-- A write in SAFE that is recorded: the access, the alarm of the stage, and nothing but the W1C fields. -/
theorem Dev.writeSafe_refused (d : Dev) {r : RegSpec} {o : Nat} {w : Word} (ho : o < 2 ^ 20) (hr : regSpec o = some r)
    (h : ∃ f ∈ r.fields, f.refusedSafe w (d.reg o) = true) :
    d.AccessRecorded o 4 (d.writeSafe r o w) ∧
      (d.writeSafe r o w).flag R.GL_ALARM F.GL_ALARM_stage_reject = true ∧
      d.Frame (d.writeSafe r o w) [] [o, R.GL_ACCESS_ERR, R.GL_ALARM] := by
  have hne : R.GL_ACCESS_ERR ≠ o := by
    rintro rfl
    obtain ⟨f, hf, href⟩ := h
    simp [GL_ACCESS_ERR_not_refused hr w _ f hf] at href
  rw [d.writeSafe_of_refused h]
  refine ⟨?_, Dev.flag_raise_same _ _ _ GL_ALARM_stage_reject_ok, ?_⟩
  · exact ((Dev.accessErr_recorded _ ho (by decide)).of_reg_eq (d.reg_setReg_ne _ hne)).stageReject
  · exact ((d.frame_setReg _ [] (by simp)).trans (Dev.frame_accessErr _ _ _ [] (by simp) (by simp))).trans
      (Dev.frame_raise _ _ [] (by simp))

/-! A field that is the whole register. -/

theorem putField_whole (x : Word) (v : Nat) : putField x ⟨31, 0⟩ v = BitVec.ofNat 32 v := by
  apply BitVec.eq_of_toNat_eq
  rw [putField_toNat x _ v ⟨by decide, by decide⟩, BitVec.toNat_ofNat]
  have := x.isLt
  dsimp only
  omega

theorem getField_whole (w : Word) : getField w ⟨31, 0⟩ = w.toNat := by
  have := w.isLt
  simp only [getField, Nat.shiftRight_zero]
  omega

/-- GL_SCRATCH takes every whole write, in SAFE too. -/
theorem Dev.writeAccess_GL_SCRATCH (d : Dev) (w : Word) :
    d.writeAccess R.GL_SCRATCH true w = d.setReg R.GL_SCRATCH w := by
  have hspec : regSpec R.GL_SCRATCH = some ⟨R.GL_SCRATCH, 1, 0, 1, 0, 0, [⟨⟨31, 0⟩, .rw, .any⟩]⟩ := by decide
  have hstored : d.fieldsStored R.GL_SCRATCH w = w := by
    simp [Dev.fieldsStored, hspec, FieldSpec.store, WRule.store, putField_whole, getField_whole]
  have hwrite : d.writeReg R.GL_SCRATCH w = d.store R.GL_SCRATCH w := rfl
  simp [Dev.writeAccess, hspec, hwrite, Dev.store, hstored]

/-! A read that clears (R8). -/

/-- The word of a register after a read: its RC fields are 0. -/
def RegSpec.clearedFields (r : RegSpec) (held : Word) : Word :=
  (r.fields.filter fun f => f.acc = .rc).foldl (fun x f => putField x f.fld 0) held

theorem RegSpec.cleared_eq (r : RegSpec) (x : Word) : r.cleared x = r.clearedFields x := by
  simp [RegSpec.cleared, RegSpec.clearedFields, List.foldl_filter]

/-- A read of an offset that no map names (R424). -/
theorem Dev.readAccess_reserved (d : Dev) {o : Nat} (h : regSpec o = none) :
    d.readAccess o = (d.emit (.readData .bar0 o 0)).accessErr o 1 := by
  simp [Dev.readAccess, h]

/-- No register of the link block clears on a read. -/
theorem not_clearsOnRead_of_link {o : Nat} (h : o / 0x10000 = 4) : clearsOnRead o = false := by
  have hspecs : ∀ r ∈ specsLK, ∀ f ∈ r.fields, f.acc ≠ .rc := by decide
  unfold clearsOnRead
  split
  · next r hr =>
    have hmem : r ∈ specsLK := by
      rw [regSpec, h] at hr
      exact List.mem_of_find?_eq_some hr
    simpa using hspecs r hmem
  · rfl

/-- No first register of an address range clears on a read. -/
theorem not_clearsOnRead_of_portRange : ∀ n < 64, clearsOnRead (R.GL_PORT_RANGE n) = false := by decide

/-- A member of a family lies a whole number of strides above the first. -/
theorem eq_of_inst_isSome {base stride n o : Nat} (h : (inst base stride n o).isSome = true) :
    ∃ i < n, o = base + stride * i := by
  unfold inst at h
  split at h
  · next hi =>
    obtain ⟨hle, hmod, hlt⟩ := hi
    refine ⟨_, hlt, ?_⟩
    have := Nat.mul_div_cancel' (Nat.dvd_of_mod_eq_zero hmod)
    omega
  · simp at h

/-- A read that clears latches nothing: the groups of R425 hold no RC field. -/
theorem Dev.latchGroup_of_clearsOnRead (d : Dev) {o : Nat} (h : clearsOnRead o = true) : d.latchGroup o = d := by
  have hnow : o ≠ R.TC_NOW_LO := by rintro rfl; exact absurd h (by decide)
  have hpps : o ≠ R.TC_PPS_STAMP_LO := by rintro rfl; exact absurd h (by decide)
  have hrange : ¬ (inst (R.GL_PORT_RANGE 0) 8 64 o).isSome = true := by
    intro hi
    obtain ⟨n, hn, rfl⟩ := eq_of_inst_isSome hi
    exact absurd h (by simpa [R.GL_PORT_RANGE] using not_clearsOnRead_of_portRange n hn)
  have hlink : ¬ (R.LK_PORT_CTRL 0 ≤ o ∧ o < R.LK_PORT_CTRL 64 ∧ 0x100 ≤ o % 0x400 ∧ o % 0x400 < 0x200 ∧
      o % 0x20 = 0) := by
    rintro ⟨hle, hlt, -⟩
    have : o / 0x10000 = 4 := by simp only [R.LK_PORT_CTRL] at hle hlt; omega
    exact absurd h (by simp [not_clearsOnRead_of_link this])
  rw [Dev.latchGroup, if_neg hnow, if_neg hpps, if_neg hrange, if_neg hlink]

/-- A read of a register with RC fields: what it reads leaves the device, and these fields are 0 after. -/
theorem Dev.readAccess_clearing (d : Dev) {o : Nat} {r : RegSpec} (hr : regSpec o = some r)
    (h : ∃ f ∈ r.fields, f.acc = .rc) :
    d.readAccess o = (d.emit (.readData .bar0 o (d.view o))).setReg o (r.clearedFields (d.reg o)) := by
  have hc : clearsOnRead o = true := by simpa [clearsOnRead, hr] using h
  simp only [Dev.readAccess, hr, Dev.latchGroup_of_clearsOnRead _ hc, r.cleared_eq]

theorem Dev.readAccess_clearing_settle (d : Dev) {o : Nat} {r : RegSpec} (hr : regSpec o = some r)
    (h : ∃ f ∈ r.fields, f.acc = .rc) :
    .readData .bar0 o (d.view o) ∈ (d.readAccess o).settle.out ∧ d.Frame (d.readAccess o).settle [] [o] ∧
      (d.readAccess o).settle.reg o = r.clearedFields (d.reg o) := by
  rw [d.readAccess_clearing hr h]
  refine ⟨Dev.mem_out_settle List.mem_cons_self, ?_, by simp⟩
  exact ((d.frame_emit _ [] [o]).trans (Dev.frame_setReg _ _ [] (by simp))).settle

/-- PS_LOST is one RC field, and a read returns the word held. -/
theorem Dev.view_PS_LOST (d : Dev) : d.view R.PS_LOST = d.reg R.PS_LOST := by
  have hwidth : d.beyondWidth R.PS_LOST = false := by simp [Dev.beyondWidth, R.PS_LOST, R.LK_PORT_CTRL]
  have hlatched : isLatched R.PS_LOST = false := by decide
  have hlive : d.live R.PS_LOST = d.reg R.PS_LOST := rfl
  simp [Dev.view, hwidth, hlatched, hlive]

/-! The clauses of the statement. -/

/-- Accesses to an offset that no map names (R424). -/
theorem reserved_accesses {s : State} (off : BitVec 20) (be : BitVec 4) (w : Word) (hs : s.Awake)
    (hr : regSpec off.toNat = none) :
    Answers (.registerWrite .bar0 off be w) s (fun e => s.dev.AccessRecorded off.toNat 2 e ∧
      s.dev.Frame e [] [R.GL_ACCESS_ERR, R.GL_ALARM]) ∧
    Answers (.reservedAccess off true) s (fun e => s.dev.AccessRecorded off.toNat 2 e ∧
      s.dev.Frame e [] [R.GL_ACCESS_ERR, R.GL_ALARM]) ∧
    Answers (.reservedAccess off false) s (fun e => s.dev.AccessRecorded off.toNat 1 e ∧
      .readData .bar0 off.toNat 0 ∈ e.out ∧ s.dev.Frame e [] [R.GL_ACCESS_ERR, R.GL_ALARM]) := by
  have ho : off.toNat < 2 ^ 20 := off.isLt
  refine ⟨answers_registerWrite_bar0 hs ?_, answers_reservedAccess hs hr ?_, answers_reservedAccess hs hr ?_⟩
  · rw [s.dev.writeAccess_reserved _ w hr]
    exact s.dev.accessErr_settle ho (by decide)
  · rw [if_pos rfl, s.dev.writeAccess_reserved _ 0 hr]
    exact s.dev.accessErr_settle ho (by decide)
  · rw [if_neg Bool.false_ne_true, s.dev.readAccess_reserved hr]
    have hrec := (s.dev.emit (.readData .bar0 off.toNat 0)).accessErr_settle (kind := 1) ho (by decide)
    refine ⟨hrec.1.of_reg_eq rfl, Dev.mem_out_settle ?_, (s.dev.frame_emit _ [] _).trans hrec.2⟩
    simp [Dev.accessErr, Dev.addSat, Dev.emit]

/-- Whole writes in SAFE that are neither of GL_SCRATCH nor of the log's cursor (R430). -/
theorem safe_writes {s : State} {off : BitVec 20} {w : Word} {r : RegSpec} (hs : s.Awake)
    (hr : regSpec off.toNat = some r) (hsafe : s.dev.stage = .safe) (h1 : off.toNat ≠ R.GL_SCRATCH)
    (h2 : off.toNat ≠ R.ER_CURSOR) (h3 : off.toNat ≠ R.ER_ADVANCE) :
    ((∀ f ∈ r.fields, f.refusedSafe w (s.dev.reg off.toNat) = false) →
      Answers (.registerWrite .bar0 off 15 w) s (fun e => s.dev.Frame e [] [off.toNat] ∧
        e.reg off.toNat = r.storedSafe w (s.dev.reg off.toNat))) ∧
    ((∃ f ∈ r.fields, f.refusedSafe w (s.dev.reg off.toNat) = true) →
      Answers (.registerWrite .bar0 off 15 w) s (fun e => s.dev.AccessRecorded off.toNat 4 e ∧
        e.flag R.GL_ALARM F.GL_ALARM_stage_reject = true ∧
        s.dev.Frame e [] [off.toNat, R.GL_ACCESS_ERR, R.GL_ALARM])) := by
  have hwrite : s.dev.writeAccess off.toNat (15 == (15 : BitVec 4)) w = s.dev.writeSafe r off.toNat w :=
    s.dev.writeAccess_safe w hr hsafe h1 h2 h3
  refine ⟨fun h => answers_registerWrite_bar0 hs ?_, fun h => answers_registerWrite_bar0 hs ?_⟩
  · rw [hwrite, s.dev.writeSafe_of_none_refused h]
    exact ⟨(s.dev.frame_setReg _ [] (by simp)).settle, by simp⟩
  · rw [hwrite]
    obtain ⟨hrec, hreject, hframe⟩ := s.dev.writeSafe_refused off.isLt hr h
    exact ⟨hrec.settle, (Dev.flag_settle ..).trans hreject, hframe.settle⟩

/-- A read of PS_LOST returns the count and clears it. -/
theorem ps_lost_read {s : State} {off : BitVec 20} (hs : s.Awake) (ho : off.toNat = R.PS_LOST) :
    Answers (.clearingRead off) s (fun e => s.dev.Frame e [] [R.PS_LOST] ∧ e.reg R.PS_LOST = 0 ∧
      .readData .bar0 off.toNat (s.dev.reg R.PS_LOST) ∈ e.out) := by
  have hspec : regSpec R.PS_LOST = some ⟨R.PS_LOST, 1, 0, 1, 0, 0, [⟨⟨31, 0⟩, .rc, .any⟩]⟩ := by decide
  refine answers_clearingRead hs ?_
  rw [ho]
  obtain ⟨hout, hframe, hreg⟩ := s.dev.readAccess_clearing_settle hspec (by simp)
  refine ⟨hframe, hreg.trans ?_, s.dev.view_PS_LOST ▸ hout⟩
  simp [RegSpec.clearedFields, putField_whole]

/-- A whole write of a data word of the MSI-X table changes this word. -/
theorem msix_data_write {s : State} {off : BitVec 20} {w : Word} (hs : s.Awake) (h8 : off.toNat % 16 = 8)
    (hlt : off.toNat < 66 * 16) :
    Answers (.registerWrite .bar2 off 15 w) s (fun e => e.msixWord off.toNat = w ∧
      (∀ a, a ≠ off.toNat → e.msixWord a = s.dev.msixWord a) ∧ s.dev.Frame e [] []) := by
  have hstored : msixStored off.toNat w = w := by simp [msixStored, h8]
  refine answers_registerWrite_bar2 hs ?_
  rw [s.dev.msixWrite_whole w (by omega) hlt, hstored]
  refine ⟨?_, fun a ha => ?_, ?_⟩
  · rw [Dev.msixWord_settle, Dev.msixWord_sendHeld, Dev.msixWord_putMsix_same]
  · rw [Dev.msixWord_settle, Dev.msixWord_sendHeld, Dev.msixWord_putMsix_ne _ _ ha]
  · exact ((s.dev.frame_putMsix _ _ [] []).trans (Dev.frame_sendHeld _ _ [] [])).settle

/-- A whole write that unmasks a vector sends the message that it held. -/
theorem msix_unmask_write {s : State} {off : BitVec 20} {w : Word} (hs : s.Awake) (h12 : off.toNat % 16 = 12)
    (hlt : off.toNat < 66 * 16) (hl : s.dev.hr.linkUp = true) (hp : s.dev.hr.pba.contains (off.toNat / 16) = true)
    (hw : w.toNat % 2 = 0) :
    Answers (.registerWrite .bar2 off 15 w) s (fun e => s.dev.Frame e [] [] ∧
      e.hr.pba.contains (off.toNat / 16) = false ∧
      .msix (off.toNat / 16) ((s.dev.msixWord (off.toNat - 12)).toNat +
        2 ^ 32 * (s.dev.msixWord (off.toNat - 8)).toNat) (s.dev.msixWord (off.toNat - 4)).toNat ∈ e.out) := by
  refine answers_registerWrite_bar2 hs ?_
  rw [s.dev.msixWrite_whole w (by omega) hlt]
  generalize off.toNat = o at *
  obtain ⟨v, rfl⟩ : ∃ v, o = 16 * v + 12 := ⟨o / 16, by omega⟩
  have hv : (16 * v + 12) / 16 = v := by omega
  rw [hv] at hp ⊢
  have hu : ((s.dev.putMsix (16 * v + 12) (msixStored (16 * v + 12) w)).msixWord (16 * v + 12)).toNat % 2 = 0 := by
    rw [Dev.msixWord_putMsix_same, msixStored, if_pos h12, BitVec.toNat_and]
    simpa [Nat.and_one_is_mod] using hw
  obtain ⟨hheld, hout⟩ := Dev.sendHeld_of_held hu hl hp
  refine ⟨?_, hheld.settle, Dev.mem_out_settle ?_⟩
  · exact ((s.dev.frame_putMsix _ _ [] []).trans (Dev.frame_sendHeld _ _ [] [])).settle
  · rwa [Dev.msixWord_putMsix_ne _ _ (by omega), Dev.msixWord_putMsix_ne _ _ (by omega),
      Dev.msixWord_putMsix_ne _ _ (by omega)] at hout

/-- Settles O53, clause by clause: each access is a plain action on the device, which the end of the command keeps. -/
theorem registerAccess : Obligations.RegisterAccess := by
  intro s off be w r hs o recorded
  refine ⟨reserved_accesses off be w hs, fun hr => ⟨fun hbe => ?_, safe_writes hs hr, fun hrc => ?_⟩, fun ho => ?_,
    ps_lost_read hs, msix_data_write hs, msix_unmask_write hs⟩
  · refine answers_registerWrite_bar0 hs ?_
    rw [beq_false_of_ne hbe, s.dev.writeAccess_partial w hr]
    exact s.dev.accessErr_settle off.isLt (by decide)
  · exact answers_clearingRead hs (s.dev.readAccess_clearing_settle hr hrc)
  · refine answers_registerWrite_bar0 hs ?_
    rw [show off.toNat = R.GL_SCRATCH from ho, beq_self_eq_true, s.dev.writeAccess_GL_SCRATCH]
    exact ⟨by simp, (s.dev.frame_setReg _ [] (by simp)).settle⟩

end Sys2Proof.Machine
end

section
/-! SUPPORT of the clock tree's statements (O1, O2, O3, O4, O52). How a command that acts out of OFF and SAFE answers; what a
frame keeps; what the end of a command keeps of the clock tree; how fields of one register read after writes of others;
and which registers of the clock block validity touches: none. -/

namespace Sys2Proof.Machine

/-! How a command answers. -/

/-- A command that acts in every stage but OFF and SAFE answers what its action makes, settled. -/
theorem Answers.of_running {c : Instr} {s : State} {f : Dev → Dev} {Q : Dev → Prop} (hs : s.Up)
    (hc : exec c s = running s f) (hQ : Q (f s.dev).settle) : Answers c s Q :=
  ⟨_, hc.trans (running_next hs.1.1 hs.1.2 hs.2), rfl, hQ⟩

/-! What a frame keeps. -/

section
variable {d e : Dev} {p : List Part} {r : List Nat} {o : Nat}

theorem Dev.Frame.reg_eq (h : d.Frame e p r) (ho : o ∉ r) : e.reg o = d.reg o := h.2 o ho

theorem Dev.Frame.fld_eq (h : d.Frame e p r) (ho : o ∉ r) (f : Field) : e.fld o f = d.fld o f := by
  rw [Dev.fld, Dev.fld, h.reg_eq ho]

theorem Dev.Frame.flag_eq (h : d.Frame e p r) (ho : o ∉ r) (f : Field) : e.flag o f = d.flag o f := by
  rw [Dev.flag, Dev.flag, h.fld_eq ho]

theorem Dev.Frame.sfld_eq (h : d.Frame e p r) (ho : o ∉ r) (f : Field) : e.sfld o f = d.sfld o f := by
  rw [Dev.sfld, Dev.sfld, h.fld_eq ho]

theorem Dev.Frame.ck_eq (h : d.Frame e p r) (hp : Part.ck ∉ p) : e.ck = d.ck := h.1 .ck hp

theorem Dev.Frame.ca_eq (h : d.Frame e p r) (hp : Part.ca ∉ p) : e.ca = d.ca := h.1 .ca hp

theorem Dev.Frame.load_eq (h : d.Frame e p r) (hp : Part.stage ∉ p) : e.load = d.load := (h.1 .stage hp).2.2.2.2

end

/-! Fields of one register. Each side condition speaks of bit positions and offsets alone. -/

theorem Dev.fld_setFld_low (d : Dev) (o : Nat) (f : Field) (v : Nat)
    (h : f.lo ≤ f.hi ∧ f.hi < 32 ∧ v < 2 ^ (f.hi + 1 - f.lo)) : (d.setFld o f v).fld o f = v := by
  rw [d.fld_setFld_same o f v ⟨h.1, h.2.1⟩, Nat.mod_eq_of_lt h.2.2]

theorem Dev.fld_setFld_clear (d : Dev) (o : Nat) (f g : Field) (v : Nat)
    (h : (f.lo ≤ f.hi ∧ f.hi < 32) ∧ (g.lo ≤ g.hi ∧ g.hi < 32) ∧ (f.hi < g.lo ∨ g.hi < f.lo)) :
    (d.setFld o f v).fld o g = d.fld o g := d.fld_setFld_apart o f g v h.1 h.2.1 h.2.2

theorem Dev.flag_setFlag_same (d : Dev) (o : Nat) (f : Field) (b : Bool) (h : f.lo ≤ f.hi ∧ f.hi < 32) :
    (d.setFlag o f b).flag o f = b := by
  have hw : 1 < 2 ^ (f.hi + 1 - f.lo) := Nat.one_lt_two_pow (by omega)
  rw [Dev.flag, Dev.setFlag, d.fld_setFld_low o f _ ⟨h.1, h.2, by split <;> omega⟩]
  cases b <;> rfl

theorem Dev.flag_setFld_clear (d : Dev) (o : Nat) (f g : Field) (v : Nat)
    (h : (f.lo ≤ f.hi ∧ f.hi < 32) ∧ (g.lo ≤ g.hi ∧ g.hi < 32) ∧ (f.hi < g.lo ∨ g.hi < f.lo)) :
    (d.setFld o f v).flag o g = d.flag o g := by
  rw [Dev.flag, Dev.flag, d.fld_setFld_clear o f g v h]

theorem Dev.flag_setFld_ne (d : Dev) {o o' : Nat} (f g : Field) (v : Nat) (h : o' ≠ o) :
    (d.setFld o f v).flag o' g = d.flag o' g := by
  rw [Dev.flag, Dev.flag, d.fld_setFld_ne f g v h]

theorem Dev.flag_raise_ne (d : Dev) {o o' : Nat} (f g : Field) (h : o' ≠ o) : (d.raise o f).flag o' g = d.flag o' g := by
  rw [Dev.flag, Dev.flag, d.fld_raise_ne f g h]

theorem Dev.fld_lt (d : Dev) (o : Nat) (f : Field) : d.fld o f < 2 ^ (f.hi + 1 - f.lo) :=
  Nat.mod_lt _ (Nat.two_pow_pos _)

/-- A register of 32 bits, read as signed, holds what was put. -/
theorem Dev.sfld_setSigned_whole (d : Dev) (o : Nat) {v : Int} (h : v.natAbs < 2 ^ 31) :
    (d.setSigned o ⟨31, 0⟩ v).sfld o ⟨31, 0⟩ = v := by
  have hput : (d.setSigned o ⟨31, 0⟩ v).fld o ⟨31, 0⟩ = unsigned 32 v % 2 ^ 32 :=
    d.fld_setFld_same o _ _ ⟨by decide, by decide⟩
  rw [Dev.sfld, hput]
  simp only [signed, unsigned]
  norm_num
  split <;> omega

/-! What the end of a command keeps of the clock tree. -/

@[simp] theorem Dev.sfld_settle (d : Dev) (o : Nat) (f : Field) : d.settle.sfld o f = d.sfld o f := by simp [Dev.sfld]
@[simp] theorem Dev.cleaner_settle (d : Dev) : d.settle.cleaner = d.cleaner := by simp [Dev.cleaner]
@[simp] theorem Dev.selRef_settle (d : Dev) : d.settle.selRef = d.selRef := by simp [Dev.selRef]
@[simp] theorem Dev.qual_settle (d : Dev) (n : Nat) : d.settle.qual n = d.qual n := by simp [Dev.qual]
@[simp] theorem Dev.refH_settle (d : Dev) (n : Nat) : d.settle.refH n = d.refH n := by simp [Dev.refH]
@[simp] theorem Dev.rootLocked_settle (d : Dev) : d.settle.rootLocked = d.rootLocked := by simp [Dev.rootLocked]
@[simp] theorem Dev.inFault_settle (d : Dev) : d.settle.inFault = d.inFault := by simp [Dev.inFault]
@[simp] theorem Dev.lossCount_settle (d : Dev) : d.settle.lossCount = d.lossCount := by simp [Dev.lossCount]
@[simp] theorem Dev.ppsOut_settle (d : Dev) (m : Nat) : d.settle.ppsOut m = d.ppsOut m := by simp [Dev.ppsOut]

/-- Where no message is owed, nothing leaves the device at the end of a command. -/
theorem Dev.out_settle (d : Dev) (h64 : d.hr.irq64 = false) (h65 : d.hr.irq65 = false) : d.settle.out = d.out := by
  simp [Dev.settle, Dev.flushIrq, h64, h65]

/-- Some registers, counters and messages of vectors 64 and 65 have new values, and nothing else has. -/
theorem Dev.regsOnly_iff {d e : Dev} : d.RegsOnly e ↔ ∃ regs out msix pba i64 i65 ctrs, e =
    { d with regs := regs, out := out, pc := { d.pc with ctrs := ctrs }
             hr := { d.hr with msix := msix, pba := pba, irq64 := i64, irq65 := i65 } } := by
  constructor
  · exact fun h => ⟨_, _, _, _, _, _, _, h⟩
  · rintro ⟨regs, out, msix, pba, i64, i65, ctrs, rfl⟩
    rfl

theorem Dev.RegsOnly.settle {d e : Dev} (h : d.RegsOnly e) : d.RegsOnly e.settle := by
  have hflush : d.RegsOnly e.flushIrq := by
    refine e.flushIrq_keeps (P := d.RegsOnly) (fun e v h => ?_) (fun e h => ?_) (fun e h => ?_) h <;>
      obtain ⟨regs, out, msix, pba, i64, i65, ctrs, rfl⟩ := Dev.regsOnly_iff.1 h
    · unfold Dev.message
      split <;> exact Dev.regsOnly_iff.2 ⟨_, _, _, _, _, _, _, rfl⟩
    · exact Dev.regsOnly_iff.2 ⟨_, _, _, _, _, _, _, rfl⟩
    · exact Dev.regsOnly_iff.2 ⟨_, _, _, _, _, _, _, rfl⟩
  obtain ⟨regs, out, msix, pba, i64, i65, ctrs, he⟩ := Dev.regsOnly_iff.1 hflush
  rw [Dev.settle, he]
  exact Dev.regsOnly_iff.2 ⟨_, _, _, _, _, _, _, rfl⟩

theorem Dev.regsOnly_setFld (d : Dev) (o : Nat) (f : Field) (v : Nat) : d.RegsOnly (d.setFld o f v) := rfl

/-! Validity leaves the clock block alone (R147). -/

/-- The registers of validity lie above the clock block. -/
theorem Dev.le_of_mem_validRegs {d : Dev} {o : Nat} (h : o ∈ d.validRegs) : 0x20000 ≤ o := by
  simp only [Dev.validRegs, List.mem_append, List.mem_map, List.mem_cons, List.not_mem_nil, or_false] at h
  rcases h with ((h | ⟨c, -, rfl⟩) | ⟨c, -, rfl⟩) | h
  · rcases h with rfl | rfl | rfl | rfl | rfl | rfl | rfl <;> decide
  · simp only [R.EC_ALARM]; omega
  · simp only [R.EC_DTC_LATE]; omega
  · split at h
    · simp only [List.mem_singleton, R.EC_STATUS] at h; omega
    · simp at h

theorem Dev.not_mem_cleanRegs (d : Dev) {o : Nat} (h1 : o ≠ R.CK_STATUS) (h2 : o ≠ R.CK_ALARM) (h3 : o < 0x20000) :
    o ∉ d.cleanRegs := by
  intro h
  simp only [Dev.cleanRegs, List.mem_append, List.mem_cons, List.not_mem_nil, or_false] at h
  rcases h with (h | h) | h
  · exact h1 h
  · exact h2 h
  · exact absurd (Dev.le_of_mem_validRegs h) (by omega)

/-- The clock tree is the same in `e` as in `d`: its hidden state, and the registers of its block. -/
structure Dev.KeepsClock (d e : Dev) : Prop where
  ck  : e.ck = d.ck
  reg : ∀ o, o / 0x10000 = 1 → e.reg o = d.reg o

theorem Dev.KeepsClock.refl (d : Dev) : d.KeepsClock d := ⟨rfl, fun _ _ => rfl⟩

theorem Dev.KeepsClock.trans {d e f : Dev} (h : d.KeepsClock e) (h' : e.KeepsClock f) : d.KeepsClock f :=
  ⟨h'.ck.trans h.ck, fun o ho => (h'.reg o ho).trans (h.reg o ho)⟩

theorem Dev.KeepsClock.fld {d e : Dev} (h : d.KeepsClock e) {o : Nat} (ho : o / 0x10000 = 1) (f : Field) :
    e.fld o f = d.fld o f := by
  rw [Dev.fld, Dev.fld, h.reg o ho]

theorem Dev.KeepsClock.flag {d e : Dev} (h : d.KeepsClock e) {o : Nat} (ho : o / 0x10000 = 1) (f : Field) :
    e.flag o f = d.flag o f := by
  rw [Dev.flag, Dev.flag, h.fld ho]

theorem Dev.KeepsClock.cleaner {d e : Dev} (h : d.KeepsClock e) : e.cleaner = d.cleaner := h.fld (by decide) _
theorem Dev.KeepsClock.selRef {d e : Dev} (h : d.KeepsClock e) : e.selRef = d.selRef := h.fld (by decide) _
theorem Dev.KeepsClock.rootLocked {d e : Dev} (h : d.KeepsClock e) : e.rootLocked = d.rootLocked := h.flag (by decide) _
theorem Dev.KeepsClock.lossCount {d e : Dev} (h : d.KeepsClock e) : e.lossCount = d.lossCount := h.fld (by decide) _
theorem Dev.KeepsClock.inFault {d e : Dev} (h : d.KeepsClock e) : e.inFault = d.inFault := by
  rw [Dev.inFault, Dev.inFault, h.fld (by decide)]
theorem Dev.KeepsClock.refH {d e : Dev} (h : d.KeepsClock e) (n : Nat) : e.refH n = d.refH n := by
  rw [Dev.refH, Dev.refH, h.ck]

/-- A frame without the clock tree's hidden state and registers. -/
theorem Dev.Frame.keepsClock {d e : Dev} {p : List Part} {r : List Nat} (h : d.Frame e p r) (hp : Part.ck ∉ p)
    (hr : ∀ o ∈ r, o / 0x10000 ≠ 1) : d.KeepsClock e :=
  ⟨h.ck_eq hp, fun o ho => h.reg_eq fun hm => hr o hm ho⟩

theorem Dev.not_clock_of_mem_validRegs {d : Dev} : ∀ o ∈ d.validRegs, o / 0x10000 ≠ 1 := by
  intro o ho
  have := Dev.le_of_mem_validRegs ho
  omega

theorem Dev.keepsClock_setValidity (d : Dev) (st : Nat) : d.KeepsClock (d.setValidity st) :=
  (d.frame_setValidity st (List.Subset.refl validParts) (List.Subset.refl _)).keepsClock (by decide)
    Dev.not_clock_of_mem_validRegs

theorem Dev.keepsClock_validCheck (d : Dev) : d.KeepsClock d.validCheck :=
  (d.frame_validCheck (List.Subset.refl validParts) (List.Subset.refl _)).keepsClock (by decide)
    Dev.not_clock_of_mem_validRegs

theorem Dev.keepsClock_validBegin (d : Dev) : d.KeepsClock d.validBegin := by
  unfold Dev.validBegin
  split
  · exact .refl d
  · exact (d.keepsClock_setValidity 1).trans (Dev.keepsClock_validCheck _)

/-- A list of registers that holds those of the cleaner and of validity. -/
theorem Dev.cleanIn_cons (d : Dev) (r : List Nat) : d.CleanIn (r ++ d.cleanRegs) := List.subset_append_right _ _

end Sys2Proof.Machine
end

section
/-! PROOF of O1. The named registers' writes; what an evaluation of a reference keeps; activity, frequency windows,
qualification and wait-to-restore (R34–R36, R44). -/

namespace Sys2Proof.Machine

/-! Registers of a reference. -/

theorem Dev.ref_status_not_mem_cleanRegs (d : Dev) {n : Nat} (hn : n < 68) : R.CK_REF_STATUS n ∉ d.cleanRegs :=
  d.not_mem_cleanRegs (by simp only [R.CK_REF_STATUS, R.CK_STATUS]; omega)
    (by simp only [R.CK_REF_STATUS, R.CK_ALARM]; omega) (by simp only [R.CK_REF_STATUS]; omega)

theorem Dev.ref_foff_not_mem_cleanRegs (d : Dev) {n : Nat} (hn : n < 68) : R.CK_REF_FOFF n ∉ d.cleanRegs :=
  d.not_mem_cleanRegs (by simp only [R.CK_REF_FOFF, R.CK_STATUS]; omega)
    (by simp only [R.CK_REF_FOFF, R.CK_ALARM]; omega) (by simp only [R.CK_REF_FOFF]; omega)

theorem ref_foff_ne_status {n m : Nat} (hn : n < 68) (hm : m < 68) : R.CK_REF_FOFF n ≠ R.CK_REF_STATUS m := by
  simp only [R.CK_REF_FOFF, R.CK_REF_STATUS]
  omega

/-! Qualification of a reference (R35). -/

theorem Dev.refH_setRefH_same (d : Dev) (n : Nat) (x : RefH) : (d.setRefH n x).refH n = x := sGet_sPut_same _ _ _ _

theorem Dev.reg_setRefH (d : Dev) (n : Nat) (x : RefH) (o : Nat) : (d.setRefH n x).reg o = d.reg o := rfl

theorem Dev.flag_setRefH (d : Dev) (n : Nat) (x : RefH) (o : Nat) (f : Field) :
    (d.setRefH n x).flag o f = d.flag o f := rfl

theorem Dev.qual_setQual (d : Dev) (n : Nat) {q : Nat} (hq : q < 4) : (d.setQual n q).qual n = q :=
  d.fld_setFld_low _ _ _ ⟨by decide, by decide, hq⟩

/-- A field of CK_REF_STATUS apart from qual. -/
def refStatusOther (g : Field) : Prop := g.lo ≤ g.hi ∧ g.hi < 32 ∧ 1 < g.lo

theorem Dev.flag_setQual (d : Dev) (n q : Nat) {g : Field} (hg : refStatusOther g) :
    (d.setQual n q).flag (R.CK_REF_STATUS n) g = d.flag (R.CK_REF_STATUS n) g :=
  d.flag_setFld_clear _ _ _ _ ⟨⟨by decide, by decide⟩, ⟨hg.1, hg.2.1⟩, .inl hg.2.2⟩

theorem Dev.qual_disqualify (d : Dev) (n : Nat) : (d.disqualify n).qual n = 0 := by
  unfold Dev.disqualify
  split
  · assumption
  · exact d.qual_setQual n (by decide)

theorem Dev.flag_disqualify (d : Dev) (n : Nat) {g : Field} (hg : refStatusOther g) :
    (d.disqualify n).flag (R.CK_REF_STATUS n) g = d.flag (R.CK_REF_STATUS n) g := by
  unfold Dev.disqualify
  split
  · rfl
  · exact d.flag_setQual n 0 hg

theorem Dev.qual_qualify (d : Dev) (n : Nat) : (d.qualify n).qual n = 3 := d.qual_setQual n (by decide)

theorem Dev.qual_enterWtr (d : Dev) (n : Nat) :
    (d.enterWtr n).qual n = if d.fld R.CK_TIMER_CFG F.CK_TIMER_CFG_wtr_time = 0 then 3 else 2 := by
  simp only [Dev.enterWtr]
  split
  · exact d.qual_qualify n
  · exact d.qual_setQual n (by decide)

theorem Dev.not_suspended_of_no_op {d : Dev} (h : d.ca.op = none) (n : Nat) : d.suspended n = false := by
  simp [Dev.suspended, Dev.opOn, h]

/-! What follows a change of references. -/

theorem Dev.reg_refsChanged (d : Dev) {o : Nat} (ho : o ∉ d.cleanRegs) : d.refsChanged.reg o = d.reg o :=
  (d.moves_refsChanged (List.Subset.refl cleanParts) (List.Subset.refl d.cleanRegs)).frame.reg_eq ho

theorem Dev.qual_refsChanged (d : Dev) {n : Nat} (hn : n < 68) : d.refsChanged.qual n = d.qual n := by
  rw [Dev.qual, Dev.qual, Dev.fld, Dev.fld, d.reg_refsChanged (d.ref_status_not_mem_cleanRegs hn)]

theorem Dev.flag_ref_status_refsChanged (d : Dev) {n : Nat} (hn : n < 68) (g : Field) :
    d.refsChanged.flag (R.CK_REF_STATUS n) g = d.flag (R.CK_REF_STATUS n) g := by
  rw [Dev.flag, Dev.flag, Dev.fld, Dev.fld, d.reg_refsChanged (d.ref_status_not_mem_cleanRegs hn)]

/-- A step of one reference, and what follows it. -/
theorem Dev.Moves.refsChanged {d e : Dev} {r : List Nat} (h : d.Moves e cleanParts (r ++ d.cleanRegs)) :
    d.Moves e.refsChanged cleanParts (r ++ d.cleanRegs) :=
  h.trans (e.moves_refsChanged (List.Subset.refl _) (Dev.CleanIn.keep h (d.cleanIn_cons r)))

/-- Evaluation changes of CK_REF_STATUS the field qual alone. -/
theorem Dev.flag_refEval (d : Dev) {n : Nat} (hn : n < 68) {g : Field} (hg : refStatusOther g) :
    (d.refEval n).flag (R.CK_REF_STATUS n) g = d.flag (R.CK_REF_STATUS n) g := by
  unfold Dev.refEval
  split
  · rfl
  · rw [Dev.flag_ref_status_refsChanged _ hn]
    split
    · split
      · exact d.flag_setQual n 1 hg
      · rfl
    · exact d.flag_disqualify n hg

theorem Dev.reg_refEval_foff (d : Dev) {n : Nat} (hn : n < 68) :
    (d.refEval n).reg (R.CK_REF_FOFF n) = d.reg (R.CK_REF_FOFF n) := by
  refine (d.moves_refEval n (r := [R.CK_REF_STATUS n] ++ d.cleanRegs) (List.Subset.refl _) (d.cleanIn_cons _)
    (by simp)).frame.reg_eq ?_
  simp [ref_foff_ne_status hn hn, d.ref_foff_not_mem_cleanRegs hn]

/-- A reference whose criteria fail is DISQUALIFIED, or stays so. -/
theorem Dev.qual_refEval_of_not_critOk (d : Dev) {n : Nat} (hn : n < 68) (hop : d.ca.op = none)
    (hc : d.critOk n = false) : (d.refEval n).qual n = 0 := by
  simp only [Dev.refEval, Dev.not_suspended_of_no_op hop, hc, Bool.false_eq_true, if_false]
  rw [Dev.qual_refsChanged _ hn, d.qual_disqualify]

/-! Activity (R34, R36). -/

/-- A step of the clock tree's hidden state and of the registers of reference n, and its evaluation. -/
theorem Dev.Frame.refEval {d e : Dev} {n : Nat} (h : d.Frame e [.ck] [R.CK_REF_STATUS n, R.CK_REF_FOFF n]) :
    d.Frame (e.refEval n) cleanParts (R.CK_REF_STATUS n :: R.CK_REF_FOFF n :: d.cleanRegs) :=
  have hmove : d.Moves e cleanParts ([R.CK_REF_STATUS n, R.CK_REF_FOFF n] ++ d.cleanRegs) :=
    (h.mono (by decide) (List.subset_append_left _ _)).moves (h.ca_eq (by decide))
  (hmove.trans (e.moves_refEval n (List.Subset.refl _) (Dev.CleanIn.keep hmove (d.cleanIn_cons _)) (by simp))).frame

/-- The activity bit of reference n takes a value, and the measurement starts anew: the offset is unknown, and the
frequency criterion does not hold. -/
def Dev.setActive (d : Dev) (n : Nat) (b : Bool) : Dev :=
  (d.setFlag (R.CK_REF_STATUS n) F.CK_REF_STATUS_active b).measureAnew n

theorem Dev.frame_setActive (d : Dev) (n : Nat) (b : Bool) :
    d.Frame (d.setActive n b) [.ck] [R.CK_REF_STATUS n, R.CK_REF_FOFF n] :=
  (((d.frame_setFlag _ _ _ (by simp)).trans (Dev.frame_setReg _ _ _ (by simp))).trans
    (Dev.frame_setFlag _ _ _ _ (by simp))).trans (Dev.frame_setRefH _ _ _ _ (by simp))

theorem Dev.flag_refFresh_active (d : Dev) {n : Nat} (hn : n < 68) :
    (d.refFresh n).flag (R.CK_REF_STATUS n) F.CK_REF_STATUS_active =
      d.flag (R.CK_REF_STATUS n) F.CK_REF_STATUS_active := by
  rw [Dev.refFresh, Dev.flag_setRefH, Dev.setFlag, Dev.flag_setFld_clear _ _ _ _ _ (by decide), Dev.flag, Dev.flag,
    d.fld_setReg_ne _ _ (ref_foff_ne_status hn hn).symm]

theorem Dev.flag_refFresh_freq_ok (d : Dev) (n : Nat) :
    (d.refFresh n).flag (R.CK_REF_STATUS n) F.CK_REF_STATUS_freq_ok = false := by
  rw [Dev.refFresh, Dev.flag_setRefH, Dev.flag_setFlag_same _ _ _ _ (by decide)]

theorem Dev.reg_refFresh_foff (d : Dev) {n : Nat} (hn : n < 68) : (d.refFresh n).reg (R.CK_REF_FOFF n) = 0x80000000#32 := by
  rw [Dev.refFresh, Dev.reg_setRefH, Dev.setFlag, Dev.reg_setFld_ne _ _ _ (ref_foff_ne_status hn hn), Dev.reg_setReg_same]

theorem Dev.flag_active_setActive (d : Dev) {n : Nat} (hn : n < 68) (b : Bool) :
    (d.setActive n b).flag (R.CK_REF_STATUS n) F.CK_REF_STATUS_active = b := by
  rw [Dev.setActive, Dev.measureAnew, Dev.flag_refFresh_active _ hn, d.flag_setFlag_same _ _ _ (by decide)]

theorem Dev.flag_freq_ok_setActive (d : Dev) (n : Nat) (b : Bool) :
    (d.setActive n b).flag (R.CK_REF_STATUS n) F.CK_REF_STATUS_freq_ok = false := Dev.flag_refFresh_freq_ok _ n

theorem Dev.reg_foff_setActive (d : Dev) {n : Nat} (hn : n < 68) (b : Bool) :
    (d.setActive n b).reg (R.CK_REF_FOFF n) = 0x80000000#32 :=
  Dev.reg_refFresh_foff _ hn

/-- A change of activity leaves the reference DISQUALIFIED, its offset unknown. -/
theorem Dev.activity_changed (d : Dev) {n : Nat} (hn : n < 68) (hop : d.ca.op = none) (b : Bool) :
    let e := ((d.setActive n b).refEval n).settle
    d.Frame e cleanParts (R.CK_REF_STATUS n :: R.CK_REF_FOFF n :: d.cleanRegs) ∧
      e.flag (R.CK_REF_STATUS n) F.CK_REF_STATUS_active = b ∧ e.reg (R.CK_REF_FOFF n) = 0x80000000#32 ∧
      e.qual n = 0 := by
  have hcrit : (d.setActive n b).critOk n = false := by simp [Dev.critOk, d.flag_freq_ok_setActive]
  have hop' : (d.setActive n b).ca.op = none := by rw [(d.frame_setActive n b).ca_eq (by decide), hop]
  refine ⟨(d.frame_setActive n b).refEval.settle, ?_, ?_, ?_⟩
  · rw [Dev.flag_settle, Dev.flag_refEval _ hn (by unfold refStatusOther; decide), d.flag_active_setActive hn]
  · rw [Dev.reg_settle, Dev.reg_refEval_foff _ hn, d.reg_foff_setActive hn]
  · rw [Dev.qual_settle, Dev.qual_refEval_of_not_critOk (d.setActive n b) hn hop' hcrit]

/-! Frequency windows (R36). -/

/-- The comparison of pairs changes the cleaner's hidden state alone. -/
theorem Dev.frame_comparePairs (d : Dev) (n : Nat) : d.Frame (d.comparePairs n) [.ck] [] := by
  refine .foldl (fun d m => ?_) _ _
  split
  · exact d.frame_ck _ _ (by decide)
  · exact .refl d _ _

theorem Dev.frame_windowEnd (d : Dev) (n : Nat) (ppt : Int) :
    d.Frame ((d.publishFoff n ppt).comparePairs n) [.ck] [R.CK_REF_STATUS n, R.CK_REF_FOFF n] :=
  ((d.frame_setSigned _ _ _ (by simp)).trans (Dev.frame_setFlag _ _ _ _ (by simp))).trans
    ((Dev.frame_comparePairs _ n).mono (List.Subset.refl _) (by simp))

theorem Dev.sfld_publishFoff (d : Dev) {n : Nat} (hn : n < 68) {ppt : Int} (h : ppt.natAbs < 2 ^ 31) :
    (d.publishFoff n ppt).sfld (R.CK_REF_FOFF n) F.CK_REF_FOFF_value = ppt := by
  have hclamp : clampI (-0x7FFFFFFF) 0x7FFFFFFF ppt = ppt := by
    unfold clampI
    split
    · omega
    · split <;> omega
  rw [Dev.publishFoff, Dev.sfld, Dev.setFlag, Dev.fld_setFld_ne _ _ _ _ (ref_foff_ne_status hn hn), hclamp]
  exact d.sfld_setSigned_whole _ h

theorem Dev.freq_ok_publishFoff (d : Dev) {n : Nat} (hp : d.isPps n = false) (ppt : Int) :
    (d.publishFoff n ppt).flag (R.CK_REF_STATUS n) F.CK_REF_STATUS_freq_ok =
      decide (ppt.natAbs ≤ d.fld (R.CK_REF_CFG n) F.CK_REF_CFG_qual_range * 100000) := by
  refine (Dev.flag_setFlag_same _ _ _ _ (by decide)).trans ?_
  rw [hp, if_neg Bool.false_ne_true]

/-- A window publishes its offset, and the frequency criterion follows. -/
theorem Dev.window_published (d : Dev) {n : Nat} (hn : n < 68) {ppt : Int} (hp : d.isPps n = false)
    (h : ppt.natAbs < 2 ^ 31) :
    let e := (((d.publishFoff n ppt).comparePairs n).refEval n).settle
    d.Frame e cleanParts (R.CK_REF_STATUS n :: R.CK_REF_FOFF n :: d.cleanRegs) ∧
      e.sfld (R.CK_REF_FOFF n) F.CK_REF_FOFF_value = ppt ∧
      e.flag (R.CK_REF_STATUS n) F.CK_REF_STATUS_freq_ok =
        decide (ppt.natAbs ≤ d.fld (R.CK_REF_CFG n) F.CK_REF_CFG_qual_range * 100000) := by
  have hpairs := Dev.frame_comparePairs (d.publishFoff n ppt) n
  refine ⟨(d.frame_windowEnd n ppt).refEval.settle, ?_, ?_⟩
  · rw [Dev.sfld_settle, Dev.sfld, Dev.fld, Dev.reg_refEval_foff _ hn, ← Dev.fld, ← Dev.sfld,
      hpairs.sfld_eq (by simp), d.sfld_publishFoff hn h]
  · rw [Dev.flag_settle, Dev.flag_refEval _ hn (by unfold refStatusOther; decide), hpairs.flag_eq (by simp),
      d.freq_ok_publishFoff hp]

/-! Qualification and wait-to-restore (R35, R44). -/

/-- A change of qual, and what follows it. -/
theorem Dev.qual_changed {d e : Dev} {r : List Nat} {n q : Nat} (hn : n < 68) (hf : d.Frame e [.ck] r)
    (hq : e.qual n = q) :
    d.Frame e.refsChanged.settle cleanParts (r ++ d.cleanRegs) ∧ e.refsChanged.settle.qual n = q := by
  have hmove : d.Moves e cleanParts (r ++ d.cleanRegs) :=
    (hf.mono (by decide) (List.subset_append_left _ _)).moves (hf.ca_eq (by decide))
  exact ⟨hmove.refsChanged.frame.settle, by rw [Dev.qual_settle, Dev.qual_refsChanged _ hn, hq]⟩

/-- During SWITCHING a reference is held where it stands. -/
theorem Dev.held_in_switching (d : Dev) (n : Nat) :
    let e := (d.setRefH n { d.refH n with held := true }).settle
    d.Frame e [.ck] [] ∧ e.qual n = d.qual n ∧ (e.refH n).held = true := by
  refine ⟨(d.frame_setRefH n _ [] (by decide)).settle, ?_, ?_⟩
  · rw [Dev.qual_settle]
    rfl
  · rw [Dev.refH_settle, d.refH_setRefH_same]

/-! A write of CK_REF_CFG (R71). -/

theorem inst_of_lt {base stride n i : Nat} (hs : 0 < stride) (hi : i < n) :
    inst base stride n (base + stride * i) = some i := by
  have hdiv : stride * i / stride = i := Nat.mul_div_cancel_left i hs
  simp [inst, hdiv, hi]

/-- A whole write of a register that the map names, in every stage but SAFE, goes by the rules of its block. -/
theorem Dev.writeAccess_named {d : Dev} {o : Nat} {r : RegSpec} (w : Word) (hr : regSpec o = some r)
    (hs : d.stage ≠ .safe) : d.writeAccess o true w = d.writeReg o w := by
  simp [Dev.writeAccess, hr, hs]

/-- A write of a register of the clock block. -/
theorem Dev.writeReg_CK (d : Dev) {o : Nat} (w : Word) (h : o / 0x10000 = 1) : d.writeReg o w = d.writeCK o w := by
  simp only [Dev.writeReg, h]

theorem Dev.writeReg_CK_REF_CFG (d : Dev) {n : Nat} (hn : n < 68) (w : Word) :
    d.writeReg (R.CK_REF_CFG n) w = d.refCfgWrite n w := by
  have hblock : R.CK_REF_CFG n / 0x10000 = 1 := by simp only [R.CK_REF_CFG]; omega
  have hinst : inst (R.CK_REF_CFG 0) 4 68 (R.CK_REF_CFG n) = some n := inst_of_lt (by decide) hn
  have hne {o : Nat} (ho : o < 0x10100) : R.CK_REF_CFG n ≠ o := by simp only [R.CK_REF_CFG]; omega
  rw [d.writeReg_CK w hblock]
  simp only [Dev.writeCK, hinst]
  simp [hne (o := R.CK_XO_CFG) (by decide), hne (o := R.CK_CLN_CFG) (by decide), hne (o := R.CK_TIMER_CFG) (by decide),
    hne (o := R.CK_STEER) (by decide), hne (o := R.CK_AGE) (by decide), hne (o := R.CK_FREERUN) (by decide),
    hne (o := R.CK_FREERUN_MIN) (by decide), hne (o := R.CK_PHASE_SP) (by decide)]

/-- The fields of CK_REF_CFG: freq is written on a REFIN alone (R71). -/
def refCfgFields (n : Nat) : List FieldSpec :=
  [⟨F.CK_REF_CFG_wtr_clear, .wo, .any⟩, ⟨F.CK_REF_CFG_qual_range, .rw, .any⟩,
    ⟨F.CK_REF_CFG_freq, if n < 4 then .rw else .ro, .reserved [5, 6, 7, 8, 9, 10, 11, 12, 13, 14, 15]⟩,
    ⟨F.CK_REF_CFG_rank, .rw, .any⟩]

theorem regSpec_CK_REF_CFG : ∀ n < 68, (regSpec (R.CK_REF_CFG n)).map (·.fields) = some (refCfgFields n) := by decide

/-- A field with reserved codes to which the value that it holds is written keeps it, whether it takes writes or not. -/
theorem FieldSpec.store_held {f : Field} (hf : f.ok) {codes : List Nat} {acc : Acc} (ha : acc = .rw ∨ acc = .ro)
    {w x : Word} (h : getField w f = getField x f) : (⟨f, acc, .reserved codes⟩ : FieldSpec).store w x = x := by
  rcases ha with rfl | rfl
  · simp [FieldSpec.store, WRule.store, h, putField_getField x f hf]
  · rfl

/-- A write of one field leaves a field apart from it. -/
theorem FieldSpec.getField_store_apart (f : FieldSpec) {g : Field} (hf : f.fld.ok) (hg : g.ok) (h : f.fld.apart g)
    (w x : Word) : getField (f.store w x) g = getField x g := by
  unfold FieldSpec.store
  split
  · exact getField_putField_apart _ _ _ _ hf hg h
  · exact getField_putField_apart _ _ _ _ hf hg h
  all_goals rfl

/-- A write that carries the frequency in force leaves it. -/
theorem Dev.freq_fieldsStored (d : Dev) {n : Nat} (hn : n < 68) {w : Word}
    (h : getField w F.CK_REF_CFG_freq = d.fld (R.CK_REF_CFG n) F.CK_REF_CFG_freq) :
    getField (d.fieldsStored (R.CK_REF_CFG n) w) F.CK_REF_CFG_freq = d.fld (R.CK_REF_CFG n) F.CK_REF_CFG_freq := by
  obtain ⟨r, hr, hfields⟩ := Option.map_eq_some_iff.1 (regSpec_CK_REF_CFG n hn)
  have hok : F.CK_REF_CFG_freq.ok := ⟨by decide, by decide⟩
  have hacc : (if n < 4 then Acc.rw else Acc.ro) = .rw ∨ (if n < 4 then Acc.rw else Acc.ro) = .ro := by
    split <;> simp
  have hqual (x : Word) : getField ((⟨F.CK_REF_CFG_qual_range, .rw, .any⟩ : FieldSpec).store w x) F.CK_REF_CFG_freq =
      getField x F.CK_REF_CFG_freq := FieldSpec.getField_store_apart _ ⟨by decide, by decide⟩ hok (.inr (by decide)) w x
  have hrank (x : Word) : getField ((⟨F.CK_REF_CFG_rank, .rw, .any⟩ : FieldSpec).store w x) F.CK_REF_CFG_freq =
      getField x F.CK_REF_CFG_freq := FieldSpec.getField_store_apart _ ⟨by decide, by decide⟩ hok (.inl (by decide)) w x
  have hclear (x : Word) : (⟨F.CK_REF_CFG_wtr_clear, .wo, .any⟩ : FieldSpec).store w x = x := rfl
  simp only [Dev.fieldsStored, hr, hfields, refCfgFields, List.foldl_cons, List.foldl_nil, hclear]
  rw [hrank, FieldSpec.store_held hok hacc (h.trans (hqual _).symm), hqual, Dev.fld]

/-- CK_REF_CFG written, and the agreement counts of the reference dropped where its rank has changed. -/
def Dev.refCfgStored (d : Dev) (n : Nat) (w : Word) : Dev :=
  let e := d.store (R.CK_REF_CFG n) w
  if e.fld (R.CK_REF_CFG n) F.CK_REF_CFG_rank = d.fld (R.CK_REF_CFG n) F.CK_REF_CFG_rank then e else e.dropPairs n

theorem Dev.frame_refCfgStored (d : Dev) (n : Nat) (w : Word) : d.Frame (d.refCfgStored n w) [.ck] [R.CK_REF_CFG n] := by
  have hstore : d.Frame (d.store (R.CK_REF_CFG n) w) [.ck] [R.CK_REF_CFG n] := d.frame_setReg _ _ (by simp)
  unfold Dev.refCfgStored
  dsimp only
  split
  · exact hstore
  · exact hstore.trans (Dev.frame_ck _ _ _ (by decide))

theorem ref_status_ne_cfg {n m : Nat} (hn : n < 68) (hm : m < 68) : R.CK_REF_STATUS n ≠ R.CK_REF_CFG m := by
  simp only [R.CK_REF_STATUS, R.CK_REF_CFG]
  omega

theorem Dev.qual_refCfgStored (d : Dev) {n : Nat} (hn : n < 68) (w : Word) : (d.refCfgStored n w).qual n = d.qual n :=
  (d.frame_refCfgStored n w).fld_eq (by simp [ref_status_ne_cfg hn hn]) _

/-- wtr_clear of a reference in WTR, with the frequency in force: it is QUALIFIED (R35). -/
theorem Dev.refCfgWrite_clear (d : Dev) {n : Nat} (hn : n < 68) {w : Word} (hq : d.qual n = 2)
    (hclear : getField w F.CK_REF_CFG_wtr_clear = 1)
    (hfreq : getField w F.CK_REF_CFG_freq = d.fld (R.CK_REF_CFG n) F.CK_REF_CFG_freq) :
    d.refCfgWrite n w = ((d.refCfgStored n w).qualify n).refsChanged := by
  have hsame : (d.store (R.CK_REF_CFG n) w).fld (R.CK_REF_CFG n) F.CK_REF_CFG_freq =
      d.fld (R.CK_REF_CFG n) F.CK_REF_CFG_freq := by
    rw [Dev.store, Dev.fld, Dev.reg_setReg_same, d.freq_fieldsStored hn hfreq]
  have hstored : d.refCfgWrite n w = (if getField w F.CK_REF_CFG_wtr_clear = 1 ∧ (d.refCfgStored n w).qual n = 2 then
      (d.refCfgStored n w).qualify n else d.refCfgStored n w).refsChanged := by
    unfold Dev.refCfgWrite
    dsimp only
    rw [if_pos hsame]
    rfl
  rw [hstored, if_pos ⟨hclear, (d.qual_refCfgStored hn w).trans hq⟩]

theorem answers_wtrClear {s : State} {n : Fin 68} {w : Word} {Q : Dev → Prop} (hs : s.Up)
    (hQ : Q (s.dev.refCfgWrite n w).settle) : Answers (.wtrClear n w) s Q := by
  obtain ⟨r, hr, -⟩ := Option.map_eq_some_iff.1 (regSpec_CK_REF_CFG n n.isLt)
  refine .of_awake (f := fun d => d.writeAccess (R.CK_REF_CFG n) true w) hs.1 rfl ?_
  rwa [Dev.writeAccess_named w hr hs.2, s.dev.writeReg_CK_REF_CFG n.isLt]

/-- QUAL_TIME_EXPIRY of a reference in QUALIFYING (R35, R44). -/
theorem answers_qualTimeExpiry {s : State} {n : Fin 68} {Q : Dev → Prop} (hs : s.Up) (hop : s.dev.ca.op = none)
    (hq : s.dev.qual n = 1)
    (hQ : Q (if (s.dev.refH n).disqOnce = false then (s.dev.qualify n).refsChanged
      else if s.dev.cleaner = 5 then s.dev.setRefH n { s.dev.refH n with held := true }
      else (s.dev.enterWtr n).refsChanged).settle) : Answers (.qualTimeExpiry n) s Q := by
  refine .of_running (f := fun d => if d.qual n != 1 || d.suspended n then d
    else if !(d.refH n).disqOnce then (d.qualify n).refsChanged
    else if d.cleaner = 5 then d.setRefH n { d.refH n with held := true } else (d.enterWtr n).refsChanged) hs rfl ?_
  simpa [hq, Dev.not_suspended_of_no_op hop] using hQ

/-- WTR_EXPIRY of a reference in WTR (R35, R44). -/
theorem answers_wtrExpiry {s : State} {n : Fin 68} {Q : Dev → Prop} (hs : s.Up) (hop : s.dev.ca.op = none)
    (hq : s.dev.qual n = 2)
    (hQ : Q (if s.dev.cleaner = 5 then s.dev.setRefH n { s.dev.refH n with held := true }
      else (s.dev.qualify n).refsChanged).settle) : Answers (.wtrExpiry n) s Q := by
  refine .of_running (f := fun d => if d.qual n != 2 || d.suspended n then d
    else if d.cleaner = 5 then d.setRefH n { d.refH n with held := true } else (d.qualify n).refsChanged) hs rfl ?_
  simpa [hq, Dev.not_suspended_of_no_op hop] using hQ

/-! The clauses of the statement. -/

/-- The loss and the return of activity, and the end of a frequency window (R34, R36). -/
theorem reference_measured {s : State} (n : Fin 68) (ppt : Int) (hs : s.Up) (hop : s.dev.ca.op = none) :
    Answers (.refActivityLoss n) s (fun e =>
      s.dev.Frame e cleanParts (R.CK_REF_STATUS n :: R.CK_REF_FOFF n :: s.dev.cleanRegs) ∧
      e.flag (R.CK_REF_STATUS n) F.CK_REF_STATUS_active = false ∧ e.reg (R.CK_REF_FOFF n) = 0x80000000#32 ∧
      e.qual n = 0) ∧
    (s.dev.flag (R.CK_REF_STATUS n) F.CK_REF_STATUS_active = false →
      Answers (.refActivityReturn n) s (fun e =>
        s.dev.Frame e cleanParts (R.CK_REF_STATUS n :: R.CK_REF_FOFF n :: s.dev.cleanRegs) ∧
        e.flag (R.CK_REF_STATUS n) F.CK_REF_STATUS_active = true ∧ e.reg (R.CK_REF_FOFF n) = 0x80000000#32 ∧
        e.qual n = 0)) ∧
    (s.dev.isPps n = false → s.dev.rootLocked = true → s.dev.flag (R.CK_REF_STATUS n) F.CK_REF_STATUS_active = true →
      ppt.natAbs < 2 ^ 31 →
      Answers (.refFrequencyWindowEnd n ppt) s (fun e =>
        s.dev.Frame e cleanParts (R.CK_REF_STATUS n :: R.CK_REF_FOFF n :: s.dev.cleanRegs) ∧
        e.sfld (R.CK_REF_FOFF n) F.CK_REF_FOFF_value = ppt ∧
        e.flag (R.CK_REF_STATUS n) F.CK_REF_STATUS_freq_ok =
          decide (ppt.natAbs ≤ s.dev.fld (R.CK_REF_CFG n) F.CK_REF_CFG_qual_range * 100000))) := by
  refine ⟨?_, fun hidle => ?_, fun hpps hlock hactive hppt => ?_⟩
  · exact .of_running (f := fun d => (d.setActive n false).refEval n) hs rfl (s.dev.activity_changed n.isLt hop false)
  · refine .of_running (f := fun d => if d.flag (R.CK_REF_STATUS n) F.CK_REF_STATUS_active then d
      else (d.setActive n true).refEval n) hs rfl ?_
    rw [hidle, if_neg Bool.false_ne_true]
    exact s.dev.activity_changed n.isLt hop true
  · refine .of_running (f := fun d => if d.isPps n || !d.rootLocked || !d.flag (R.CK_REF_STATUS n) F.CK_REF_STATUS_active
      then d else ((d.publishFoff n ppt).comparePairs n).refEval n) hs rfl ?_
    rw [if_neg (by simp [hpps, hlock, hactive])]
    exact s.dev.window_published n.isLt hpps hppt

/-- QUALIFYING and WTR end, by their timers or by wtr_clear (R35, R44). -/
theorem reference_qualified {s : State} (n : Fin 68) (w : Word) (hs : s.Up) (hop : s.dev.ca.op = none) :
    (s.dev.qual n = 1 → (s.dev.refH n).disqOnce = false →
      Answers (.qualTimeExpiry n) s (fun e =>
        s.dev.Frame e cleanParts (R.CK_REF_STATUS n :: s.dev.cleanRegs) ∧ e.qual n = 3)) ∧
    (s.dev.qual n = 1 → (s.dev.refH n).disqOnce = true → s.dev.cleaner ≠ 5 →
      Answers (.qualTimeExpiry n) s (fun e =>
        s.dev.Frame e cleanParts (R.CK_REF_STATUS n :: s.dev.cleanRegs) ∧
        e.qual n = if s.dev.fld R.CK_TIMER_CFG F.CK_TIMER_CFG_wtr_time = 0 then 3 else 2)) ∧
    (s.dev.qual n = 1 → (s.dev.refH n).disqOnce = true → s.dev.cleaner = 5 →
      Answers (.qualTimeExpiry n) s (fun e => s.dev.Frame e [.ck] [] ∧ e.qual n = 1 ∧ (e.refH n).held = true)) ∧
    (s.dev.qual n = 2 → s.dev.cleaner ≠ 5 →
      Answers (.wtrExpiry n) s (fun e =>
        s.dev.Frame e cleanParts (R.CK_REF_STATUS n :: s.dev.cleanRegs) ∧ e.qual n = 3)) ∧
    (s.dev.qual n = 2 → s.dev.cleaner = 5 →
      Answers (.wtrExpiry n) s (fun e => s.dev.Frame e [.ck] [] ∧ e.qual n = 2 ∧ (e.refH n).held = true)) ∧
    (s.dev.qual n = 2 → getField w F.CK_REF_CFG_wtr_clear = 1 →
      getField w F.CK_REF_CFG_freq = s.dev.fld (R.CK_REF_CFG n) F.CK_REF_CFG_freq →
      Answers (.wtrClear n w) s (fun e =>
        s.dev.Frame e cleanParts (R.CK_REF_CFG n :: R.CK_REF_STATUS n :: s.dev.cleanRegs) ∧ e.qual n = 3)) := by
  have hqualify (d : Dev) : d.Frame (d.qualify n) [.ck] [R.CK_REF_STATUS n] := d.frame_qualify n (by decide) (by simp)
  have hwtr : s.dev.Frame (s.dev.enterWtr n) [.ck] [R.CK_REF_STATUS n] := s.dev.frame_enterWtr n (by decide) (by simp)
  have hheld := s.dev.held_in_switching n
  refine ⟨fun hq hnever => answers_qualTimeExpiry hs hop hq ?_, fun hq honce hcl => answers_qualTimeExpiry hs hop hq ?_,
    fun hq honce hcl => answers_qualTimeExpiry hs hop hq ?_, fun hq hcl => answers_wtrExpiry hs hop hq ?_,
    fun hq hcl => answers_wtrExpiry hs hop hq ?_, fun hq hclear hfreq => answers_wtrClear hs ?_⟩
  · rw [if_pos hnever]
    exact Dev.qual_changed n.isLt (hqualify _) (s.dev.qual_qualify n)
  · rw [if_neg (by simp [honce]), if_neg hcl]
    exact Dev.qual_changed n.isLt hwtr (s.dev.qual_enterWtr n)
  · rw [if_neg (by simp [honce]), if_pos hcl]
    exact hq ▸ hheld
  · rw [if_neg hcl]
    exact Dev.qual_changed n.isLt (hqualify _) (s.dev.qual_qualify n)
  · rw [if_pos hcl]
    exact hq ▸ hheld
  · rw [s.dev.refCfgWrite_clear n.isLt hq hclear hfreq]
    have hframe := (s.dev.frame_refCfgStored n w).mono (q := [.ck]) (t := [R.CK_REF_CFG n, R.CK_REF_STATUS n])
      (List.Subset.refl _) (by simp)
    exact Dev.qual_changed n.isLt (hframe.trans ((hqualify _).mono (List.Subset.refl _) (by simp)))
      (Dev.qual_qualify _ n)

/-- Settles O1: what each command makes of a reference, and what follows a change of references leaves it. -/
theorem references : Obligations.References :=
  ⟨fun _ n ppt hs hop => reference_measured n ppt hs hop, fun _ n w hs hop => reference_qualified n w hs hop⟩

end Sys2Proof.Machine
end

section
/-! PROOF of O2. The cleaner's states as CK_STATUS shows them; what selection leaves alone and what it depends on; the rows
of R41 to R44. -/

namespace Sys2Proof.Machine

/-! CK_STATUS. -/

theorem Dev.selRef_lt (d : Dev) : d.selRef < 128 := d.fld_lt _ _

@[simp] theorem Dev.cleaner_setBw (d : Dev) (k : Nat) : (d.setBw k).cleaner = d.cleaner :=
  d.fld_setFld_clear _ _ _ _ (by decide)

@[simp] theorem Dev.selRef_setBw (d : Dev) (k : Nat) : (d.setBw k).selRef = d.selRef :=
  d.fld_setFld_clear _ _ _ _ (by decide)

theorem Dev.cleaner_setCleaner (d : Dev) {st : Nat} (sel : Nat) (h : st < 8) : (d.setCleaner st sel).cleaner = st := by
  rw [Dev.cleaner, Dev.setCleaner, Dev.fld_setFld_clear _ _ _ _ _ (by decide),
    Dev.fld_setFld_low _ _ _ _ ⟨by decide, by decide, h⟩]

theorem Dev.selRef_setCleaner (d : Dev) (st : Nat) {sel : Nat} (h : sel < 128) : (d.setCleaner st sel).selRef = sel :=
  Dev.fld_setFld_low _ _ _ _ ⟨by decide, by decide, h⟩

@[simp] theorem Dev.cleaner_raise_alarm (d : Dev) (f : Field) : (d.raise R.CK_ALARM f).cleaner = d.cleaner :=
  d.fld_raise_ne _ _ (by decide)

@[simp] theorem Dev.selRef_raise_alarm (d : Dev) (f : Field) : (d.raise R.CK_ALARM f).selRef = d.selRef :=
  d.fld_raise_ne _ _ (by decide)

@[simp] theorem Dev.cleaner_showConflict (d : Dev) (c : Bool) : (d.showConflict c).cleaner = d.cleaner := by
  unfold Dev.showConflict
  refine (Dev.fld_setFld_clear _ _ _ _ _ (by decide)).trans ?_
  split
  · exact d.cleaner_raise_alarm _
  · rfl

@[simp] theorem Dev.selRef_showConflict (d : Dev) (c : Bool) : (d.showConflict c).selRef = d.selRef := by
  unfold Dev.showConflict
  refine (Dev.fld_setFld_clear _ _ _ _ _ (by decide)).trans ?_
  split
  · exact d.selRef_raise_alarm _
  · rfl

/-! The states entered (R41–R43). -/

theorem Dev.cleaner_enterNarrow (d : Dev) : d.enterNarrow.cleaner = 3 :=
  (Dev.cleaner_setBw _ _).trans (Dev.cleaner_setCleaner _ _ (by decide))

theorem Dev.selRef_enterNarrow (d : Dev) : d.enterNarrow.selRef = d.selRef :=
  (Dev.selRef_setBw _ _).trans (Dev.selRef_setCleaner _ _ d.selRef_lt)

theorem Dev.cleaner_enterLocked (d : Dev) : d.enterLocked.cleaner = 4 :=
  (Dev.cleaner_setBw _ _).trans (d.cleaner_setCleaner _ (by decide))

theorem Dev.selRef_enterLocked (d : Dev) : d.enterLocked.selRef = d.selRef :=
  (Dev.selRef_setBw _ _).trans (d.selRef_setCleaner _ d.selRef_lt)

theorem Dev.cleaner_enterAcquire (d : Dev) (n : Nat) : (d.enterAcquire n).cleaner = 2 :=
  (Dev.cleaner_setBw _ _).trans (Dev.cleaner_setCleaner _ _ (by decide))

theorem Dev.selRef_enterAcquire (d : Dev) {n : Nat} (h : n < 128) : (d.enterAcquire n).selRef = n :=
  (Dev.selRef_setBw _ _).trans (Dev.selRef_setCleaner _ _ h)

@[simp] theorem Dev.ck_setBw (d : Dev) (k : Nat) : (d.setBw k).ck = d.ck := by rw [Dev.setBw, Dev.setFld_ck]

@[simp] theorem Dev.ck_setCleaner (d : Dev) (st sel : Nat) : (d.setCleaner st sel).ck = d.ck := by
  rw [Dev.setCleaner, Dev.setFld_ck, Dev.setFld_ck]

theorem Dev.ck_enterNarrow (d : Dev) : d.enterNarrow.ck =
    { d.ck with bwFinal := max d.bwAcq (d.fld R.CK_CLN_CFG F.CK_CLN_CFG_bw_final) } := by
  rw [Dev.enterNarrow, Dev.ck_setBw, Dev.ck_setCleaner]

theorem Dev.ck_enterLocked (d : Dev) : d.enterLocked.ck = d.ck := by
  rw [Dev.enterLocked, Dev.ck_setBw, Dev.ck_setCleaner]

theorem Dev.ck_enterAcquire (d : Dev) (n : Nat) : (d.enterAcquire n).ck = { d.ck with buildOut := true } := by
  rw [Dev.enterAcquire, Dev.ck_setBw, Dev.ck_setCleaner]

/-! An alarm that selection does not raise. -/

theorem Dev.flag_raise_clear (d : Dev) (o : Nat) (f g : Field)
    (h : (f.lo ≤ f.hi ∧ f.hi < 32) ∧ (g.lo ≤ g.hi ∧ g.hi < 32) ∧ (f.hi < g.lo ∨ g.hi < f.lo)) :
    (d.raise o f).flag o g = d.flag o g := d.flag_raise_apart o f g h.1 h.2.1 h.2.2

/-- CK_ALARM.acq_fail. -/
def Dev.acqFailed (d : Dev) : Bool := d.flag R.CK_ALARM F.CK_ALARM_acq_fail

theorem Dev.KeepsClock.acqFailed {d e : Dev} (h : d.KeepsClock e) : e.acqFailed = d.acqFailed := h.flag (by decide) _

/-- A frame without CK_ALARM. -/
theorem Dev.Frame.acqFailed {d e : Dev} {p : List Part} {r : List Nat} (h : d.Frame e p r) (hr : R.CK_ALARM ∉ r) :
    e.acqFailed = d.acqFailed := h.flag_eq hr _

theorem Dev.acqFailed_showConflict (d : Dev) (c : Bool) : (d.showConflict c).acqFailed = d.acqFailed := by
  unfold Dev.showConflict
  refine (Dev.flag_setFld_ne _ _ _ _ (by decide)).trans ?_
  split
  · exact d.flag_raise_clear _ _ _ (by decide)
  · rfl

theorem Dev.acqFailed_retarget (d : Dev) : d.retarget.acqFailed = d.acqFailed := by
  unfold Dev.retarget
  split
  · dsimp only
    split
    · exact Dev.flag_raise_clear _ _ _ _ (by decide)
    · rfl
  · rfl

theorem Dev.acqFailed_enterAcquire (d : Dev) (n : Nat) : (d.enterAcquire n).acqFailed = d.acqFailed :=
  (d.frame_enterAcquire (p := [.ck]) (r := [R.CK_STATUS]) n (by simp) (by simp)).acqFailed (by decide)

theorem Dev.acqFailed_enterSwitching (d : Dev) (n : Nat) : (d.enterSwitching n).acqFailed = d.acqFailed :=
  (d.frame_enterSwitching (p := [.ck]) (r := [R.CK_STATUS]) n (by simp) (by simp)).acqFailed (by decide)

theorem Dev.acqFailed_setCleaner (d : Dev) (st sel : Nat) : (d.setCleaner st sel).acqFailed = d.acqFailed :=
  (d.frame_setCleaner (r := [R.CK_STATUS]) st sel [] (by simp)).acqFailed (by decide)

theorem Dev.acqFailed_setBw (d : Dev) (k : Nat) : (d.setBw k).acqFailed = d.acqFailed :=
  d.flag_setFld_ne _ _ _ (by decide)

theorem Dev.acqFailed_enterFreerun (d : Dev) : d.enterFreerun.acqFailed = d.acqFailed :=
  (Dev.acqFailed_retarget _).trans ((Dev.flag_raise_clear _ _ _ _ (by decide)).trans (Dev.acqFailed_setCleaner _ _ _))

theorem Dev.acqFailed_enterHold (d : Dev) : d.enterHold.acqFailed = d.acqFailed := by
  unfold Dev.enterHold
  split
  · exact (Dev.acqFailed_retarget _).trans ((Dev.flag_raise_clear _ _ _ _ (by decide)).trans
      ((Dev.acqFailed_setBw _ _).trans (Dev.acqFailed_setCleaner _ _ _)))
  · exact d.acqFailed_enterFreerun

theorem Dev.acqFailed_reselect (d : Dev) : d.reselect.acqFailed = d.acqFailed := by
  have hshow (c : Bool) := d.acqFailed_showConflict c
  have hlost (e : Dev) : (e.raise R.CK_ALARM F.CK_ALARM_sel_lost).acqFailed = e.acqFailed :=
    e.flag_raise_clear _ _ _ (by decide)
  unfold Dev.reselect
  dsimp only
  split
  · rfl
  split
  · split
    · exact hshow _
    · exact (Dev.acqFailed_retarget _).trans ((hlost _).trans (hshow _))
  split
  · split
    · exact (Dev.acqFailed_enterAcquire _ _).trans (hshow _)
    · split
      · exact (Dev.acqFailed_enterFreerun _).trans (hshow _)
      · split
        · exact (Dev.acqFailed_enterHold _).trans (hshow _)
        · exact hshow _
  · have hstay (c b : Bool) : (if b then d.showConflict c else
        (d.showConflict c).raise R.CK_ALARM F.CK_ALARM_sel_lost).acqFailed = d.acqFailed := by
      split
      · exact hshow c
      · exact (hlost _).trans (hshow c)
    split
    · split
      · exact hstay _ _
      · exact (Dev.acqFailed_enterSwitching _ _).trans (hstay _ _)
    · split
      · exact (Dev.acqFailed_enterFreerun _).trans (hstay _ _)
      · exact (Dev.acqFailed_enterHold _).trans (hstay _ _)

theorem Dev.acqFailed_disqualify (d : Dev) {n : Nat} (hn : n < 68) : (d.disqualify n).acqFailed = d.acqFailed :=
  (d.frame_disqualify (p := [.ck]) (r := [R.CK_REF_STATUS n]) n (by simp) (by simp)).acqFailed
    (by simp only [R.CK_REF_STATUS, R.CK_ALARM, List.mem_singleton]; omega)

theorem Dev.acqFailed_refEval (d : Dev) {n : Nat} (hn : n < 68) : (d.refEval n).acqFailed = d.acqFailed := by
  have hchanged (e : Dev) (he : e.acqFailed = d.acqFailed) : e.refsChanged.acqFailed = d.acqFailed :=
    (Dev.keepsClock_validCheck _).acqFailed.trans (e.acqFailed_reselect.trans he)
  unfold Dev.refEval
  split
  · rfl
  · refine hchanged _ ?_
    split
    · split
      · exact d.flag_setFld_ne _ _ _ (by simp only [R.CK_REF_STATUS, R.CK_ALARM]; omega)
      · rfl
    · exact d.acqFailed_disqualify hn

/-- A failed acquisition raises its alarm, and the reference is evaluated anew (R41). -/
theorem Dev.acquisition_failed (d : Dev) {n : Nat} (hn : n < 68) :
    let e := (((d.raise R.CK_ALARM F.CK_ALARM_acq_fail).disqualify n).refEval n).settle
    d.Frame e cleanParts (R.CK_REF_STATUS n :: d.cleanRegs) ∧ e.flag R.CK_ALARM F.CK_ALARM_acq_fail = true := by
  have hin : R.CK_REF_STATUS n ∈ [R.CK_REF_STATUS n] ++ d.cleanRegs := by simp
  have hraise : d.Frame (d.raise R.CK_ALARM F.CK_ALARM_acq_fail) cleanParts ([R.CK_REF_STATUS n] ++ d.cleanRegs) :=
    d.frame_raise _ _ (by simp [Dev.cleanRegs])
  have hmove := (hraise.trans (Dev.frame_disqualify _ n (by decide) hin)).moves
    ((Dev.disqualify_ca _ n).trans (Dev.raise_ca _ _ _))
  refine ⟨(hmove.trans (Dev.moves_refEval _ n (List.Subset.refl _) (Dev.CleanIn.keep hmove (d.cleanIn_cons _))
    hin)).frame.settle, ?_⟩
  rw [Dev.flag_settle]
  exact (Dev.acqFailed_refEval _ hn).trans ((Dev.acqFailed_disqualify _ hn).trans
    (d.flag_raise_same _ _ ⟨by decide, by decide⟩))

/-! What selection depends on (R37–R39). -/

/-- Two devices between which selection does not tell: mode, selected reference, agreement of pairs, and the status and
configuration of every reference are the same. -/
structure Dev.SameChoice (d e : Dev) : Prop where
  cfg    : e.reg R.CK_CLN_CFG = d.reg R.CK_CLN_CFG
  selRef : e.selRef = d.selRef
  pairs  : e.ck.pairs = d.ck.pairs
  status : ∀ n < 68, e.reg (R.CK_REF_STATUS n) = d.reg (R.CK_REF_STATUS n)
  refCfg : ∀ n < 68, e.reg (R.CK_REF_CFG n) = d.reg (R.CK_REF_CFG n)

section
variable {d e : Dev}

theorem Dev.SameChoice.qualified (h : d.SameChoice e) {n : Nat} (hn : n < 68) : e.qualified n = d.qualified n := by
  rw [Dev.qualified, Dev.qualified, Dev.fld, Dev.fld, h.status n hn]

theorem Dev.SameChoice.isPps (h : d.SameChoice e) {n : Nat} (hn : n < 68) : e.isPps n = d.isPps n := by
  rw [Dev.isPps, Dev.isPps, Dev.fld, Dev.fld, h.refCfg n hn]

theorem Dev.SameChoice.rank (h : d.SameChoice e) {n : Nat} (hn : n < 68) : e.rank n = d.rank n := by
  rw [Dev.rank, Dev.rank, h.isPps hn, Dev.fld, Dev.fld, h.refCfg n hn]

theorem Dev.SameChoice.disagree (h : d.SameChoice e) : e.disagree = d.disagree := by
  funext a b
  rw [Dev.disagree, Dev.disagree, h.pairs]

/-- The candidates of automatic selection: QUALIFIED references with a rank. -/
def Dev.candidates (d : Dev) : List Nat := (List.range 68).filter fun n => d.qualified n && d.rank n != 0

/-- The best rank among the candidates; 16 where there is none. -/
def Dev.bestRank (d : Dev) : Nat := d.candidates.foldl (fun m n => min m (d.rank n)) 16

/-- The candidates of the best rank. -/
def Dev.topRefs (d : Dev) : List Nat := d.candidates.filter fun n => d.rank n == d.bestRank

theorem Dev.lt_of_mem_candidates {n : Nat} (h : n ∈ d.candidates) : n < 68 :=
  List.mem_range.1 (List.mem_of_mem_filter h)

theorem Dev.SameChoice.candidates (h : d.SameChoice e) : e.candidates = d.candidates :=
  List.filter_congr fun n hn => by rw [h.qualified (List.mem_range.1 hn), h.rank (List.mem_range.1 hn)]

theorem Dev.SameChoice.bestRank (h : d.SameChoice e) : e.bestRank = d.bestRank := by
  rw [Dev.bestRank, Dev.bestRank, h.candidates]
  exact List.foldl_ext _ _ _ fun m n hn => by rw [h.rank (Dev.lt_of_mem_candidates hn)]

theorem Dev.SameChoice.topRefs (h : d.SameChoice e) : e.topRefs = d.topRefs := by
  rw [Dev.topRefs, Dev.topRefs, h.candidates, h.bestRank]
  exact List.filter_congr fun n hn => by rw [h.rank (Dev.lt_of_mem_candidates hn)]

/-- What selection gives in a mode, from the forced reference, the references of the best rank and the selected one. -/
def Dev.chooseIn (d : Dev) (mode : Nat) : Option Nat × Bool :=
  match mode with
  | 2 => (none, false)
  | 1 =>
    let n := d.fld R.CK_CLN_CFG F.CK_CLN_CFG_forced_ref
    (if decide (n < 68) && d.qualified n && !d.isPps n then some n else none, false)
  | _ =>
    let conflict := d.topRefs.any fun a => d.topRefs.any fun b => decide (a < b) && d.disagree a b
    if d.topRefs.contains d.selRef then (some d.selRef, conflict)
    else if conflict then (none, true)
    else (d.topRefs.head?, false)

theorem Dev.choose_eq (d : Dev) : d.choose = d.chooseIn (d.fld R.CK_CLN_CFG F.CK_CLN_CFG_sel_mode) := rfl

theorem Dev.SameChoice.choose (h : d.SameChoice e) : e.choose = d.choose := by
  have hfld (f : Field) : e.fld R.CK_CLN_CFG f = d.fld R.CK_CLN_CFG f := by rw [Dev.fld, Dev.fld, h.cfg]
  rw [e.choose_eq, d.choose_eq, hfld]
  unfold Dev.chooseIn
  split
  · rfl
  · dsimp only
    rw [hfld]
    by_cases hn : d.fld R.CK_CLN_CFG F.CK_CLN_CFG_forced_ref < 68
    · rw [h.qualified hn, h.isPps hn]
    · simp [hn]
  · rw [h.topRefs, h.selRef, h.disagree]

end

/-- Selection that gives the selected reference again leaves LOCKED as it is. -/
theorem Dev.reselect_of_choose_selRef {d : Dev} (hst : d.cleaner = 4) (hsel : d.choose.1 = some d.selRef) :
    d.reselect.cleaner = 4 ∧ d.reselect.selRef = d.selRef := by
  have hstay (b : Bool) : (if b then d.showConflict d.choose.2 else
      (d.showConflict d.choose.2).raise R.CK_ALARM F.CK_ALARM_sel_lost).cleaner = 4 ∧
      (if b then d.showConflict d.choose.2 else
        (d.showConflict d.choose.2).raise R.CK_ALARM F.CK_ALARM_sel_lost).selRef = d.selRef := by
    split <;> simp [hst]
  have hres : d.reselect = if d.qualified d.selRef then d.showConflict d.choose.2 else
      (d.showConflict d.choose.2).raise R.CK_ALARM F.CK_ALARM_sel_lost := by
    simp [Dev.reselect, hst, hsel]
  rw [hres]
  exact hstay _

/-! The end of SWITCHING (R37, R44). -/

/-- A fold of steps that each leave a value leaves it. -/
theorem foldl_eq_self {α β : Type} {g : α → β → α} {a : α} {xs : List β} (h : ∀ x ∈ xs, g a x = a) :
    xs.foldl g a = a := by
  induction xs with
  | nil => rfl
  | cons x xs ih => rw [List.foldl_cons, h x (by simp), ih fun y hy => h y (by simp [hy])]

/-- Where SWITCHING held nothing back, its end releases nothing. -/
theorem Dev.switchRelease_of_none_held {d : Dev} (h : ∀ n, n < 68 → (d.refH n).held = false) : d.switchRelease = d :=
  foldl_eq_self fun n hn => if_neg (by simp [h n (List.mem_range.1 hn)])

/-- A step of the cleaner, and the validity that follows. -/
theorem Dev.Frame.validCheck {d e : Dev} (h : d.Frame e [.ck] [R.CK_STATUS]) :
    d.Moves e.validCheck cleanParts d.cleanRegs :=
  have hmove : d.Moves e cleanParts d.cleanRegs :=
    (h.mono (by decide) (by simp [Dev.cleanRegs])).moves (h.ca_eq (by decide))
  hmove.trans (e.moves_validCheck (List.Subset.refl _) (Dev.CleanIn.keep hmove (List.Subset.refl d.cleanRegs)))

theorem Dev.frame_status_enterLocked (d : Dev) : d.Frame d.enterLocked [.ck] [R.CK_STATUS] := d.frame_enterLocked _ (by simp)

/-- The cleaner in LOCKED, and the validity that follows, tell selection nothing new. -/
theorem Dev.sameChoice_enterLocked (d : Dev) : d.SameChoice d.enterLocked.validCheck := by
  have hclock := d.enterLocked.keepsClock_validCheck
  have hreg {o : Nat} (ho : o / 0x10000 = 1) (hne : o ≠ R.CK_STATUS) : d.enterLocked.validCheck.reg o = d.reg o :=
    (hclock.reg o ho).trans (d.frame_status_enterLocked.reg_eq (by simpa using hne))
  have hpairs := congrArg Ck.pairs (hclock.ck.trans d.ck_enterLocked)
  refine ⟨hreg (by decide) (by decide), hclock.selRef.trans d.selRef_enterLocked, hpairs, fun n hn => ?_, fun n hn => ?_⟩
  · exact hreg (by simp only [R.CK_REF_STATUS]; omega) (by simp only [R.CK_REF_STATUS, R.CK_STATUS]; omega)
  · exact hreg (by simp only [R.CK_REF_CFG]; omega) (by simp only [R.CK_REF_CFG, R.CK_STATUS]; omega)

/-- SWITCHING ends in LOCKED where its reference lies close, stays chosen, and nothing is held back. -/
theorem Dev.switching_ended (d : Dev) (hheld : ∀ n, n < 68 → (d.refH n).held = false)
    (hsel : d.choose.1 = some d.selRef) :
    let e := d.enterLocked.validCheck.switchRelease.refsChanged.settle
    d.Frame e cleanParts d.cleanRegs ∧ e.cleaner = 4 ∧ e.selRef = d.selRef := by
  have hclock := d.enterLocked.keepsClock_validCheck
  have hsame := d.sameChoice_enterLocked
  have hrelease : d.enterLocked.validCheck.switchRelease = d.enterLocked.validCheck :=
    Dev.switchRelease_of_none_held fun n hn => by
      rw [Dev.refH, hclock.ck, d.ck_enterLocked]
      exact hheld n hn
  obtain ⟨hst, href⟩ := Dev.reselect_of_choose_selRef (hclock.cleaner.trans d.cleaner_enterLocked)
    (by rw [hsame.choose, hsame.selRef, hsel])
  have hafter := Dev.keepsClock_validCheck d.enterLocked.validCheck.reselect
  dsimp only
  rw [hrelease]
  refine ⟨(Dev.Moves.refsChanged (r := []) d.frame_status_enterLocked.validCheck).frame.settle, ?_, ?_⟩
  · rw [Dev.cleaner_settle]
    exact hafter.cleaner.trans hst
  · rw [Dev.selRef_settle]
    exact hafter.selRef.trans (href.trans hsame.selRef)

/-! The rows. -/

/-- The end of a build-out (R41, R48). -/
theorem build_out_ended {s : State} (phase ppb : Int) (hs : s.Up) (h : s.dev.ck.buildOut = true) :
    Answers (.buildOutEnd phase ppb) s (fun e =>
      s.dev.Frame e [.ck] [] ∧
      e.ck = { s.dev.ck with buildOut := false, zero := phase, zeroSp := s.dev.ck.spNow
                             swClose := s.dev.cleaner == 5 && decide (ppb.natAbs < 100) }) := by
  refine .of_running (f := fun d => if !d.ck.buildOut then d
    else { d with ck := { d.ck with buildOut := false, zero := phase, zeroSp := d.ck.spNow
                                    swClose := d.cleaner == 5 && decide (ppb.natAbs < 100) } }) hs rfl ?_
  rw [if_neg (by simp [h])]
  exact ⟨(s.dev.frame_ck _ _ (by decide)).settle, Dev.settle_ck _⟩

/-- The end of ACQUIRE (R41, R43). -/
theorem acquire_ended {s : State} (hs : s.Up) (hst : s.dev.cleaner = 2) (hb : s.dev.ck.buildOut = false) :
    Answers .acquireEnd s (fun e =>
      s.dev.Frame e cleanParts s.dev.cleanRegs ∧ e.cleaner = 3 ∧ e.selRef = s.dev.selRef ∧
      e.ck.bwFinal = max s.dev.bwAcq (s.dev.fld R.CK_CLN_CFG F.CK_CLN_CFG_bw_final)) := by
  have hclock := s.dev.enterNarrow.keepsClock_validCheck
  refine .of_running (f := fun d => if d.cleaner = 2 ∧ !d.ck.buildOut then d.enterNarrow.validCheck else d) hs rfl ?_
  rw [if_pos (by simp [hst, hb]), Dev.cleaner_settle, Dev.selRef_settle, Dev.settle_ck, hclock.cleaner, hclock.selRef,
    hclock.ck, s.dev.ck_enterNarrow]
  exact ⟨(s.dev.frame_enterNarrow (by decide) (by simp)).validCheck.frame.settle, s.dev.cleaner_enterNarrow,
    s.dev.selRef_enterNarrow, rfl⟩

/-- An acquisition that fails (R34, R41). -/
theorem acquire_failed {s : State} (hs : s.Up) (hst : s.dev.cleaner = 2) (hsel : s.dev.selRef < 68) :
    Answers .acquisitionFailure s (fun e =>
      s.dev.Frame e cleanParts (R.CK_REF_STATUS s.dev.selRef :: s.dev.cleanRegs) ∧
      e.flag R.CK_ALARM F.CK_ALARM_acq_fail = true) := by
  refine .of_running (f := fun d => if d.cleaner != 2 then d
    else ((d.raise R.CK_ALARM F.CK_ALARM_acq_fail).disqualify d.selRef).refEval d.selRef) hs rfl ?_
  rw [if_neg (by simp [hst])]
  exact s.dev.acquisition_failed hsel

/-- A step of the bandwidth in NARROW (R43). -/
theorem narrow_stepped {s : State} (hs : s.Up) (hst : s.dev.cleaner = 3)
    (hlt : s.dev.fld R.CK_STATUS F.CK_STATUS_bw_now < s.dev.ck.bwFinal) (hbw : s.dev.ck.bwFinal < 16) :
    Answers .narrowStep s (fun e => s.dev.RegsOnly e ∧ s.dev.KeepsRegs e [R.CK_STATUS] ∧ e.cleaner = 3 ∧
      e.fld R.CK_STATUS F.CK_STATUS_bw_now = s.dev.fld R.CK_STATUS F.CK_STATUS_bw_now + 1) := by
  refine .of_running (f := fun d => if d.cleaner = 3 ∧ d.fld R.CK_STATUS F.CK_STATUS_bw_now < d.ck.bwFinal
    then d.setBw (d.fld R.CK_STATUS F.CK_STATUS_bw_now + 1) else d) hs rfl ?_
  rw [if_pos ⟨hst, hlt⟩, Dev.cleaner_settle, Dev.fld_settle, Dev.cleaner_setBw]
  have hframe : s.dev.Frame (s.dev.setBw (s.dev.fld R.CK_STATUS F.CK_STATUS_bw_now + 1)) [] [R.CK_STATUS] :=
    s.dev.frame_setFld _ _ _ (by simp)
  refine ⟨(s.dev.regsOnly_setFld _ _ _).settle, hframe.settle.2, hst, ?_⟩
  exact s.dev.fld_setFld_low _ _ _ ⟨by decide, by decide, show _ < 16 by omega⟩

/-- The end of NARROW (R41). -/
theorem narrow_ended {s : State} (hs : s.Up) (hst : s.dev.cleaner = 3)
    (hbw : s.dev.fld R.CK_STATUS F.CK_STATUS_bw_now = s.dev.ck.bwFinal) :
    Answers .narrowEnd s (fun e =>
      s.dev.Frame e cleanParts s.dev.cleanRegs ∧ e.cleaner = 4 ∧ e.selRef = s.dev.selRef) := by
  have hclock := s.dev.enterLocked.keepsClock_validCheck
  refine .of_running (f := fun d => if d.cleaner = 3 ∧ d.fld R.CK_STATUS F.CK_STATUS_bw_now = d.ck.bwFinal
    then d.enterLocked.validCheck else d) hs rfl ?_
  rw [if_pos ⟨hst, hbw⟩, Dev.cleaner_settle, Dev.selRef_settle, hclock.cleaner, hclock.selRef]
  exact ⟨s.dev.frame_status_enterLocked.validCheck.frame.settle, s.dev.cleaner_enterLocked, s.dev.selRef_enterLocked⟩

/-- The return to ACQUIRE on the same reference (R41). -/
theorem acquire_resumed {s : State} (hs : s.Up) (hst : s.dev.cleaner = 3 ∨ s.dev.cleaner = 4) :
    Answers .phaseErrorExceeded s (fun e =>
      s.dev.Frame e cleanParts s.dev.cleanRegs ∧ e.cleaner = 2 ∧ e.selRef = s.dev.selRef ∧ e.ck.buildOut = true) := by
  have hclock := (s.dev.enterAcquire s.dev.selRef).keepsClock_validCheck
  refine .of_running (f := fun d => if d.cleaner = 3 ∨ d.cleaner = 4 then (d.enterAcquire d.selRef).validCheck else d)
    hs rfl ?_
  rw [if_pos hst, Dev.cleaner_settle, Dev.selRef_settle, Dev.settle_ck, hclock.cleaner, hclock.selRef, hclock.ck,
    s.dev.ck_enterAcquire]
  exact ⟨(s.dev.frame_enterAcquire _ (by decide) (by simp)).validCheck.frame.settle, s.dev.cleaner_enterAcquire _,
    s.dev.selRef_enterAcquire s.dev.selRef_lt, rfl⟩

/-- The end of SWITCHING in LOCKED (R37, R44). -/
theorem switching_ended {s : State} (hs : s.Up) (hst : s.dev.cleaner = 5) (hlost : s.dev.ck.swLost = false)
    (hclose : s.dev.ck.swClose = true) (hheld : ∀ n, n < 68 → (s.dev.refH n).held = false)
    (hsel : s.dev.choose.1 = some s.dev.selRef) :
    Answers .switchingEnd s (fun e =>
      s.dev.Frame e cleanParts s.dev.cleanRegs ∧ e.cleaner = 4 ∧ e.selRef = s.dev.selRef) := by
  refine .of_running (f := fun d => if d.cleaner != 5 then d else (if d.ck.swLost then d.enterHold else if d.ck.swClose
    then d.enterLocked else d.enterAcquire d.selRef).validCheck.switchRelease.refsChanged) hs rfl ?_
  rw [if_neg (by simp [hst]), if_neg (by simp [hlost]), if_pos hclose]
  exact s.dev.switching_ended hheld hsel

/-- Settles O2, row by row: each enters a state, and validity and selection after it leave that state. -/
theorem cleanerRows : Obligations.CleanerRows := fun _ phase ppb hs =>
  ⟨build_out_ended phase ppb hs, acquire_ended hs, acquire_failed hs, narrow_stepped hs, narrow_ended hs,
    acquire_resumed hs, switching_ended hs⟩

end Sys2Proof.Machine
end

section
/-! PROOF of O3. Holdover samples and steering; the first lock and what leaves the image's records behind it; what a loss of
ROOT lock does to the clock tree, and what everything that follows from it leaves alone (R45, R50, R51, R54). -/

namespace Sys2Proof.Machine

/-! Holdover (R45). -/

/-- The samples move CK_HOLD_FREQ and hold_valid alone. -/
theorem Dev.frame_holdUpdate (d : Dev) : d.Frame d.holdUpdate [] [R.CK_HOLD_FREQ, R.CK_STATUS] := by
  unfold Dev.holdUpdate
  dsimp only
  have hmean (c : Prop) [Decidable c] (v : Int) : d.Frame (if c then d else d.setSigned R.CK_HOLD_FREQ
      F.CK_HOLD_FREQ_value v) [] [R.CK_HOLD_FREQ, R.CK_STATUS] :=
    Dev.frame_ite (.refl d _ _) (d.frame_setSigned _ _ _ (by simp))
  exact Dev.frame_ite ((hmean _ _).trans (Dev.frame_setFlag _ _ _ _ (by simp))) (hmean _ _)

/-- The frequency in force computed anew: only the target of the steering moves. -/
theorem Dev.ck_retarget (d : Dev) : ∃ f, d.retarget.ck = { d.ck with dcoTarget := f } := by
  unfold Dev.retarget
  split
  · dsimp only
    split
    · exact ⟨_, Dev.raise_ck _ _ _⟩
    · exact ⟨_, rfl⟩
  · exact ⟨d.ck.dcoTarget, rfl⟩

@[simp] theorem Dev.episode_retarget (d : Dev) : d.retarget.ck.episode = d.ck.episode := by
  obtain ⟨f, hf⟩ := d.ck_retarget
  rw [hf]

@[simp] theorem Dev.holdSecs_retarget (d : Dev) : d.retarget.ck.holdSecs = d.ck.holdSecs := by
  obtain ⟨f, hf⟩ := d.ck_retarget
  rw [hf]

/-! The cleaner's start (R41, R56). -/

theorem Dev.episode_enterAcquire (d : Dev) (n : Nat) : (d.enterAcquire n).ck.episode = d.ck.episode := by
  rw [d.ck_enterAcquire]

theorem Dev.episode_enterFreerun (d : Dev) : d.enterFreerun.ck.episode = d.ck.episode := by
  rw [Dev.enterFreerun, Dev.episode_retarget, Dev.raise_ck, Dev.ck_setCleaner]

theorem Dev.episode_enterHold (d : Dev) : d.enterHold.ck.episode = d.ck.episode := by
  unfold Dev.enterHold
  split
  · rw [Dev.episode_retarget, Dev.raise_ck, Dev.ck_setBw, Dev.ck_setCleaner]
  · exact d.episode_enterFreerun

theorem Dev.ck_showConflict (d : Dev) (c : Bool) : (d.showConflict c).ck = d.ck :=
  (d.frame_showConflict (r := [R.CK_STATUS, R.CK_ALARM]) c [] (by simp) (by simp)).ck_eq (by simp)

theorem Dev.frame_cleanerStart (d : Dev) (recovery : Bool) :
    d.Frame (d.cleanerStart recovery) [.ck] [R.CK_STATUS, R.CK_ALARM] := by
  have hs : R.CK_STATUS ∈ [R.CK_STATUS, R.CK_ALARM] := by simp
  have ha : R.CK_ALARM ∈ [R.CK_STATUS, R.CK_ALARM] := by simp
  have hk : Part.ck ∈ [Part.ck] := by simp
  have hshow := d.frame_showConflict d.choose.2 [.ck] hs ha
  unfold Dev.cleanerStart
  dsimp only
  split
  · exact hshow.trans (Dev.frame_enterAcquire _ _ hk hs)
  · exact hshow.trans (Dev.frame_ite (Dev.frame_enterHold _ hk hs ha) (Dev.frame_enterFreerun _ hk hs ha))

theorem Dev.episode_cleanerStart (d : Dev) (recovery : Bool) : (d.cleanerStart recovery).ck.episode = d.ck.episode := by
  have hshow (c : Bool) : (d.showConflict c).ck.episode = d.ck.episode := congrArg Ck.episode (d.ck_showConflict c)
  unfold Dev.cleanerStart
  dsimp only
  split
  · exact (Dev.episode_enterAcquire _ _).trans (hshow _)
  · split
    · exact (Dev.episode_enterHold _).trans (hshow _)
    · exact (Dev.episode_enterFreerun _).trans (hshow _)

theorem Dev.load_validCheck (d : Dev) : d.validCheck.load = d.load :=
  (d.frame_validCheck (List.Subset.refl validParts) (List.Subset.refl _)).load_eq (by decide)

theorem Dev.load_validBegin (d : Dev) : d.validBegin.load = d.load := by
  unfold Dev.validBegin
  split
  · rfl
  · exact (Dev.load_validCheck _).trans
      ((d.frame_setValidity 1 (List.Subset.refl validParts) (List.Subset.refl _)).load_eq (by decide))

/-! The first lock (R50, R333). -/

/-- The synthesizer locked for the first time, before the cleaner starts. -/
def Dev.firstLocked (d : Dev) : Dev :=
  ({ d with ck := { d.ck with episode := none, restart := false } } : Dev).setFlag R.CK_SYN_STATUS
    F.CK_SYN_STATUS_locked true

theorem Dev.lockDeclared_eq_firstLocked {d : Dev} (h : d.ck.episode = some .first) :
    d.lockDeclared = (d.firstLocked.cleanerStart false).validBegin := by
  unfold Dev.lockDeclared
  rw [h]
  rfl

/-- Lock is declared for the first time. -/
theorem Dev.lockDeclared_first {d : Dev} (h : d.ck.episode = some .first) :
    d.lockDeclared.rootLocked = true ∧ d.lockDeclared.ck.episode = none ∧ d.lockDeclared.load = d.load := by
  have hstart := d.firstLocked.frame_cleanerStart false
  have hclock := (d.firstLocked.cleanerStart false).keepsClock_validBegin
  have hlocked : d.firstLocked.rootLocked = true := Dev.flag_setFlag_same _ _ _ _ (by decide)
  rw [Dev.lockDeclared_eq_firstLocked h, hclock.rootLocked, hclock.ck, Dev.load_validBegin, Dev.episode_cleanerStart,
    hstart.load_eq (by decide)]
  exact ⟨(hstart.flag_eq (by decide) _).trans hlocked, rfl, rfl⟩

theorem Dev.bisqueApplied_of_no_load {d : Dev} (h : d.load = none) : d.bisqueApplied = d := by
  simp [Dev.bisqueApplied, h]

/-- The first lock attempt of a device whose image is applied. -/
def Dev.firstAttempt (d : Dev) : Dev :=
  ({ d with load := none, ck := { d.ck with episode := some .first, restart := false } } : Dev).setAttempts 1

/-- An image with no record left leads to the first lock attempt. -/
theorem Dev.bisqueApplied_of_applied {d : Dev} {l : Load} (hl : d.load = some l) (hrecs : l.recs = [])
    (hs : d.stage = .bisque) : d.bisqueApplied = d.firstAttempt.validBegin := by
  have hrest : d.loadRest = { d with load := none } := by simp [Dev.loadRest, hl, hrecs]
  rw [Dev.bisqueApplied, if_pos ⟨hs, by simp [hl]⟩, hrest]
  rfl

@[simp] theorem Dev.ck_setAttempts (d : Dev) (k : Nat) : (d.setAttempts k).ck = d.ck := by
  rw [Dev.setAttempts, Dev.setFld_ck]

theorem Dev.load_setAttempts (d : Dev) (k : Nat) : (d.setAttempts k).load = d.load := by
  rw [Dev.setAttempts, Dev.setFld_load]

theorem Dev.ck_firstAttempt (d : Dev) :
    d.firstAttempt.validBegin.ck = { d.ck with episode := some .first, restart := false } := by
  rw [d.firstAttempt.keepsClock_validBegin.ck, Dev.firstAttempt, Dev.ck_setAttempts]

theorem Dev.load_firstAttempt (d : Dev) : d.firstAttempt.validBegin.load = none := by
  rw [Dev.load_validBegin, Dev.firstAttempt, Dev.load_setAttempts]

theorem Dev.rootLocked_firstAttempt (d : Dev) : d.firstAttempt.validBegin.rootLocked = d.rootLocked :=
  d.firstAttempt.keepsClock_validBegin.rootLocked.trans (Dev.flag_setFld_clear _ _ _ _ _ (by decide))

/-- CK_SYN_STATUS.attempts. -/
def Dev.attempts (d : Dev) : Nat := d.fld R.CK_SYN_STATUS F.CK_SYN_STATUS_attempts

theorem Dev.attempts_setAttempts (d : Dev) {k : Nat} (hk : k < 16) : (d.setAttempts k).attempts = k :=
  d.fld_setFld_low _ _ _ ⟨by decide, by decide, hk⟩

theorem Dev.KeepsClock.attempts {d e : Dev} (h : d.KeepsClock e) : e.attempts = d.attempts := h.fld (by decide) _

theorem Dev.attempts_firstAttempt (d : Dev) : d.firstAttempt.validBegin.attempts = 1 :=
  d.firstAttempt.keepsClock_validBegin.attempts.trans (Dev.attempts_setAttempts _ (by decide))

/-- An attempt that fails, with more to come, leads to the next one (R54). -/
theorem Dev.attemptFail_next {d : Dev} (hep : d.ck.episode ≠ none) (hr : d.ck.restart = false) (hk : d.attempts < 8) :
    d.attemptFail = d.setAttempts (d.attempts + 1) := by
  have hsome : ¬ d.ck.episode.isNone = true := by simpa using hep
  unfold Dev.attemptFail
  rw [if_neg hsome]
  dsimp only
  rw [if_neg (by simp [hr]), ← Dev.attempts, if_pos hk]

/-! What leaves the lock being sought alone. -/

/-- The registers of the clock block and the reason for which a lock is sought are the same in `e` as in `d`. -/
structure Dev.KeepsLock (d e : Dev) : Prop where
  episode : e.ck.episode = d.ck.episode
  reg     : ∀ o, o / 0x10000 = 1 → e.reg o = d.reg o

theorem Dev.KeepsLock.trans {d e f : Dev} (h : d.KeepsLock e) (h' : e.KeepsLock f) : d.KeepsLock f :=
  ⟨h'.episode.trans h.episode, fun o ho => (h'.reg o ho).trans (h.reg o ho)⟩

theorem Dev.KeepsLock.refl (d : Dev) : d.KeepsLock d := ⟨rfl, fun _ _ => rfl⟩

theorem Dev.KeepsLock.foldl {α : Type} {g : Dev → α → Dev} (hg : ∀ (d : Dev) (x : α), d.KeepsLock (g d x))
    (xs : List α) (d : Dev) : d.KeepsLock (xs.foldl g d) := by
  induction xs generalizing d with
  | nil => exact .refl d
  | cons x xs ih => exact (hg d x).trans (ih (g d x))

theorem Dev.keepsLock_setRefH (d : Dev) (n : Nat) (x : RefH) : d.KeepsLock (d.setRefH n x) := ⟨rfl, fun _ _ => rfl⟩

theorem Dev.keepsLock_setPpsOut (d : Dev) (m : Nat) (x : PpsOut) : d.KeepsLock (d.setPpsOut m x) := ⟨rfl, fun _ _ => rfl⟩

theorem Dev.KeepsLock.fld {d e : Dev} (h : d.KeepsLock e) {o : Nat} (ho : o / 0x10000 = 1) (f : Field) :
    e.fld o f = d.fld o f := by
  rw [Dev.fld, Dev.fld, h.reg o ho]

theorem Dev.KeepsLock.inFault {d e : Dev} (h : d.KeepsLock e) : e.inFault = d.inFault := by
  rw [Dev.inFault, Dev.inFault, h.fld (by decide)]

theorem Dev.KeepsClock.keepsLock {d e : Dev} (h : d.KeepsClock e) : d.KeepsLock e := ⟨congrArg Ck.episode h.ck, h.reg⟩

theorem Dev.KeepsClock.foldl {α : Type} {g : Dev → α → Dev} (hg : ∀ (d : Dev) (x : α), d.KeepsClock (g d x))
    (xs : List α) (d : Dev) : d.KeepsClock (xs.foldl g d) := by
  induction xs generalizing d with
  | nil => exact .refl d
  | cons x xs ih => exact (hg d x).trans (ih (g d x))

theorem Dev.KeepsClock.ite {a b d : Dev} {c : Prop} [Decidable c] (ha : d.KeepsClock a) (hb : d.KeepsClock b) :
    d.KeepsClock (if c then a else b) := by
  split
  · exact ha
  · exact hb

theorem Dev.keepsClock_setReg (d : Dev) {o : Nat} (w : Word) (h : o / 0x10000 ≠ 1) : d.KeepsClock (d.setReg o w) :=
  (d.frame_setReg (r := [o]) w [] (by simp)).keepsClock (by simp) (by simpa using h)

theorem Dev.keepsClock_raise (d : Dev) {o : Nat} (f : Field) (h : o / 0x10000 ≠ 1) : d.KeepsClock (d.raise o f) :=
  (d.frame_raise (r := [o]) f [] (by simp)).keepsClock (by simp) (by simpa using h)

theorem Dev.keepsClock_emit (d : Dev) (x : Out) : d.KeepsClock (d.emit x) := ⟨rfl, fun _ _ => rfl⟩

theorem Dev.keepsClock_setPort (d : Dev) (p : Nat) (x : Port) : d.KeepsClock (d.setPort p x) := ⟨rfl, fun _ _ => rfl⟩

theorem Dev.keepsClock_count (d : Dev) (n k : Nat) : d.KeepsClock (d.count n k) :=
  (d.frame_count (r := [R.PC_ALARM]) n k [] (by simp)).keepsClock (by simp) (by decide)

theorem Dev.keepsClock_record (d : Dev) (typ : Nat) (body : List Byte) : d.KeepsClock (d.record typ body) :=
  (d.frame_record (p := [.log]) (r := logRegs) typ body (by simp) (List.Subset.refl _)).keepsClock (by decide) (by decide)

/-! A loss of ROOT lock and what follows from it (R51). -/

theorem Dev.keepsClock_pfcSend (d : Dev) (p : Nat) (off : List Nat) : d.KeepsClock (d.pfcSend p off) := by
  have hemit (m : Nat) : d.KeepsClock (d.pfcEmit p m) := by
    have hsent (x : Out) := (d.keepsClock_count (portCtr p 19) 1).trans (Dev.keepsClock_emit _ x)
    exact .ite (hsent _) (hsent _)
  unfold Dev.pfcSend
  exact .ite (.refl d) (.ite ⟨rfl, fun _ _ => rfl⟩ (hemit _))

theorem Dev.keepsClock_holdPorts (d : Dev) : d.KeepsClock d.holdPorts := by
  refine Dev.KeepsClock.foldl (fun d p => ?_) _ d
  split
  · exact .refl d
  · exact (d.keepsClock_setPort p _).trans (Dev.keepsClock_pfcSend _ p [])

theorem Dev.keepsClock_edgeFault (d : Dev) : d.KeepsClock d.edgeFault := by
  refine Dev.KeepsClock.foldl (fun d c => ?_) _ d
  have hcut : d.KeepsClock (d.cutRun c) :=
    (d.frame_cutRun (p := [.chans]) c [] (by simp)).keepsClock (by decide) (by simp)
  dsimp only
  split
  · exact hcut.trans ((Dev.frame_endRun _ (p := [.chans]) (r := [R.PC_ALARM]) c _ (by simp) (by simp)).keepsClock
      (by decide) (by decide))
  · exact hcut

theorem Dev.keepsClock_calAbort (d : Dev) : d.KeepsClock d.calAbort :=
  (d.frame_calAbort (p := validParts) (r := d.validRegs) (by decide) (by decide) (validRegs_of d (List.Subset.refl _))
    fun o ho => by simp [Dev.validRegs, ho]).keepsClock (by decide) Dev.not_clock_of_mem_validRegs

/-- Pulses in progress end low: the clock tree's hidden state, and what leaves the device. -/
theorem Dev.keepsLock_gatePps (d : Dev) : d.KeepsLock d.gatePps := by
  refine Dev.KeepsLock.foldl (fun d m => ?_) _ d
  split
  · exact (d.keepsLock_setPpsOut m _).trans (Dev.keepsClock_emit _ _).keepsLock
  · exact .refl d

theorem Dev.keepsLock_spoilPps (d : Dev) : d.KeepsLock d.spoilPps :=
  Dev.KeepsLock.foldl (fun d n => d.keepsLock_setRefH n _) _ d

/-- During a loss of ROOT lock no block changes state. -/
theorem Dev.applyEnables_of_inFault {d : Dev} (h : d.inFault = true) : d.applyEnables = d :=
  foldl_eq_self fun _ _ => if_pos h

theorem Dev.keepsClock_stopWalk (d : Dev) : d.KeepsClock d.stopWalk :=
  (show d.KeepsClock { d with en := { d.en with ports := [], cur := none, sendUp := none, sendDown := [] } } from
    ⟨rfl, fun _ _ => rfl⟩).trans (Dev.keepsClock_setReg _ _ (by decide))

/-- A device that yields, before its blocks follow the stage. -/
def Dev.yieldBegun (d : Dev) (cause : Nat) : Dev :=
  ((((({ d with stage := .yielded } : Dev).setPair 4).recStage 4 cause).raise R.PS_ALARM F.PS_ALARM_yielded).setReg R.PS_LOST
    (BitVec.ofNat 32 d.framesHeld)).stopWalk

theorem Dev.yieldNow_eq (d : Dev) (cause : Nat) :
    d.yieldNow cause = if d.pairState != 3 then d else (d.yieldBegun cause).applyEnables := rfl

theorem Dev.keepsClock_yieldBegun (d : Dev) (cause : Nat) : d.KeepsClock (d.yieldBegun cause) :=
  have hstage : d.KeepsClock { d with stage := .yielded } := ⟨rfl, fun _ _ => rfl⟩
  ((((hstage.trans (Dev.keepsClock_setReg _ _ (by decide))).trans (Dev.keepsClock_record _ _ _)).trans
    (Dev.keepsClock_raise _ _ (by decide))).trans (Dev.keepsClock_setReg _ _ (by decide))).trans (Dev.keepsClock_stopWalk _)

/-- A device that yields in FAULT keeps its clock tree. -/
theorem Dev.keepsClock_yieldOn {d : Dev} (h : d.inFault = true) (cause : Nat) : d.KeepsClock (d.yieldOn cause) := by
  have hbegun := d.keepsClock_yieldBegun cause
  have hnow : d.KeepsClock (d.yieldNow cause) := by
    rw [d.yieldNow_eq, Dev.applyEnables_of_inFault (hbegun.inFault.trans h)]
    exact .ite (.refl d) hbegun
  exact .ite hnow (.refl d)

/-- What a loss of ROOT lock reaches beyond the clock tree's registers: running schedules, validity, a calibration, pulses,
1PPS periods, and the pair. -/
def Dev.faultSpread (d : Dev) : Dev := (((d.edgeFault.setValidity 0).calAbort).gatePps.spoilPps).yieldOn 17

theorem Dev.keepsLock_faultSpread {d : Dev} (h : d.inFault = true) : d.KeepsLock d.faultSpread := by
  have hpulses : d.KeepsLock (((d.edgeFault.setValidity 0).calAbort).gatePps.spoilPps) :=
    (((d.keepsClock_edgeFault.trans (Dev.keepsClock_setValidity _ 0)).trans (Dev.keepsClock_calAbort _)).keepsLock.trans
      (Dev.keepsLock_gatePps _)).trans (Dev.keepsLock_spoilPps _)
  exact hpulses.trans (Dev.keepsClock_yieldOn (hpulses.inFault.trans h) 17).keepsLock

/-- The cleaner in FAULT: lock is sought for a reason, by its first attempt. -/
def Dev.faultBegun (d : Dev) (why : Episode) : Dev :=
  ((({ d with pc := { d.pc with telFault := true }
              ck := { d.ck with episode := some why, restart := false, idled := false, buildOut := false } } : Dev).setFld
    R.CK_STATUS F.CK_STATUS_state 7).setFlag R.CK_SYN_STATUS F.CK_SYN_STATUS_locked false).setAttempts 1

/-- A declared loss is counted (R51, R68). -/
def Dev.lossCounted (d : Dev) : Dev :=
  ((d.addSat R.CK_SYN_STATUS F.CK_SYN_STATUS_loss_count 1).count (devCtr 10)).raise R.CK_ALARM F.CK_ALARM_fault

/-- A declared loss: FAULT, counted and recorded, and all that follows. -/
theorem Dev.loseLock_declared {d : Dev} (h : d.rootLocked = true) :
    d.loseLock false = ((d.holdPorts.faultBegun .loss).lossCounted.recClock 1 0
      (d.holdPorts.faultBegun .loss).lossCounted.lossCount).faultSpread := by
  rw [Dev.loseLock, h]
  rfl

/-- A controlled relock: FAULT, recorded and not counted, and all that follows. -/
theorem Dev.loseLock_controlled {d : Dev} (h : d.rootLocked = true) :
    d.loseLock true = ((d.holdPorts.faultBegun .controlled).recClock 4 0
      (d.holdPorts.faultBegun .controlled).lossCount).faultSpread := by
  rw [Dev.loseLock, h]
  rfl

/-- Lock is sought from FAULT, for a reason, by the first attempt. -/
structure Dev.Seeking (d : Dev) (why : Episode) : Prop where
  inFault  : d.inFault = true
  unlocked : d.rootLocked = false
  episode  : d.ck.episode = some why
  attempts : d.attempts = 1

theorem Dev.KeepsLock.seeking {d e : Dev} {why : Episode} (h : d.KeepsLock e) (hd : d.Seeking why) : e.Seeking why where
  inFault := h.inFault.trans hd.inFault
  unlocked := by
    rw [← hd.unlocked, Dev.rootLocked, Dev.rootLocked, Dev.flag, Dev.flag, h.fld (by decide)]
  episode := h.episode.trans hd.episode
  attempts := (h.fld (by decide) _).trans hd.attempts

theorem Dev.Seeking.settle {d : Dev} {why : Episode} (h : d.Seeking why) : d.settle.Seeking why where
  inFault := d.inFault_settle.trans h.inFault
  unlocked := d.rootLocked_settle.trans h.unlocked
  episode := (congrArg Ck.episode d.settle_ck).trans h.episode
  attempts := (d.fld_settle _ _).trans h.attempts

theorem Dev.seeking_faultBegun (d : Dev) (why : Episode) : (d.faultBegun why).Seeking why where
  inFault := by
    unfold Dev.faultBegun Dev.setAttempts Dev.setFlag
    rw [Dev.inFault, Dev.fld_setFld_ne _ _ _ _ (by decide), Dev.fld_setFld_ne _ _ _ _ (by decide),
      Dev.fld_setFld_low _ _ _ _ (by decide)]
    rfl
  unlocked := (Dev.flag_setFld_clear _ _ _ _ _ (by decide)).trans (Dev.flag_setFlag_same _ _ _ _ (by decide))
  episode := by rw [Dev.faultBegun, Dev.ck_setAttempts, Dev.setFlag, Dev.setFld_ck, Dev.setFld_ck]
  attempts := Dev.attempts_setAttempts _ (by decide)

theorem Dev.Seeking.lossCounted {d : Dev} {why : Episode} (h : d.Seeking why) : d.lossCounted.Seeking why := by
  have hadd : (d.addSat R.CK_SYN_STATUS F.CK_SYN_STATUS_loss_count 1).Seeking why := by
    unfold Dev.addSat
    refine ⟨?_, (d.flag_setFld_clear _ _ _ _ (by decide)).trans h.unlocked, h.episode,
      (d.fld_setFld_clear _ _ _ _ (by decide)).trans h.attempts⟩
    rw [Dev.inFault, d.fld_setFld_ne _ _ _ (by decide)]
    exact h.inFault
  have hcount := (Dev.keepsClock_count _ (devCtr 10) 1).keepsLock.seeking hadd
  unfold Dev.lossCounted
  refine ⟨?_, (Dev.flag_raise_ne _ _ _ (by decide)).trans hcount.unlocked, ?_,
    (Dev.fld_raise_ne _ _ _ (by decide)).trans hcount.attempts⟩
  · rw [Dev.inFault, Dev.fld_raise_ne _ _ _ (by decide)]
    exact hcount.inFault
  · rw [Dev.raise_ck]
    exact hcount.episode

/-- A record of FAULT, and what FAULT spreads, leave the lock sought. -/
theorem Dev.Seeking.spread {d : Dev} {why : Episode} (h : d.Seeking why) (event k losses : Nat) :
    d.KeepsLock (d.recClock event k losses).faultSpread := by
  have hrec : d.KeepsClock (d.recClock event k losses) := d.keepsClock_record _ _
  exact hrec.keepsLock.trans (Dev.keepsLock_faultSpread (hrec.inFault.trans h.inFault))

/-- A declared loss of ROOT lock: FAULT, from which lock is sought. -/
theorem Dev.seeking_loseLock {d : Dev} (h : d.rootLocked = true) : (d.loseLock false).Seeking .loss := by
  rw [Dev.loseLock_declared h]
  have hloss := (d.holdPorts.seeking_faultBegun .loss).lossCounted
  exact (hloss.spread _ _ _).seeking hloss

/-! The clauses of the statement. -/

/-- A holdover sample (R45). -/
theorem holdover_sampled {s : State} (mean : Int) (hs : s.Up) (hst : s.dev.cleaner = 4) :
    Answers (.holdoverSample mean) s (fun e =>
      s.dev.Frame e [.ck] [R.CK_HOLD_FREQ, R.CK_STATUS] ∧
      e.ck = { s.dev.ck with samples := mean :: s.dev.ck.samples.take 256, taken := s.dev.ck.taken + 1 }) := by
  refine .of_running (f := fun d => if d.cleaner != 4 then d else
    ({ d with ck := { d.ck with samples := mean :: d.ck.samples.take 256, taken := d.ck.taken + 1 } } : Dev).holdUpdate)
    hs rfl ?_
  rw [if_neg (by simp [hst]), Dev.settle_ck]
  refine ⟨?_, (Dev.frame_holdUpdate _).ck_eq (by simp)⟩
  exact ((s.dev.frame_ck _ _ (by simp)).trans ((Dev.frame_holdUpdate _).mono (by simp) (List.Subset.refl _))).settle

/-- A second of steering (R45, R46). -/
theorem holdover_recomputed {s : State} (hs : s.Up) (hst : s.dev.steeredState = true) :
    Answers .holdoverRecompute s (fun e =>
      s.dev.Frame e [.ck] [R.CK_ALARM] ∧ e.ck.holdSecs = s.dev.ck.holdSecs + 1) := by
  refine .of_running (f := fun d => if d.steeredState then
    ({ d with ck := { d.ck with holdSecs := d.ck.holdSecs + 1 } } : Dev).retarget else d) hs rfl ?_
  rw [if_pos hst, Dev.settle_ck]
  exact ⟨((s.dev.frame_ck _ _ (by simp)).trans (Dev.frame_retarget _ (by simp) (by simp))).settle, Dev.holdSecs_retarget _⟩

theorem answers_lockDeclaration {s : State} {Q : Dev → Prop} (hs : s.Up) (hQ : Q s.dev.bisqueApplied.lockDeclared.settle) :
    Answers .lockDeclaration s Q := .of_running (f := fun d => d.bisqueApplied.lockDeclared) hs rfl hQ

theorem answers_relockAttemptFail {s : State} {Q : Dev → Prop} (hs : s.Up)
    (hQ : Q s.dev.bisqueApplied.attemptFail.settle) : Answers .relockAttemptFail s Q :=
  .of_running (f := fun d => d.bisqueApplied.attemptFail) hs rfl hQ

/-- The first declaration of lock (R50). -/
theorem first_lock {s : State} (hs : s.Up) (hep : s.dev.ck.episode = some .first) (hl : s.dev.load = none) :
    Answers .lockDeclaration s (fun e => e.rootLocked = true ∧ e.ck.episode = none) := by
  refine answers_lockDeclaration hs ?_
  rw [Dev.bisqueApplied_of_no_load hl, Dev.rootLocked_settle, Dev.settle_ck]
  obtain ⟨hlocked, hnone, -⟩ := Dev.lockDeclared_first hep
  exact ⟨hlocked, hnone⟩

/-- Lock, or an attempt without it, where the image's records have all been applied (R50, R54, R333). -/
theorem first_lock_after_image {s : State} (hs : s.Up) {l : Load} (hl : s.dev.load = some l) (hrecs : l.recs = [])
    (hb : s.dev.stage = .bisque) :
    Answers .lockDeclaration s (fun e => e.rootLocked = true ∧ e.ck.episode = none ∧ e.load = none) ∧
    (s.dev.rootLocked = false →
      Answers .relockAttemptFail s (fun e => e.rootLocked = false ∧ e.ck.episode = some .first ∧ e.load = none ∧
        e.fld R.CK_SYN_STATUS F.CK_SYN_STATUS_attempts = 2)) := by
  have hck := s.dev.ck_firstAttempt
  have hk := s.dev.attempts_firstAttempt
  refine ⟨answers_lockDeclaration hs ?_, fun hr => answers_relockAttemptFail hs ?_⟩
  · rw [Dev.bisqueApplied_of_applied hl hrecs hb, Dev.rootLocked_settle, Dev.settle_ck, Dev.settle_load]
    obtain ⟨hlocked, hnone, hload⟩ := Dev.lockDeclared_first (congrArg Ck.episode hck)
    exact ⟨hlocked, hnone, hload.trans s.dev.load_firstAttempt⟩
  · have hnext := Dev.attemptFail_next (d := s.dev.firstAttempt.validBegin) (by simp [hck]) (by simp [hck])
      (by rw [hk]; decide)
    have hunlocked : (s.dev.firstAttempt.validBegin.setAttempts 2).rootLocked = false :=
      (Dev.flag_setFld_clear _ _ _ _ _ (by decide)).trans (s.dev.rootLocked_firstAttempt.trans hr)
    rw [Dev.bisqueApplied_of_applied hl hrecs hb, hnext, hk, Dev.rootLocked_settle, Dev.settle_ck, Dev.settle_load,
      Dev.fld_settle, Dev.ck_setAttempts, Dev.load_setAttempts]
    exact ⟨hunlocked, congrArg Ck.episode hck, s.dev.load_firstAttempt, Dev.attempts_setAttempts _ (by decide)⟩

/-- A declared loss of lock (R50, R51). -/
theorem lock_lost {s : State} (hs : s.Up) (hr : s.dev.rootLocked = true) :
    Answers .lossOfLock s (fun e => e.inFault = true ∧ e.rootLocked = false ∧ e.ck.episode = some .loss ∧
      e.fld R.CK_SYN_STATUS F.CK_SYN_STATUS_attempts = 1) := by
  obtain ⟨hfault, hunlocked, hep, hk⟩ := (Dev.seeking_loseLock hr).settle
  exact .of_running (f := fun d => d.loseLock false) hs rfl ⟨hfault, hunlocked, hep, hk⟩

/-- 2,000 ns after a loss (R51). -/
theorem fault_idled {s : State} (hs : s.Up) (hf : s.dev.inFault = true) (hi : s.dev.ck.idled = false) :
    Answers .faultIdle s (fun e => e.ck.idled = true) := by
  refine .of_running (f := fun d => if d.inFault && !d.ck.idled then d.faultIdle else d) hs rfl ?_
  rw [if_pos (by simp [hf, hi]), Dev.settle_ck]
  rfl

/-- A failed attempt, with more to come (R54). -/
theorem attempt_failed {s : State} (hs : s.Up) (hep : s.dev.ck.episode ≠ none) (hr : s.dev.ck.restart = false)
    (hl : s.dev.load = none) (hk : s.dev.fld R.CK_SYN_STATUS F.CK_SYN_STATUS_attempts < 8) :
    Answers .relockAttemptFail s (fun e => s.dev.RegsOnly e ∧ s.dev.KeepsRegs e [R.CK_SYN_STATUS] ∧
      e.fld R.CK_SYN_STATUS F.CK_SYN_STATUS_attempts =
        s.dev.fld R.CK_SYN_STATUS F.CK_SYN_STATUS_attempts + 1) := by
  refine answers_relockAttemptFail hs ?_
  rw [Dev.bisqueApplied_of_no_load hl, Dev.attemptFail_next hep hr hk, Dev.fld_settle]
  have hframe : s.dev.Frame (s.dev.setAttempts (s.dev.attempts + 1)) [] [R.CK_SYN_STATUS] :=
    s.dev.frame_setFld _ _ _ (by simp)
  exact ⟨(s.dev.regsOnly_setFld _ _ _).settle, hframe.settle.2, s.dev.attempts_setAttempts (show _ < 16 from Nat.lt_trans
    (Nat.succ_lt_succ hk) (by decide))⟩

/-- Settles O3, clause by clause. A loss that makes a paired device yield does not touch the lock it seeks, so the state
of the pair decides nothing here. -/
theorem holdoverAndLock : Obligations.HoldoverAndLock := fun _ mean hs =>
  ⟨holdover_sampled mean hs, holdover_recomputed hs, first_lock hs, fun _ => first_lock_after_image hs,
    fun hr _ => lock_lost hs hr, fault_idled hs, attempt_failed hs⟩

end Sys2Proof.Machine
end

section
/-! PROOF of O4. SYNC_IN ignored and captured; the alignment instants; a PPS pulse; and the ends of STARTING and STOPPING
under the enable rule, for every block alike (R58–R60, R346). -/

namespace Sys2Proof.Machine

/-! Alignment (R58). -/

/-- Output n takes an alignment instant where the mask names it. -/
def Dev.alignOne (mask instant : Nat) (d : Dev) (n : Nat) : Dev :=
  if bit mask n then
    { d with ck := { d.ck with align := sPut 0 d.ck.align n instant
                               alignOld := sPut 0 d.ck.alignOld n (sGet 0 d.ck.align n) } }
  else d

theorem Dev.alignOutputs_eq (d : Dev) (mask instant : Nat) :
    d.alignOutputs mask instant = (List.range 8).foldl (Dev.alignOne mask instant) d := rfl

theorem Dev.frame_alignOutputs (d : Dev) (mask instant : Nat) : d.Frame (d.alignOutputs mask instant) [.ck] [] := by
  rw [d.alignOutputs_eq]
  refine .foldl (fun d n => ?_) _ d
  unfold Dev.alignOne
  exact Dev.frame_ite (d.frame_ck _ _ (by simp)) (.refl d _ _)

theorem Dev.syncLast_alignOne (d : Dev) (mask instant n : Nat) : (d.alignOne mask instant n).ck.syncLast = d.ck.syncLast := by
  unfold Dev.alignOne
  split <;> rfl

theorem Dev.align_alignOne (d : Dev) (mask instant k n : Nat) : sGet 0 (d.alignOne mask instant k).ck.align n =
    if n = k ∧ bit mask k = true then instant else sGet 0 d.ck.align n := by
  unfold Dev.alignOne
  by_cases hb : bit mask k = true
  · by_cases hn : n = k
    · subst hn
      simp [hb]
    · simp [hb, hn, sGet_sPut_ne _ _ _ _ hn]
  · simp [hb]

theorem Dev.syncLast_alignOutputs (d : Dev) (mask instant : Nat) :
    (d.alignOutputs mask instant).ck.syncLast = d.ck.syncLast := by
  rw [d.alignOutputs_eq]
  generalize List.range 8 = ns
  induction ns generalizing d with
  | nil => rfl
  | cons n ns ih => exact (ih _).trans (d.syncLast_alignOne mask instant n)

/-- An output that the mask names has the alignment instant. -/
theorem Dev.align_alignOutputs (d : Dev) {mask : Nat} (instant : Nat) {n : Nat} (hn : n < 8) (hb : bit mask n = true) :
    sGet 0 (d.alignOutputs mask instant).ck.align n = instant := by
  have hkept (ns : List Nat) (d : Dev) (h : n ∈ ns ∨ sGet 0 d.ck.align n = instant) :
      sGet 0 (ns.foldl (Dev.alignOne mask instant) d).ck.align n = instant := by
    induction ns generalizing d with
    | nil => simpa using h
    | cons k ns ih =>
      refine ih _ ?_
      rw [d.align_alignOne]
      by_cases hk : n = k
      · exact .inr (if_pos ⟨hk, hk ▸ hb⟩)
      · simpa [hk] using h
  rw [d.alignOutputs_eq]
  exact hkept _ d (.inl (List.mem_range.2 hn))

/-! SYNC_IN (R58, R59). -/

/-- SYNC_IN is ignored: it comes within 1 µs of the last, it is off, or ROOT is not locked. -/
def Dev.syncIgnored (d : Dev) : Bool :=
  (match d.ck.syncLast with
   | some t => decide (d.ticks < t + 625)
   | none => false) || d.fld R.CK_SYNC_CFG F.CK_SYNC_CFG_mode == 0 || !d.rootLocked

/-- The edge is noted, and the mode of one capture falls back to off. -/
def Dev.syncNoted (d : Dev) : Dev :=
  let d1 : Dev := { d with ck := { d.ck with syncLast := some d.ticks } }
  if d.fld R.CK_SYNC_CFG F.CK_SYNC_CFG_mode = 1 then d1.setFld R.CK_SYNC_CFG F.CK_SYNC_CFG_mode 0 else d1

/-- The outputs that SYNC_IN selects. -/
def Dev.syncMask (d : Dev) : Nat := d.fld R.CK_SYNC_CFG F.CK_SYNC_CFG_out_mask

/-- SYNC_IN is captured at the next TIME tick. -/
def Dev.syncCaptured (d : Dev) : Dev :=
  ((List.range 8).filter fun n => bit d.syncMask n && d.syncNoted.outState n == enStopping).foldl
    (fun d n => d.enApply (.clkout (Fin.ofNat 8 n)))
    (d.syncNoted.captureOutputs d.syncMask ((d.syncNoted.ticks + 1) * 20))

theorem answers_syncInEdge {s : State} {Q : Dev → Prop} (hs : s.Up)
    (hQ : Q (if s.dev.syncIgnored then s.dev.raise R.CK_ALARM F.CK_ALARM_sync_ignored else s.dev.syncCaptured).settle) :
    Answers (.syncInEdge true) s Q :=
  .of_awake (f := fun d => if d.syncIgnored then d.raise R.CK_ALARM F.CK_ALARM_sync_ignored else d.syncCaptured)
    hs.1 rfl hQ

theorem Dev.outState_of_frame {d e : Dev} {p : List Part} {r : List Nat} (h : d.Frame e p r)
    (hr : ∀ k < 8, R.CK_OUT_CFG k ∉ r) {k : Nat} (hk : k < 8) : e.outState k = d.outState k := h.fld_eq (hr k hk) _

/-- While no output is STOPPING, a capture aligns outputs and does nothing else. -/
theorem Dev.captureOutputs_of_none_stopping {d : Dev} (h : ∀ k, k < 8 → d.outState k ≠ enStopping) (mask instant : Nat) :
    d.captureOutputs mask instant = d.alignOutputs mask (instant + 320) := by
  have hframe := d.frame_alignOutputs mask (instant + 320)
  refine foldl_eq_self fun n hn => if_neg ?_
  have hn8 : n < 8 := List.mem_range.1 hn
  rw [Dev.outState_of_frame hframe (by simp) hn8]
  simp [h n hn8]

theorem Dev.frame_syncNoted (d : Dev) : d.Frame d.syncNoted [.ck] [R.CK_SYNC_CFG] := by
  have hnoted : d.Frame { d with ck := { d.ck with syncLast := some d.ticks } } [.ck] [R.CK_SYNC_CFG] :=
    d.frame_ck _ _ (by simp)
  exact Dev.frame_ite (hnoted.trans (Dev.frame_setFld _ _ _ _ (by simp))) hnoted

theorem Dev.outState_syncNoted (d : Dev) {k : Nat} (hk : k < 8) : d.syncNoted.outState k = d.outState k :=
  Dev.outState_of_frame d.frame_syncNoted
    (fun k _ => by simp only [R.CK_OUT_CFG, R.CK_SYNC_CFG, List.mem_singleton]; omega) hk

/-- While no output is STOPPING, the capture is the alignment of the outputs selected. -/
theorem Dev.syncCaptured_of_none_stopping {d : Dev} (h : ∀ k, k < 8 → d.outState k ≠ enStopping) :
    d.syncCaptured = d.syncNoted.alignOutputs d.syncMask ((d.syncNoted.ticks + 1) * 20 + 320) := by
  have hnone : ((List.range 8).filter fun n => bit d.syncMask n && d.syncNoted.outState n == enStopping) = [] := by
    refine List.filter_eq_nil_iff.2 fun n hn => ?_
    have hn8 : n < 8 := List.mem_range.1 hn
    simp [d.outState_syncNoted hn8, h n hn8]
  rw [Dev.syncCaptured, hnone, List.foldl_nil, Dev.captureOutputs_of_none_stopping]
  intro k hk
  rw [d.outState_syncNoted hk]
  exact h k hk

/-- SYNC_IN off: an alarm (R59). -/
theorem sync_ignored {s : State} (hs : s.Up) (hmode : s.dev.fld R.CK_SYNC_CFG F.CK_SYNC_CFG_mode = 0) :
    Answers (.syncInEdge true) s (fun e =>
      s.dev.Frame e [] [R.CK_ALARM] ∧ e.flag R.CK_ALARM F.CK_ALARM_sync_ignored = true ∧ e.ck = s.dev.ck) := by
  refine answers_syncInEdge hs ?_
  rw [if_pos (by simp [Dev.syncIgnored, hmode]), Dev.flag_settle, Dev.settle_ck, Dev.raise_ck]
  exact ⟨(s.dev.frame_raise _ _ (by simp)).settle, s.dev.flag_raise_same _ _ ⟨by decide, by decide⟩, rfl⟩

/-- SYNC_IN armed for one capture: it aligns the outputs selected, 25.6 ns after the next TIME tick (R58, R59). -/
theorem sync_captured {s : State} (n : Fin 8) (hs : s.Up) (hmode : s.dev.fld R.CK_SYNC_CFG F.CK_SYNC_CFG_mode = 1)
    (hlock : s.dev.rootLocked = true) (hlast : s.dev.ck.syncLast = none)
    (hstop : ∀ k, k < 8 → s.dev.outState k ≠ enStopping) :
    Answers (.syncInEdge true) s (fun e =>
      s.dev.Frame e [.ck] [R.CK_SYNC_CFG] ∧ e.fld R.CK_SYNC_CFG F.CK_SYNC_CFG_mode = 0 ∧
      e.ck.syncLast = some s.dev.ticks ∧
      (bit (s.dev.fld R.CK_SYNC_CFG F.CK_SYNC_CFG_out_mask) n = true →
        sGet 0 e.ck.align n = (s.dev.ticks + 1) * 20 + 320)) := by
  have hnoted : s.dev.syncNoted = ({ s.dev with ck := { s.dev.ck with syncLast := some s.dev.ticks } } : Dev).setFld
      R.CK_SYNC_CFG F.CK_SYNC_CFG_mode 0 := by
    simp [Dev.syncNoted, hmode]
  have hticks : s.dev.syncNoted.ticks = s.dev.ticks := by rw [hnoted]; rfl
  have halign := s.dev.syncNoted.frame_alignOutputs s.dev.syncMask ((s.dev.ticks + 1) * 20 + 320)
  refine answers_syncInEdge hs ?_
  rw [if_neg (by simp [Dev.syncIgnored, hmode, hlock, hlast]), Dev.syncCaptured_of_none_stopping hstop, hticks,
    Dev.fld_settle, Dev.settle_ck]
  refine ⟨(s.dev.frame_syncNoted.trans (halign.mono (List.Subset.refl _) (by simp))).settle, ?_, ?_, fun hb => ?_⟩
  · rw [halign.fld_eq (by simp), hnoted]
    exact Dev.fld_setFld_low _ _ _ _ (by decide)
  · rw [Dev.syncLast_alignOutputs, hnoted]
    rfl
  · exact Dev.align_alignOutputs _ _ n.isLt hb

/-! PPS pulses (R60). -/

theorem Dev.ppsOut_setPpsOut_same (d : Dev) (m : Nat) (x : PpsOut) : (d.setPpsOut m x).ppsOut m = x := sGet_sPut_same _ _ _ _

theorem Dev.frame_setPpsOut (d : Dev) (m : Nat) (x : PpsOut) (r : List Nat) : d.Frame (d.setPpsOut m x) [.ck] r :=
  d.frame_ck _ r (by simp)

theorem Dev.hr_setPpsOut (d : Dev) (m : Nat) (x : PpsOut) : (d.setPpsOut m x).hr = d.hr := rfl
theorem Dev.out_setPpsOut (d : Dev) (m : Nat) (x : PpsOut) : (d.setPpsOut m x).out = d.out := rfl

/-- An item leaves a device that owes no message: nothing else does. -/
theorem Dev.out_emit_settle {d e : Dev} (x : Out) (hhr : e.hr = d.hr) (hout : e.out = d.out)
    (hd : d.hr.irq64 = false ∧ d.hr.irq65 = false) : (e.emit x).settle.out = x :: d.out := by
  rw [Dev.out_settle (e.emit x) ((congrArg Hr.irq64 hhr).trans hd.1) ((congrArg Hr.irq65 hhr).trans hd.2), ← hout]
  rfl

theorem Dev.ppsOut_emit (d : Dev) (x : Out) (m : Nat) : (d.emit x).ppsOut m = d.ppsOut m := rfl

/-- The series of PPS output m advances by a period. -/
def Dev.ppsAdvance (d : Dev) (m : Nat) : Dev :=
  d.setPpsOut m { d.ppsOut m with next := t48Add (d.ppsOut m).next (d.ppsPeriod m) }

/-- A pulse of PPS output m is in progress, and its series has advanced. -/
def Dev.ppsRising (d : Dev) (m : Nat) : Dev :=
  (d.ppsAdvance m).setPpsOut m { (d.ppsAdvance m).ppsOut m with
    pulsing := true, fall := t48Add (d.ppsRise m) (d.ppsWidth m) }

/-- The pulse of PPS output m is over. -/
def Dev.ppsFalling (d : Dev) (m : Nat) : Dev := d.setPpsOut m { d.ppsOut m with pulsing := false }

theorem Dev.ppsOut_ppsRising (d : Dev) (m : Nat) : (d.ppsRising m).ppsOut m =
    { d.ppsOut m with next := t48Add (d.ppsOut m).next (d.ppsPeriod m), pulsing := true
                      fall := t48Add (d.ppsRise m) (d.ppsWidth m) } := by
  rw [Dev.ppsRising, Dev.ppsOut_setPpsOut_same, Dev.ppsAdvance, Dev.ppsOut_setPpsOut_same]

theorem Dev.frame_ppsRising (d : Dev) (m : Nat) : d.Frame (d.ppsRising m) [.ck] [] :=
  (d.frame_setPpsOut m _ []).trans (Dev.frame_setPpsOut _ m _ [])

theorem Dev.hr_ppsRising (d : Dev) (m : Nat) : (d.ppsRising m).hr = d.hr := by
  rw [Dev.ppsRising, Dev.hr_setPpsOut, Dev.ppsAdvance, Dev.hr_setPpsOut]

theorem Dev.out_ppsRising (d : Dev) (m : Nat) : (d.ppsRising m).out = d.out := by
  rw [Dev.ppsRising, Dev.out_setPpsOut, Dev.ppsAdvance, Dev.out_setPpsOut]

/-- A pulse of an output in ON begins, and its series advances. -/
theorem pps_pulse_begun {s : State} (m : Fin 2) (hs : s.Up) (hinv : s.Inv) (hon : s.dev.ppsState m = enOn)
    (hf : s.dev.inFault = false) :
    Answers (.ppsPulse m) s (fun e => s.dev.Frame e [.ck] [] ∧
      e.out = .pps m true (toGrid (s.dev.ppsRise m)) :: s.dev.out ∧
      e.ppsOut m = { s.dev.ppsOut m with next := t48Add (s.dev.ppsOut m).next (s.dev.ppsPeriod m), pulsing := true
                                         fall := t48Add (s.dev.ppsRise m) (s.dev.ppsWidth m) }) := by
  refine .of_running (f := fun d => if d.ppsState m = enOff then d
    else if d.ppsState m = enOn ∧ !d.inFault then (d.ppsRising m).emit (.pps m true (toGrid (d.ppsRise m)))
    else d.ppsAdvance m) hs rfl ?_
  rw [if_neg (by rw [hon]; decide), if_pos (by simp [hon, hf]), Dev.ppsOut_settle, Dev.ppsOut_emit]
  exact ⟨((s.dev.frame_ppsRising m).trans (Dev.frame_emit _ _ _ _)).settle,
    Dev.out_emit_settle _ (s.dev.hr_ppsRising m) (s.dev.out_ppsRising m) hinv.2, s.dev.ppsOut_ppsRising m⟩

/-- The waiting values of a PPS output take effect: only calibration changes. -/
theorem Dev.ppsApply_eq (d : Dev) (m : Nat) : ∃ x, d.ppsApply m = { d with ca := x } := by
  unfold Dev.ppsApply
  dsimp only
  split
  · exact ⟨d.ca, rfl⟩
  · exact ⟨_, rfl⟩

/-- A pulse ends. -/
theorem pps_pulse_ended {s : State} (m : Fin 2) (hs : s.Up) (hinv : s.Inv) (hp : (s.dev.ppsOut m).pulsing = true) :
    Answers (.ppsPulseEnd m) s (fun e =>
      s.dev.Frame e [.ck, .ca] [] ∧ e.out = .pps m false (toGrid (s.dev.ppsOut m).fall) :: s.dev.out ∧
      (e.ppsOut m).pulsing = false) := by
  refine .of_running (f := fun d => if (d.ppsOut m).pulsing then
    ((d.ppsFalling m).emit (.pps m false (toGrid (d.ppsOut m).fall))).ppsApply m else d) hs rfl ?_
  obtain ⟨x, hx⟩ := ((s.dev.ppsFalling m).emit (.pps m false (toGrid (s.dev.ppsOut m).fall))).ppsApply_eq m
  have hfalling : (s.dev.ppsFalling m).ppsOut m = { s.dev.ppsOut m with pulsing := false } := Dev.ppsOut_setPpsOut_same _ _ _
  rw [if_pos hp, Dev.ppsOut_settle, hx]
  refine ⟨?_, Dev.out_emit_settle (d := s.dev) (e := { s.dev.ppsFalling m with ca := x }) _ rfl rfl hinv.2,
    congrArg PpsOut.pulsing hfalling⟩
  exact (((s.dev.frame_ck _ _ (by simp)).trans (Dev.frame_emit _ _ _ _)).trans (Dev.frame_ca _ _ _ (by simp))).settle

/-! The ends of STARTING and STOPPING (R346). -/

/-- A state field lies above the enable field and holds every state. -/
theorem stField_above (t : EnTarget) : 1 ≤ (stField t).lo ∧ (stField t).hi = (stField t).lo + 1 ∧ (stField t).hi < 32 := by
  cases t <;> simp [stField, F.LN_CTRL_state, F.EC_CTRL_state]

/-- No enable register is CK_STATUS. -/
theorem enReg_ne_status (t : EnTarget) : R.CK_STATUS ≠ enReg t := by
  cases t <;> simp only [enReg, R.CK_STATUS, R.CK_OUT_CFG, R.CK_PPS_CFG, R.LN_CTRL, R.LK_PORT_CTRL, R.HR_RING_CTRL, R.EC_CTRL,
    R.TG_CTRL, R.TG_CU_CTRL, R.PL_CTRL] <;> omega

/-- A block's state set. -/
def Dev.setEnState (d : Dev) (t : EnTarget) (st : Nat) : Dev := d.setFld (enReg t) (stField t) st

theorem Dev.enState_setEnState (d : Dev) (t : EnTarget) {st : Nat} (h : st < 4) : (d.setEnState t st).enState t = st := by
  obtain ⟨hlo, hhi, h32⟩ := stField_above t
  refine d.fld_setFld_low _ _ _ ⟨by omega, h32, ?_⟩
  rw [show (stField t).hi + 1 - (stField t).lo = 2 by omega]
  exact h

theorem Dev.enable_setEnState (d : Dev) (t : EnTarget) (st : Nat) :
    (d.setEnState t st).flag (enReg t) enField = d.flag (enReg t) enField := by
  obtain ⟨hlo, hhi, h32⟩ := stField_above t
  exact d.flag_setFld_clear _ _ _ _ ⟨⟨by omega, h32⟩, by decide, .inr hlo⟩

theorem Dev.inFault_setEnState (d : Dev) (t : EnTarget) (st : Nat) : (d.setEnState t st).inFault = d.inFault := by
  rw [Dev.inFault, Dev.inFault, Dev.setEnState, d.fld_setFld_ne _ _ _ (enReg_ne_status t)]

/-- A block whose enable still reads 1 ends STARTING in ON. -/
theorem Dev.startingEnd_on {d : Dev} {t : EnTarget} (hst : d.enState t = enStarting) (hf : d.inFault = false)
    (hy : d.stage ≠ .yielded) (hen : d.flag (enReg t) enField = true) : d.startingEnd t = d.setEnState t enOn := by
  have hwanted : d.enWanted t = true := by simp [Dev.enWanted, Dev.stageStops, hen, hy]
  rw [Dev.startingEnd, if_pos ⟨hst, by simp [hf]⟩, Dev.enStarted, if_pos hwanted]
  rfl

/-- A block whose enable still reads 0 ends STOPPING in OFF. -/
theorem Dev.stoppingEnd_off {d : Dev} {t : EnTarget} (hst : d.enState t = enStopping) (hf : d.inFault = false)
    (hen : d.flag (enReg t) enField = false) : d.stoppingEnd t = d.setEnState t enOff := by
  have hwanted : (d.setEnState t enOff).enWanted t = false := by
    simp [Dev.enWanted, d.enable_setEnState, hen]
  have hstays : (d.setEnState t enOff).enApply t = d.setEnState t enOff := by
    rw [Dev.enApply, if_neg (by simp [d.inFault_setEnState, hf]), if_pos (d.enState_setEnState t (by decide)),
      if_neg (by simp [hwanted])]
  rw [Dev.stoppingEnd, if_pos ⟨hst, by simp [hf]⟩]
  exact hstays

theorem Dev.enState_settle (d : Dev) (t : EnTarget) : d.settle.enState t = d.enState t := d.fld_settle _ _

/-- A state set touches the block's register alone. -/
theorem Dev.state_set (d : Dev) (t : EnTarget) {st : Nat} (h : st < 4) :
    (d.setEnState t st).settle.enState t = st ∧ d.Frame (d.setEnState t st).settle [] [enReg t] :=
  ⟨(Dev.enState_settle _ t).trans (d.enState_setEnState t h), (d.frame_setFld _ _ _ (by simp)).settle⟩

/-- The ends of STARTING and STOPPING of clock and PPS outputs whose enable field still reads as when they began. -/
theorem outputs_ended {s : State} (n : Fin 8) (m : Fin 2) (hs : s.Up) (hf : s.dev.inFault = false)
    (hy : s.dev.stage ≠ .yielded) :
    (s.dev.outState n = enStarting → s.dev.flag (R.CK_OUT_CFG n) enField = true →
      Answers (.clkoutStartingEnd n) s (fun e => e.outState n = enOn ∧ s.dev.Frame e [] [R.CK_OUT_CFG n])) ∧
    (s.dev.outState n = enStopping → s.dev.flag (R.CK_OUT_CFG n) enField = false →
      Answers (.clkoutStoppingEnd n) s (fun e => e.outState n = enOff ∧ s.dev.Frame e [] [R.CK_OUT_CFG n])) ∧
    (s.dev.ppsState m = enStarting → s.dev.flag (R.CK_PPS_CFG m) enField = true →
      Answers (.ppsOutStartingEnd m) s (fun e => e.ppsState m = enOn ∧ s.dev.Frame e [] [R.CK_PPS_CFG m])) ∧
    (s.dev.ppsState m = enStopping → s.dev.flag (R.CK_PPS_CFG m) enField = false → (s.dev.ppsOut m).pulsing = false →
      Answers (.ppsOutStoppingEnd m) s (fun e => e.ppsState m = enOff ∧ s.dev.Frame e [] [R.CK_PPS_CFG m])) := by
  refine ⟨fun hst hen => ?_, fun hst hen => ?_, fun hst hen => ?_, fun hst hen hp => ?_⟩
  · refine .of_running (f := fun d => d.startingEnd (.clkout n)) hs rfl ?_
    rw [Dev.startingEnd_on (t := .clkout n) hst hf hy hen]
    exact s.dev.state_set (.clkout n) (by decide)
  · refine .of_running (f := fun d => d.stoppingEnd (.clkout n)) hs rfl ?_
    rw [Dev.stoppingEnd_off (t := .clkout n) hst hf hen]
    exact s.dev.state_set (.clkout n) (by decide)
  · refine .of_running (f := fun d => d.startingEnd (.pps m)) hs rfl ?_
    rw [Dev.startingEnd_on (t := .pps m) hst hf hy hen]
    exact s.dev.state_set (.pps m) (by decide)
  · refine .of_running (f := fun d => if (d.ppsOut m).pulsing then d else d.stoppingEnd (.pps m)) hs rfl ?_
    rw [hp, if_neg Bool.false_ne_true, Dev.stoppingEnd_off (t := .pps m) hst hf hen]
    exact s.dev.state_set (.pps m) (by decide)

/-- Settles O4, clause by clause. -/
theorem clockOutputs : Obligations.ClockOutputs := fun _ n m hs hinv =>
  ⟨sync_ignored hs, sync_captured n hs, pps_pulse_begun m hs hinv, pps_pulse_ended m hs hinv, outputs_ended n m hs⟩

end Sys2Proof.Machine
end

section
/-! PROOF of O52. What a write of the oscillator setting stores and starts; sel_mode = 2 leads to FREERUN; a commit of
CK_PPS_NEXT (R29, R39, R41, R60, R64, R425). -/

namespace Sys2Proof.Machine

/-- A write of a named register that has a command of its own goes by the rules of its block. -/
theorem Answers.of_write {c : Instr} {s : State} {o : Nat} {w : Word} {Q : Dev → Prop} (hs : s.Up)
    (hr : (regSpec o).isSome = true) (hc : exec c s = awake s fun d => d.writeAccess o true w)
    (hQ : Q (s.dev.writeReg o w).settle) : Answers c s Q := by
  obtain ⟨r, hspec⟩ := Option.isSome_iff_exists.1 hr
  refine .of_awake hs.1 hc ?_
  rwa [Dev.writeAccess_named w hspec hs.2]

/-! The oscillator setting (R29, R64). -/

/-- The frequency that a word of CK_XO_CFG declares. -/
def xoFreq (x : Word) : Nat := getField x F.CK_XO_CFG_freq

/-- The pd_mode that a word of CK_XO_CFG gives: the default of its frequency with pd_auto. -/
def xoPd (x : Word) : Nat :=
  if getField x F.CK_XO_CFG_pd_auto = 1 then defaultPd (xoFreq x) else getField x F.CK_XO_CFG_pd_mode

/-- The word that CK_XO_CFG holds after its fields are stored. -/
def Dev.xoWord (d : Dev) (w : Word) : Word := d.fieldsStored R.CK_XO_CFG w

/-- Frequency and phase-detector frequency stay as they are. -/
def Dev.xoSame (d : Dev) (w : Word) : Prop :=
  d.fld R.CK_XO_CFG F.CK_XO_CFG_freq = xoFreq (d.xoWord w) ∧
    pdFreq4 (d.fld R.CK_XO_CFG F.CK_XO_CFG_freq) (d.fld R.CK_XO_CFG F.CK_XO_CFG_pd_mode) =
      pdFreq4 (xoFreq (d.xoWord w)) (xoPd (d.xoWord w))

/-- CK_XO_CFG stored, with the pd_mode that pd_auto takes. -/
def Dev.xoStored (d : Dev) (w : Word) : Dev :=
  let e := d.store R.CK_XO_CFG w
  if e.flag R.CK_XO_CFG F.CK_XO_CFG_pd_auto then
    e.setFld R.CK_XO_CFG F.CK_XO_CFG_pd_mode (defaultPd (e.fld R.CK_XO_CFG F.CK_XO_CFG_freq))
  else e

theorem Dev.frame_xoStored (d : Dev) (w : Word) : d.Frame (d.xoStored w) [] [R.CK_XO_CFG] := by
  have hstore : d.Frame (d.store R.CK_XO_CFG w) [] [R.CK_XO_CFG] := d.frame_setReg _ _ (by simp)
  exact Dev.frame_ite (hstore.trans (Dev.frame_setFld _ _ _ _ (by simp))) hstore

theorem Dev.fld_store (d : Dev) (o : Nat) (w : Word) (f : Field) : (d.store o w).fld o f = getField (d.fieldsStored o w) f := by
  rw [Dev.fld, Dev.store, Dev.reg_setReg_same]

theorem Dev.freq_xoStored (d : Dev) (w : Word) :
    (d.xoStored w).fld R.CK_XO_CFG F.CK_XO_CFG_freq = xoFreq (d.xoWord w) := by
  unfold Dev.xoStored
  dsimp only
  split
  · rw [Dev.fld_setFld_clear _ _ _ _ _ (by decide), d.fld_store]
    rfl
  · exact d.fld_store _ _ _

theorem defaultPd_lt (freq : Nat) : defaultPd freq < 4 := by
  unfold defaultPd
  split <;> decide

theorem Dev.pd_xoStored (d : Dev) (w : Word) :
    (d.xoStored w).fld R.CK_XO_CFG F.CK_XO_CFG_pd_mode = xoPd (d.xoWord w) := by
  have hbit : getField (d.xoWord w) F.CK_XO_CFG_pd_auto < 2 := Nat.mod_lt _ (by decide)
  have hauto : (d.store R.CK_XO_CFG w).flag R.CK_XO_CFG F.CK_XO_CFG_pd_auto = true ↔
      getField (d.xoWord w) F.CK_XO_CFG_pd_auto = 1 := by
    rw [Dev.flag, d.fld_store, bne_iff_ne, ← Dev.xoWord]
    omega
  unfold Dev.xoStored xoPd
  dsimp only
  split
  · next h =>
    rw [if_pos (hauto.1 h), Dev.fld_setFld_low _ _ _ _ ⟨by decide, by decide, defaultPd_lt _⟩, d.fld_store]
    rfl
  · next h =>
    rw [if_neg fun x => h (hauto.2 x), d.fld_store]
    rfl

/-- A write of the oscillator setting: stored, and where it has changed, a relock or attempts anew. -/
theorem Dev.xoWrite_eq (d : Dev) (w : Word) : d.xoWrite w =
    if d.fld R.CK_XO_CFG F.CK_XO_CFG_freq = (d.store R.CK_XO_CFG w).fld R.CK_XO_CFG F.CK_XO_CFG_freq ∧
        pdFreq4 (d.fld R.CK_XO_CFG F.CK_XO_CFG_freq) (d.fld R.CK_XO_CFG F.CK_XO_CFG_pd_mode) =
          pdFreq4 ((d.store R.CK_XO_CFG w).fld R.CK_XO_CFG F.CK_XO_CFG_freq)
            ((d.xoStored w).fld R.CK_XO_CFG F.CK_XO_CFG_pd_mode) then d.xoStored w
    else if (d.xoStored w).rootLocked then (d.xoStored w).loseLock true
    else { d.xoStored w with ck := { (d.xoStored w).ck with restart := (d.xoStored w).ck.episode.isSome } } := rfl

theorem Dev.xoWrite_same {d : Dev} {w : Word} (h : d.xoSame w) : d.xoWrite w = d.xoStored w := by
  rw [d.xoWrite_eq, d.fld_store, d.pd_xoStored]
  exact if_pos h

theorem Dev.xoWrite_changed {d : Dev} {w : Word} (h : ¬ d.xoSame w) : d.xoWrite w =
    if d.rootLocked then (d.xoStored w).loseLock true
    else { d.xoStored w with ck := { d.ck with restart := d.ck.episode.isSome } } := by
  have hlocked : (d.xoStored w).rootLocked = d.rootLocked := (d.frame_xoStored w).flag_eq (by decide) _
  rw [d.xoWrite_eq, d.fld_store, d.pd_xoStored, hlocked, (d.frame_xoStored w).ck_eq (by simp)]
  exact if_neg h

/-! A controlled relock (R29). -/

/-- The beginning of FAULT touches CK_STATUS and, of CK_SYN_STATUS, not the count of losses. -/
theorem Dev.lossCount_faultBegun (d : Dev) (why : Episode) : (d.faultBegun why).lossCount = d.lossCount := by
  unfold Dev.faultBegun Dev.setAttempts Dev.setFlag Dev.lossCount
  rw [Dev.fld_setFld_clear _ _ _ _ _ (by decide), Dev.fld_setFld_clear _ _ _ _ _ (by decide),
    Dev.fld_setFld_ne _ _ _ _ (by decide)]
  rfl

theorem Dev.reg_xo_faultBegun (d : Dev) (why : Episode) : (d.faultBegun why).reg R.CK_XO_CFG = d.reg R.CK_XO_CFG := by
  unfold Dev.faultBegun Dev.setAttempts Dev.setFlag
  rw [Dev.reg_setFld_ne _ _ _ (by decide), Dev.reg_setFld_ne _ _ _ (by decide), Dev.reg_setFld_ne _ _ _ (by decide)]
  rfl

/-- A controlled relock: FAULT, not counted, the oscillator setting as it is. -/
theorem Dev.controlled_relock {d : Dev} (h : d.rootLocked = true) : (d.loseLock true).Seeking .controlled ∧
    (d.loseLock true).lossCount = d.lossCount ∧ (d.loseLock true).reg R.CK_XO_CFG = d.reg R.CK_XO_CFG := by
  have hbegun := d.holdPorts.seeking_faultBegun .controlled
  have hspread := hbegun.spread 4 0 (d.holdPorts.faultBegun .controlled).lossCount
  have hports := d.keepsClock_holdPorts
  rw [Dev.loseLock_controlled h]
  refine ⟨hspread.seeking hbegun, ?_, ?_⟩
  · exact (hspread.fld (by decide) _).trans ((Dev.lossCount_faultBegun _ _).trans hports.lossCount)
  · exact (hspread.reg _ (by decide)).trans ((Dev.reg_xo_faultBegun _ _).trans (hports.reg _ (by decide)))

theorem Dev.writeReg_CK_XO_CFG (d : Dev) (w : Word) : d.writeReg R.CK_XO_CFG w = d.xoWrite w := by
  rw [d.writeReg_CK w (by decide), Dev.writeCK, if_pos rfl]

theorem answers_ckXoCfgWrite {s : State} {w : Word} {Q : Dev → Prop} (hs : s.Up) (hQ : Q (s.dev.xoWrite w).settle) :
    Answers (.ckXoCfgWrite w) s Q := .of_write (o := R.CK_XO_CFG) hs (by decide) rfl (s.dev.writeReg_CK_XO_CFG w ▸ hQ)

/-- A write of the oscillator setting that changes nothing of it. -/
theorem xo_same {s : State} {w : Word} (hs : s.Up) (h : s.dev.xoSame w) :
    Answers (.ckXoCfgWrite w) s (fun e => e.ck = s.dev.ck ∧
      e.fld R.CK_XO_CFG F.CK_XO_CFG_pd_mode = xoPd (s.dev.xoWord w) ∧ s.dev.Frame e [] [R.CK_XO_CFG]) := by
  have hframe := s.dev.frame_xoStored w
  refine answers_ckXoCfgWrite hs ?_
  rw [Dev.xoWrite_same h, Dev.settle_ck, Dev.fld_settle, s.dev.pd_xoStored]
  exact ⟨hframe.ck_eq (by simp), rfl, hframe.settle⟩

/-- A changed setting of a device whose ROOT is not locked: its attempts count anew. -/
theorem xo_changed_unlocked {s : State} {w : Word} (hs : s.Up) (h : ¬ s.dev.xoSame w) (hr : s.dev.rootLocked = false) :
    Answers (.ckXoCfgWrite w) s (fun e => e.ck = { s.dev.ck with restart := s.dev.ck.episode.isSome } ∧
      e.fld R.CK_XO_CFG F.CK_XO_CFG_freq = xoFreq (s.dev.xoWord w) ∧
      e.fld R.CK_XO_CFG F.CK_XO_CFG_pd_mode = xoPd (s.dev.xoWord w) ∧ s.dev.Frame e [.ck] [R.CK_XO_CFG]) := by
  have hframe := (s.dev.frame_xoStored w).mono (q := [.ck]) (by simp) (List.Subset.refl _)
  refine answers_ckXoCfgWrite hs ?_
  rw [Dev.xoWrite_changed h, hr, if_neg Bool.false_ne_true, Dev.settle_ck, Dev.fld_settle, Dev.fld_settle]
  exact ⟨rfl, s.dev.freq_xoStored w, s.dev.pd_xoStored w, (hframe.trans (Dev.frame_ck _ _ _ (by simp))).settle⟩

/-- A changed setting of a device whose ROOT is locked: a controlled relock. -/
theorem xo_changed_locked {s : State} {w : Word} (hs : s.Up) (h : ¬ s.dev.xoSame w) (hr : s.dev.rootLocked = true) :
    Answers (.ckXoCfgWrite w) s (fun e => e.inFault = true ∧ e.rootLocked = false ∧ e.ck.episode = some .controlled ∧
      e.fld R.CK_SYN_STATUS F.CK_SYN_STATUS_attempts = 1 ∧ e.lossCount = s.dev.lossCount ∧
      e.fld R.CK_XO_CFG F.CK_XO_CFG_freq = xoFreq (s.dev.xoWord w) ∧
      e.fld R.CK_XO_CFG F.CK_XO_CFG_pd_mode = xoPd (s.dev.xoWord w)) := by
  have hframe := s.dev.frame_xoStored w
  obtain ⟨hseek, hloss, hreg⟩ := Dev.controlled_relock ((hframe.flag_eq (by decide) _).trans hr)
  obtain ⟨hfault, hunlocked, hep, hk⟩ := hseek.settle
  have hfld (f : Field) : ((s.dev.xoStored w).loseLock true).fld R.CK_XO_CFG f = (s.dev.xoStored w).fld R.CK_XO_CFG f := by
    rw [Dev.fld, Dev.fld, hreg]
  refine answers_ckXoCfgWrite hs ?_
  rw [Dev.xoWrite_changed h, if_pos hr]
  refine ⟨hfault, hunlocked, hep, hk, ?_, ?_, ?_⟩
  · rw [Dev.lossCount_settle, hloss]
    exact hframe.fld_eq (by decide) _
  · rw [Dev.fld_settle, hfld, s.dev.freq_xoStored]
  · rw [Dev.fld_settle, hfld, s.dev.pd_xoStored]

/-! The selection mode (R39, R41). -/

theorem FieldSpec.getField_store_rw {f : Field} (hf : f.ok) (rule : WRule) (w x : Word) :
    getField ((⟨f, .rw, rule⟩ : FieldSpec).store w x) f =
      rule.store (getField x f) (getField w f) % 2 ^ (f.hi + 1 - f.lo) := getField_putField_same _ _ _ hf

/-- The last field of CK_CLN_CFG stored is sel_mode. -/
theorem Dev.fieldsStored_CK_CLN_CFG (d : Dev) (w : Word) : ∃ x, d.fieldsStored R.CK_CLN_CFG w =
    (⟨F.CK_CLN_CFG_sel_mode, .rw, .reserved [3]⟩ : FieldSpec).store w x := by
  have hspec : (regSpec R.CK_CLN_CFG).map (fun r => r.fields.drop 4) =
      some [⟨F.CK_CLN_CFG_sel_mode, .rw, .reserved [3]⟩] := by decide
  obtain ⟨r, hr, hlast⟩ := Option.map_eq_some_iff.1 hspec
  obtain ⟨before, hfields⟩ : ∃ before, r.fields = before ++ [⟨F.CK_CLN_CFG_sel_mode, .rw, .reserved [3]⟩] :=
    ⟨r.fields.take 4, by rw [← hlast, List.take_append_drop]⟩
  exact ⟨before.foldl (fun held f => f.store w held) (d.reg R.CK_CLN_CFG), by simp [Dev.fieldsStored, hr, hfields]⟩

theorem Dev.selMode_store {d : Dev} {w : Word} (h : getField w F.CK_CLN_CFG_sel_mode = 2) :
    (d.store R.CK_CLN_CFG w).fld R.CK_CLN_CFG F.CK_CLN_CFG_sel_mode = 2 := by
  obtain ⟨x, hx⟩ := d.fieldsStored_CK_CLN_CFG w
  rw [d.fld_store, hx, FieldSpec.getField_store_rw ⟨by decide, by decide⟩, h]
  rfl

theorem Dev.cleaner_retarget (d : Dev) : d.retarget.cleaner = d.cleaner :=
  (d.frame_retarget (p := [.ck]) (r := [R.CK_ALARM]) (by simp) (by simp)).fld_eq (by decide) _

theorem Dev.selRef_retarget (d : Dev) : d.retarget.selRef = d.selRef :=
  (d.frame_retarget (p := [.ck]) (r := [R.CK_ALARM]) (by simp) (by simp)).fld_eq (by decide) _

theorem Dev.cleaner_enterFreerun (d : Dev) : d.enterFreerun.cleaner = 1 :=
  (Dev.cleaner_retarget _).trans ((Dev.cleaner_raise_alarm _ _).trans (Dev.cleaner_setCleaner _ _ (by decide)))

theorem Dev.selRef_enterFreerun (d : Dev) : d.enterFreerun.selRef = 0x7F :=
  (Dev.selRef_retarget _).trans ((Dev.selRef_raise_alarm _ _).trans (Dev.selRef_setCleaner _ _ (by decide)))

/-- The steering computed anew raises its clamp alarm alone. -/
theorem Dev.freerun_retarget (d : Dev) :
    d.retarget.flag R.CK_ALARM F.CK_ALARM_freerun = d.flag R.CK_ALARM F.CK_ALARM_freerun := by
  unfold Dev.retarget
  split
  · dsimp only
    split
    · exact Dev.flag_raise_clear _ _ _ _ (by decide)
    · rfl
  · rfl

theorem Dev.freerun_enterFreerun (d : Dev) : d.enterFreerun.flag R.CK_ALARM F.CK_ALARM_freerun = true :=
  (Dev.freerun_retarget _).trans (Dev.flag_raise_same _ _ _ ⟨by decide, by decide⟩)

/-- Where the host holds FREERUN, selection leaves ACQUIRE, NARROW and LOCKED for it. -/
theorem Dev.reselect_freerun {d : Dev} (hst : d.cleaner = 2 ∨ d.cleaner = 3 ∨ d.cleaner = 4)
    (hmode : d.fld R.CK_CLN_CFG F.CK_CLN_CFG_sel_mode = 2) : ∃ e : Dev, d.reselect = e.enterFreerun := by
  have hchoose : d.choose = (none, false) := by rw [d.choose_eq, hmode]; rfl
  have hst' : ¬ (d.cleaner = 0 ∨ d.cleaner = 7) ∧ d.cleaner ≠ 5 ∧ ¬ (d.cleaner = 1 ∨ d.cleaner = 6) := by omega
  obtain ⟨hidle, hswitching, hsteered⟩ := hst'
  refine ⟨if d.qualified d.selRef then d.showConflict false else
    (d.showConflict false).raise R.CK_ALARM F.CK_ALARM_sel_lost, ?_⟩
  simp only [Dev.reselect, hchoose, hmode, if_neg hidle, if_neg hswitching, if_neg hsteered, beq_self_eq_true, if_true]

theorem Dev.writeReg_CK_CLN_CFG (d : Dev) (w : Word) :
    d.writeReg R.CK_CLN_CFG w = (d.store R.CK_CLN_CFG w).refsChanged := by
  rw [d.writeReg_CK w (by decide), Dev.writeCK, if_neg (by decide), if_pos rfl]

/-- sel_mode = 2 leads to FREERUN (R39, R41). -/
theorem freerun_selected {s : State} {w : Word} (hs : s.Up)
    (hst : s.dev.cleaner = 2 ∨ s.dev.cleaner = 3 ∨ s.dev.cleaner = 4) (hw : getField w F.CK_CLN_CFG_sel_mode = 2) :
    Answers (.selModeWrite w) s (fun e =>
      s.dev.Frame e cleanParts (R.CK_CLN_CFG :: s.dev.cleanRegs) ∧ e.cleaner = 1 ∧ e.selRef = 0x7F ∧
      e.fld R.CK_CLN_CFG F.CK_CLN_CFG_sel_mode = 2 ∧ e.flag R.CK_ALARM F.CK_ALARM_freerun = true) := by
  have hmode := Dev.selMode_store (d := s.dev) hw
  have hstore : s.dev.Frame (s.dev.store R.CK_CLN_CFG w) [] [R.CK_CLN_CFG] := s.dev.frame_setReg _ _ (by simp)
  have hmove : s.dev.Moves (s.dev.store R.CK_CLN_CFG w) cleanParts ([R.CK_CLN_CFG] ++ s.dev.cleanRegs) :=
    (hstore.mono (by simp) (List.subset_append_left _ _)).moves (hstore.ca_eq (by simp))
  have hcl : (s.dev.store R.CK_CLN_CFG w).cleaner = s.dev.cleaner := hstore.fld_eq (by decide) _
  obtain ⟨e, he⟩ := Dev.reselect_freerun (d := s.dev.store R.CK_CLN_CFG w) (by rwa [hcl]) hmode
  have hclock := e.enterFreerun.keepsClock_validCheck
  have hchanged : (s.dev.store R.CK_CLN_CFG w).refsChanged = e.enterFreerun.validCheck := congrArg Dev.validCheck he
  have hkept : (s.dev.store R.CK_CLN_CFG w).refsChanged.reg R.CK_CLN_CFG = (s.dev.store R.CK_CLN_CFG w).reg R.CK_CLN_CFG :=
    Dev.reg_refsChanged _ (Dev.not_mem_cleanRegs _ (by decide) (by decide) (by decide))
  refine .of_write (o := R.CK_CLN_CFG) hs (by decide) rfl ?_
  rw [s.dev.writeReg_CK_CLN_CFG]
  refine ⟨hmove.refsChanged.frame.settle, ?_, ?_, ?_, ?_⟩
  · rw [Dev.cleaner_settle, hchanged, hclock.cleaner, e.cleaner_enterFreerun]
  · rw [Dev.selRef_settle, hchanged, hclock.selRef, e.selRef_enterFreerun]
  · rw [Dev.fld_settle, Dev.fld, hkept]
    exact hmode
  · rw [Dev.flag_settle, hchanged, hclock.flag (by decide), e.freerun_enterFreerun]

/-! CK_PPS_NEXT (R60, R425). -/

theorem Dev.writeReg_CK_PPS_NEXT_HI (d : Dev) (m : Fin 2) (w : Word) :
    d.writeReg (R.CK_PPS_NEXT_HI m) w = d.ppsCommit m w := by
  have hblock : ∀ m : Fin 2, R.CK_PPS_NEXT_HI m / 0x10000 = 1 := by decide
  rw [d.writeReg_CK w (hblock m)]
  match m with
  | 0 => rfl
  | 1 => rfl

theorem regSpec_CK_PPS_NEXT_HI : ∀ m : Fin 2, (regSpec (R.CK_PPS_NEXT_HI m)).isSome = true := by decide

/-- A commit joins both halves and is carried forward. -/
theorem pps_next_committed {s : State} (m : Fin 2) (w : Word) (hs : s.Up) :
    Answers (.ppsNextCommit m w) s (fun e => s.dev.Frame e [.ck] [] ∧ (e.ppsOut m).heldLo = none ∧
      (e.ppsOut m).next = carryForward (getField w F.CK_PPS_NEXT_HI_next_hi * 2 ^ 32 +
        ((s.dev.ppsOut m).heldLo.getD (BitVec.ofNat 32 (s.dev.ppsOut m).next)).toNat) (s.dev.ppsPeriod m) s.dev.now) := by
  refine .of_write (o := R.CK_PPS_NEXT_HI m) hs (regSpec_CK_PPS_NEXT_HI m) rfl ?_
  rw [s.dev.writeReg_CK_PPS_NEXT_HI, Dev.ppsOut_settle, Dev.ppsCommit, Dev.ppsOut_setPpsOut_same]
  exact ⟨(s.dev.frame_setPpsOut m _ []).settle, rfl, rfl⟩

/-- Settles O52, clause by clause. -/
theorem clockWrites : Obligations.ClockWrites := fun _ m w hs =>
  ⟨⟨xo_same hs, xo_changed_unlocked hs, xo_changed_locked hs⟩, freerun_selected hs, pps_next_committed m w hs⟩

end Sys2Proof.Machine
end

section
/-! SUPPORT of the lanes' statements (O5, O6, O7, O8). Which registers are those of a lane, and that references and validity
touch none of them; what a change of rate, the start of a bring-up state and a failure do to a lane; the frames of the
steps between them. -/

namespace Sys2Proof.Machine

/-! Registers of the lane block. -/

/-- Registers of one lane are told apart by their offsets in its window. -/
theorem window_ne {a b : Nat} (n : Nat) (h : a ≠ b) : a + 0x400 * n ≠ b + 0x400 * n := by omega

theorem window_block {a n : Nat} (hn : n < 64) (h : 0x30000 ≤ a ∧ a < 0x30400) : (a + 0x400 * n) / 0x10000 = 3 := by
  omega

theorem Dev.not_lane_of_mem_cleanRegs {d : Dev} : ∀ o ∈ d.cleanRegs, o / 0x10000 ≠ 3 := by
  intro o ho
  simp only [Dev.cleanRegs, Dev.validRegs, List.mem_append, List.mem_map, List.mem_cons, List.not_mem_nil, or_false] at ho
  rcases ho with (rfl | rfl) | ((h | ⟨c, -, rfl⟩) | ⟨c, -, rfl⟩) | h
  · decide
  · decide
  · rcases h with rfl | rfl | rfl | rfl | rfl | rfl | rfl <;> decide
  · simp only [R.EC_ALARM]; omega
  · simp only [R.EC_DTC_LATE]; omega
  · split at h
    · simp only [List.mem_singleton, R.EC_STATUS] at h; omega
    · simp at h

theorem status_block {n : Nat} (hn : n < 64) : R.LN_STATUS n / 0x10000 = 3 := window_block hn (by decide)

theorem fail_block {n : Nat} (hn : n < 64) : R.LN_FAIL n / 0x10000 = 3 := window_block hn (by decide)

theorem status_ne_test (n : Nat) : R.LN_STATUS n ≠ R.LN_TEST n := window_ne n (by decide)

theorem status_ne_fail (n : Nat) : R.LN_STATUS n ≠ R.LN_FAIL n := window_ne n (by decide)

/-- The registers of the lane block read in `e` as in `d`. -/
def Dev.KeepsLaneRegs (d e : Dev) : Prop := ∀ o, o / 0x10000 = 3 → e.reg o = d.reg o

section
variable {d e f : Dev} {n : Nat}

theorem Dev.KeepsLaneRegs.trans (h : d.KeepsLaneRegs e) (h' : e.KeepsLaneRegs f) : d.KeepsLaneRegs f :=
  fun o ho => (h' o ho).trans (h o ho)

theorem Dev.KeepsLaneRegs.fld (h : d.KeepsLaneRegs e) {o : Nat} (ho : o / 0x10000 = 3) (g : Field) :
    e.fld o g = d.fld o g := by
  rw [Dev.fld, Dev.fld, h o ho]

theorem Dev.KeepsLaneRegs.flag (h : d.KeepsLaneRegs e) {o : Nat} (ho : o / 0x10000 = 3) (g : Field) :
    e.flag o g = d.flag o g := by
  rw [Dev.flag, Dev.flag, h.fld ho]

theorem Dev.KeepsLaneRegs.bringup (h : d.KeepsLaneRegs e) (hn : n < 64) : e.bringup n = d.bringup n :=
  h.fld (status_block hn) _

theorem Dev.Frame.keepsLaneRegs {p : List Part} {r : List Nat} (h : d.Frame e p r) (hr : ∀ o ∈ r, o / 0x10000 ≠ 3) :
    d.KeepsLaneRegs e := fun o ho => h.reg_eq fun hm => hr o hm ho

theorem Dev.Frame.lane_eq {p : List Part} {r : List Nat} (h : d.Frame e p r) (hp : Part.lanes ∉ p) (n : Nat) :
    e.lane n = d.lane n := by
  have hlanes : e.lanes = d.lanes := h.1 .lanes hp
  rw [Dev.lane, Dev.lane, hlanes]

end

@[simp] theorem Dev.bringup_settle (d : Dev) (n : Nat) : d.settle.bringup n = d.bringup n := by simp [Dev.bringup]
@[simp] theorem Dev.rateNow_settle (d : Dev) (n : Nat) : d.settle.rateNow n = d.rateNow n := by simp [Dev.rateNow]
@[simp] theorem Dev.laneState_settle (d : Dev) (n : Nat) : d.settle.laneState n = d.laneState n := by simp [Dev.laneState]
@[simp] theorem Dev.lane_settle (d : Dev) (n : Nat) : d.settle.lane n = d.lane n := by simp [Dev.lane]

theorem Dev.lane_setLane_same (d : Dev) (n : Nat) (x : Lane) : (d.setLane n x).lane n = x := sGet_sPut_same _ _ _ _

theorem Dev.lane_setLane_ne (d : Dev) {m n : Nat} (x : Lane) (h : m ≠ n) : (d.setLane n x).lane m = d.lane m :=
  sGet_sPut_ne _ _ _ _ h

theorem Dev.fld_setLane (d : Dev) (n : Nat) (x : Lane) (o : Nat) (g : Field) : (d.setLane n x).fld o g = d.fld o g := rfl

/-! The bring-up state and the rate are fields of LN_STATUS. -/

theorem Dev.bringup_lt (d : Dev) (n : Nat) : d.bringup n < 16 := d.fld_lt _ _

theorem Dev.rateNow_lt (d : Dev) (n : Nat) : d.rateNow n < 8 := d.fld_lt _ _

theorem Dev.bringup_setBringup (d : Dev) (n : Nat) {st : Nat} (h : st < 16) : (d.setBringup n st).bringup n = st :=
  d.fld_setFld_low _ _ _ ⟨by decide, by decide, h⟩

/-- A flag of LN_STATUS apart from the bring-up state. -/
theorem Dev.bringup_setFlag (d : Dev) (n : Nat) {g : Field} (b : Bool) (h : g.lo ≤ g.hi ∧ g.hi < 32 ∧ 3 < g.lo) :
    (d.setFlag (R.LN_STATUS n) g b).bringup n = d.bringup n :=
  d.fld_setFld_clear _ _ _ _ ⟨⟨h.1, h.2.1⟩, by decide, .inr h.2.2⟩

/-! Steps that touch registers, counters and owed messages alone. -/

theorem Dev.RegsOnly.refl (d : Dev) : d.RegsOnly d := rfl

theorem Dev.RegsOnly.setFld {d e : Dev} (h : d.RegsOnly e) (o : Nat) (g : Field) (v : Nat) : d.RegsOnly (e.setFld o g v) := by
  obtain ⟨regs, out, msix, pba, i64, i65, ctrs, rfl⟩ := Dev.regsOnly_iff.1 h
  exact Dev.regsOnly_iff.2 ⟨_, _, _, _, _, _, _, rfl⟩

theorem Dev.RegsOnly.raise {d e : Dev} (h : d.RegsOnly e) (o : Nat) (g : Field) : d.RegsOnly (e.raise o g) := by
  obtain ⟨regs, out, msix, pba, i64, i65, ctrs, rfl⟩ := Dev.regsOnly_iff.1 h
  unfold Dev.raise
  extract_lets b e
  split
  · exact h
  · split
    · exact Dev.regsOnly_iff.2 ⟨_, _, _, _, _, _, _, rfl⟩
    · split <;> exact Dev.regsOnly_iff.2 ⟨_, _, _, _, _, _, _, rfl⟩

theorem Dev.RegsOnly.count {d e : Dev} (h : d.RegsOnly e) (c k : Nat) : d.RegsOnly (e.count c k) := by
  have hctrs (x : Sparse Ctr) : d.RegsOnly { e with pc := { e.pc with ctrs := x } } := by
    obtain ⟨regs, out, msix, pba, i64, i65, ctrs, rfl⟩ := Dev.regsOnly_iff.1 h
    exact Dev.regsOnly_iff.2 ⟨_, _, _, _, _, _, _, rfl⟩
  unfold Dev.count
  dsimp only
  split
  · exact (hctrs _).raise _ _
  · exact hctrs _

/-! The lane criterion of a reference (R34). -/

theorem Dev.frame_laneRef (d : Dev) (n : Nat) : d.Frame (d.laneRef n) cleanParts (R.CK_REF_STATUS (4 + n) :: d.cleanRegs) :=
  (d.moves_laneCriterion n _ (List.Subset.refl _) (d.cleanIn_cons [_]) (by simp)).frame

theorem Dev.keepsLaneRegs_laneRef (d : Dev) {n : Nat} (hn : n < 64) : d.KeepsLaneRegs (d.laneRef n) := by
  refine (d.frame_laneRef n).keepsLaneRegs fun o ho => ?_
  rcases List.mem_cons.1 ho with rfl | ho
  · simp only [R.CK_REF_STATUS]
    omega
  · exact Dev.not_lane_of_mem_cleanRegs o ho

theorem Dev.lane_laneRef (d : Dev) (n m : Nat) : (d.laneRef n).lane m = d.lane m :=
  (d.frame_laneRef n).lane_eq (by decide) m

/-! A change of rate (R97). -/

theorem Dev.frame_laneDelays (d : Dev) (n : Nat) : d.Frame (d.laneDelays n) [.ca] [R.LN_TX_DELAY n, R.LN_RX_DELAY n] :=
  (((d.frame_setReg _ _ (by simp)).trans (Dev.frame_setReg _ _ _ (by simp))).trans
    ((Dev.frame_ca _ _ _ (by simp)).trans (Dev.frame_ca _ _ _ (by simp)))).trans (Dev.frame_ca _ _ _ (by simp))

theorem Dev.frame_setRate (d : Dev) (n k : Nat) :
    d.Frame (d.setRate n k) [.ca] [R.LN_STATUS n, R.LN_TX_DELAY n, R.LN_RX_DELAY n] :=
  Dev.frame_ite (.refl d _ _) ((d.frame_setFld _ _ _ (by simp)).trans
    ((Dev.frame_laneDelays _ n).mono (List.Subset.refl _) (by simp)))

/-- The delay constants of a lane are other registers than its status. -/
theorem Dev.status_laneDelays (d : Dev) (n : Nat) : (d.laneDelays n).reg (R.LN_STATUS n) = d.reg (R.LN_STATUS n) :=
  (d.frame_laneDelays n).reg_eq (by simp [R.LN_STATUS, R.LN_TX_DELAY, R.LN_RX_DELAY])

theorem Dev.rateNow_setRate (d : Dev) (n : Nat) {k : Nat} (h : k < 8) : (d.setRate n k).rateNow n = k := by
  unfold Dev.setRate
  split
  · assumption
  · rw [Dev.rateNow, Dev.fld, Dev.status_laneDelays]
    exact d.fld_setFld_low _ _ _ ⟨by decide, by decide, h⟩

theorem Dev.setRate_rateNow (d : Dev) (n : Nat) : d.setRate n (d.rateNow n) = d := if_pos rfl

/-! A bring-up state that begins from idle (R78). -/

/-- The hidden state of a lane whose bring-up state has begun from idle. -/
def Lane.fresh (x : Lane) : Lane :=
  { x with run := 0, ready := false, converged := false, leaving := false, further := 0, sinceTap := 16, reply := 0
           fast := false, retried := false, gap := false, gapEnd := none, regained := false, badMarks := 0 }

/-- A bring-up state has begun, and the lane's reference does not know of it yet. -/
def Dev.stateBegun (d : Dev) (n st : Nat) : Dev :=
  (((d.setBringup n st).setFlag (R.LN_STATUS n) F.LN_STATUS_cdr_lock false).setFlag (R.LN_TEST n) F.LN_TEST_chk_sync
    false).setLane n (d.lane n).fresh

theorem Dev.freshState_eq (d : Dev) (n st : Nat) : d.freshState n st = (d.stateBegun n st).laneRef n := rfl

theorem Dev.frame_stateBegun (d : Dev) (n st : Nat) :
    d.Frame (d.stateBegun n st) [.lanes] [R.LN_STATUS n, R.LN_TEST n] :=
  (((d.frame_setFld _ _ _ (by simp)).trans (Dev.frame_setFlag _ _ _ _ (by simp))).trans
    (Dev.frame_setFlag _ _ _ _ (by simp))).trans (Dev.frame_setLane _ _ _ _ (by simp))

theorem Dev.lane_freshState (d : Dev) (n st : Nat) : (d.freshState n st).lane n = (d.lane n).fresh := by
  rw [d.freshState_eq, Dev.lane_laneRef, Dev.stateBegun, Dev.lane_setLane_same]

/-- LN_STATUS where a bring-up state has begun. -/
theorem Dev.status_freshState (d : Dev) {n : Nat} (hn : n < 64) (st : Nat) (g : Field) :
    (d.freshState n st).fld (R.LN_STATUS n) g =
      ((d.setBringup n st).setFlag (R.LN_STATUS n) F.LN_STATUS_cdr_lock false).fld (R.LN_STATUS n) g := by
  rw [d.freshState_eq, (Dev.keepsLaneRegs_laneRef _ hn).fld (status_block hn), Dev.stateBegun, Dev.fld_setLane]
  exact Dev.fld_setFld_ne _ _ _ _ (status_ne_test n)

theorem Dev.bringup_freshState (d : Dev) {n : Nat} (hn : n < 64) {st : Nat} (h : st < 16) :
    (d.freshState n st).bringup n = st := by
  rw [Dev.bringup, d.status_freshState hn]
  exact (Dev.bringup_setFlag _ n false (by decide)).trans (d.bringup_setBringup n h)

theorem Dev.cdr_lock_freshState (d : Dev) {n : Nat} (hn : n < 64) (st : Nat) :
    (d.freshState n st).flag (R.LN_STATUS n) F.LN_STATUS_cdr_lock = false := by
  rw [Dev.flag, d.status_freshState hn]
  exact Dev.flag_setFlag_same _ _ _ _ (by decide)

/-- A field of LN_STATUS apart from the bring-up state and CDR lock. -/
def statusOther (g : Field) : Prop := (g.lo ≤ g.hi ∧ g.hi < 32) ∧ 3 < g.lo ∧ (8 < g.lo ∨ g.hi < 8)

theorem Dev.fld_status_freshState (d : Dev) {n : Nat} (hn : n < 64) (st : Nat) {g : Field} (hg : statusOther g) :
    (d.freshState n st).fld (R.LN_STATUS n) g = d.fld (R.LN_STATUS n) g := by
  rw [d.status_freshState hn, Dev.setFlag, Dev.fld_setFld_clear _ _ _ _ _ ⟨by decide, hg.1, hg.2.2⟩]
  exact d.fld_setFld_clear _ _ _ _ ⟨by decide, hg.1, .inl hg.2.1⟩

theorem Dev.rateNow_freshState (d : Dev) {n : Nat} (hn : n < 64) (st : Nat) :
    (d.freshState n st).rateNow n = d.rateNow n :=
  d.fld_status_freshState hn st (by unfold statusOther; decide)

theorem Dev.signal_freshState (d : Dev) {n : Nat} (hn : n < 64) (st : Nat) :
    (d.freshState n st).flag (R.LN_STATUS n) F.LN_STATUS_signal = d.flag (R.LN_STATUS n) F.LN_STATUS_signal := by
  rw [Dev.flag, Dev.flag, d.fld_status_freshState hn st (by unfold statusOther; decide)]

/-- A register of the lane block other than the status, the test and the delay constants of lane n. -/
def laneSteady (n o : Nat) : Prop :=
  o / 0x10000 = 3 ∧ o ≠ R.LN_STATUS n ∧ o ≠ R.LN_TEST n ∧ o ≠ R.LN_TX_DELAY n ∧ o ≠ R.LN_RX_DELAY n

theorem laneSteady_window {a n : Nat} (hn : n < 64) (h : (0x30000 ≤ a ∧ a < 0x30400) ∧ a ≠ 0x3000C ∧ a ≠ 0x30020 ∧
    a ≠ 0x30030 ∧ a ≠ 0x30034) : laneSteady n (a + 0x400 * n) := by
  obtain ⟨hwin, hstatus, htest, htx, hrx⟩ := h
  exact ⟨window_block hn hwin, window_ne n hstatus, window_ne n htest, window_ne n htx, window_ne n hrx⟩

theorem Dev.reg_freshState (d : Dev) {n o : Nat} (hn : n < 64) (st : Nat) (ho : laneSteady n o) :
    (d.freshState n st).reg o = d.reg o := by
  obtain ⟨hblock, hstatus, htest, -⟩ := ho
  rw [d.freshState_eq, Dev.keepsLaneRegs_laneRef _ hn o hblock]
  exact (d.frame_stateBegun n st).reg_eq (by simp [hstatus, htest])

/-! Bring-up begins at a rate (R84, R92, R103). -/

theorem firstState_lt (mode : Nat) : firstState mode < 16 := by
  unfold firstState
  split
  · decide
  · split <;> decide

theorem Dev.bringUpAt_eq (d : Dev) (n k : Nat) :
    d.bringUpAt n k = (d.setRate n k).freshState n (firstState (d.laneMode n)) := by
  unfold Dev.bringUpAt firstState
  split
  · next h => simp [h]
  · next h => simp [h]
  · next h2 h3 => rw [if_neg h2, if_neg h3]

theorem Dev.bringup_bringUpAt (d : Dev) {n : Nat} (hn : n < 64) (k : Nat) :
    (d.bringUpAt n k).bringup n = firstState (d.laneMode n) := by
  rw [d.bringUpAt_eq, Dev.bringup_freshState _ hn (firstState_lt _)]

theorem Dev.cdr_lock_bringUpAt (d : Dev) {n : Nat} (hn : n < 64) (k : Nat) :
    (d.bringUpAt n k).flag (R.LN_STATUS n) F.LN_STATUS_cdr_lock = false := by
  rw [d.bringUpAt_eq, Dev.cdr_lock_freshState _ hn]

theorem Dev.rateNow_bringUpAt (d : Dev) {n : Nat} (hn : n < 64) {k : Nat} (hk : k < 8) : (d.bringUpAt n k).rateNow n = k := by
  rw [d.bringUpAt_eq, Dev.rateNow_freshState _ hn, d.rateNow_setRate n hk]

theorem Dev.reg_bringUpAt (d : Dev) {n o : Nat} (hn : n < 64) (k : Nat) (ho : laneSteady n o) :
    (d.bringUpAt n k).reg o = d.reg o := by
  rw [d.bringUpAt_eq, Dev.reg_freshState _ hn _ ho]
  obtain ⟨-, hstatus, -, htx, hrx⟩ := ho
  exact (d.frame_setRate n k).reg_eq (by simp [hstatus, htx, hrx])

/-- Bring-up at the present rate leaves the signal as it is. -/
theorem Dev.signal_bringUpAt_rateNow (d : Dev) {n : Nat} (hn : n < 64) :
    (d.bringUpAt n (d.rateNow n)).flag (R.LN_STATUS n) F.LN_STATUS_signal =
      d.flag (R.LN_STATUS n) F.LN_STATUS_signal := by
  rw [d.bringUpAt_eq, d.setRate_rateNow, Dev.signal_freshState _ hn]

theorem etherRate_lt (mode : Nat) : etherRate mode < 8 := by
  unfold etherRate
  split <;> decide

theorem Dev.isazuRungs_lt (d : Dev) {n k : Nat} {cfg : Word} (h : k ∈ d.isazuRungs n cfg) : k < 8 := by
  have hcodes : k ∈ [0, 1, 3, 4] := by
    unfold Dev.isazuRungs at h
    dsimp only at h
    split at h
    · exact List.mem_of_mem_filter h
    · exact List.mem_of_mem_filter (List.mem_of_mem_take h)
  simp only [List.mem_cons, List.not_mem_nil, or_false] at hcodes
  omega

/-- A rung is a code of LN_STATUS.rate_now. -/
theorem Dev.rungsOf_lt (d : Dev) {n k : Nat} {cfg : Word} (h : k ∈ d.rungsOf n cfg) : k < 8 := by
  unfold Dev.rungsOf at h
  split at h
  · split at h
    · rw [List.mem_singleton.1 h]
      exact etherRate_lt _
    · exact d.isazuRungs_lt h
  · exact d.isazuRungs_lt h

theorem Dev.bringup_bringUpTop (d : Dev) {n : Nat} (hn : n < 64) : (d.bringUpTop n).bringup n = firstState (d.laneMode n) :=
  Dev.bringup_bringUpAt _ hn _

theorem Dev.cdr_lock_bringUpTop (d : Dev) {n : Nat} (hn : n < 64) :
    (d.bringUpTop n).flag (R.LN_STATUS n) F.LN_STATUS_cdr_lock = false := Dev.cdr_lock_bringUpAt _ hn _

theorem Dev.reg_bringUpTop (d : Dev) {n o : Nat} (hn : n < 64) (ho : laneSteady n o) : (d.bringUpTop n).reg o = d.reg o :=
  Dev.reg_bringUpAt _ hn _ ho

theorem Dev.rateNow_bringUpTop (d : Dev) {n k : Nat} (hn : n < 64) (hk : (d.rungsNext n).head? = some k) :
    (d.bringUpTop n).rateNow n = k := by
  rw [Dev.bringUpTop, hk, Option.getD_some]
  exact Dev.rateNow_bringUpAt _ hn (d.rungsOf_lt (List.mem_of_head? hk))

/-! A failure (R84). -/

/-- The failure of a lane is counted and reported. -/
def Dev.failNoted (d : Dev) (n : Nat) : Dev :=
  (((d.addSat (R.LN_FAIL n) F.LN_FAIL_count 1).setFld (R.LN_FAIL n) F.LN_FAIL_last_state (d.bringup n)).setFld
    (R.LN_FAIL n) F.LN_FAIL_last_rate (d.rateNow n)).count (laneCtr n 0)

theorem Dev.failOne_slow {d : Dev} {n : Nat} (h : (d.lane n).fast = false) :
    d.failOne n = (d.failNoted n).freshState n 10 := by
  rw [Dev.failOne, if_neg (by simp [h])]
  rfl

theorem Dev.failOne_fast {d : Dev} {n : Nat} (h : (d.lane n).fast = true) : d.failOne n = d.bringUpAt n (d.rateNow n) :=
  if_pos h

theorem Dev.frame_failNoted (d : Dev) (n : Nat) : d.Frame (d.failNoted n) [] [R.LN_FAIL n, R.PC_ALARM] :=
  (((d.frame_addSat _ _ _ (by simp)).trans (Dev.frame_setFld _ _ _ _ (by simp))).trans
    (Dev.frame_setFld _ _ _ _ (by simp))).trans (Dev.frame_count _ _ _ _ (by simp))

theorem pc_alarm_ne {o : Nat} (h : o / 0x10000 = 3) : o ≠ R.PC_ALARM := by
  rintro rfl
  exact absurd h (by decide)

/-- A counter's wrap is reported outside the lane block. -/
theorem Dev.fld_count (d : Dev) (c k : Nat) {o : Nat} (h : o / 0x10000 = 3) (g : Field) :
    (d.count c k).fld o g = d.fld o g :=
  (d.frame_count (r := [R.PC_ALARM]) c k [] (by simp)).fld_eq (by simp [pc_alarm_ne h]) g

theorem Dev.last_state_failNoted (d : Dev) {n : Nat} (hn : n < 64) :
    (d.failNoted n).fld (R.LN_FAIL n) F.LN_FAIL_last_state = d.bringup n := by
  rw [Dev.failNoted, Dev.fld_count _ _ _ (fail_block hn), Dev.fld_setFld_clear _ _ _ _ _ (by decide)]
  exact Dev.fld_setFld_low _ _ _ _ ⟨by decide, by decide, d.bringup_lt n⟩

theorem Dev.last_rate_failNoted (d : Dev) {n : Nat} (hn : n < 64) :
    (d.failNoted n).fld (R.LN_FAIL n) F.LN_FAIL_last_rate = d.rateNow n := by
  rw [Dev.failNoted, Dev.fld_count _ _ _ (fail_block hn)]
  exact Dev.fld_setFld_low _ _ _ _ ⟨by decide, by decide, d.rateNow_lt n⟩

/-- A lane outside the fast path that fails is in FALLBACK, and LN_FAIL says where and at which rate it failed. -/
theorem Dev.failOne_fallback {d : Dev} {n : Nat} (hn : n < 64) (hf : (d.lane n).fast = false) :
    (d.failOne n).bringup n = 10 ∧ (d.failOne n).fld (R.LN_FAIL n) F.LN_FAIL_last_state = d.bringup n ∧
      (d.failOne n).fld (R.LN_FAIL n) F.LN_FAIL_last_rate = d.rateNow n := by
  have hfail : ((d.failNoted n).freshState n 10).reg (R.LN_FAIL n) = (d.failNoted n).reg (R.LN_FAIL n) :=
    Dev.reg_freshState _ hn _ (laneSteady_window hn (by decide))
  rw [Dev.failOne_slow hf, Dev.fld, Dev.fld, hfail]
  exact ⟨Dev.bringup_freshState _ hn (by decide), d.last_state_failNoted hn, d.last_rate_failNoted hn⟩

/-- A failure touches no register of its lane's window but the status, the test, the delay constants and LN_FAIL. -/
theorem Dev.reg_failOne (d : Dev) {n o : Nat} (hn : n < 64) (ho : laneSteady n o) (hfail : o ≠ R.LN_FAIL n) :
    (d.failOne n).reg o = d.reg o := by
  cases hf : (d.lane n).fast
  · rw [Dev.failOne_slow hf, Dev.reg_freshState _ hn _ ho]
    exact (d.frame_failNoted n).reg_eq (by simp [hfail, pc_alarm_ne ho.1])
  · rw [Dev.failOne_fast hf, Dev.reg_bringUpAt _ hn _ ho]

theorem Dev.signal_failOne (d : Dev) {n : Nat} (hn : n < 64) :
    (d.failOne n).flag (R.LN_STATUS n) F.LN_STATUS_signal = d.flag (R.LN_STATUS n) F.LN_STATUS_signal := by
  cases hf : (d.lane n).fast
  · rw [Dev.failOne_slow hf, Dev.signal_freshState _ hn]
    exact (d.frame_failNoted n).flag_eq
      (by simp [pc_alarm_ne (status_block hn), status_ne_fail]) _
  · rw [Dev.failOne_fast hf, Dev.signal_bringUpAt_rateNow _ hn]

/-! The frames of these steps, in the registers that a link's rise and fall may touch. -/

section
variable {d e f : Dev} {p : List Part} {r : List Nat} {n : Nat}

theorem Dev.laneIn_of_laneRegs (h : d.laneRegs n ⊆ r) : LaneIn r n := laneIn_of h (by simp)

theorem Dev.cleanIn_of_laneRegs (h : d.laneRegs n ⊆ r) : d.CleanIn r := cleanIn_of h

/-- A step after a step, which may count on the registers of references and validity. -/
theorem Dev.Moves.step (h : d.Moves e p r) (hc : d.CleanIn r) (h' : e.CleanIn r → e.Moves f p r) : d.Moves f p r :=
  h.trans (h' (Dev.CleanIn.keep h hc))

theorem Dev.moves_setFld (d : Dev) {o : Nat} (g : Field) (v : Nat) (p : List Part) (h : o ∈ r) :
    d.Moves (d.setFld o g v) p r := (d.frame_setFld g v p h).moves rfl

theorem Dev.moves_setLane (d : Dev) (n : Nat) (x : Lane) (r : List Nat) (h : Part.lanes ∈ p) :
    d.Moves (d.setLane n x) p r := (d.frame_setLane n x r h).moves rfl

theorem Dev.moves_raise (d : Dev) {o : Nat} (g : Field) (p : List Part) (h : o ∈ r) : d.Moves (d.raise o g) p r :=
  (d.frame_raise g p h).moves (d.raise_ca o g)

theorem Dev.moves_bringUpTop (d : Dev) (n : Nat) (hp : linkParts ⊆ p) (h : d.CleanIn r) (hn : LaneIn r n) :
    d.Moves (d.bringUpTop n) p r :=
  (d.moves_setLane n _ r (linkParts_lanes hp)).step h fun h' => Dev.moves_bringUpAt _ n _ hp h' hn

end

end Sys2Proof.Machine
end

section
/-! PROOF of O5. The ends of STARTING and STOPPING of a lane; what a write of LN_CTRL stores and starts; the settings that
DORMANT holds, the ways out of it, and a restart (R76, R77, R84, R346). -/

namespace Sys2Proof.Machine

/-! The ends of STARTING and STOPPING (R76, R346). -/

theorem Dev.laneState_setLaneState (d : Dev) (n : Nat) {st : Nat} (h : st < 4) : (d.setLaneState n st).laneState n = st :=
  d.fld_setFld_low _ _ _ ⟨by decide, by decide, h⟩

theorem ctrl_steady {n : Nat} (hn : n < 64) : laneSteady n (R.LN_CTRL n) := laneSteady_window hn (by decide)

theorem Dev.laneState_bringUpTop (d : Dev) {n : Nat} (hn : n < 64) : (d.bringUpTop n).laneState n = d.laneState n := by
  rw [Dev.laneState, Dev.fld, d.reg_bringUpTop hn (ctrl_steady hn)]
  rfl

theorem lane_starting_ended {s : State} (n : Fin 64) (hs : s.Up) (hf : s.dev.inFault = false)
    (hst : s.dev.laneState n = enStarting) (hen : s.dev.flag (R.LN_CTRL n) F.LN_CTRL_enable = true) :
    Answers (.laneStartingEnd n) s (fun e =>
      s.dev.Frame e linkParts (R.LN_CTRL n :: s.dev.laneRegs n) ∧
      e.laneState n = enOn ∧ e.bringup n = firstState (s.dev.laneMode n) ∧
      e.flag (R.LN_STATUS n) F.LN_STATUS_cdr_lock = false) := by
  have hwanted : s.dev.enWanted (.lane n) = true := by
    rw [Dev.enWanted, show s.dev.flag (enReg (.lane n)) enField = true from hen]
    simp [Dev.stageStops]
  have hmode : (s.dev.setLaneState n enOn).laneMode n = s.dev.laneMode n := s.dev.fld_setFld_ne _ _ _ (window_ne n (by decide))
  have hregs : s.dev.laneRegs n ⊆ R.LN_CTRL n :: s.dev.laneRegs n := List.subset_cons_self _ _
  refine .of_running hs (show execLaneStartingEnd n s = running s _ from rfl) ?_
  rw [if_neg (by simp [hst, hf]), if_pos hwanted]
  refine ⟨Dev.Frame.settle ?_, ?_, ?_, ?_⟩
  · exact ((s.dev.moves_setFld _ _ _ (by simp)).step (Dev.cleanIn_of_laneRegs hregs) fun hc =>
      Dev.moves_bringUpTop _ n (List.Subset.refl _) hc (Dev.laneIn_of_laneRegs hregs)).frame
  · rw [Dev.laneState_settle, Dev.laneState_bringUpTop _ n.isLt, Dev.laneState_setLaneState _ _ (by decide)]
  · rw [Dev.bringup_settle, Dev.bringup_bringUpTop _ n.isLt, hmode]
  · rw [Dev.flag_settle, Dev.cdr_lock_bringUpTop _ n.isLt]

/-- A block in OFF whose enable reads 0 stays there. -/
theorem Dev.enApply_off {d : Dev} {t : EnTarget} (hst : d.enState t = enOff) (hen : d.flag (enReg t) enField = false) :
    d.enApply t = d := by
  have hwanted : d.enWanted t = false := by simp [Dev.enWanted, hen]
  simp [Dev.enApply, hst, hwanted]

theorem Dev.laneLeave_of_not_active {d : Dev} {n : Nat} (h : d.bringup n ≠ 6) : d.laneLeave n = d := if_neg h

/-- A lane outside ACTIVE, before its block reads OFF: nothing is received. -/
def Dev.laneQuiet (d : Dev) (n : Nat) : Dev := (d.freshState n 0).statusClear n

theorem Dev.laneOff_of_not_active {d : Dev} {n : Nat} (h : d.bringup n ≠ 6) :
    d.laneOff n = (d.laneQuiet n).setLaneState n enOff := by
  rw [Dev.laneOff, Dev.laneLeave_of_not_active h]
  rfl

theorem Dev.moves_laneQuiet (d : Dev) (n : Nat) {p : List Part} {r : List Nat} (hp : linkParts ⊆ p) (h : d.CleanIn r)
    (hn : LaneIn r n) : d.Moves (d.laneQuiet n) p r :=
  (d.moves_freshState n 0 hp h hn).trans ((Dev.frame_setReg _ _ _ hn.status).moves rfl)

/-- What LN_STATUS reads of a lane that receives nothing: the bring-up state, and nothing above the rate. -/
theorem Dev.status_laneQuiet (d : Dev) {n : Nat} (hn : n < 64) : (d.laneQuiet n).bringup n = 0 ∧
    (d.laneQuiet n).flag (R.LN_STATUS n) F.LN_STATUS_signal = false := by
  have hword : (d.laneQuiet n).reg (R.LN_STATUS n) = putField (putField 0 F.LN_STATUS_rate_now
      ((d.freshState n 0).rateNow n)) F.LN_STATUS_bringup ((d.freshState n 0).bringup n) := Dev.reg_setReg_same _ _ _
  rw [Dev.bringup, Dev.flag, Dev.fld, Dev.fld, hword, d.bringup_freshState hn (by decide)]
  constructor
  · exact getField_putField_same _ _ _ ⟨by decide, by decide⟩
  · rw [getField_putField_apart _ _ _ _ ⟨by decide, by decide⟩ ⟨by decide, by decide⟩ (.inl (by decide)),
      getField_putField_apart _ _ _ _ ⟨by decide, by decide⟩ ⟨by decide, by decide⟩ (.inl (by decide))]
    rfl

theorem Dev.enable_laneQuiet (d : Dev) {n : Nat} (hn : n < 64) :
    (d.laneQuiet n).reg (R.LN_CTRL n) = d.reg (R.LN_CTRL n) :=
  (Dev.reg_setReg_ne _ _ (window_ne n (by decide))).trans (d.reg_freshState hn 0 (ctrl_steady hn))

theorem lane_stopping_ended {s : State} (n : Fin 64) (hs : s.Up) (hf : s.dev.inFault = false)
    (hst : s.dev.laneState n = enStopping) (hen : s.dev.flag (R.LN_CTRL n) F.LN_CTRL_enable = false)
    (hactive : s.dev.bringup n ≠ 6) :
    Answers (.laneStoppingEnd n) s (fun e =>
      s.dev.Frame e linkParts (R.LN_CTRL n :: s.dev.laneRegs n) ∧
      e.laneState n = enOff ∧ e.bringup n = 0 ∧ e.flag (R.LN_STATUS n) F.LN_STATUS_signal = false) := by
  have hoff := Dev.laneState_setLaneState (s.dev.laneQuiet n) n (show enOff < 4 by decide)
  have hen' : ((s.dev.laneQuiet n).setLaneState n enOff).flag (R.LN_CTRL n) enField = false := by
    rw [Dev.setLaneState, Dev.flag_setFld_clear _ _ _ _ _ (by decide), Dev.flag, Dev.fld, s.dev.enable_laneQuiet n.isLt]
    exact hen
  have hstatus : R.LN_STATUS n ≠ R.LN_CTRL n := window_ne n (by decide)
  obtain ⟨hbringup, hsignal⟩ := s.dev.status_laneQuiet n.isLt
  have hregs : s.dev.laneRegs n ⊆ R.LN_CTRL n :: s.dev.laneRegs n := List.subset_cons_self _ _
  refine .of_running hs (show execLaneStoppingEnd n s = running s _ from rfl) ?_
  rw [if_neg (by simp [hst, hf]), Dev.laneOff_of_not_active hactive, Dev.enApply_off (t := .lane n) hoff hen']
  refine ⟨Dev.Frame.settle ?_, ?_, ?_, ?_⟩
  · exact ((s.dev.moves_laneQuiet n (List.Subset.refl _) (Dev.cleanIn_of_laneRegs hregs)
      (Dev.laneIn_of_laneRegs hregs)).trans (Dev.moves_setFld _ _ _ _ (by simp))).frame
  · rw [Dev.laneState_settle, hoff]
  · rw [Dev.bringup_settle]
    exact (Dev.fld_setFld_ne _ _ _ _ hstatus).trans hbringup
  · rw [Dev.flag_settle]
    exact (Dev.flag_setFld_ne _ _ _ _ hstatus).trans hsignal

/-! A write of LN_CTRL (R76, R77, R84). -/

/-- The fields of LN_CTRL. -/
def lnCtrlFields : List FieldSpec :=
  [⟨F.LN_CTRL_state, .ro, .any⟩, ⟨F.LN_CTRL_restart, .wo, .any⟩, ⟨F.LN_CTRL_dormant, .rw, .any⟩,
    ⟨F.LN_CTRL_enable, .rw, .any⟩]

theorem regSpec_LN_CTRL : ∀ n < 64, (regSpec (R.LN_CTRL n)).map (·.fields) = some lnCtrlFields := by decide

/-- The word that LN_CTRL holds after a write: DORMANT and the enable are stored. -/
theorem Dev.fieldsStored_LN_CTRL (d : Dev) {n : Nat} (hn : n < 64) (w : Word) : d.fieldsStored (R.LN_CTRL n) w =
    putField (putField (d.reg (R.LN_CTRL n)) F.LN_CTRL_dormant (getField w F.LN_CTRL_dormant)) F.LN_CTRL_enable
      (getField w F.LN_CTRL_enable) := by
  obtain ⟨r, hr, hfields⟩ := Option.map_eq_some_iff.1 (regSpec_LN_CTRL n hn)
  simp only [Dev.fieldsStored, hr, hfields, lnCtrlFields, List.foldl_cons, List.foldl_nil]
  rfl

theorem Dev.ctrl_stored (d : Dev) {n : Nat} (hn : n < 64) (w : Word) :
    (d.store (R.LN_CTRL n) w).flag (R.LN_CTRL n) F.LN_CTRL_enable = (getField w F.LN_CTRL_enable != 0) ∧
      (d.store (R.LN_CTRL n) w).flag (R.LN_CTRL n) F.LN_CTRL_dormant = (getField w F.LN_CTRL_dormant != 0) ∧
      (d.store (R.LN_CTRL n) w).laneState n = d.laneState n := by
  have hbit (g : Field) (h : g.hi = g.lo) : getField w g % 2 ^ (g.hi + 1 - g.lo) = getField w g :=
    Nat.mod_eq_of_lt (Nat.mod_lt _ (Nat.two_pow_pos _))
  simp only [Dev.laneState, Dev.flag, d.fld_store, d.fieldsStored_LN_CTRL hn]
  refine ⟨?_, ?_, ?_⟩
  · rw [getField_putField_same _ _ _ ⟨by decide, by decide⟩, hbit _ rfl]
  · rw [getField_putField_apart _ _ _ _ ⟨by decide, by decide⟩ ⟨by decide, by decide⟩ (.inl (by decide)),
      getField_putField_same _ _ _ ⟨by decide, by decide⟩, hbit _ rfl]
  · rw [getField_putField_apart _ _ _ _ ⟨by decide, by decide⟩ ⟨by decide, by decide⟩ (.inl (by decide)),
      getField_putField_apart _ _ _ _ ⟨by decide, by decide⟩ ⟨by decide, by decide⟩ (.inl (by decide))]
    rfl

/-- A write of a register of the lane block goes by the offset in its lane's window. -/
theorem Dev.writeReg_LN (d : Dev) {o : Nat} (w : Word) (h : o / 0x10000 = 3) : d.writeReg o w = d.writeLN o w := by
  simp only [Dev.writeReg, h]

theorem Dev.writeReg_LN_CTRL (d : Dev) {n : Nat} (hn : n < 64) (w : Word) :
    d.writeReg (R.LN_CTRL n) w = d.laneCtrlWrite n w := by
  have hoff : R.LN_CTRL n % 0x400 = 0 := by simp only [R.LN_CTRL]; omega
  have hlane : (R.LN_CTRL n - R.LN_CTRL 0) / 0x400 = n := by simp only [R.LN_CTRL]; omega
  rw [d.writeReg_LN w (ctrl_steady hn).1]
  simp only [Dev.writeLN, hoff, hlane, Dev.enableWrite, Fin.val_ofNat, Nat.mod_eq_of_lt hn]

/-- LN_CTRL written, and bring-up restarted where the write asks for it. -/
def Dev.ctrlTaken (d : Dev) (n : Nat) (w : Word) : Dev :=
  if getField w F.LN_CTRL_restart = 1 then (d.store (R.LN_CTRL n) w).laneRestart n else d.store (R.LN_CTRL n) w

theorem Dev.ctrlTaken_stored (d : Dev) (n : Nat) {w : Word} (h : getField w F.LN_CTRL_restart = 0) :
    d.ctrlTaken n w = d.store (R.LN_CTRL n) w := if_neg (by simp [h])

/-- A write of LN_CTRL that leaves a lane enabled in ON: after a restart, DORMANT goes by its field. -/
theorem Dev.laneCtrlWrite_on {d : Dev} {n : Nat} {w : Word} (hn : n < 64) (hst : d.laneState n = enOn)
    (hen : getField w F.LN_CTRL_enable = 1) : d.laneCtrlWrite n w =
      if (d.ctrlTaken n w).flag (R.LN_CTRL n) F.LN_CTRL_dormant then (d.ctrlTaken n w).enterDormant n
      else (d.ctrlTaken n w).leaveDormant n := by
  have hwanted : (d.store (R.LN_CTRL n) w).flag (R.LN_CTRL n) F.LN_CTRL_enable = true := by
    rw [(d.ctrl_stored hn w).1, hen]
    rfl
  unfold Dev.laneCtrlWrite
  simp only [hst, enOn, hwanted]
  rfl

/-- A command that writes LN_CTRL of a lane in ON with the enable. -/
theorem answers_ctrlWrite {c : Instr} {s : State} {n : Fin 64} {w : Word} {Q : Dev → Prop} (hs : s.Up)
    (hc : exec c s = awake s fun d => d.writeAccess (R.LN_CTRL n) true w) (hst : s.dev.laneState n = enOn)
    (hen : getField w F.LN_CTRL_enable = 1)
    (hQ : Q (if (s.dev.ctrlTaken n w).flag (R.LN_CTRL n) F.LN_CTRL_dormant then (s.dev.ctrlTaken n w).enterDormant n
      else (s.dev.ctrlTaken n w).leaveDormant n).settle) : Answers c s Q := by
  obtain ⟨r, hr, -⟩ := Option.map_eq_some_iff.1 (regSpec_LN_CTRL n n.isLt)
  refine .of_write hs (by rw [hr]; rfl) hc ?_
  rwa [s.dev.writeReg_LN_CTRL n.isLt, Dev.laneCtrlWrite_on n.isLt hst hen]

/-- LN_CTRL written: another register than those of the bring-up state. -/
theorem Dev.frame_ctrlStored (d : Dev) (n : Nat) (w : Word) : d.Frame (d.store (R.LN_CTRL n) w) [] [R.LN_CTRL n] :=
  d.frame_setReg _ _ (by simp)

section
variable (d : Dev) (n : Nat) (w : Word)

theorem Dev.bringup_ctrlStored : (d.store (R.LN_CTRL n) w).bringup n = d.bringup n :=
  d.fld_setReg_ne _ _ (window_ne n (by decide))

theorem Dev.rateNow_ctrlStored : (d.store (R.LN_CTRL n) w).rateNow n = d.rateNow n :=
  d.fld_setReg_ne _ _ (window_ne n (by decide))

theorem Dev.laneMode_ctrlStored : (d.store (R.LN_CTRL n) w).laneMode n = d.laneMode n :=
  d.fld_setReg_ne _ _ (window_ne n (by decide))

theorem Dev.lane_ctrlStored : (d.store (R.LN_CTRL n) w).lane n = d.lane n := rfl

end

/-! DORMANT (R77). -/

/-- Fields of LN_STATUS above the rate, one after the other, as the last completed TRAIN left them. -/
def Dev.statusHeld (d : Dev) (n : Nat) (held : Word) (gs : List Field) : Dev :=
  gs.foldl (fun d g => d.setFld (R.LN_STATUS n) g (getField held g)) d

theorem Dev.frame_statusHeld (d : Dev) (n : Nat) (held : Word) (gs : List Field) (p : List Part) {r : List Nat}
    (h : R.LN_STATUS n ∈ r) : d.Frame (d.statusHeld n held gs) p r :=
  .foldl (fun d _ => d.frame_setFld _ _ p h) _ _

theorem Dev.fld_statusHeld (d : Dev) (n : Nat) (held : Word) {gs : List Field} {g : Field}
    (hgs : ∀ x ∈ gs, (x.lo ≤ x.hi ∧ x.hi < 32) ∧ (g.lo ≤ g.hi ∧ g.hi < 32) ∧ g.hi < x.lo) :
    (d.statusHeld n held gs).fld (R.LN_STATUS n) g = d.fld (R.LN_STATUS n) g := by
  induction gs generalizing d with
  | nil => rfl
  | cons x xs ih =>
    obtain ⟨hx, hg, hapart⟩ := hgs x (by simp)
    exact (ih (d.setFld _ x _) fun y hy => hgs y (by simp [hy])).trans
      (d.fld_setFld_clear _ _ _ _ ⟨hx, hg, .inr hapart⟩)

/-- Fields of LN_EQ_RX, one after the other, as the last completed TRAIN left them. -/
def Dev.rxHeld (d : Dev) (n : Nat) (held : Word) (gs : List Field) : Dev :=
  gs.foldl (fun d g => d.setFld (R.LN_EQ_RX n) g (getField held g)) d

theorem Dev.frame_rxHeld (d : Dev) (n : Nat) (held : Word) (gs : List Field) (p : List Part) {r : List Nat}
    (h : R.LN_EQ_RX n ∈ r) : d.Frame (d.rxHeld n held gs) p r :=
  .foldl (fun d _ => d.frame_setFld _ _ p h) _ _

/-- The fields of LN_STATUS that DORMANT holds besides the rate. -/
def heldStatusFields : List Field :=
  [F.LN_STATUS_rx_precode, F.LN_STATUS_tx_precode, F.LN_STATUS_lane_rx, F.LN_STATUS_reversed, F.LN_STATUS_rx_inverted]

theorem Dev.heldSettings_untrained {d : Dev} {n : Nat} (h : (d.lane n).trained = none) : d.heldSettings n = d := by
  simp [Dev.heldSettings, h]

/-- The settings of the last completed TRAIN, before those of the receiver. -/
def Dev.linkHeld (d : Dev) (n k : Nat) : Dev :=
  ((d.setRate n k).statusHeld n (d.lane n).trainStat heldStatusFields).setReg (R.LN_EQ_TX n) (d.lane n).trainTx

theorem Dev.heldSettings_trained {d : Dev} {n k : Nat} (h : (d.lane n).trained = some k) :
    d.heldSettings n = (d.linkHeld n k).rxHeld n (d.lane n).trainRx [F.LN_EQ_RX_gain, F.LN_EQ_RX_ctle] := by
  unfold Dev.heldSettings
  simp only [h]
  rfl

theorem Dev.frame_heldSettings (d : Dev) (n : Nat) {r : List Nat} (hn : LaneIn r n) (htx : R.LN_EQ_TX n ∈ r)
    (hrx : R.LN_EQ_RX n ∈ r) : d.Moves (d.heldSettings n) linkParts r := by
  cases h : (d.lane n).trained with
  | none =>
    rw [Dev.heldSettings_untrained h]
    exact .refl d _ _
  | some k =>
    rw [Dev.heldSettings_trained h]
    have hrest : (d.setRate n k).Frame ((d.linkHeld n k).rxHeld n (d.lane n).trainRx [F.LN_EQ_RX_gain, F.LN_EQ_RX_ctle])
        [] r := ((Dev.frame_statusHeld _ n _ _ _ hn.status).trans (Dev.frame_setReg _ _ _ htx)).trans
      (Dev.frame_rxHeld _ n _ _ _ hrx)
    exact (d.moves_setRate n k (linkParts_ca (List.Subset.refl _)) hn).trans
      ((hrest.mono (List.nil_subset _) (List.Subset.refl _)).moves (hrest.ca_eq (by simp)))

/-- The held settings leave the bring-up state. -/
theorem Dev.bringup_setRate (d : Dev) (n k : Nat) : (d.setRate n k).bringup n = d.bringup n := by
  unfold Dev.setRate
  split
  · rfl
  · rw [Dev.bringup, Dev.fld, Dev.status_laneDelays]
    exact d.fld_setFld_clear _ _ _ _ (by decide)

/-- What LN_STATUS and LN_EQ_TX read of a lane that holds the settings of its last completed TRAIN. -/
theorem Dev.trained_held {d : Dev} {n k : Nat} (h : (d.lane n).trained = some k) :
    (d.heldSettings n).bringup n = d.bringup n ∧ (d.heldSettings n).reg (R.LN_EQ_TX n) = (d.lane n).trainTx ∧
      (k < 8 → (d.heldSettings n).rateNow n = k) := by
  have hrx := (d.linkHeld n k).frame_rxHeld n (d.lane n).trainRx [F.LN_EQ_RX_gain, F.LN_EQ_RX_ctle] [] (r := [R.LN_EQ_RX n])
    (by simp)
  have hstatus (g : Field) : (d.heldSettings n).fld (R.LN_STATUS n) g =
      ((d.setRate n k).statusHeld n (d.lane n).trainStat heldStatusFields).fld (R.LN_STATUS n) g := by
    rw [Dev.heldSettings_trained h, hrx.fld_eq (by simp [R.LN_STATUS, R.LN_EQ_RX])]
    exact Dev.fld_setReg_ne _ _ _ (window_ne n (by decide))
  refine ⟨?_, ?_, fun hk => ?_⟩
  · rw [Dev.bringup, hstatus, Dev.fld_statusHeld _ _ _ (by unfold heldStatusFields; decide)]
    exact d.bringup_setRate n k
  · rw [Dev.heldSettings_trained h, hrx.reg_eq (by simp [R.LN_EQ_TX, R.LN_EQ_RX])]
    exact Dev.reg_setReg_same _ _ _
  · rw [Dev.rateNow, hstatus, Dev.fld_statusHeld _ _ _ (by unfold heldStatusFields; decide)]
    exact d.rateNow_setRate n hk

/-- The held settings are those of the status, the equaliser and the delay constants. -/
theorem Dev.reg_heldSettings (d : Dev) {n o : Nat} (ho : laneSteady n o) (htx : o ≠ R.LN_EQ_TX n) (hrx : o ≠ R.LN_EQ_RX n) :
    (d.heldSettings n).reg o = d.reg o := by
  obtain ⟨-, hstatus, -, htxd, hrxd⟩ := ho
  cases h : (d.lane n).trained with
  | none => rw [Dev.heldSettings_untrained h]
  | some k =>
    rw [Dev.heldSettings_trained h, (Dev.frame_rxHeld _ n _ _ [] (List.mem_singleton_self _)).reg_eq (by simp [hrx]),
      Dev.linkHeld, Dev.reg_setReg_ne _ _ htx,
      (Dev.frame_statusHeld _ n _ _ [] (List.mem_singleton_self _)).reg_eq (by simp [hstatus])]
    exact (d.frame_setRate n k).reg_eq (by simp [hstatus, htxd, hrxd])

/-- DORMANT begins on a lane outside ACTIVE and HALTED. -/
theorem Dev.enterDormant_eq {d : Dev} {n : Nat} (hactive : d.bringup n ≠ 6) (hhalted : d.bringup n ≠ 11) :
    d.enterDormant n = (d.freshState n 9).heldSettings n := by
  rw [Dev.enterDormant, if_neg hhalted, Dev.laneLeave_of_not_active hactive]

/-- A lane in DORMANT holds the settings of its last completed TRAIN, where it has completed one. -/
theorem Dev.dormant_entered (d : Dev) {n : Nat} (hn : n < 64) :
    ((d.freshState n 9).heldSettings n).bringup n = 9 ∧
      ((d.freshState n 9).heldSettings n).laneState n = d.laneState n ∧
      ∀ k, (d.lane n).trained = some k →
        ((d.freshState n 9).heldSettings n).reg (R.LN_EQ_TX n) = (d.lane n).trainTx ∧
          (k < 8 → ((d.freshState n 9).heldSettings n).rateNow n = k) := by
  have hlane := d.lane_freshState n 9
  have hbegun := d.bringup_freshState hn (show 9 < 16 by decide)
  have hstate : ((d.freshState n 9).heldSettings n).laneState n = d.laneState n := by
    rw [Dev.laneState, Dev.fld, Dev.reg_heldSettings _ (ctrl_steady hn) (window_ne n (by decide)) (window_ne n (by decide)),
      d.reg_freshState hn 9 (ctrl_steady hn)]
    rfl
  cases h : (d.lane n).trained with
  | none =>
    have h' : ((d.freshState n 9).lane n).trained = none := by rw [hlane]; exact h
    rw [Dev.heldSettings_untrained h'] at hstate ⊢
    exact ⟨hbegun, hstate, fun k hk => by cases hk⟩
  | some k =>
    have h' : ((d.freshState n 9).lane n).trained = some k := by rw [hlane]; exact h
    obtain ⟨hb, htx, hrate⟩ := Dev.trained_held h'
    rw [hlane] at htx
    refine ⟨hb.trans hbegun, hstate, fun k' hk' => ?_⟩
    cases hk'
    exact ⟨htx, hrate⟩

theorem dormant_entry {s : State} (n : Fin 64) (w : Word) (hs : s.Up) (hst : s.dev.laneState n = enOn)
    (hen : getField w F.LN_CTRL_enable = 1) (hdormant : getField w F.LN_CTRL_dormant = 1)
    (hrestart : getField w F.LN_CTRL_restart = 0) (hactive : s.dev.bringup n ≠ 6) (hhalted : s.dev.bringup n ≠ 11) :
    Answers (.dormantEntry n w) s (fun e =>
      s.dev.Frame e linkParts (R.LN_CTRL n :: R.LN_EQ_TX n :: R.LN_EQ_RX n :: s.dev.laneRegs n) ∧
      e.laneState n = enOn ∧ e.bringup n = 9 ∧
      ∀ r, (s.dev.lane n).trained = some r → e.reg (R.LN_EQ_TX n) = (s.dev.lane n).trainTx ∧
        (r < 8 → e.rateNow n = r)) := by
  obtain ⟨-, hflag, hstate⟩ := s.dev.ctrl_stored n.isLt w
  have hbegun := s.dev.bringup_ctrlStored n w
  obtain ⟨hbringup, hon, hheld⟩ := (s.dev.store (R.LN_CTRL n) w).dormant_entered n.isLt
  have hregs : s.dev.laneRegs n ⊆ R.LN_CTRL n :: R.LN_EQ_TX n :: R.LN_EQ_RX n :: s.dev.laneRegs n :=
    fun o ho => by simp [ho]
  have hin := Dev.laneIn_of_laneRegs hregs
  refine answers_ctrlWrite hs rfl hst hen ?_
  rw [s.dev.ctrlTaken_stored n hrestart, if_pos (by rw [hflag, hdormant]; rfl),
    Dev.enterDormant_eq (by rwa [hbegun]) (by rwa [hbegun])]
  refine ⟨Dev.Frame.settle ?_, ?_, ?_, fun r hr => ?_⟩
  · exact ((((s.dev.frame_ctrlStored n w).mono (List.nil_subset _) (by simp)).moves rfl).step
      (Dev.cleanIn_of_laneRegs hregs) fun hc => (Dev.moves_freshState _ n 9 (List.Subset.refl _) hc hin).trans
        (Dev.frame_heldSettings _ n hin (by simp) (by simp))).frame
  · rw [Dev.laneState_settle, hon, hstate, hst]
  · rw [Dev.bringup_settle, hbringup]
  · rw [Dev.reg_settle, Dev.rateNow_settle]
    exact hheld r hr

/-! The ways out of DORMANT, and a restart (R77, R84). -/

/-- A lane in DORMANT whose last completed TRAIN was at its rate takes the fast path. -/
theorem Dev.leaveDormant_trained {d : Dev} {n : Nat} (hb : d.bringup n = 9) (hfast : (d.lane n).fast = false)
    (h : (d.lane n).trained = some (d.rateNow n)) :
    d.leaveDormant n = d.setLane n { d.lane n with fast := true } := by
  simp [Dev.leaveDormant, hb, hfast, h]

/-- Any other lane in DORMANT begins bring-up at its rate. -/
theorem Dev.leaveDormant_untrained {d : Dev} {n : Nat} (hb : d.bringup n = 9) (hfast : (d.lane n).fast = false)
    (h : (d.lane n).trained ≠ some (d.rateNow n)) : d.leaveDormant n = d.bringUpAt n (d.rateNow n) := by
  simp [Dev.leaveDormant, hb, hfast, h]

theorem Dev.leaveDormant_elsewhere {d : Dev} {n : Nat} (hb : d.bringup n ≠ 9) : d.leaveDormant n = d := by
  simp [Dev.leaveDormant, hb]

theorem dormant_exit {s : State} (n : Fin 64) (w : Word) (hs : s.Up) (hst : s.dev.laneState n = enOn)
    (hen : getField w F.LN_CTRL_enable = 1) (hdormant : getField w F.LN_CTRL_dormant = 0)
    (hrestart : getField w F.LN_CTRL_restart = 0) (hb : s.dev.bringup n = 9) (hfast : (s.dev.lane n).fast = false) :
    Answers (.dormantExit n w) s (fun e =>
      s.dev.Frame e linkParts (R.LN_CTRL n :: s.dev.laneRegs n) ∧
      if (s.dev.lane n).trained = some (s.dev.rateNow n) then e.bringup n = 9 ∧ (e.lane n).fast = true
      else e.bringup n = firstState (s.dev.laneMode n) ∧ e.rateNow n = s.dev.rateNow n) := by
  have hflag := (s.dev.ctrl_stored n.isLt w).2.1
  have hregs : s.dev.laneRegs n ⊆ R.LN_CTRL n :: s.dev.laneRegs n := List.subset_cons_self _ _
  have hstored : s.dev.Moves (s.dev.store (R.LN_CTRL n) w) linkParts (R.LN_CTRL n :: s.dev.laneRegs n) :=
    ((s.dev.frame_ctrlStored n w).mono (List.nil_subset _) (by simp)).moves rfl
  have hb' := (s.dev.bringup_ctrlStored n w).trans hb
  have hrate := s.dev.rateNow_ctrlStored n w
  have hlane := s.dev.lane_ctrlStored n w
  refine answers_ctrlWrite hs rfl hst hen ?_
  rw [s.dev.ctrlTaken_stored n hrestart, if_neg (by rw [hflag, hdormant]; simp)]
  split
  · next h =>
    rw [Dev.leaveDormant_trained hb' (by rw [hlane, hfast]) (by rw [hlane, hrate, h]), Dev.bringup_settle,
      Dev.lane_settle, Dev.lane_setLane_same]
    exact ⟨(hstored.trans (Dev.moves_setLane _ _ _ _ (by decide))).frame.settle, hb', rfl⟩
  · next h =>
    rw [Dev.leaveDormant_untrained hb' (by rw [hlane, hfast]) (by rw [hlane, hrate]; exact h), Dev.bringup_settle,
      Dev.rateNow_settle, Dev.bringup_bringUpAt _ n.isLt, Dev.rateNow_bringUpAt _ n.isLt (Dev.rateNow_lt _ _), hrate,
      s.dev.laneMode_ctrlStored n w]
    exact ⟨(hstored.step (Dev.cleanIn_of_laneRegs hregs) fun hc => Dev.moves_bringUpAt _ n _ (List.Subset.refl _) hc
      (Dev.laneIn_of_laneRegs hregs)).frame.settle, rfl, rfl⟩

theorem firstState_ne_dormant (mode : Nat) : firstState mode ≠ 9 := by
  unfold firstState
  split
  · decide
  · split <;> decide

/-- The rungs of a lane rest on other registers than LN_CTRL. -/
theorem Dev.rungsNext_ctrlStored (d : Dev) (n : Nat) (w : Word) :
    (d.store (R.LN_CTRL n) w).rungsNext n = d.rungsNext n := by
  have hframe := d.frame_ctrlStored n w
  have hcfg : (d.store (R.LN_CTRL n) w).reg (R.LN_RATE_CFG n) = d.reg (R.LN_RATE_CFG n) :=
    hframe.reg_eq (by simp [R.LN_RATE_CFG, R.LN_CTRL])
  have heth (p : Nat) : (d.store (R.LN_CTRL n) w).fld (R.LK_ETH_CFG p) F.LK_ETH_CFG_eth_mode =
      d.fld (R.LK_ETH_CFG p) F.LK_ETH_CFG_eth_mode :=
    hframe.fld_eq (by simp only [List.mem_singleton, R.LK_ETH_CFG, R.LN_CTRL]; omega) _
  simp only [Dev.rungsNext, Dev.rungsOf, Dev.isazuRungs, hcfg, heth, d.laneMode_ctrlStored n w, d.lane_ctrlStored n w]

theorem lane_restarted {s : State} (n : Fin 64) (w : Word) (hs : s.Up) (hst : s.dev.laneState n = enOn)
    (hen : getField w F.LN_CTRL_enable = 1) (hdormant : getField w F.LN_CTRL_dormant = 0)
    (hrestart : getField w F.LN_CTRL_restart = 1) (h1 : 1 ≤ s.dev.bringup n) (h5 : s.dev.bringup n ≤ 5) :
    Answers (.laneRestart n w) s (fun e =>
      s.dev.Frame e linkParts (R.LN_CTRL n :: s.dev.laneRegs n) ∧
      e.bringup n = firstState (s.dev.laneMode n) ∧
      ∀ r, (s.dev.rungsNext n).head? = some r → e.rateNow n = r) := by
  have hflag := (s.dev.ctrl_stored n.isLt w).2.1
  have hregs : s.dev.laneRegs n ⊆ R.LN_CTRL n :: s.dev.laneRegs n := List.subset_cons_self _ _
  have hb := s.dev.bringup_ctrlStored n w
  have htaken : s.dev.ctrlTaken n w = (s.dev.store (R.LN_CTRL n) w).bringUpTop n := by
    rw [Dev.ctrlTaken, if_pos hrestart, Dev.laneRestart, if_neg (by omega), if_neg (by omega)]
  have htop : ((s.dev.store (R.LN_CTRL n) w).bringUpTop n).bringup n = firstState (s.dev.laneMode n) := by
    rw [Dev.bringup_bringUpTop _ n.isLt, s.dev.laneMode_ctrlStored]
  have hflag' : ((s.dev.store (R.LN_CTRL n) w).bringUpTop n).flag (R.LN_CTRL n) F.LN_CTRL_dormant = false := by
    rw [Dev.flag, Dev.fld, Dev.reg_bringUpTop _ n.isLt (ctrl_steady n.isLt), ← Dev.fld, ← Dev.flag, hflag, hdormant]
    rfl
  refine answers_ctrlWrite hs rfl hst hen ?_
  rw [htaken, if_neg (by simp [hflag']), Dev.leaveDormant_elsewhere (by rw [htop]; exact firstState_ne_dormant _)]
  refine ⟨Dev.Frame.settle ?_, ?_, fun r hr => ?_⟩
  · exact ((((s.dev.frame_ctrlStored n w).mono (List.nil_subset _) (by simp)).moves rfl).step
      (Dev.cleanIn_of_laneRegs hregs) fun hc =>
        Dev.moves_bringUpTop _ n (List.Subset.refl _) hc (Dev.laneIn_of_laneRegs hregs)).frame
  · rw [Dev.bringup_settle, htop]
  · rw [Dev.rateNow_settle]
    exact Dev.rateNow_bringUpTop _ n.isLt (by rw [s.dev.rungsNext_ctrlStored, hr])

theorem Dev.bringup_setSignal (d : Dev) (n : Nat) (b : Bool) : (d.setSignal n b).bringup n = d.bringup n :=
  d.bringup_setFlag n b (by decide)

theorem Dev.signal_setSignal (d : Dev) (n : Nat) (b : Bool) :
    (d.setSignal n b).flag (R.LN_STATUS n) F.LN_STATUS_signal = b := d.flag_setFlag_same _ _ _ (by decide)

theorem Dev.rateNow_setSignal (d : Dev) (n : Nat) (b : Bool) : (d.setSignal n b).rateNow n = d.rateNow n :=
  d.fld_setFld_clear _ _ _ _ (by decide)

theorem Dev.lane_setSignal (d : Dev) (n : Nat) (b : Bool) (m : Nat) : (d.setSignal n b).lane m = d.lane m := rfl

theorem woken_on_signal {s : State} (n : Fin 64) (hs : s.Up) (hb : s.dev.bringup n = 9)
    (hwake : s.dev.flag (R.LN_CFG n) F.LN_CFG_wake_on_signal = true) (hfast : (s.dev.lane n).fast = false)
    (htrained : (s.dev.lane n).trained = some (s.dev.rateNow n)) :
    Answers (.wakeOnSignal n) s (fun e =>
      s.dev.Frame e [.lanes] [R.LN_STATUS n] ∧
      e.bringup n = 9 ∧ (e.lane n).fast = true ∧ e.flag (R.LN_STATUS n) F.LN_STATUS_signal = true) := by
  have hb' := (s.dev.bringup_setSignal n true).trans hb
  refine .of_running hs (show execWakeOnSignal n s = running s _ from rfl) ?_
  rw [if_pos ⟨hb, hwake⟩, Dev.leaveDormant_trained hb' hfast (htrained.trans (by rw [s.dev.rateNow_setSignal])),
    Dev.bringup_settle, Dev.lane_settle, Dev.flag_settle, Dev.lane_setLane_same]
  refine ⟨Dev.Frame.settle ?_, hb', rfl, s.dev.signal_setSignal n true⟩
  exact (s.dev.frame_setFlag _ _ _ (by simp)).trans (Dev.frame_setLane _ _ _ _ (by simp))

theorem fast_path_powered_up {s : State} (n : Fin 64) (hs : s.Up) (hb : s.dev.bringup n = 9)
    (hfast : (s.dev.lane n).fast = true) :
    Answers (.fastPathPowerUp n) s (fun e => s.dev.RegsOnly e ∧ s.dev.KeepsRegs e [R.LN_STATUS n] ∧ e.bringup n = 3) := by
  refine .of_running hs (show execFastPathPowerUp n s = running s _ from rfl) ?_
  rw [if_pos ⟨hb, hfast⟩, Dev.bringup_settle, s.dev.bringup_setBringup n (by decide)]
  exact ⟨(s.dev.regsOnly_setFld _ _ _).settle, (s.dev.frame_setFld (r := [R.LN_STATUS n]) _ _ [] (by simp)).settle.2, rfl⟩

/-- Settles O5, clause by clause. -/
theorem laneEnable : Obligations.LaneEnable := fun _ n w hs hf =>
  ⟨lane_starting_ended n hs hf, lane_stopping_ended n hs hf,
    fun hst hen => ⟨dormant_entry n w hs hst hen, dormant_exit n w hs hst hen, lane_restarted n w hs hst hen⟩,
    woken_on_signal n hs, fast_path_powered_up n hs⟩

end Sys2Proof.Machine
end

section
/-! PROOF of O6. The exchange of training frames on the lane of a single-lane port; the steps of bring-up from DETECT to CAPEX,
the polarity retry, a timeout, and the rung after FALLBACK (R79–R84, R92). -/

namespace Sys2Proof.Machine

/-! The lane's own training frame (R80, R81). -/

theorem Dev.group_single {d : Dev} {n : Nat} (hp : (d.lane n).port = some n) (hw : (d.lane n).width = 1) :
    d.group n = [n] := by
  simp [Dev.group, hp, hw]

/-- The hidden state of a lane after its next training frame has left. -/
def Dev.afterSend (d : Dev) (n : Nat) : Lane :=
  { d.lane n with seq := ((d.lane n).seq + 1) % 256, reply := 0
                  further := if (d.lane n).leaving then (d.lane n).further + 1 else 0
                  prbsAt := ((d.lane n).prbsAt + trainingPattern (d.rateNow n)) % prbs13.period }

/-- A training frame leaves, unless the transmitter is idle: the hidden state of its lane moves. -/
theorem Dev.sendTraining_eq (d : Dev) (n : Nat) : d.sendTraining n = d.setLane n (d.afterSend n) ∨
    ∃ x, d.sendTraining n = (d.setLane n (d.afterSend n)).emit x := by
  unfold Dev.sendTraining
  dsimp only
  split
  · exact .inl rfl
  · exact .inr ⟨_, rfl⟩

theorem Dev.frame_sendTraining (d : Dev) (n : Nat) (r : List Nat) : d.Frame (d.sendTraining n) [.lanes] r := by
  have hlane := d.frame_setLane (p := [.lanes]) n (d.afterSend n) r (by simp)
  rcases d.sendTraining_eq n with h | ⟨x, h⟩
  · exact h ▸ hlane
  · exact h ▸ hlane.trans (Dev.frame_emit _ _ _ _)

theorem Dev.lane_sendTraining (d : Dev) (n : Nat) : (d.sendTraining n).lane n = d.afterSend n := by
  rcases d.sendTraining_eq n with h | ⟨x, h⟩ <;> rw [h] <;> exact d.lane_setLane_same n _

theorem Dev.bringup_sendTraining (d : Dev) (n : Nat) : (d.sendTraining n).bringup n = d.bringup n :=
  (d.frame_sendTraining n []).fld_eq (by simp) _

/-! Lane order (R83). -/

theorem bits_order_zero (v : Nat) : bits v 59 55 = 0 ↔ bits v 59 57 = 0 ∧ bits v 56 55 = 0 := by
  simp only [bits, Nat.shiftRight_eq_div_pow]
  omega

/-- On a single-lane port any index or width other than 0 is out of order. -/
theorem laneOrder_single {x : Lane} (hw : x.width = 1) (hi : x.index = 0) (v : Nat) :
    laneOrder x (bits v 59 57) (bits v 56 55) = if bits v 59 55 = 0 then some false else none := by
  have hcode : widthCode x.width = 0 := by rw [hw]; rfl
  rw [laneOrder, hcode, hw, hi]
  by_cases h : bits v 59 55 = 0
  · obtain ⟨hidx, hwidth⟩ := (bits_order_zero v).1 h
    simp [h, hidx, hwidth]
  · rw [if_neg h]
    by_cases hwidth : bits v 56 55 = 0
    · have hidx : bits v 59 57 ≠ 0 := fun hidx => h ((bits_order_zero v).2 ⟨hidx, hwidth⟩)
      simp [hwidth, hidx]
    · simp [hwidth]

theorem Dev.orderConflict_single {d : Dev} {n : Nat} (h : d.group n = [n]) (rev : Bool) : d.orderConflict n rev = false := by
  simp [Dev.orderConflict, h]

/-- The alarm of a lane order error. -/
def Dev.orderNoted (d : Dev) (n : Nat) : Dev := d.raise (R.LN_ALARM n) F.LN_ALARM_lane_order_err

theorem Dev.orderError_single {d : Dev} {n : Nat} (h : d.group n = [n]) : d.orderError n =
    if 2 ≤ (d.orderNoted n).bringup n ∧ (d.orderNoted n).bringup n ≤ 5 then (d.orderNoted n).failOne n
    else d.orderNoted n := by
  rw [Dev.orderError, h]
  rfl

theorem alarm_steady {n : Nat} (hn : n < 64) : laneSteady n (R.LN_ALARM n) := laneSteady_window hn (by decide)

/-- A lane order error stands in the alarm, whatever the lane does then. -/
theorem Dev.order_err_orderError {d : Dev} {n : Nat} (hn : n < 64) (h : d.group n = [n]) :
    (d.orderError n).flag (R.LN_ALARM n) F.LN_ALARM_lane_order_err = true := by
  have hnoted : (d.orderNoted n).flag (R.LN_ALARM n) F.LN_ALARM_lane_order_err = true :=
    d.flag_raise_same _ _ ⟨by decide, by decide⟩
  rw [Dev.orderError_single h]
  split
  · rw [Dev.flag, Dev.fld, Dev.reg_failOne _ hn (alarm_steady hn) (window_ne n (by decide))]
    exact hnoted
  · exact hnoted

theorem Dev.moves_orderError {d : Dev} {n : Nat} {p : List Part} {r : List Nat} (hp : linkParts ⊆ p) (h : d.CleanIn r)
    (hn : LaneIn r n) (hg : d.group n = [n]) : d.Moves (d.orderError n) p r := by
  have hnoted : d.Moves (d.orderNoted n) p r := d.moves_raise _ _ hn.alarm
  rw [Dev.orderError_single hg]
  split
  · exact hnoted.step h fun h' => Dev.moves_failOne _ n hp h' hn
  · exact hnoted

/-! A valid training frame in order (R79, R81). -/

theorem Dev.frame_setTaps (d : Dev) (n pre2 pre1 post1 : Nat) (p : List Part) {r : List Nat} (h : R.LN_EQ_TX n ∈ r) :
    d.Frame (d.setTaps n pre2 pre1 post1) p r :=
  (((d.frame_setFld _ _ p h).trans (Dev.frame_setFld _ _ _ p h)).trans (Dev.frame_setFld _ _ _ p h)).trans
    (Dev.frame_setFld _ _ _ p h)

theorem Dev.frame_tapRequest (d : Dev) (n sel act : Nat) (p : List Part) {r : List Nat} (h : R.LN_EQ_TX n ∈ r) :
    d.Frame (d.tapRequest n sel act).1 p r := by
  unfold Dev.tapRequest
  extract_lets f grow tap old most v pre2 pre1 post1
  split
  · exact (d.frame_setTaps n _ _ _ p h).trans (Dev.frame_setFld _ _ _ p h)
  · split
    · exact .refl d p r
    · split
      · exact .refl d p r
      · exact d.frame_setTaps n _ _ _ p h

/-- A tap request is due once per 16 frames. -/
def Dev.tapDue (d : Dev) (n act : Nat) : Bool := decide (15 ≤ (d.lane n).sinceTap) && act != 0

/-- The lane order and the precoding that a frame tells are taken, in a device that receives in order. -/
def Dev.orderTaken (d : Dev) (n v : Nat) : Dev :=
  ((d.setFld (R.LN_STATUS n) F.LN_STATUS_lane_rx (bits v 59 57)).setFlag (R.LN_STATUS n)
    F.LN_STATUS_reversed false).setPrecode n (bit v 53) (d.flag (R.LN_CFG n) F.LN_CFG_rx_precode)

/-- What the tap request of a frame does, and the reply to it. -/
def Dev.tapTaken (d : Dev) (n v : Nat) : Dev × Nat :=
  if d.tapDue n (bits v 50 49) then (d.orderTaken n v).tapRequest n (bits v 52 51) (bits v 50 49)
  else (d.orderTaken n v, 0)

/-- The hidden state of a lane that has received a valid frame in order. -/
def Lane.inOrder (x : Lane) (v : Nat) (converged due : Bool) (reply : Nat) : Lane :=
  { x with run := min 16 (x.run + 1), ready := bit v 54, converged := converged, reply := reply
           sinceTap := if due then 0 else x.sinceTap + 1
           leaving := converged && bit v 54 && min 16 (x.run + 1) == 16 }

theorem Dev.trainingValid_eq (d : Dev) {n : Nat} (cw : Word64) (conv : Bool) (hg : d.group n = [n])
    (hw : (d.lane n).width = 1) (hi : (d.lane n).index = 0) : d.trainingValid n cw conv =
      if bits cw.toNat 59 55 = 0 then
        (d.tapTaken n cw.toNat).1.setLane n (((d.tapTaken n cw.toNat).1.lane n).inOrder cw.toNat conv
          (d.tapDue n (bits cw.toNat 50 49)) (d.tapTaken n cw.toNat).2)
      else d.orderError n := by
  have horder := laneOrder_single hw hi cw.toNat
  have hconf := Dev.orderConflict_single hg false
  split
  · next h =>
    rw [if_pos h] at horder
    unfold Dev.trainingValid
    simp only [horder, hconf]
    rfl
  · next h =>
    rw [if_neg h] at horder
    unfold Dev.trainingValid
    simp only [horder]

theorem Dev.frame_orderTaken (d : Dev) (n v : Nat) : d.Frame (d.orderTaken n v) [] [R.LN_STATUS n] :=
  ((d.frame_setFld _ _ _ (by simp)).trans (Dev.frame_setFlag _ _ _ _ (by simp))).trans
    ((Dev.frame_setFlag _ _ _ _ (by simp)).trans (Dev.frame_setFlag _ _ _ _ (by simp)))

theorem Dev.bringup_orderTaken (d : Dev) (n v : Nat) : (d.orderTaken n v).bringup n = d.bringup n := by
  unfold Dev.orderTaken Dev.setPrecode
  rw [Dev.bringup_setFlag _ _ _ (by decide), Dev.bringup_setFlag _ _ _ (by decide), Dev.bringup_setFlag _ _ _ (by decide)]
  exact d.fld_setFld_clear _ _ _ _ (by decide)

theorem Dev.frame_tapTaken (d : Dev) (n v : Nat) : (d.orderTaken n v).Frame (d.tapTaken n v).1 [] [R.LN_EQ_TX n] := by
  unfold Dev.tapTaken
  split
  · exact Dev.frame_tapRequest _ n _ _ _ (by simp)
  · exact .refl _ _ _

theorem Dev.bringup_tapTaken (d : Dev) (n v : Nat) : (d.tapTaken n v).1.bringup n = d.bringup n :=
  ((d.frame_tapTaken n v).fld_eq (by simp [R.LN_STATUS, R.LN_EQ_TX]) _).trans (d.bringup_orderTaken n v)

theorem Dev.lane_tapTaken (d : Dev) (n v : Nat) : (d.tapTaken n v).1.lane n = d.lane n :=
  ((d.frame_tapTaken n v).lane_eq (by simp) n).trans ((d.frame_orderTaken n v).lane_eq (by simp) n)

/-! TRAINING_FRAME (R79–R83). -/

/-- The control word of a frame is valid: its type and its CRC (R81). -/
def trainOk (cw : Word64) : Bool := bits cw.toNat 63 60 == 5 && crc16 64 cw.toNat == cw.toNat % 2 ^ 16

/-- A frame of the right polarity is taken: a valid one by its words, another restarts the run. -/
def Dev.frameTaken (d : Dev) (n : Nat) (cw : Word64) (conv : Bool) : Dev :=
  if trainOk cw then d.trainingValid n cw conv
  else d.setLane n { d.lane n with run := 0, converged := conv, sinceTap := (d.lane n).sinceTap + 1 }

/-- A lane still in TRAIN answers with its own frame. -/
def Dev.frameAnswered (d : Dev) (n : Nat) : Dev := if d.bringup n = 2 then d.sendTraining n else d

/-- The receiver takes its input as it comes. -/
def Dev.setUpright (d : Dev) (n : Nat) : Dev := d.setFlag (R.LN_STATUS n) F.LN_STATUS_rx_inverted false

/-- TRAINING_FRAME of a lane in TRAIN with automatic polarity, of upright input. -/
theorem answers_trainingFrame {s : State} {n : Fin 64} {cw : Word64} {conv : Bool} {Q : Dev → Prop} (hs : s.Up)
    (hb : s.dev.bringup n = 2) (hether : s.dev.etherLane n = false) (hmode : s.dev.laneMode n ≠ 2)
    (hleave : (s.dev.lane n).leaving = false) (hauto : s.dev.flag (R.LN_CFG n) F.LN_CFG_pol_auto = true)
    (hQ : Q (((s.dev.setUpright n).frameTaken n cw conv).frameAnswered n).settle) :
    Answers (.trainingFrame n cw false conv) s Q := by
  refine .of_running hs (show execTrainingFrame n cw false conv s = running s _ from rfl) ?_
  rw [if_neg (by simp [hether, hmode]), if_neg (by omega), if_neg (by simp [hb]), if_neg (by simp [hleave]), hauto]
  exact hQ

theorem Dev.frameAnswered_of_train {d : Dev} {n : Nat} (h : d.bringup n = 2) : d.frameAnswered n = d.sendTraining n := if_pos h

theorem Dev.frame_frameAnswered (d : Dev) (n : Nat) (r : List Nat) : d.Frame (d.frameAnswered n) [.lanes] r :=
  Dev.frame_ite (d.frame_sendTraining n r) (.refl d _ _)


theorem Dev.bringup_setUpright (d : Dev) (n : Nat) : (d.setUpright n).bringup n = d.bringup n :=
  d.bringup_setFlag n false (by decide)

/-- An invalid frame restarts the run, and the lane answers. -/
theorem Dev.invalid_frame (d : Dev) {n : Nat} {cw : Word64} (conv : Bool) (hb : d.bringup n = 2) (h : trainOk cw = false) :
    let e := (d.frameTaken n cw conv).frameAnswered n
    d.Frame e [.lanes] [] ∧ e.bringup n = 2 ∧ (e.lane n).run = 0 ∧ (e.lane n).seq = ((d.lane n).seq + 1) % 256 := by
  have htaken : d.frameTaken n cw conv = d.setLane n { d.lane n with
      run := 0, converged := conv, sinceTap := (d.lane n).sinceTap + 1 } := if_neg (by simp [h])
  dsimp only
  rw [htaken, Dev.frameAnswered_of_train (by exact hb), Dev.bringup_sendTraining, Dev.lane_sendTraining, Dev.afterSend,
    Dev.lane_setLane_same]
  exact ⟨(d.frame_setLane _ _ _ (by simp)).trans (Dev.frame_sendTraining _ _ _), hb, rfl, rfl⟩

/-- A valid frame in order lengthens the run, and the lane answers. -/
theorem Dev.valid_frame (d : Dev) {n : Nat} {cw : Word64} (conv : Bool) (hb : d.bringup n = 2) (hg : d.group n = [n])
    (hw : (d.lane n).width = 1) (hi : (d.lane n).index = 0) (h : trainOk cw = true) (h0 : bits cw.toNat 59 55 = 0) :
    let e := (d.frameTaken n cw conv).frameAnswered n
    d.Frame e [.lanes] [R.LN_STATUS n, R.LN_EQ_TX n] ∧
      e.bringup n = 2 ∧ (e.lane n).run = min 16 ((d.lane n).run + 1) ∧ (e.lane n).ready = bit cw.toNat 54 ∧
      (e.lane n).leaving = (conv && bit cw.toNat 54 && decide (15 ≤ (d.lane n).run)) ∧
      (e.lane n).seq = ((d.lane n).seq + 1) % 256 := by
  have htaken : d.frameTaken n cw conv = (d.tapTaken n cw.toNat).1.setLane n ((d.lane n).inOrder cw.toNat conv
      (d.tapDue n (bits cw.toNat 50 49)) (d.tapTaken n cw.toNat).2) := by
    rw [Dev.frameTaken, if_pos h, d.trainingValid_eq cw conv hg hw hi, if_pos h0, d.lane_tapTaken]
  have hb' := (d.bringup_tapTaken n cw.toNat).trans hb
  have hrun : (min 16 ((d.lane n).run + 1) == 16) = decide (15 ≤ (d.lane n).run) := by
    rw [Bool.eq_iff_iff, beq_iff_eq, decide_eq_true_eq]
    omega
  have hframe : d.Frame (d.tapTaken n cw.toNat).1 [.lanes] [R.LN_STATUS n, R.LN_EQ_TX n] :=
    ((d.frame_orderTaken n _).mono (List.nil_subset _) (by simp)).trans
      ((d.frame_tapTaken n _).mono (List.nil_subset _) (by simp))
  dsimp only
  rw [htaken, Dev.frameAnswered_of_train (by exact hb'), Dev.bringup_sendTraining, Dev.lane_sendTraining, Dev.afterSend,
    Dev.lane_setLane_same, ← hrun]
  exact ⟨(hframe.trans (Dev.frame_setLane _ _ _ _ (by simp))).trans (Dev.frame_sendTraining _ _ _), hb', rfl, rfl, rfl, rfl⟩

/-- A valid frame out of order is a lane order error. -/
theorem Dev.frameTaken_out_of_order (d : Dev) {n : Nat} {cw : Word64} (conv : Bool) (hg : d.group n = [n])
    (hw : (d.lane n).width = 1) (hi : (d.lane n).index = 0) (h : trainOk cw = true) (h0 : bits cw.toNat 59 55 ≠ 0) :
    d.frameTaken n cw conv = d.orderError n := by
  rw [Dev.frameTaken, if_pos h, d.trainingValid_eq cw conv hg hw hi, if_neg h0]

theorem training_frame_received {s : State} (n : Fin 64) (cw : Word64) (conv : Bool) (hs : s.Up)
    (hb : s.dev.bringup n = 2) (hether : s.dev.etherLane n = false) (hmode : s.dev.laneMode n ≠ 2)
    (hleave : (s.dev.lane n).leaving = false) (hauto : s.dev.flag (R.LN_CFG n) F.LN_CFG_pol_auto = true)
    (hp : (s.dev.lane n).port = some n.val) (hw : (s.dev.lane n).width = 1) (hi : (s.dev.lane n).index = 0) :
    Answers (.trainingFrame n cw false conv) s (fun e =>
      s.dev.Frame e linkParts (R.LN_EQ_TX n :: s.dev.laneRegs n) ∧
      if bits cw.toNat 63 60 = 5 ∧ crc16 64 cw.toNat = cw.toNat % 2 ^ 16 then
        (bits cw.toNat 59 55 = 0 →
          e.bringup n = 2 ∧ (e.lane n).run = min 16 ((s.dev.lane n).run + 1) ∧ (e.lane n).ready = bit cw.toNat 54 ∧
          (e.lane n).leaving = (conv && bit cw.toNat 54 && decide (15 ≤ (s.dev.lane n).run)) ∧
          (e.lane n).seq = ((s.dev.lane n).seq + 1) % 256) ∧
        (bits cw.toNat 59 55 ≠ 0 → e.flag (R.LN_ALARM n) F.LN_ALARM_lane_order_err = true)
      else
        e.bringup n = 2 ∧ (e.lane n).run = 0 ∧ (e.lane n).seq = ((s.dev.lane n).seq + 1) % 256) := by
  have hregs : s.dev.laneRegs n ⊆ R.LN_EQ_TX n :: s.dev.laneRegs n := List.subset_cons_self _ _
  have hin := Dev.laneIn_of_laneRegs hregs
  have hupright : s.dev.Moves (s.dev.setUpright n) linkParts (R.LN_EQ_TX n :: s.dev.laneRegs n) :=
    s.dev.moves_setFld _ _ _ hin.status
  have hlane : (s.dev.setUpright n).lane n = s.dev.lane n := rfl
  have hb' := (s.dev.bringup_setUpright n).trans hb
  have hgroup : (s.dev.setUpright n).group n = [n.val] := Dev.group_single hp hw
  have hgood : trainOk cw = true ↔ bits cw.toNat 63 60 = 5 ∧ crc16 64 cw.toNat = cw.toNat % 2 ^ 16 := by
    rw [trainOk, Bool.and_eq_true, beq_iff_eq, beq_iff_eq]
  refine answers_trainingFrame hs hb hether hmode hleave hauto ?_
  simp only [Dev.bringup_settle, Dev.lane_settle, Dev.flag_settle]
  split
  · next h =>
    by_cases h0 : bits cw.toNat 59 55 = 0
    · obtain ⟨hframe, hvalues⟩ := (s.dev.setUpright n).valid_frame conv hb' hgroup hw hi (hgood.2 h) h0
      refine ⟨(hupright.frame.trans (hframe.mono (by decide) ?_)).settle, fun _ => hvalues, fun hne => absurd h0 hne⟩
      simp [hin.status]
    · rw [(s.dev.setUpright n).frameTaken_out_of_order conv hgroup hw hi (hgood.2 h) h0]
      refine ⟨Dev.Frame.settle ?_, fun heq => absurd heq h0, fun _ => ?_⟩
      · exact (hupright.step (Dev.cleanIn_of_laneRegs hregs) fun hc => Dev.moves_orderError (List.Subset.refl _) hc hin
          hgroup).frame.trans ((Dev.frame_frameAnswered _ _ _).mono (by decide) (List.Subset.refl _))
      · rw [(Dev.frame_frameAnswered _ n []).flag_eq (by simp)]
        exact Dev.order_err_orderError n.isLt hgroup
  · next h =>
    have hbad : trainOk cw = false := by rw [← Bool.not_eq_true, hgood]; exact h
    obtain ⟨hframe, hvalues⟩ := (s.dev.setUpright n).invalid_frame conv hb' hbad
    exact ⟨(hupright.frame.trans (hframe.mono (by decide) (List.nil_subset _))).settle, hvalues⟩

/-! DETECT, the end of TRAIN, and BITLOCK (R79, R90). -/

theorem signal_detected {s : State} (n : Fin 64) (hs : s.Up) (hb : s.dev.bringup n = 1) (hr : s.dev.rungs n ≠ []) :
    Answers (.signalDetect n) s (fun e => s.dev.RegsOnly e ∧ s.dev.KeepsRegs e [R.LN_STATUS n] ∧
      e.bringup n = 2 ∧ e.flag (R.LN_STATUS n) F.LN_STATUS_signal = true) := by
  refine .of_running hs (show execSignalDetect n s = running s _ from rfl) ?_
  rw [if_neg (by simp [hb]), if_neg (by simp [hr]), Dev.bringup_settle, Dev.flag_settle,
    Dev.bringup_setBringup _ _ (by decide)]
  refine ⟨(((Dev.RegsOnly.refl _).setFld _ _ _).setFld _ _ _).settle, (Dev.Frame.settle (p := []) ?_).2, rfl, ?_⟩
  · exact (s.dev.frame_setFlag _ _ _ (by simp)).trans (Dev.frame_setFld _ _ _ _ (by simp))
  · exact (Dev.flag_setFld_clear _ _ _ _ _ (by decide)).trans (s.dev.signal_setSignal n true)

theorem Dev.frame_sendFurther (d : Dev) (n : Nat) (r : List Nat) : d.Frame (d.sendFurther n) [.lanes] r :=
  .foldl (fun d _ => d.frame_sendTraining n r) _ _

/-- The adapted gain and CTLE codes are reported, the latter unless they are fixed (R90). -/
def Dev.adapted (d : Dev) (n : Nat) (gain : Byte) (ctle : BitVec 4) : Dev :=
  let e := d.setFld (R.LN_EQ_RX n) F.LN_EQ_RX_gain gain.toNat
  if e.flag (R.LN_EQ_RX n) F.LN_EQ_RX_ctle_fix then e else e.setFld (R.LN_EQ_RX n) F.LN_EQ_RX_ctle ctle.toNat

theorem Dev.frame_adapted (d : Dev) (n : Nat) (gain : Byte) (ctle : BitVec 4) :
    d.Frame (d.adapted n gain ctle) [] [R.LN_EQ_RX n] := by
  have hgain : d.Frame (d.setFld (R.LN_EQ_RX n) F.LN_EQ_RX_gain gain.toNat) [] [R.LN_EQ_RX n] :=
    d.frame_setFld _ _ _ (by simp)
  exact Dev.frame_ite hgain (hgain.trans (Dev.frame_setFld _ _ _ _ (by simp)))

theorem Dev.gain_adapted (d : Dev) (n : Nat) (gain : Byte) (ctle : BitVec 4) :
    (d.adapted n gain ctle).fld (R.LN_EQ_RX n) F.LN_EQ_RX_gain = gain.toNat := by
  have hgain := d.fld_setFld_low (R.LN_EQ_RX n) F.LN_EQ_RX_gain gain.toNat ⟨by decide, by decide, gain.isLt⟩
  unfold Dev.adapted
  dsimp only
  split
  · exact hgain
  · exact (Dev.fld_setFld_clear _ _ _ _ _ (by decide)).trans hgain

/-- The lane's settings as the end of TRAIN notes them (R77). -/
def Dev.trainNoted (d : Dev) (n : Nat) : Dev :=
  d.setLane n { d.lane n with trained := some (d.rateNow n), leaving := false, further := 0
                              trainStat := d.reg (R.LN_STATUS n), trainTx := d.reg (R.LN_EQ_TX n)
                              trainRx := d.reg (R.LN_EQ_RX n) }

theorem train_completed {s : State} (n : Fin 64) (gain : Byte) (ctle : BitVec 4) (hs : s.Up) (hb : s.dev.bringup n = 2)
    (hether : s.dev.etherLane n = false) (hmode : s.dev.laneMode n ≠ 2) (hleave : (s.dev.lane n).leaving = true) :
    Answers (.trainComplete n gain ctle) s (fun e =>
      s.dev.Frame e [.lanes] [R.LN_STATUS n, R.LN_EQ_RX n] ∧ e.bringup n = 3 ∧
      (e.lane n).trained = some (s.dev.rateNow n) ∧ e.fld (R.LN_EQ_RX n) F.LN_EQ_RX_gain = gain.toNat) := by
  have hsent := s.dev.frame_sendFurther n [R.LN_STATUS n, R.LN_EQ_RX n]
  have hadapted := (s.dev.sendFurther n).frame_adapted n gain ctle
  have hrate : ((s.dev.sendFurther n).adapted n gain ctle).rateNow n = s.dev.rateNow n :=
    (hadapted.fld_eq (by simp [R.LN_STATUS, R.LN_EQ_RX]) _).trans ((s.dev.frame_sendFurther n []).fld_eq (by simp) _)
  have hQ (e : Dev) (he : e = ((((s.dev.sendFurther n).adapted n gain ctle).trainNoted n).setBringup n 3)) :
      s.dev.Frame e [.lanes] [R.LN_STATUS n, R.LN_EQ_RX n] ∧ e.bringup n = 3 ∧
        (e.lane n).trained = some (s.dev.rateNow n) ∧ e.fld (R.LN_EQ_RX n) F.LN_EQ_RX_gain = gain.toNat := by
    subst he
    refine ⟨?_, Dev.bringup_setBringup _ _ (by decide), ?_, ?_⟩
    · exact ((hsent.trans (hadapted.mono (List.nil_subset _) (by simp))).trans
        (Dev.frame_setLane _ _ _ _ (by simp))).trans (Dev.frame_setFld _ _ _ _ (by simp))
    · refine (congrArg Lane.trained (Dev.lane_setLane_same _ n _)).trans ?_
      rw [hrate]
    · exact (Dev.fld_setFld_ne _ _ _ _ (window_ne n (by decide))).trans (Dev.gain_adapted _ n gain ctle)
  refine .of_running hs (show execTrainComplete n gain ctle s = running s _ from rfl) ?_
  rw [if_neg (by simp [hb, hleave])]
  simp only [hether, beq_false_of_ne hmode]
  obtain ⟨hframe, hbringup, htrained, hgain⟩ := hQ _ rfl
  rw [Dev.bringup_settle, Dev.lane_settle, Dev.fld_settle]
  exact ⟨hframe.settle, hbringup, htrained, hgain⟩

theorem cdr_locked {s : State} (n : Fin 64) (ppm : Int) (hs : s.Up) (hb : s.dev.bringup n = 3) (hppm : ppm.natAbs ≤ 200)
    (hmode : s.dev.laneMode n = 0) :
    Answers (.cdrLock n ppm) s (fun e => s.dev.RegsOnly e ∧ s.dev.KeepsRegs e [R.LN_STATUS n] ∧
      e.bringup n = 4 ∧ e.flag (R.LN_STATUS n) F.LN_STATUS_cdr_lock = true) := by
  refine .of_running hs (show execCdrLock n ppm s = running s _ from rfl) ?_
  rw [hmode, if_pos hb, if_neg (by omega), Dev.bringup_settle, Dev.flag_settle, Dev.bringup_setBringup _ _ (by decide)]
  refine ⟨(((Dev.RegsOnly.refl _).setFld _ _ _).setFld _ _ _).settle, (Dev.Frame.settle (p := []) ?_).2, rfl, ?_⟩
  · exact (s.dev.frame_setFlag _ _ _ (by simp)).trans (Dev.frame_setFld _ _ _ _ (by simp))
  · exact (Dev.flag_setFld_clear _ _ _ _ _ (by decide)).trans (s.dev.flag_setFlag_same _ _ _ (by decide))

/-! Framing lock (R79, R87). -/

/-- The skew of a single-lane port is 0. -/
theorem Dev.setSkew_single {d : Dev} {p : Nat} (h : d.portLanes p = 1) (ui : List Nat) :
    d.setSkew p ui = d.setFld (R.LN_SKEW p) F.LN_SKEW_skew 0 := by
  simp [Dev.setSkew, h]

/-- An Isazu port of one lane enters CAPEX outside STANDBY. -/
theorem Dev.framed_single {d : Dev} {p : Nat} (h : d.portLanes p = 1) (hi : d.isazu p = true) (hst : d.standby = false) :
    d.framed p = (d.setPort p { d.port p with partner := none, sentAck := false }).setBringup p 5 := by
  have hether : d.ethernet p = false := by
    simp only [Dev.isazu, Bool.and_eq_true, Bool.not_eq_true'] at hi
    simp [Dev.ethernet, hi.2]
  have hlanes : (d.setPort p { d.port p with partner := none, sentAck := false }).portLanes p = 1 := h
  rw [Dev.framed, hether, if_neg Bool.false_ne_true, hst, if_neg (by simp)]
  simp [hlanes]

theorem framing_locked {s : State} (n : Fin 64) (hs : s.Up) (hb : s.dev.bringup n = 4)
    (hp : (s.dev.lane n).port = some n.val) (hl : s.dev.portLanes n = 1) (hi : s.dev.isazu n = true)
    (hst : s.dev.standby = false) :
    Answers (.framingLock n [] []) s (fun e =>
      s.dev.Frame e linkParts (R.LN_SKEW n :: s.dev.laneRegs n) ∧
      e.bringup n = 5 ∧ e.fld (R.LN_SKEW n) F.LN_SKEW_skew = 0 ∧ (e.port n).partner = none) := by
  have hin := Dev.laneIn_of_laneRegs (List.subset_cons_self (R.LN_SKEW n) (s.dev.laneRegs n))
  have hall : s.dev.allLanes n 4 = true := by simp [Dev.allLanes, hl, hb]
  have hskew : s.dev.Frame (s.dev.setFld (R.LN_SKEW n) F.LN_SKEW_skew 0) [] [R.LN_SKEW n] :=
    s.dev.frame_setFld _ _ _ (by simp)
  have hcfg (g : Field) : (s.dev.setFld (R.LN_SKEW n) F.LN_SKEW_skew 0).fld (R.LK_PORT_CFG n) g =
      s.dev.fld (R.LK_PORT_CFG n) g := hskew.fld_eq (by simp [R.LK_PORT_CFG, R.LN_SKEW]) g
  have hlanes : (s.dev.setFld (R.LN_SKEW n) F.LN_SKEW_skew 0).portLanes n = 1 := by
    rw [Dev.portLanes, hcfg]
    exact hl
  have hisazu : (s.dev.setFld (R.LN_SKEW n) F.LN_SKEW_skew 0).isazu n = true := by
    rw [Dev.isazu, Dev.flag, hcfg]
    exact hi
  have hstandby : (s.dev.setFld (R.LN_SKEW n) F.LN_SKEW_skew 0).standby = false := by
    have hpair : R.PS_PAIR_STATUS ≠ R.LN_SKEW n := by simp only [R.PS_PAIR_STATUS, R.LN_SKEW]; omega
    rw [Dev.standby, Dev.pairState, hskew.fld_eq (by simp [hpair])]
    exact hst
  refine .of_running hs (show execFramingLock n [] [] s = running s _ from rfl) ?_
  rw [if_neg (by omega), hp]
  dsimp only
  rw [hall, if_neg (by simp), if_neg (by simp), Dev.setSkew_single hl, Dev.framed_single hlanes hisazu hstandby]
  refine ⟨Dev.Frame.settle ?_, ?_, ?_, ?_⟩
  · exact ((s.dev.frame_setFld _ _ _ (by simp)).trans (Dev.frame_setPort _ _ _ _ (by decide))).trans
      (Dev.frame_setFld _ _ _ _ hin.status)
  · rw [Dev.bringup_settle, Dev.bringup_setBringup _ _ (by decide)]
  · rw [Dev.fld_settle]
    exact (Dev.fld_setFld_ne _ _ _ _ (window_ne n (by decide))).trans (s.dev.fld_setFld_low _ _ _ (by decide))
  · rw [Dev.port, Dev.settle_ports]
    exact congrArg Port.partner (sGet_sPut_same _ _ _ _)

/-! The polarity retry, a timeout, and the rung after FALLBACK (R82, R84, R103). -/

theorem polarity_retried {s : State} (n : Fin 64) (hs : s.Up) (hb : s.dev.bringup n = 4) (hether : s.dev.etherLane n = true)
    (hauto : s.dev.flag (R.LN_CFG n) F.LN_CFG_pol_auto = true) (hretried : (s.dev.lane n).retried = false) :
    Answers (.polarityRetry n) s (fun e =>
      s.dev.Frame e [.lanes] [R.LN_STATUS n] ∧ (e.lane n).retried = true ∧
      e.flag (R.LN_STATUS n) F.LN_STATUS_rx_inverted = !s.dev.flag (R.LN_STATUS n) F.LN_STATUS_rx_inverted) := by
  refine .of_running hs (show execPolarityRetry n s = running s _ from rfl) ?_
  rw [if_pos ⟨hb, hether, hauto, by simp [hretried]⟩, Dev.lane_settle, Dev.flag_settle]
  refine ⟨Dev.Frame.settle ?_, ?_, Dev.flag_setFlag_same _ _ _ _ (by decide)⟩
  · exact (s.dev.frame_setLane _ _ _ (by simp)).trans (Dev.frame_setFlag _ _ _ _ (by simp))
  · exact congrArg Lane.retried (s.dev.lane_setLane_same n _)

/-- A failure before SYMLOCK is the lane's own. -/
theorem Dev.laneFail_early {d : Dev} {n : Nat} (h : d.bringup n < 4) : d.laneFail n = d.failOne n := if_neg (by omega)

theorem bringup_timed_out {s : State} (n : Fin 64) (hs : s.Up) (hb : s.dev.bringup n = 2 ∨ s.dev.bringup n = 3)
    (hfast : (s.dev.lane n).fast = false) :
    Answers (.bringupTimeout n) s (fun e =>
      s.dev.Frame e linkParts (s.dev.laneRegs n) ∧ e.bringup n = 10 ∧
      e.fld (R.LN_FAIL n) F.LN_FAIL_last_state = s.dev.bringup n ∧
      e.fld (R.LN_FAIL n) F.LN_FAIL_last_rate = s.dev.rateNow n) := by
  have hregs := List.Subset.refl (s.dev.laneRegs n)
  refine .of_running hs (show execBringupTimeout n s = running s _ from rfl) ?_
  rw [if_pos (by simp only [Dev.inBringup, decide_eq_true_eq]; omega), Dev.laneFail_early (by omega), Dev.bringup_settle,
    Dev.fld_settle, Dev.fld_settle]
  exact ⟨(s.dev.moves_failOne n (List.Subset.refl _) (Dev.cleanIn_of_laneRegs hregs)
    (Dev.laneIn_of_laneRegs hregs)).frame.settle, Dev.failOne_fallback n.isLt hfast⟩

theorem fallback_ended {s : State} (n : Fin 64) (hs : s.Up) (hb : s.dev.bringup n = 10) (r : Nat)
    (hr : (s.dev.rungsNext n).find? (fun r => decide (s.dev.rateNow n < r)) = some r) :
    Answers (.fallbackEnd n) s (fun e =>
      s.dev.Frame e linkParts (s.dev.laneRegs n) ∧
      e.bringup n = firstState (s.dev.laneMode n) ∧ e.rateNow n = r) := by
  have hregs := List.Subset.refl (s.dev.laneRegs n)
  have hlt : r < 8 := s.dev.rungsOf_lt (List.mem_of_find?_eq_some hr)
  have htaken : (s.dev.rungsNext n).find? (fun r => decide ((s.dev.takeRates n).rateNow n < r)) = some r := hr
  refine .of_running hs (show execFallbackEnd n s = running s _ from rfl) ?_
  rw [if_neg (by simp [hb])]
  dsimp only
  rw [htaken]
  dsimp only
  rw [Dev.bringup_settle, Dev.rateNow_settle, Dev.bringup_bringUpAt _ n.isLt, Dev.rateNow_bringUpAt _ n.isLt hlt]
  exact ⟨((s.dev.moves_setLane n _ _ (by decide)).step (Dev.cleanIn_of_laneRegs hregs) fun hc =>
    Dev.moves_bringUpAt _ n r (List.Subset.refl _) hc (Dev.laneIn_of_laneRegs hregs)).frame.settle, rfl, rfl⟩

/-- Settles O6: the exchange of training frames, and the steps up to CAPEX one by one. -/
theorem laneBringup : Obligations.LaneBringup :=
  ⟨fun _ n cw conv hs => training_frame_received n cw conv hs,
    fun _ n gain ctle ppm hs => ⟨signal_detected n hs, train_completed n gain ctle hs, cdr_locked n ppm hs,
      framing_locked n hs, polarity_retried n hs, bringup_timed_out n hs, fallback_ended n hs⟩⟩

end Sys2Proof.Machine
end

section
/-! PROOF of O7. What a drop of the lane of a single-lane port does, and the fall of its link after it; the gap of a signal
and its allowance; the failure of TRAIN by loss of signal (R79, R86). -/

namespace Sys2Proof.Machine

/-! A drop from ACTIVE (R79, R86). -/

/-- The loss of ACTIVE is reported and counted, and what came over the link is forgotten. -/
def Dev.lossNoted (d : Dev) (n : Nat) : Dev :=
  let e := ((d.raise (R.LN_ALARM n) F.LN_ALARM_loss).count (laneCtr n 1)).spoilWindow n
  e.setLane n { e.lane n with rx := none, sent := [], partnerTe := none }

theorem Dev.frame_lossNoted (d : Dev) (n : Nat) : d.Frame (d.lossNoted n) [.lanes] [R.LN_ALARM n, R.PC_ALARM] :=
  (((d.frame_raise _ _ (by simp)).trans (Dev.frame_count _ _ _ _ (by simp))).trans
    (Dev.frame_setLane _ _ _ _ (by simp))).trans (Dev.frame_setLane _ _ _ _ (by simp))

theorem Dev.ca_lossNoted (d : Dev) (n : Nat) : (d.lossNoted n).ca = d.ca := (d.frame_lossNoted n).ca_eq (by simp)

/-- Only its own alarm, of the registers of the lane block, tells of the loss. -/
theorem Dev.reg_lossNoted (d : Dev) {n o : Nat} (ho : o / 0x10000 = 3) (h : o ≠ R.LN_ALARM n) :
    (d.lossNoted n).reg o = d.reg o := (d.frame_lossNoted n).reg_eq (by simp [h, pc_alarm_ne ho])

theorem Dev.loss_lossNoted (d : Dev) {n : Nat} (hn : n < 64) :
    (d.lossNoted n).flag (R.LN_ALARM n) F.LN_ALARM_loss = true := by
  unfold Dev.lossNoted Dev.spoilWindow
  dsimp only
  rw [Dev.flag, Dev.fld_setLane, Dev.fld_setLane, Dev.fld_count _ _ _ (alarm_steady hn).1]
  exact d.flag_raise_same _ _ ⟨by decide, by decide⟩

/-- The lane of a single-lane port in ACTIVE, back in DETECT, before its link falls. -/
def Dev.dropBegun (d : Dev) (n : Nat) : Dev := (d.lossNoted n).bringUpAt n ((d.lossNoted n).rateNow n)

theorem Dev.laneDrop_single {d : Dev} {n : Nat} (hp : (d.lane n).port = some n) (hw : (d.lane n).width = 1)
    (hb : d.bringup n = 6) : d.laneDrop n = ((d.dropBegun n).linkFall n).lanesActive n := by
  have hone : d.dropOne n (fun d m => d.bringUpAt m (d.rateNow m)) = d.dropBegun n := if_pos hb
  rw [Dev.laneDrop, Dev.group_single hp hw, hp]
  exact congrArg (fun e : Dev => (e.linkFall n).lanesActive n) hone

theorem portIn_of_laneRegs {d : Dev} {r : List Nat} {n : Nat} (hp : (d.lane n).port = some n) (h : d.laneRegs n ⊆ r) :
    PortIn r n := portIn_of h (by simp [hp])

/-- The fall of a port's link touches no register of the lane block. -/
theorem Dev.keepsLaneRegs_linkFall (d : Dev) {n : Nat} (hn : n < 64) : d.KeepsLaneRegs (d.linkFall n) := by
  have hregs := List.Subset.refl (d.linkRegs [n] [])
  refine (d.moves_linkFall n (List.Subset.refl linkParts) (cleanIn_of hregs) (portIn_of hregs (by simp))).frame.keepsLaneRegs ?_
  intro o ho
  simp only [Dev.linkRegs, List.map_cons, List.map_nil, List.append_nil, List.mem_append, List.mem_cons, List.not_mem_nil,
    or_false] at ho
  rcases ho with (((rfl | rfl | rfl | rfl) | rfl) | rfl) | ho
  · decide
  · decide
  · decide
  · decide
  · simp only [R.LK_STATUS]; omega
  · simp only [R.LK_ALARM]; omega
  · exact Dev.not_lane_of_mem_cleanRegs o ho

theorem Dev.keepsLaneRegs_lanesActive (d : Dev) {n : Nat} (hn : n < 64) : d.KeepsLaneRegs (d.lanesActive n) :=
  (d.frame_setFld (r := [R.LK_STATUS n]) _ _ [] (by simp)).keepsLaneRegs (by simp [R.LK_STATUS]; omega)

/-- What LN_STATUS and LN_ALARM read of a lane in normal mode whose ACTIVE has ended: DETECT, its loss, and the signal as
before. -/
theorem Dev.active_ended {d : Dev} {n : Nat} (hn : n < 64) (hp : (d.lane n).port = some n) (hw : (d.lane n).width = 1)
    (hb : d.bringup n = 6) (hmode : d.laneMode n = 0) :
    (d.laneDrop n).bringup n = 1 ∧ (d.laneDrop n).flag (R.LN_ALARM n) F.LN_ALARM_loss = true ∧
      (d.laneDrop n).flag (R.LN_STATUS n) F.LN_STATUS_signal = d.flag (R.LN_STATUS n) F.LN_STATUS_signal := by
  have hkeeps : (d.dropBegun n).KeepsLaneRegs (d.laneDrop n) := by
    rw [Dev.laneDrop_single hp hw hb]
    exact (Dev.keepsLaneRegs_linkFall _ hn).trans (Dev.keepsLaneRegs_lanesActive _ hn)
  have hmode' : (d.lossNoted n).laneMode n = 0 := by
    rw [Dev.laneMode, Dev.fld, d.reg_lossNoted (o := R.LN_CFG n) (window_block hn (by decide)) (window_ne n (by decide))]
    exact hmode
  have hstatus : (d.lossNoted n).reg (R.LN_STATUS n) = d.reg (R.LN_STATUS n) :=
    d.reg_lossNoted (status_block hn) (window_ne n (by decide))
  refine ⟨?_, ?_, ?_⟩
  · rw [hkeeps.bringup hn, Dev.dropBegun, Dev.bringup_bringUpAt _ hn, hmode']
    rfl
  · rw [hkeeps.flag (alarm_steady hn).1, Dev.dropBegun, Dev.flag, Dev.fld, Dev.reg_bringUpAt _ hn _ (alarm_steady hn)]
    exact d.loss_lossNoted hn
  · rw [hkeeps.flag (status_block hn), Dev.dropBegun, Dev.signal_bringUpAt_rateNow _ hn, Dev.flag, Dev.fld, hstatus]
    rfl

theorem Dev.moves_laneDrop {d : Dev} {n : Nat} {p : List Part} {r : List Nat} (hpart : linkParts ⊆ p) (h : d.CleanIn r)
    (hn : LaneIn r n) (hk : PortIn r n) (hp : (d.lane n).port = some n) (hw : (d.lane n).width = 1)
    (hb : d.bringup n = 6) : d.Moves (d.laneDrop n) p r := by
  have hnoted : d.Moves (d.lossNoted n) p r :=
    ((d.frame_lossNoted n).mono (by simp [linkParts_lanes hpart]) (by simp [hn.alarm, h.pc])).moves (d.ca_lossNoted n)
  rw [Dev.laneDrop_single hp hw hb]
  exact ((hnoted.step h fun h' => Dev.moves_bringUpAt _ n _ hpart h' hn).step h fun h' =>
    Dev.moves_linkFall _ n hpart h' hk).trans (Dev.moves_setFld _ _ _ _ hk.status)

/-- A drop after a step that keeps the lane, its status but for other fields, and its mode. -/
theorem drop_after {d e : Dev} {n : Nat} (hn : n < 64) (he : d.Moves e linkParts (d.laneRegs n))
    (hp : (d.lane n).port = some n) (hw : (d.lane n).width = 1) (hlane : e.lane n = d.lane n) (hb : e.bringup n = 6)
    (hmode : e.laneMode n = 0) :
    d.Frame (e.laneDrop n).settle linkParts (d.laneRegs n) ∧ (e.laneDrop n).settle.bringup n = 1 ∧
      (e.laneDrop n).settle.flag (R.LN_ALARM n) F.LN_ALARM_loss = true ∧
      (e.laneDrop n).settle.flag (R.LN_STATUS n) F.LN_STATUS_signal = e.flag (R.LN_STATUS n) F.LN_STATUS_signal := by
  have hregs := List.Subset.refl (d.laneRegs n)
  have hp' : (e.lane n).port = some n := by rw [hlane, hp]
  have hw' : (e.lane n).width = 1 := by rw [hlane, hw]
  rw [Dev.bringup_settle, Dev.flag_settle, Dev.flag_settle]
  exact ⟨(he.step (Dev.cleanIn_of_laneRegs hregs) fun hc => Dev.moves_laneDrop (List.Subset.refl _) hc
    (Dev.laneIn_of_laneRegs hregs) (portIn_of_laneRegs hp hregs) hp' hw' hb).frame.settle,
    Dev.active_ended hn hp' hw' hb hmode⟩

/-! Loss of lock and framing, in a gap and outside one (R79). -/

theorem Dev.lockLost_in_gap {d : Dev} {n : Nat} (h : d.gapHolds n = true) (b : Bool) :
    d.lockLost n b = d.setLane n { d.lane n with regained := false } := if_pos h

theorem Dev.lockLost_with_signal {d : Dev} {n : Nat} (h : d.gapHolds n = false) : d.lockLost n true = d.laneDrop n := by
  rw [Dev.lockLost, if_neg (by simp [h]), if_pos rfl]

/-- CDR lock is lost, and the lane's reference knows it. -/
def Dev.unlocked (d : Dev) (n : Nat) : Dev := (d.setFlag (R.LN_STATUS n) F.LN_STATUS_cdr_lock false).laneRef n

theorem Dev.moves_unlocked (d : Dev) {n : Nat} : d.Moves (d.unlocked n) linkParts (d.laneRegs n) :=
  have hregs := List.Subset.refl (d.laneRegs n)
  (d.moves_setFld _ _ _ (Dev.laneIn_of_laneRegs hregs).status).step (Dev.cleanIn_of_laneRegs hregs) fun hc =>
    Dev.moves_laneRef _ n (by decide) hc (Dev.laneIn_of_laneRegs hregs)

/-- Lost lock leaves the rest of the lane as it is. -/
theorem Dev.unlocked_keeps (d : Dev) {n : Nat} (hn : n < 64) : (d.unlocked n).lane n = d.lane n ∧
    (d.unlocked n).bringup n = d.bringup n ∧ (d.unlocked n).laneMode n = d.laneMode n ∧
    (d.unlocked n).gapHolds n = d.gapHolds n ∧ (d.unlocked n).flag (R.LN_STATUS n) F.LN_STATUS_cdr_lock = false := by
  have hkeeps := (d.setFlag (R.LN_STATUS n) F.LN_STATUS_cdr_lock false).keepsLaneRegs_laneRef hn
  have hlane : (d.unlocked n).lane n = d.lane n := Dev.lane_laneRef _ n n
  have hticks : (d.unlocked n).ticks = d.ticks :=
    ((Dev.frame_laneRef (d.setFlag (R.LN_STATUS n) F.LN_STATUS_cdr_lock false) n).1 .board (by decide)).2.2
  refine ⟨hlane, ?_, ?_, ?_, ?_⟩
  · exact (hkeeps.bringup hn).trans (d.bringup_setFlag n false (by decide))
  · exact (hkeeps.fld (window_block hn (by decide)) _).trans (d.fld_setFld_ne _ _ _ (window_ne n (by decide)))
  · rw [Dev.gapHolds, hlane, hticks]
    rfl
  · exact (hkeeps.flag (status_block hn) _).trans (d.flag_setFlag_same _ _ _ (by decide))

/-- CDR_UNLOCK of a lane in ACTIVE. -/
theorem answers_cdrUnlock {s : State} {n : Fin 64} {b : Bool} {Q : Dev → Prop} (hs : s.Up) (hb : s.dev.bringup n = 6)
    (hQ : Q ((s.dev.unlocked n).lockLost n b).settle) : Answers (.cdrUnlock ⟨n, b⟩) s Q := by
  refine .of_running hs (show execCdrUnlock ⟨n, b⟩ s = running s _ from rfl) ?_
  dsimp only
  rw [if_pos hb]
  exact hQ

/-- FRAMING_LOSS of a lane in ACTIVE. -/
theorem answers_framingLoss {s : State} {n : Fin 64} {b : Bool} {Q : Dev → Prop} (hs : s.Up) (hb : s.dev.bringup n = 6)
    (hQ : Q (s.dev.lockLost n b).settle) : Answers (.framingLoss ⟨n, b⟩) s Q := by
  refine .of_running hs (show execFramingLoss ⟨n, b⟩ s = running s _ from rfl) ?_
  dsimp only
  rw [if_pos hb]
  exact hQ

/-! The clauses of the statement: a lane in ACTIVE. -/

section
variable {s : State} (n : Fin 64) (hs : s.Up) (hp : (s.dev.lane n).port = some n.val) (hw : (s.dev.lane n).width = 1)
  (hmode : s.dev.laneMode n = 0) (hb : s.dev.bringup n = 6)

include hs hp hw hmode hb

theorem active_lost_signal :
    Answers (.lossOfSignal n) s (fun e =>
      s.dev.Frame e linkParts (s.dev.laneRegs n) ∧ e.bringup n = 1 ∧ e.flag (R.LN_ALARM n) F.LN_ALARM_loss = true ∧
      e.flag (R.LN_STATUS n) F.LN_STATUS_signal = false) := by
  have hb' : (s.dev.setSignal n false).bringup n = 6 := (s.dev.bringup_setSignal n false).trans hb
  have hmode' : (s.dev.setSignal n false).laneMode n = 0 := (s.dev.fld_setFld_ne _ _ _ (window_ne n (by decide))).trans hmode
  have hlost : s.dev.Moves (s.dev.setSignal n false) linkParts (s.dev.laneRegs n) :=
    s.dev.moves_setFld _ _ _ (Dev.laneIn_of_laneRegs (List.Subset.refl _)).status
  refine .of_running hs (show execLossOfSignal n s = running s _ from rfl) ?_
  dsimp only
  rw [if_neg (by omega), if_neg (by simp [Dev.inBringup, hb']), if_pos hb']
  obtain ⟨hframe, hbringup, hloss, hsignal⟩ :=
    drop_after n.isLt hlost hp hw (s.dev.lane_setSignal n false n) hb' hmode'
  exact ⟨hframe, hbringup, hloss, hsignal.trans (s.dev.signal_setSignal n false)⟩

theorem active_lost_lock (hgap : s.dev.gapHolds n = false) :
    Answers (.cdrUnlock ⟨n, true⟩) s (fun e =>
      s.dev.Frame e linkParts (s.dev.laneRegs n) ∧ e.bringup n = 1 ∧ e.flag (R.LN_ALARM n) F.LN_ALARM_loss = true) := by
  obtain ⟨hlane, hb', hmode', hgap', -⟩ := s.dev.unlocked_keeps n.isLt
  refine answers_cdrUnlock hs hb ?_
  rw [Dev.lockLost_with_signal (hgap'.trans hgap)]
  obtain ⟨hframe, hbringup, hloss, -⟩ := drop_after n.isLt s.dev.moves_unlocked hp hw hlane (hb'.trans hb) (hmode'.trans hmode)
  exact ⟨hframe, hbringup, hloss⟩

theorem active_lost_framing (hgap : s.dev.gapHolds n = false) :
    Answers (.framingLoss ⟨n, true⟩) s (fun e =>
      s.dev.Frame e linkParts (s.dev.laneRegs n) ∧ e.bringup n = 1 ∧ e.flag (R.LN_ALARM n) F.LN_ALARM_loss = true) := by
  refine answers_framingLoss hs hb ?_
  rw [Dev.lockLost_with_signal hgap]
  obtain ⟨hframe, hbringup, hloss, -⟩ := drop_after n.isLt (.refl s.dev _ _) hp hw rfl hb hmode
  exact ⟨hframe, hbringup, hloss⟩

theorem gap_not_reacquired (hgap : (s.dev.lane n).gap = true) (hregained : (s.dev.lane n).regained = false) :
    Answers (.gapReacquireTimeout n) s (fun e =>
      s.dev.Frame e linkParts (s.dev.laneRegs n) ∧ e.bringup n = 1 ∧ e.flag (R.LN_ALARM n) F.LN_ALARM_loss = true) := by
  refine .of_running hs (show execGapReacquireTimeout n s = running s _ from rfl) ?_
  dsimp only
  rw [if_pos ⟨hb, hgap⟩, if_neg (by simp [hregained])]
  obtain ⟨hframe, hbringup, hloss, -⟩ := drop_after n.isLt (.refl s.dev _ _) hp hw rfl hb hmode
  exact ⟨hframe, hbringup, hloss⟩

omit hp hw hmode

theorem gap_begun (hgap : s.dev.gapHolds n = false) :
    Answers (.framingLoss ⟨n, false⟩) s (fun e =>
      s.dev.Frame e [.lanes] [R.LN_STATUS n] ∧ e.bringup n = 6 ∧ e.gapHolds n = true ∧
      e.flag (R.LN_STATUS n) F.LN_STATUS_signal = false) := by
  have hlost : s.dev.lockLost n false = (s.dev.setSignal n false).setLane n
      { s.dev.lane n with gap := true, gapEnd := none, regained := false } := by
    rw [Dev.lockLost, if_neg (by simp [hgap]), if_neg Bool.false_ne_true]
  refine answers_framingLoss hs hb ?_
  rw [hlost, Dev.bringup_settle, Dev.flag_settle, Dev.gapHolds, Dev.lane_settle, Dev.lane_setLane_same]
  refine ⟨Dev.Frame.settle ?_, (s.dev.bringup_setSignal n false).trans hb, rfl, s.dev.signal_setSignal n false⟩
  exact (s.dev.frame_setFlag _ _ _ (by simp)).trans (Dev.frame_setLane _ _ _ _ (by simp))

theorem gap_without_lock (hgap : s.dev.gapHolds n = true) (b : Bool) :
    Answers (.cdrUnlock ⟨n, b⟩) s (fun e =>
      s.dev.Frame e linkParts (s.dev.laneRegs n) ∧ e.bringup n = 6 ∧
      e.flag (R.LN_STATUS n) F.LN_STATUS_cdr_lock = false) := by
  obtain ⟨-, hb', -, hgap', hlock⟩ := s.dev.unlocked_keeps n.isLt
  refine answers_cdrUnlock hs hb ?_
  rw [Dev.lockLost_in_gap (hgap'.trans hgap), Dev.bringup_settle, Dev.flag_settle]
  exact ⟨(s.dev.moves_unlocked.trans (Dev.moves_setLane _ n _ _ (by decide))).frame.settle, hb'.trans hb, hlock⟩

theorem gap_without_framing (hgap : s.dev.gapHolds n = true) (b : Bool) :
    Answers (.framingLoss ⟨n, b⟩) s (fun e => s.dev.Frame e [.lanes] [] ∧ e.bringup n = 6) := by
  refine answers_framingLoss hs hb ?_
  rw [Dev.lockLost_in_gap hgap, Dev.bringup_settle]
  exact ⟨(s.dev.frame_setLane n _ _ (by simp)).settle, hb⟩

theorem gap_ended (hgap : (s.dev.lane n).gap = true) (hregained : (s.dev.lane n).regained = true)
    (hlock : s.dev.flag (R.LN_STATUS n) F.LN_STATUS_cdr_lock = true) :
    Answers (.gapReacquireTimeout n) s (fun e =>
      s.dev.Frame e [.lanes] [] ∧ e.bringup n = 6 ∧ (e.lane n).gap = false) := by
  refine .of_running hs (show execGapReacquireTimeout n s = running s _ from rfl) ?_
  dsimp only
  rw [if_pos ⟨hb, hgap⟩, if_pos (by simp [hregained, hlock]), Dev.bringup_settle, Dev.lane_settle, Dev.lane_setLane_same]
  exact ⟨(s.dev.frame_setLane n _ _ (by simp)).settle, hb, rfl⟩

theorem signal_returned :
    Answers (.signalReturn n) s (fun e => e.bringup n = 6 ∧ (e.lane n).gap = true ∧
      e.flag (R.LN_STATUS n) F.LN_STATUS_signal = true ∧ (e.lane n).gapEnd = some (s.dev.ticks + 6250) ∧
      s.dev.Frame e [.lanes] [R.LN_STATUS n]) := by
  refine .of_running hs (show execSignalReturn n s = running s _ from rfl) ?_
  dsimp only
  rw [if_pos hb, Dev.bringup_settle, Dev.flag_settle, Dev.lane_settle, Dev.lane_setLane_same]
  refine ⟨(s.dev.bringup_setSignal n true).trans hb, rfl, s.dev.signal_setSignal n true, rfl, Dev.Frame.settle ?_⟩
  exact (s.dev.frame_setFlag _ _ _ (by simp)).trans (Dev.frame_setLane _ _ _ _ (by simp))

end

/-! A lane in TRAIN. -/

theorem train_lost_signal {s : State} (n : Fin 64) (hs : s.Up) (hmode : s.dev.laneMode n = 0) (hb : s.dev.bringup n = 2)
    (hfast : (s.dev.lane n).fast = false) :
    Answers (.lossOfSignal n) s (fun e =>
      s.dev.Frame e linkParts (s.dev.laneRegs n) ∧ e.bringup n = 10 ∧
      e.flag (R.LN_STATUS n) F.LN_STATUS_signal = false) := by
  have hregs := List.Subset.refl (s.dev.laneRegs n)
  have hin := Dev.laneIn_of_laneRegs hregs
  have hb' : (s.dev.setSignal n false).bringup n = 2 := (s.dev.bringup_setSignal n false).trans hb
  have hfast' : ((s.dev.setSignal n false).lane n).fast = false := by rw [s.dev.lane_setSignal, hfast]
  refine .of_running hs (show execLossOfSignal n s = running s _ from rfl) ?_
  dsimp only
  rw [if_neg (by omega), if_pos (by simp [Dev.inBringup, hb']), Dev.laneFail_early (by omega), Dev.bringup_settle,
    Dev.flag_settle, Dev.signal_failOne _ n.isLt, s.dev.signal_setSignal]
  exact ⟨((s.dev.moves_setFld _ _ _ hin.status).step (Dev.cleanIn_of_laneRegs hregs) fun hc =>
    Dev.moves_failOne _ n (List.Subset.refl _) hc hin).frame.settle, (Dev.failOne_fallback n.isLt hfast').1, rfl⟩

/-- Settles O7: outside a gap each loss ends ACTIVE, and in one lock and framing may be reacquired. -/
theorem laneLoss : Obligations.LaneLoss := fun _ n hs hp hw hmode =>
  ⟨fun hb => ⟨active_lost_signal n hs hp hw hmode hb,
    fun hgap => ⟨active_lost_lock n hs hp hw hmode hb hgap, active_lost_framing n hs hp hw hmode hb hgap,
      gap_begun n hs hb hgap⟩,
    fun hgap b => ⟨gap_without_lock n hs hb hgap b, gap_without_framing n hs hb hgap b⟩,
    gap_not_reacquired n hs hp hw hmode hb, gap_ended n hs hb, signal_returned n hs hb⟩,
    train_lost_signal n hs hmode⟩

end Sys2Proof.Machine
end

section
/-! PROOF of O8. A write of the transmit taps; the pattern checker; a phase readout; the end of a delay window, lane by lane;
an alignment marker out of place (R88, R89, R94–R96). -/

namespace Sys2Proof.Machine

/-! The transmit taps (R89). -/

theorem regSpec_LN_EQ_TX : ∀ n < 64, (regSpec (R.LN_EQ_TX n)).isSome = true := by decide

theorem Dev.writeReg_LN_EQ_TX (d : Dev) {n : Nat} (hn : n < 64) (w : Word) :
    d.writeReg (R.LN_EQ_TX n) w = d.eqWrite n true w := by
  have hoff : R.LN_EQ_TX n % 0x400 = 0x18 := by simp only [R.LN_EQ_TX]; omega
  have hlane : (R.LN_EQ_TX n - R.LN_CTRL 0) / 0x400 = n := by simp only [R.LN_EQ_TX, R.LN_CTRL]; omega
  have hblock : R.LN_EQ_TX n / 0x10000 = 3 := window_block hn (by decide)
  rw [d.writeReg_LN w hblock]
  simp only [Dev.writeLN, hoff, hlane]

/-- The taps of a word of LN_EQ_TX lie in their ranges, and 24 or more is left for main. -/
def tapsFit (w : Word) : Prop :=
  getField w F.LN_EQ_TX_pre2 ≤ 8 ∧ getField w F.LN_EQ_TX_pre1 ≤ 24 ∧ getField w F.LN_EQ_TX_post1 ≤ 16 ∧
    getField w F.LN_EQ_TX_pre2 + getField w F.LN_EQ_TX_pre1 + getField w F.LN_EQ_TX_post1 ≤ 40

theorem mainTap_isNone (pre2 pre1 post1 : Nat) : (mainTap pre2 pre1 post1).isNone ↔ 40 < pre2 + pre1 + post1 := by
  unfold mainTap
  split <;> simp <;> omega

/-- LN_EQ_TX holds the swing and the taps of a word. -/
def Dev.tapsWritten (d : Dev) (n : Nat) (w : Word) : Dev :=
  (d.setFld (R.LN_EQ_TX n) F.LN_EQ_TX_swing (getField w F.LN_EQ_TX_swing)).setTaps n (getField w F.LN_EQ_TX_pre2)
    (getField w F.LN_EQ_TX_pre1) (getField w F.LN_EQ_TX_post1)

theorem Dev.eqWrite_fit {d : Dev} {n : Nat} {w : Word} (h2 : d.bringup n ≠ 2) (h6 : d.bringup n ≠ 6) (h : tapsFit w) :
    d.eqWrite n true w = d.tapsWritten n w := by
  obtain ⟨hpre2, hpre1, hpost1, hsum⟩ := h
  unfold Dev.eqWrite
  dsimp only
  rw [if_pos rfl, if_neg (by simp [h2]), if_neg (by rw [mainTap_isNone]; omega), if_neg h6]
  rfl

theorem Dev.eqWrite_unfit {d : Dev} {n : Nat} {w : Word} (h2 : d.bringup n ≠ 2) (h : ¬ tapsFit w) :
    d.eqWrite n true w = d.raise (R.LN_ALARM n) F.LN_ALARM_eq_reject := by
  unfold Dev.eqWrite
  dsimp only
  rw [if_pos rfl, if_neg (by simp [h2]), if_pos (by rw [mainTap_isNone]; unfold tapsFit at h; omega)]

/-- What LN_EQ_TX reads after taps that its fields hold. -/
theorem Dev.fld_setTaps (d : Dev) (n : Nat) {pre2 pre1 post1 : Nat} (h2 : pre2 < 16) (h1 : pre1 < 32) (h0 : post1 < 32) :
    let e := d.setTaps n pre2 pre1 post1
    e.fld (R.LN_EQ_TX n) F.LN_EQ_TX_pre2 = pre2 ∧ e.fld (R.LN_EQ_TX n) F.LN_EQ_TX_pre1 = pre1 ∧
      e.fld (R.LN_EQ_TX n) F.LN_EQ_TX_post1 = post1 ∧
      e.fld (R.LN_EQ_TX n) F.LN_EQ_TX_main = 64 - pre2 - pre1 - post1 := by
  unfold Dev.setTaps
  refine ⟨?_, ?_, ?_, ?_⟩
  · rw [Dev.fld_setFld_clear _ _ _ _ _ (by decide), Dev.fld_setFld_clear _ _ _ _ _ (by decide),
      Dev.fld_setFld_clear _ _ _ _ _ (by decide)]
    exact Dev.fld_setFld_low _ _ _ _ ⟨by decide, by decide, h2⟩
  · rw [Dev.fld_setFld_clear _ _ _ _ _ (by decide), Dev.fld_setFld_clear _ _ _ _ _ (by decide)]
    exact Dev.fld_setFld_low _ _ _ _ ⟨by decide, by decide, h1⟩
  · rw [Dev.fld_setFld_clear _ _ _ _ _ (by decide)]
    exact Dev.fld_setFld_low _ _ _ _ ⟨by decide, by decide, h0⟩
  · exact Dev.fld_setFld_low _ _ _ _ ⟨by decide, by decide, show _ < 128 by omega⟩

theorem answers_eqWrite {s : State} {n : Fin 64} {w : Word} {Q : Dev → Prop} (hs : s.Up)
    (hQ : Q (s.dev.eqWrite n true w).settle) : Answers (.eqWrite n true w) s Q :=
  .of_write hs (regSpec_LN_EQ_TX n n.isLt) rfl (s.dev.writeReg_LN_EQ_TX n.isLt w ▸ hQ)

theorem taps_written {s : State} (n : Fin 64) (w : Word) (hs : s.Up) (h2 : s.dev.bringup n ≠ 2)
    (h6 : s.dev.bringup n ≠ 6) :
    Answers (.eqWrite n true w) s (fun e =>
      let pre2 := getField w F.LN_EQ_TX_pre2
      let pre1 := getField w F.LN_EQ_TX_pre1
      let post1 := getField w F.LN_EQ_TX_post1
      if pre2 ≤ 8 ∧ pre1 ≤ 24 ∧ post1 ≤ 16 ∧ pre2 + pre1 + post1 ≤ 40 then
        s.dev.Frame e [] [R.LN_EQ_TX n] ∧ e.fld (R.LN_EQ_TX n) F.LN_EQ_TX_pre2 = pre2 ∧
          e.fld (R.LN_EQ_TX n) F.LN_EQ_TX_pre1 = pre1 ∧ e.fld (R.LN_EQ_TX n) F.LN_EQ_TX_post1 = post1 ∧
          e.fld (R.LN_EQ_TX n) F.LN_EQ_TX_main = 64 - pre2 - pre1 - post1
      else s.dev.Frame e [] [R.LN_ALARM n] ∧ e.flag (R.LN_ALARM n) F.LN_ALARM_eq_reject = true) := by
  refine answers_eqWrite hs ?_
  dsimp only
  split
  · next h =>
    rw [Dev.eqWrite_fit h2 h6 h]
    simp only [Dev.fld_settle]
    refine ⟨Dev.Frame.settle ?_, Dev.fld_setTaps _ _ (by omega) (by omega) (by omega)⟩
    exact (s.dev.frame_setFld _ _ _ (by simp)).trans (Dev.frame_setTaps _ _ _ _ _ _ (by simp))
  · next h =>
    rw [Dev.eqWrite_unfit h2 h, Dev.flag_settle]
    exact ⟨(s.dev.frame_raise _ _ (by simp)).settle, s.dev.flag_raise_same _ _ ⟨by decide, by decide⟩⟩

/-! The pattern checker (R94). -/

theorem checker_synced {s : State} (n : Fin 64) (hs : s.Up) (hrun : s.dev.checkerRuns n = true) :
    Answers (.checkerSync n) s (fun e => s.dev.RegsOnly e ∧ s.dev.KeepsRegs e [R.LN_TEST n] ∧
      e.flag (R.LN_TEST n) F.LN_TEST_chk_sync = true) := by
  refine .of_running hs (show execCheckerSync n s = running s _ from rfl) ?_
  rw [if_pos hrun, Dev.flag_settle, s.dev.flag_setFlag_same _ _ _ (by decide)]
  exact ⟨(s.dev.regsOnly_setFld _ _ _).settle, (s.dev.frame_setFlag (r := [R.LN_TEST n]) _ _ [] (by simp)).settle.2, rfl⟩

theorem prbs_block {n : Nat} (hn : n < 64) : R.LN_PRBS_ERR n / 0x10000 = 3 := window_block hn (by decide)

theorem prbs_ne_test (n : Nat) : R.LN_PRBS_ERR n ≠ R.LN_TEST n := window_ne n (by decide)

theorem prbs_ne_alarm (n : Nat) : R.LN_PRBS_ERR n ≠ R.LN_ALARM n := window_ne n (by decide)

theorem prbs_ne_phase (n : Nat) : R.LN_PRBS_ERR n ≠ R.LN_PHASE_INST n := window_ne n (by decide)

theorem test_ne_alarm (n : Nat) : R.LN_TEST n ≠ R.LN_ALARM n := window_ne n (by decide)

/-- Wrong bits are counted in LN_PRBS_ERR and in the lane's counter. -/
def Dev.errorsCounted (d : Dev) (n k : Nat) : Dev :=
  (d.addSat (R.LN_PRBS_ERR n) F.LN_PRBS_ERR_count k).count (laneCtr n 2) k

theorem Dev.checkerErrors_in_sync {d : Dev} {n k : Nat} (hrun : d.checkerRuns n = true)
    (hsync : d.flag (R.LN_TEST n) F.LN_TEST_chk_sync = true) : d.checkerErrors n k = d.errorsCounted n k :=
  if_pos (by simp [hrun, hsync])

theorem Dev.frame_errorsCounted (d : Dev) (n k : Nat) (p : List Part) {r : List Nat} (h : R.LN_PRBS_ERR n ∈ r)
    (h' : R.PC_ALARM ∈ r) : d.Frame (d.errorsCounted n k) p r :=
  (d.frame_addSat _ _ p h).trans (Dev.frame_count _ _ _ p h')

theorem Dev.frame_checkerErrors (d : Dev) (n k : Nat) (p : List Part) {r : List Nat} (h : R.LN_PRBS_ERR n ∈ r)
    (h' : R.PC_ALARM ∈ r) : d.Frame (d.checkerErrors n k) p r :=
  Dev.frame_ite (d.frame_errorsCounted n k p h h') (.refl d p r)

/-- The count of wrong bits stops at its largest value. -/
theorem Dev.fld_errorsCounted (d : Dev) {n : Nat} (hn : n < 64) (k : Nat) :
    (d.errorsCounted n k).fld (R.LN_PRBS_ERR n) F.LN_PRBS_ERR_count =
      min (d.fld (R.LN_PRBS_ERR n) F.LN_PRBS_ERR_count + k) 0xFFFFFFFF := by
  rw [Dev.errorsCounted, Dev.fld_count _ _ _ (prbs_block hn)]
  have hmax : min (d.fld (R.LN_PRBS_ERR n) F.LN_PRBS_ERR_count + k) (2 ^ 32 - 1) < 2 ^ 32 := by omega
  exact d.fld_setFld_low _ _ _ ⟨by decide, by decide, hmax⟩

theorem checker_lost_sync {s : State} (n : Fin 64) (wrong : Nat) (hs : s.Up) (hrun : s.dev.checkerRuns n = true)
    (hsync : s.dev.flag (R.LN_TEST n) F.LN_TEST_chk_sync = true) :
    Answers (.checkerSyncLost n wrong) s (fun e =>
      s.dev.RegsOnly e ∧ s.dev.KeepsRegs e [R.LN_TEST n, R.LN_PRBS_ERR n, R.LN_ALARM n, R.PC_ALARM] ∧
      e.flag (R.LN_TEST n) F.LN_TEST_chk_sync = false ∧ e.flag (R.LN_ALARM n) F.LN_ALARM_prbs_sync_lost = true ∧
      e.fld (R.LN_PRBS_ERR n) F.LN_PRBS_ERR_count =
        min (s.dev.fld (R.LN_PRBS_ERR n) F.LN_PRBS_ERR_count + wrong) 0xFFFFFFFF) := by
  have hframe := ((((s.dev.frame_errorsCounted n wrong [] (r := [R.LN_TEST n, R.LN_PRBS_ERR n, R.LN_ALARM n, R.PC_ALARM])
    (by simp) (by simp)).trans (Dev.frame_count _ (laneCtr n 3) 1 _ (by simp))).trans
    (Dev.frame_setFlag _ F.LN_TEST_chk_sync false _ (o := R.LN_TEST n) (by simp))).trans
    (Dev.frame_raise _ F.LN_ALARM_prbs_sync_lost _ (o := R.LN_ALARM n) (by simp)))
  refine .of_running hs (show execCheckerSyncLost n wrong s = running s _ from rfl) ?_
  rw [if_neg (by simp [hrun, hsync]), Dev.checkerErrors_in_sync hrun hsync]
  refine ⟨Dev.RegsOnly.settle ?_, hframe.settle.2, ?_, ?_, ?_⟩
  · exact (((((Dev.RegsOnly.refl _).setFld _ _ _).count _ _).count _ _).setFld _ _ _).raise _ _
  · rw [Dev.flag_settle, Dev.flag_raise_ne _ _ _ (test_ne_alarm n)]
    exact Dev.flag_setFlag_same _ _ _ _ (by decide)
  · rw [Dev.flag_settle]
    exact Dev.flag_raise_same _ _ _ ⟨by decide, by decide⟩
  · rw [Dev.fld_settle, Dev.fld_raise_ne _ _ _ (prbs_ne_alarm n), Dev.setFlag,
      Dev.fld_setFld_ne _ _ _ _ (prbs_ne_test n), Dev.fld_count _ _ _ (prbs_block n.isLt)]
    exact s.dev.fld_errorsCounted n.isLt wrong

/-! A phase readout (R95). -/

theorem Dev.frame_phaseLatch (d : Dev) (n phase : Nat) {r : List Nat} (h : R.LN_PHASE_INST n ∈ r) :
    d.Frame (d.phaseLatch n phase) [.lanes] r := by
  have hinst : d.Frame (d.setFld (R.LN_PHASE_INST n) F.LN_PHASE_INST_phase phase) [.lanes] r := d.frame_setFld _ _ _ h
  have hlane (x : Lane) := hinst.trans (Dev.frame_setLane _ n x _ (by simp))
  exact Dev.frame_ite hinst (Dev.frame_ite (hlane _) (hlane _))

theorem Dev.fld_phaseLatch (d : Dev) (n phase o : Nat) (g : Field) : (d.phaseLatch n phase).fld o g =
    (d.setFld (R.LN_PHASE_INST n) F.LN_PHASE_INST_phase phase).fld o g := by
  unfold Dev.phaseLatch
  extract_lets e x diff
  split
  · rfl
  · split <;> rfl

theorem phase_sampled {s : State} (n : Fin 64) (phase : PhaseReading) (hs : s.Up) (hst : s.dev.laneState n = enOn)
    (hf : s.dev.inFault = false) (h3 : s.dev.isVersion3 n = false) :
    Answers (.phaseSample n phase) s (fun e =>
      s.dev.Frame e [.lanes] [R.LN_PHASE_INST n, R.LN_PRBS_ERR n, R.PC_ALARM] ∧
      (s.dev.checkerRuns n = true → s.dev.flag (R.LN_TEST n) F.LN_TEST_chk_sync = true →
        e.fld (R.LN_PRBS_ERR n) F.LN_PRBS_ERR_count =
          min (s.dev.fld (R.LN_PRBS_ERR n) F.LN_PRBS_ERR_count + phase.wrongBits) 0xFFFFFFFF) ∧
      e.fld (R.LN_PHASE_INST n) F.LN_PHASE_INST_phase = phase.phase.val) := by
  refine .of_running hs (show execPhaseSample n phase s = running s _ from rfl) ?_
  rw [if_pos ⟨hst, by simp [hf], by simp [h3]⟩, Dev.fld_settle, Dev.fld_settle, Dev.fld_phaseLatch, Dev.fld_phaseLatch]
  refine ⟨Dev.Frame.settle ?_, fun hrun hsync => ?_, ?_⟩
  · exact (s.dev.frame_checkerErrors n _ _ (by simp) (by simp)).trans (Dev.frame_phaseLatch _ n _ (by simp))
  · rw [Dev.fld_setFld_ne _ _ _ _ (prbs_ne_phase n), Dev.checkerErrors_in_sync hrun hsync]
    exact s.dev.fld_errorsCounted n.isLt _
  · exact Dev.fld_setFld_low _ _ _ _ ⟨by decide, by decide, phase.phase.isLt⟩

/-! The end of a delay window (R96, R125, R375). -/

/-- The mean phase of an undisturbed window of a lane in ACTIVE is published. -/
def Dev.phasePublished (d : Dev) (n : Nat) : Dev :=
  let x := d.lane n
  if x.phN = 0 || x.phSpoilt || !(d.bringup n == 6) || d.inFault then d
  else (d.setFld (R.LN_PHASE_AVG n) F.LN_PHASE_AVG_value
      (divNear ((x.phN * x.phFirst + x.phSum) * 32768) x.phN % (2 ^ 24 : Nat)).toNat).setFld (R.LN_PHASE_AVG n)
    F.LN_PHASE_AVG_window (d.fld (R.LN_PHASE_AVG n) F.LN_PHASE_AVG_window + 1)

/-- The hidden state of a lane whose delay window has ended. -/
def Dev.windowClosed (d : Dev) (n : Nat) : Lane :=
  let x := d.lane n
  let spoilt := !(d.bringup n == 6) || d.inFault
  { x with phN := 0, phFirst := 0, phSum := 0, phSpoilt := spoilt, disturb := false
           closed := if d.isVersion3 n || decide (0 < x.cur.fwdN) then
             some { x.cur with spoilt := x.cur.spoilt || d.inFault } else none
           cur := { Samples.zero with spoilt := spoilt } }

/-- Values of the lane that wait for the end of a window take effect. -/
def Dev.laneApplied (d : Dev) (n : Nat) : Dev :=
  let e := ((List.range 6).foldl (fun d k => (d.moveItem 2 n k).moveItem 3 n k) d).laneDelays n
  { e with ca := { e.ca with laneNew := sPut 0 e.ca.laneNew n 0 } }

/-- A lane after its window, before waiting values take effect. -/
def Dev.windowShut (d : Dev) (n : Nat) : Dev := (d.phasePublished n).setLane n (d.windowClosed n)

theorem Dev.laneWindowEnd_eq (d : Dev) (n : Nat) : d.laneWindowEnd n =
    if sGet 0 (d.windowShut n).ca.laneNew n = 0 || (d.windowShut n).inFault then d.windowShut n
    else (d.windowShut n).laneApplied n := by
  unfold Dev.laneWindowEnd Dev.laneApplied Dev.windowShut Dev.windowClosed Dev.phasePublished
  with_reducible rfl

theorem Dev.frame_phasePublished (d : Dev) (n : Nat) (p : List Part) {r : List Nat} (h : R.LN_PHASE_AVG n ∈ r) :
    d.Frame (d.phasePublished n) p r :=
  Dev.frame_ite (.refl d p r) ((d.frame_setFld _ _ p h).trans (Dev.frame_setFld _ _ _ p h))

theorem Dev.frame_laneApplied (d : Dev) (n : Nat) : d.Frame (d.laneApplied n) [.ca] [R.LN_TX_DELAY n, R.LN_RX_DELAY n] := by
  have hmoved (d : Dev) (k : Nat) : d.Frame ((d.moveItem 2 n k).moveItem 3 n k) [.ca] [R.LN_TX_DELAY n, R.LN_RX_DELAY n] :=
    (d.frame_ca _ _ (by simp)).trans (Dev.frame_ca _ _ _ (by simp))
  exact ((Dev.Frame.foldl hmoved _ d).trans (Dev.frame_laneDelays _ n)).trans (Dev.frame_ca _ _ _ (by simp))

theorem Dev.frame_windowShut (d : Dev) (n : Nat) : d.Frame (d.windowShut n) [.lanes] [R.LN_PHASE_AVG n] :=
  (d.frame_phasePublished n _ (by simp)).trans (Dev.frame_setLane _ _ _ _ (by simp))

theorem Dev.laneWindowEnd_windowShut (d : Dev) (n : Nat) :
    (d.windowShut n).Frame (d.laneWindowEnd n) [.ca] [R.LN_TX_DELAY n, R.LN_RX_DELAY n] := by
  rw [d.laneWindowEnd_eq]
  exact Dev.frame_ite (.refl _ _ _) (Dev.frame_laneApplied _ n)

theorem phase_avg_ne_tx (n : Nat) : R.LN_PHASE_AVG n ≠ R.LN_TX_DELAY n := window_ne n (by decide)

theorem phase_avg_ne_rx (n : Nat) : R.LN_PHASE_AVG n ≠ R.LN_RX_DELAY n := window_ne n (by decide)

theorem Dev.phN_laneWindowEnd (d : Dev) (n : Nat) : ((d.laneWindowEnd n).lane n).phN = 0 := by
  rw [(d.laneWindowEnd_windowShut n).lane_eq (by decide), Dev.windowShut, Dev.lane_setLane_same]
  rfl

/-- The window number of the mean phase rises with an undisturbed window of a lane in ACTIVE. -/
theorem Dev.window_laneWindowEnd {d : Dev} {n : Nat} (h6 : d.bringup n = 6) (hf : d.inFault = false)
    (hN : 0 < (d.lane n).phN) (hclean : (d.lane n).phSpoilt = false) :
    (d.laneWindowEnd n).fld (R.LN_PHASE_AVG n) F.LN_PHASE_AVG_window =
      (d.fld (R.LN_PHASE_AVG n) F.LN_PHASE_AVG_window + 1) % 256 := by
  have hout : R.LN_PHASE_AVG n ∉ [R.LN_TX_DELAY n, R.LN_RX_DELAY n] := by
    simp [phase_avg_ne_tx n, phase_avg_ne_rx n]
  rw [(d.laneWindowEnd_windowShut n).fld_eq hout, Dev.windowShut, Dev.fld_setLane, Dev.phasePublished,
    if_neg (by simp [h6, hf, hclean]; omega)]
  exact Dev.fld_setFld_same _ _ _ _ ⟨by decide, by decide⟩

/-- What the end of the window on lane n looks at and changes there is the same in `d` and `e`. -/
def Dev.SameWindow (n : Nat) (d e : Dev) : Prop :=
  e.lane n = d.lane n ∧ ∀ o ∈ [R.LN_STATUS n, R.LN_PHASE_AVG n, R.CK_STATUS], e.reg o = d.reg o

section
variable {d e f : Dev} {n : Nat}

theorem Dev.SameWindow.trans (h : d.SameWindow n e) (h' : e.SameWindow n f) : d.SameWindow n f :=
  ⟨h'.1.trans h.1, fun o ho => (h'.2 o ho).trans (h.2 o ho)⟩

theorem Dev.SameWindow.fld (h : d.SameWindow n e) {o : Nat} (ho : o ∈ [R.LN_STATUS n, R.LN_PHASE_AVG n, R.CK_STATUS])
    (g : Field) : e.fld o g = d.fld o g := by
  rw [Dev.fld, Dev.fld, h.2 o ho]

theorem Dev.SameWindow.bringup (h : d.SameWindow n e) : e.bringup n = d.bringup n := h.fld (by simp) _

theorem Dev.SameWindow.inFault (h : d.SameWindow n e) : e.inFault = d.inFault := by
  rw [Dev.inFault, Dev.inFault, h.fld (by simp)]

end

theorem Dev.sameWindow_laneWindowEnd (d : Dev) {m n : Nat} (h : m ≠ n) : d.SameWindow n (d.laneWindowEnd m) := by
  have hframe : d.Frame (d.laneWindowEnd m) [.lanes, .ca] [R.LN_PHASE_AVG m, R.LN_TX_DELAY m, R.LN_RX_DELAY m] :=
    ((d.frame_windowShut m).mono (by simp) (by simp)).trans ((d.laneWindowEnd_windowShut m).mono (by simp) (by simp))
  refine ⟨?_, fun o ho => hframe.reg_eq ?_⟩
  · rw [(d.laneWindowEnd_windowShut m).lane_eq (by decide), Dev.windowShut, Dev.lane_setLane_ne _ _ h.symm]
    exact (d.frame_phasePublished m [] (List.mem_singleton_self _)).lane_eq (by decide) n
  · simp only [List.mem_cons, List.not_mem_nil, or_false, R.LN_STATUS, R.LN_PHASE_AVG, R.CK_STATUS, R.LN_TX_DELAY,
      R.LN_RX_DELAY] at ho ⊢
    omega

/-- The windows of other lanes end. -/
theorem Dev.sameWindow_foldl (n : Nat) {ms : List Nat} (h : n ∉ ms) (d : Dev) :
    d.SameWindow n (ms.foldl (fun d m => d.laneWindowEnd m) d) := by
  induction ms generalizing d with
  | nil => exact ⟨rfl, fun _ _ => rfl⟩
  | cons m ms ih =>
    obtain ⟨hm, hms⟩ := List.ne_and_not_mem_of_not_mem_cons h
    exact (d.sameWindow_laneWindowEnd hm.symm).trans (ih hms _)

/-- In a pass over a range, each number stands once. -/
theorem range_split {n k : Nat} (h : n < k) :
    ∃ below above, List.range k = below ++ n :: above ∧ n ∉ below ∧ n ∉ above := by
  obtain ⟨below, above, heq⟩ := List.append_of_mem (List.mem_range.mpr h)
  have hnodup := heq ▸ List.nodup_range (n := k)
  rw [List.nodup_middle, List.nodup_cons, List.mem_append, not_or] at hnodup
  exact ⟨below, above, heq, hnodup.1⟩

theorem window_ended {s : State} (n : Fin 64) (hs : s.Up) (h6 : s.dev.bringup n = 6) (hf : s.dev.inFault = false)
    (hN : 0 < (s.dev.lane n).phN) (hclean : (s.dev.lane n).phSpoilt = false) :
    Answers (.delayWindowEnd []) s (fun e => (e.lane n).phN = 0 ∧
      e.fld (R.LN_PHASE_AVG n) F.LN_PHASE_AVG_window =
        (s.dev.fld (R.LN_PHASE_AVG n) F.LN_PHASE_AVG_window + 1) % 256) := by
  refine .of_running hs (show execDelayWindowEnd [] s = running s _ from rfl) ?_
  obtain ⟨below, above, hsplit, hbelow, habove⟩ := range_split n.isLt
  simp only [hsplit, List.foldl_append, List.foldl_cons, List.foldl_nil, ite_self, Dev.lane_settle, Dev.fld_settle]
  have hbefore := s.dev.sameWindow_foldl n hbelow
  generalize below.foldl (fun d m => d.laneWindowEnd m) s.dev = d at hbefore ⊢
  have hafter := (d.laneWindowEnd n).sameWindow_foldl n habove
  rw [hafter.1, hafter.fld (by simp), d.phN_laneWindowEnd, Dev.window_laneWindowEnd (hbefore.bringup.trans h6)
    (hbefore.inFault.trans hf) (hbefore.1 ▸ hN) (hbefore.1 ▸ hclean), hbefore.fld (by simp)]
  exact ⟨rfl, rfl⟩

/-! An alignment marker out of its position (R88). -/

theorem marker_missed {s : State} (n : Fin 64) (mk : BitVec 256) (hs : s.Up) (h6 : s.dev.bringup n = 6)
    (h3 : s.dev.isVersion3 n = true) (hgap : s.dev.gapHolds n = false) (hbad : (s.dev.lane n).badMarks < 2) :
    Answers (.alignmentMarker n false mk) s (fun e => s.dev.Frame e [.lanes] [] ∧
      (e.lane n).badMarks = (s.dev.lane n).badMarks + 1) := by
  refine .of_running hs (show execAlignmentMarker n false mk s = running s _ from rfl) ?_
  dsimp only
  rw [if_neg (by simp [h6, h3]), if_neg (by simp [hgap]), if_neg (by simp), if_pos hbad, Dev.lane_settle,
    Dev.lane_setLane_same]
  exact ⟨(s.dev.frame_setLane _ _ _ (by simp)).settle, rfl⟩

/-- Settles O8: a clause each for the taps, the pattern checker, a phase readout, the end of a delay window and a marker
out of its position. -/
theorem laneMeasures : Obligations.LaneMeasures := fun _ n w wrong phase mk hs =>
  ⟨taps_written n w hs, fun hrun => ⟨checker_synced n hs hrun, checker_lost_sync n wrong hs hrun⟩,
    phase_sampled n phase hs, window_ended n hs, marker_missed n mk hs⟩

end Sys2Proof.Machine
end

section
/-! SUPPORT of the links' statements (O9, O10, O11, O12). How a write of a register of the link block goes, and what a frame keeps
of the switch core. -/

namespace Sys2Proof.Machine

/-! Registers of the link block. -/

/-- A write of a register of the link block goes by the offset in its port's window. -/
theorem Dev.writeReg_LK (d : Dev) {o : Nat} (w : Word) (h : o / 0x10000 = 4) : d.writeReg o w = d.writeLK o w := by
  simp only [Dev.writeReg, h]

/-- A register of a port's window: its block, its port and its offset there. -/
theorem link_window (a : Nat) {p : Nat} (hp : p < 64) (h : 0x40000 ≤ a ∧ a < 0x40400) :
    (a + 0x400 * p) / 0x10000 = 4 ∧ (a + 0x400 * p - R.LK_PORT_CTRL 0) / 0x400 = p ∧
      (a + 0x400 * p) % 0x400 = a - 0x40000 := by
  simp only [R.LK_PORT_CTRL]
  omega

/-! What a frame, and a register stored, leave alone. -/

theorem Dev.Frame.sw_eq {d e : Dev} {ps : List Part} {r : List Nat} (h : d.Frame e ps r) (hp : Part.sw ∉ ps) :
    e.sw = d.sw := h.1 .sw hp

/-- The fields of a register stored. -/
theorem Dev.regsOnly_store (d : Dev) (o : Nat) (w : Word) : d.RegsOnly (d.store o w) := rfl

end Sys2Proof.Machine
end

section
/-! PROOF of O9. What a write of a port's configuration stores or rejects; the commit of a MAC address; and the ends of
STARTING and STOPPING of a port (R104, R106, R133, R136). -/

namespace Sys2Proof.Machine

/-! What a write of a port's configuration does (R104, R133, R136). -/

theorem Dev.writeReg_LK_PORT_CFG (d : Dev) {p : Nat} (hp : p < 64) (w : Word) :
    d.writeReg (R.LK_PORT_CFG p) w = d.portCfg p w := by
  obtain ⟨hblock, hport, hoff⟩ := link_window 0x40004 hp (by decide)
  rw [R.LK_PORT_CFG, d.writeReg_LK w hblock, Dev.writeLK, hport, hoff]
  rfl

theorem Dev.writeReg_LK_ETH_CFG (d : Dev) {p : Nat} (hp : p < 64) (w : Word) :
    d.writeReg (R.LK_ETH_CFG p) w = d.ethCfg p w := by
  obtain ⟨hblock, hport, hoff⟩ := link_window 0x40008 hp (by decide)
  rw [R.LK_ETH_CFG, d.writeReg_LK w hblock, Dev.writeLK, hport, hoff]
  rfl

theorem Dev.writeReg_LK_ISZ_CFG (d : Dev) {p : Nat} (hp : p < 64) (w : Word) :
    d.writeReg (R.LK_ISZ_CFG p) w = d.store (R.LK_ISZ_CFG p) w := by
  obtain ⟨hblock, -, hoff⟩ := link_window 0x4000C hp (by decide)
  rw [R.LK_ISZ_CFG, d.writeReg_LK w hblock, Dev.writeLK, hoff]
  rfl

theorem Dev.writeReg_LK_MAC_HI (d : Dev) {p : Nat} (hp : p < 64) (w : Word) :
    d.writeReg (R.LK_MAC_HI p) w = d.macCommit p w := by
  obtain ⟨hblock, hport, hoff⟩ := link_window 0x4001C hp (by decide)
  rw [R.LK_MAC_HI, d.writeReg_LK w hblock, Dev.writeLK, hport, hoff]
  rfl

theorem regSpec_portRegAt (p : Fin 64) (r : PortReg) : (regSpec (portRegAt p r)).isSome = true := by
  have hnamed : ∀ p : Fin 64, (regSpec (R.LK_PORT_CFG p)).isSome = true ∧ (regSpec (R.LK_ETH_CFG p)).isSome = true ∧
      (regSpec (R.LK_ISZ_CFG p)).isSome = true := by decide
  obtain ⟨hport, heth, hisz⟩ := hnamed p
  cases r
  · exact hport
  · exact heth
  · exact hisz

theorem regSpec_LK_MAC_HI : ∀ p : Fin 64, (regSpec (R.LK_MAC_HI p)).isSome = true := by decide

theorem answers_portCfgWrite {s : State} {p : Fin 64} {r : PortReg} {w : Word} {Q : Dev → Prop} (hs : s.Up)
    (hQ : Q (s.dev.writeReg (portRegAt p r) w).settle) : Answers (.portCfgWrite p r w) s Q :=
  .of_write hs (regSpec_portRegAt p r) rfl hQ

/-- The fields of a register stored, and nothing else. -/
theorem Dev.stored_settle (d : Dev) (o : Nat) (w : Word) : d.RegsOnly (d.store o w).settle ∧
    d.KeepsRegs (d.store o w).settle [o] ∧ (d.store o w).settle.reg o = d.fieldsStored o w :=
  ⟨(d.regsOnly_store o w).settle, (d.frame_setReg (r := [o]) _ [] (by simp)).settle.2,
    (Dev.reg_settle _ _).trans (d.reg_setReg_same _ _)⟩

/-- A write rejected: the alarm of the port, and nothing else. -/
theorem Dev.portReject_settle (d : Dev) (p : Nat) : d.RegsOnly (d.portReject p).settle ∧
    d.KeepsRegs (d.portReject p).settle [R.LK_ALARM p] ∧
    (d.portReject p).settle.flag (R.LK_ALARM p) F.LK_ALARM_cfg_reject = true :=
  ⟨((Dev.RegsOnly.refl d).raise _ _).settle, (d.frame_raise (r := [R.LK_ALARM p]) _ [] (by simp)).settle.2,
    (Dev.flag_settle _ _ _).trans (d.flag_raise_same _ _ ⟨by decide, by decide⟩)⟩

/-- A configuration is rejected while a lane of its port is not OFF. -/
theorem Dev.portCfg_rejected {d : Dev} {p : Nat} (w : Word) (h : d.lanesOff p (d.portLanes p) = false) :
    d.portCfg p w = d.portReject p := by
  simp [Dev.portCfg, h]

theorem Dev.ethCfg_rejected {d : Dev} {p : Nat} (w : Word) (h : d.lanesOff p (d.portLanes p) = false) :
    d.ethCfg p w = d.portReject p := by
  simp [Dev.ethCfg, h]

/-- The fields of LK_PORT_CFG. -/
def portCfgFields : List FieldSpec :=
  [⟨F.LK_PORT_CFG_time_lane, .rw, .any⟩, ⟨F.LK_PORT_CFG_width, .rw, .reserved [5, 6, 7]⟩,
    ⟨F.LK_PORT_CFG_protocol, .rw, .any⟩, ⟨F.LK_PORT_CFG_max_frame, .rw, .within 64 16384⟩]

theorem regSpec_LK_PORT_CFG : ∀ p < 64, (regSpec (R.LK_PORT_CFG p)).map (·.fields) = some portCfgFields := by decide

/-- A width of one lane is stored. -/
theorem Dev.portLanes_store {d : Dev} {p : Nat} (hp : p < 64) {w : Word} (h : getField w F.LK_PORT_CFG_width = 1) :
    (d.store (R.LK_PORT_CFG p) w).portLanes p = 1 := by
  obtain ⟨r, hr, hfields⟩ := Option.map_eq_some_iff.1 (regSpec_LK_PORT_CFG p hp)
  have hwidth : (d.store (R.LK_PORT_CFG p) w).fld (R.LK_PORT_CFG p) F.LK_PORT_CFG_width = 1 := by
    simp only [d.fld_store, Dev.fieldsStored, hr, hfields, portCfgFields, List.foldl_cons, List.foldl_nil]
    rw [FieldSpec.getField_store_apart _ ⟨by decide, by decide⟩ ⟨by decide, by decide⟩ (.inl (by decide)),
      FieldSpec.getField_store_apart _ ⟨by decide, by decide⟩ ⟨by decide, by decide⟩ (.inl (by decide)),
      FieldSpec.getField_store_rw ⟨by decide, by decide⟩, h]
    rfl
  rw [Dev.portLanes, hwidth]
  rfl

/-- A width of one lane, OFF, that no port below reaches: the configuration is stored. -/
theorem Dev.portCfg_single {d : Dev} {p : Nat} (hp : p < 64) {w : Word} (hoff : d.lanesOff p (d.portLanes p) = true)
    (hw : getField w F.LK_PORT_CFG_width = 1) (hlane : d.laneState p = enOff)
    (hclear : ∀ q, q < 64 → q ≠ p → q + d.portLanes q ≤ p ∨ p < q) :
    d.portCfg p w = (d.store (R.LK_PORT_CFG p) w).poolUpdate := by
  have hunclaimed : ((List.range 64).any fun q => q != p && decide (0 < 1) && decide (0 < d.portLanes q) &&
      decide (p < q + d.portLanes q) && decide (q < p + 1)) = false := by
    refine List.any_eq_false.2 fun q hq => ?_
    simp only [Bool.and_eq_true, bne_iff_ne, decide_eq_true_eq, not_and]
    rintro ⟨⟨⟨hne, -⟩, -⟩, hlt⟩ hle
    have := hclear q (List.mem_range.1 hq) hne
    omega
  have hone : d.lanesOff p 1 = true := by simp [Dev.lanesOff, hlane]
  unfold Dev.portCfg
  simp only [Dev.portLanes_store hp hw, hoff, hone, hunclaimed, Nat.mod_one]
  rfl

/-- The pool's share follows the reserved sum: its register, and the alarm of a sum too large. -/
theorem Dev.regsOnly_poolUpdate {d e : Dev} (h : d.RegsOnly e) : d.RegsOnly e.poolUpdate := by
  unfold Dev.poolUpdate
  dsimp only
  split
  · exact (h.setFld _ _ _).raise _ _
  · exact h.setFld _ _ _

theorem Dev.frame_poolUpdate (d : Dev) (p : List Part) {r : List Nat} (h : R.SW_POOL_STAT ∈ r) (h' : R.SW_ALARM ∈ r) :
    d.Frame d.poolUpdate p r :=
  Dev.frame_ite ((d.frame_setFld _ _ p h).trans (Dev.frame_raise _ _ p h')) (d.frame_setFld _ _ p h)

/-! The clauses of the statement. -/

/-- LK_ISZ_CFG takes a write at any time. -/
theorem isz_cfg_written {s : State} (p : Fin 64) (w : Word) (hs : s.Up) :
    Answers (.portCfgWrite p .isz w) s (fun e => s.dev.RegsOnly e ∧ s.dev.KeepsRegs e [R.LK_ISZ_CFG p] ∧
      e.reg (R.LK_ISZ_CFG p) = s.dev.fieldsStored (R.LK_ISZ_CFG p) w) := by
  refine answers_portCfgWrite hs ?_
  rw [portRegAt, s.dev.writeReg_LK_ISZ_CFG p.isLt]
  exact s.dev.stored_settle _ w

theorem eth_cfg_written {s : State} (p : Fin 64) (w : Word) (hs : s.Up)
    (hoff : s.dev.lanesOff p (s.dev.portLanes p) = true) :
    Answers (.portCfgWrite p .eth w) s (fun e => s.dev.RegsOnly e ∧ s.dev.KeepsRegs e [R.LK_ETH_CFG p] ∧
      e.reg (R.LK_ETH_CFG p) = s.dev.fieldsStored (R.LK_ETH_CFG p) w) := by
  refine answers_portCfgWrite hs ?_
  rw [portRegAt, s.dev.writeReg_LK_ETH_CFG p.isLt, Dev.ethCfg, if_pos hoff]
  exact s.dev.stored_settle _ w

theorem port_cfg_written {s : State} (p : Fin 64) (w : Word) (hs : s.Up)
    (hoff : s.dev.lanesOff p (s.dev.portLanes p) = true) (hw : getField w F.LK_PORT_CFG_width = 1)
    (hlane : s.dev.laneState p = enOff)
    (hclear : ∀ q : Nat, q < 64 → q ≠ p.val → q + s.dev.portLanes q ≤ p ∨ p < q) :
    Answers (.portCfgWrite p .port w) s (fun e => s.dev.RegsOnly e ∧
      s.dev.KeepsRegs e [R.LK_PORT_CFG p, R.SW_POOL_STAT, R.SW_ALARM] ∧
      e.reg (R.LK_PORT_CFG p) = s.dev.fieldsStored (R.LK_PORT_CFG p) w) := by
  have hpool : R.LK_PORT_CFG p ∉ [R.SW_POOL_STAT, R.SW_ALARM] := by
    simp only [R.LK_PORT_CFG, R.SW_POOL_STAT, R.SW_ALARM, List.mem_cons, List.not_mem_nil, or_false]
    omega
  refine answers_portCfgWrite hs ?_
  rw [portRegAt, s.dev.writeReg_LK_PORT_CFG p.isLt, Dev.portCfg_single p.isLt hoff hw hlane hclear]
  refine ⟨(Dev.regsOnly_poolUpdate (s.dev.regsOnly_store _ _)).settle, (Dev.Frame.settle (p := []) ?_).2, ?_⟩
  · exact (s.dev.frame_setReg _ _ (by simp)).trans (Dev.frame_poolUpdate _ _ (by simp) (by simp))
  · rw [Dev.reg_settle, (Dev.frame_poolUpdate _ [] (by simp) (by simp)).reg_eq hpool, Dev.store, Dev.reg_setReg_same]

/-- Neither the port's nor the Ethernet configuration takes a write while a lane is not OFF. -/
theorem port_cfg_rejected {s : State} (p : Fin 64) (w : Word) (hs : s.Up)
    (hoff : s.dev.lanesOff p (s.dev.portLanes p) = false) (r : PortReg) (hr : r ≠ .isz) :
    Answers (.portCfgWrite p r w) s (fun e => s.dev.RegsOnly e ∧ s.dev.KeepsRegs e [R.LK_ALARM p] ∧
      e.flag (R.LK_ALARM p) F.LK_ALARM_cfg_reject = true) := by
  have hreject : s.dev.writeReg (portRegAt p r) w = s.dev.portReject p := by
    cases r with
    | port => rw [portRegAt, s.dev.writeReg_LK_PORT_CFG p.isLt, Dev.portCfg_rejected w hoff]
    | eth => rw [portRegAt, s.dev.writeReg_LK_ETH_CFG p.isLt, Dev.ethCfg_rejected w hoff]
    | isz => exact absurd rfl hr
  refine answers_portCfgWrite hs ?_
  rw [hreject]
  exact s.dev.portReject_settle p

theorem Dev.port_setPort_same (d : Dev) (p : Nat) (x : Port) : (d.setPort p x).port p = x := sGet_sPut_same _ _ _ _

@[simp] theorem Dev.port_settle (d : Dev) (p : Nat) : d.settle.port p = d.port p := by simp [Dev.port]

theorem mac_committed {s : State} (p : Fin 64) (w : Word) (hs : s.Up) :
    Answers (.macCommit p w) s (fun e => s.dev.Frame e [.ports] [R.LK_MAC_HI p] ∧
      (e.port p).mac = getField w F.LK_MAC_HI_mac_hi * 2 ^ 32 + (s.dev.reg (R.LK_MAC_LO p)).toNat) := by
  refine .of_write hs (regSpec_LK_MAC_HI p) rfl ?_
  rw [s.dev.writeReg_LK_MAC_HI p.isLt, Dev.macCommit]
  refine ⟨Dev.Frame.settle ?_, ?_⟩
  · exact (s.dev.frame_setReg _ _ (by simp)).trans (Dev.frame_setPort _ _ _ _ (by simp))
  · rw [Dev.port_settle, Dev.port_setPort_same]

/-- A block's state set touches registers alone. -/
theorem Dev.regsOnly_state_set (d : Dev) (t : EnTarget) (st : Nat) : d.RegsOnly (d.setEnState t st).settle :=
  (d.regsOnly_setFld _ _ _).settle

/-- The ends of STARTING and STOPPING of a port whose enable field still reads as when they began. -/
theorem port_ended {s : State} (p : Fin 64) (hs : s.Up) (hf : s.dev.inFault = false) (hy : s.dev.stage ≠ .yielded) :
    (s.dev.fld (R.LK_PORT_CTRL p) F.LK_PORT_CTRL_state = enStarting → s.dev.flag (R.LK_PORT_CTRL p) enField = true →
      Answers (.portStartingEnd p) s (fun e => s.dev.RegsOnly e ∧ s.dev.KeepsRegs e [R.LK_PORT_CTRL p] ∧
        e.portOn p = true)) ∧
    (s.dev.fld (R.LK_PORT_CTRL p) F.LK_PORT_CTRL_state = enStopping → s.dev.flag (R.LK_PORT_CTRL p) enField = false →
      s.dev.txRun p = none →
      Answers (.portStoppingEnd p) s (fun e => s.dev.RegsOnly e ∧ s.dev.KeepsRegs e [R.LK_PORT_CTRL p] ∧
        e.portOff p = true)) := by
  refine ⟨fun hst hen => ?_, fun hst hen htx => ?_⟩
  · refine .of_running (f := fun d => d.startingEnd (.port p)) hs rfl ?_
    rw [Dev.startingEnd_on (t := .port p) hst hf hy hen]
    obtain ⟨hon, hframe⟩ := s.dev.state_set (.port p) (st := enOn) (by decide)
    exact ⟨s.dev.regsOnly_state_set _ _, hframe.2, beq_iff_eq.2 hon⟩
  · refine .of_running (f := fun d => if (d.txRun p).isSome && !d.txIdle p then d else d.stoppingEnd (.port p)) hs rfl ?_
    rw [htx, if_neg (by simp), Dev.stoppingEnd_off (t := .port p) hst hf hen]
    obtain ⟨hoff, hframe⟩ := s.dev.state_set (.port p) (st := enOff) (by decide)
    exact ⟨s.dev.regsOnly_state_set _ _, hframe.2, (if_pos p.isLt).trans (beq_iff_eq.2 hoff)⟩

/-- Settles O9, clause by clause. -/
theorem portRegisters : Obligations.PortRegisters := fun _ p w hawake hsafe =>
  have hs := And.intro hawake hsafe
  ⟨isz_cfg_written p w hs, fun hoff => ⟨eth_cfg_written p w hs hoff, port_cfg_written p w hs hoff⟩,
    port_cfg_rejected p w hs, mac_committed p w hs, port_ended p hs⟩

end Sys2Proof.Machine
end

section
/-! SUPPORT of O10 and O12. What the framing counter's way to its next position does to the frame in transmission: the data
positions between carry its next blocks, and the switch core's record of the transmission moves on with them (R117, R118). -/

namespace Sys2Proof.Machine

theorem Dev.Frame.txRun_eq {d e : Dev} {ps : List Part} {r : List Nat} (h : d.Frame e ps r) (hp : Part.sw ∉ ps) (p : Nat) :
    e.txRun p = d.txRun p := by
  rw [Dev.txRun, Dev.txRun, h.sw_eq hp]

/-- A transmission after `n` more of its blocks have left. -/
def TxRun.past (x : TxRun) (n : Nat) : TxRun := { x with left := x.left.drop n }

theorem Dev.txRun_takeBlocks (d : Dev) (p n : Nat) : (d.takeBlocks p n).2.txRun p = (d.txRun p).map (·.past n) := by
  unfold Dev.takeBlocks
  split
  · next x h =>
    rw [h]
    exact sGet_sPut_same none d.sw.tx p (some (x.past n))
  · next h => rw [h, Option.map_none]

theorem Dev.frame_sendMarkers (d : Dev) (p : Nat) (r : List Nat) : d.Frame (d.sendMarkers p) [.ports] r :=
  (d.frame_setPort p _ r (by simp)).trans (.foldl (fun d _ => d.frame_emit _ _ _) _ _)

/-- Blocks that go at the data positions before a value of the framing counter, but for those already filled. -/
def Dev.blocksDue (d : Dev) (p to_ : Nat) : Nat :=
  dataCount (d.interval p) (d.port p).c to_ * d.portLanes p - (d.port p).filled

theorem Dev.frame_takeBlocks (d : Dev) (p n : Nat) (r : List Nat) : d.Frame (d.takeBlocks p n).2 [.sw] r := by
  unfold Dev.takeBlocks
  split
  · exact d.frame_sw _ _ (by simp)
  · exact .refl d _ _

/-- Between the markers and the port's new count, the framing counter's way takes the blocks due. -/
theorem Dev.advanceTo_takes (d : Dev) (p to_ : Nat) : ∃ marked : Dev, d.Frame marked [.ports] [] ∧
    (marked.takeBlocks p (d.blocksDue p to_)).2.Frame (d.advanceTo p to_) [.ports] [] := by
  have hmarkers : d.Frame (if countAt 16384 0 (d.port p).c to_ = 0 then d else d.sendMarkers p) [.ports] [] :=
    Dev.frame_ite (.refl d _ _) (d.frame_sendMarkers p [])
  refine ⟨_, hmarkers, ?_⟩
  rw [Dev.advanceTo, Dev.blocksDue]
  -- The counts stay opaque: the kernel would unfold their divisions by 16,384.
  generalize (if countAt 16384 0 (d.port p).c to_ = 0 then d else d.sendMarkers p) = marked
  generalize dataCount (d.interval p) (d.port p).c to_ * d.portLanes p = n
  obtain ⟨blocks, e⟩ := marked.takeBlocks p (n - (d.port p).filled)
  dsimp only
  exact (Dev.frame_ite (.refl e _ _) (e.frame_emit _ _ _)).trans (Dev.frame_setPort _ p _ _ (by simp))

/-- The frame in transmission after the framing counter has moved on: the blocks due have left. -/
theorem Dev.txRun_advanceTo (d : Dev) (p to_ : Nat) :
    (d.advanceTo p to_).txRun p = (d.txRun p).map (·.past (d.blocksDue p to_)) := by
  obtain ⟨marked, hmarked, hcount⟩ := d.advanceTo_takes p to_
  rw [hcount.txRun_eq (by decide), Dev.txRun_takeBlocks, hmarked.txRun_eq (by decide)]

/-- The framing counter moves on: the port, and the frame in transmission. -/
theorem Dev.frame_advanceTo (d : Dev) (p to_ : Nat) : d.Frame (d.advanceTo p to_) [.ports, .sw] [] := by
  obtain ⟨marked, hmarked, hcount⟩ := d.advanceTo_takes p to_
  exact ((hmarked.mono (by simp) (by simp)).trans ((marked.frame_takeBlocks p _ []).mono (by simp) (by simp))).trans
    (hcount.mono (by simp) (by simp))

end Sys2Proof.Machine
end

section
/-! PROOF of O10, refuted. A trigger hand-off takes the framing counter over the data positions before it, and a frame in
transmission sends its blocks there: the switch core does not stay as it was (R117, R118, R123). -/

namespace Sys2Proof.Machine

/-- A trigger hand-off of a version-3 link, with the engine off: the framing counter moves on to the trigger position, and a block
of zero words leaves on every lane. -/
def Dev.handoffIdle (d : Dev) (p : Nat) : Dev :=
  (List.range (d.portLanes p)).foldl (fun d i => d.emit (.trigBlock p i (blockWords [] i)))
    (d.advanceTo p (nextAt (d.interval p) 1 (d.port p).c))

theorem exec_triggerHandoff_engine_off {s : State} {p : Fin 64} (hs : s.Up) (hidle : s.dev.txIdle p = false)
    (hpair : s.dev.isPairPort p = false) (hband : s.dev.inBandLink p = false) (hlink : s.dev.trigLink p = true)
    (hoff : s.dev.engineOn = false) :
    exec (.triggerHandoff p) s = .next { s with dev := (s.dev.handoffIdle p).settle } := by
  have hoff' : (s.dev.advanceTo p (nextAt (s.dev.interval p) 1 (s.dev.port p).c)).engineOn = false := by
    rw [Dev.engineOn, (s.dev.frame_advanceTo p _).fld_eq (by simp)]
    exact hoff
  refine (show execTriggerHandoff p s = running s _ from rfl).trans ((running_next hs.1.1 hs.1.2 hs.2).trans ?_)
  simp only [hidle, hpair, hband, hlink, hoff', Bool.or_self, Bool.not_true, Bool.not_false, Bool.false_eq_true,
    if_false, if_true]
  rfl

/-- A frame in transmission goes on at the data positions before the hand-off. -/
theorem Dev.txRun_handoffIdle (d : Dev) (p : Nat) : (d.handoffIdle p).settle.txRun p =
    (d.txRun p).map (·.past (d.blocksDue p (nextAt (d.interval p) 1 (d.port p).c))) := by
  have hblocks (e : Dev) (xs : List Nat) : e.Frame
      (xs.foldl (fun d i => d.emit (.trigBlock p i (blockWords [] i))) e).settle [] [] :=
    (Dev.Frame.foldl (fun d _ => d.frame_emit _ _ _) xs e).settle
  rw [Dev.handoffIdle, (hblocks _ _).txRun_eq (by decide), Dev.txRun_advanceTo]

/-- A frame of 64 octets that leaves in class 0, its END block still to send. -/
def endLeft : TxRun :=
  let body : List Byte := List.replicate 64 0
  let frame : Frame := { id := 0, port := 1, octets := body, cls := none, stamp := 0, te := 0, invalid := false
                         second := none, direct := none, tx := none, err := false }
  { entry := { id := 0, cls := 0, octets := body, frame := frame, multi := false, whey := none, bank := 0, epoch := 0, tag := 0 }
    sent := body, bad := false, left := [endBlock []] }

/-- The device in GLAZE with fields set, and that frame in transmission on port 0. -/
def sendingDev (fields : List (Nat × Field × Nat)) : Dev :=
  fields.foldl (fun d x => d.setFld x.1 x.2.1 x.2.2)
    { State.reset.dev with stage := .glaze, sw := { Sw.reset with tx := [(0, some endLeft)] } }

/-- Port 0, of one lane, carries a version-3 link with a trigger block every 32 blocks. Its framing counter stands at one trigger
position, and the frame is under way to the next. -/
def handoffState : State :=
  { pending := []
    dev := (sendingDev [(R.LK_PORT_CFG 0, F.LK_PORT_CFG_width, 1), (R.LK_PORT_CTRL 0, F.LK_PORT_CTRL_state, enOn),
        (R.LK_STATUS 0, F.LK_STATUS_link_up, 1), (R.LK_STATUS 0, F.LK_STATUS_ver, 3),
        (R.LK_STATUS 0, F.LK_STATUS_share_now, 1)]).setPort 0 { Port.reset with c := 1 } }

/-- The hand-off passes 31 data positions, and the END block goes at the first of them. -/
theorem txRun_handoffState :
    (handoffState.dev.handoffIdle 0).settle.txRun 0 = some (endLeft.past 31) := by
  have hrun : handoffState.dev.txRun 0 = some endLeft := by decide +kernel
  have hdue : handoffState.dev.blocksDue 0
      (nextAt (handoffState.dev.interval 0) 1 (handoffState.dev.port 0).c) = 31 := by decide +kernel
  rw [Dev.txRun_handoffIdle, hrun, hdue]
  rfl

/-- Refutes O10: with the engine off, a hand-off changes more than the port where a frame is in transmission. -/
theorem not_linkBlocks : ¬ Obligations.LinkBlocks := by
  rintro ⟨-, hblocks⟩
  have hs : handoffState.Up := by decide +kernel
  have hidle : handoffState.dev.txIdle (0 : Fin 64) = false := by decide +kernel
  have hpair : handoffState.dev.isPairPort (0 : Fin 64) = false := by decide +kernel
  have hband : handoffState.dev.inBandLink (0 : Fin 64) = false := by decide +kernel
  have hlink : handoffState.dev.trigLink (0 : Fin 64) = true := by decide +kernel
  have hoff : handoffState.dev.engineOn = false := by decide +kernel
  obtain ⟨hengineOff, -⟩ := hblocks handoffState 0 { srcId := 5, pol := true, t32p := 77 } hs (by decide +kernel) hlink
    (by decide +kernel) hpair (by decide) (by decide)
  obtain ⟨t, ht, -, hframe, -⟩ := (hengineOff hoff).2 hidle hband
  rw [exec_triggerHandoff_engine_off hs hidle hpair hband hlink hoff] at ht
  cases ht
  have hkept : (handoffState.dev.handoffIdle 0).settle.txRun 0 = handoffState.dev.txRun 0 :=
    hframe.txRun_eq (by decide) 0
  rw [txRun_handoffState] at hkept
  exact absurd hkept (by decide +kernel)

end Sys2Proof.Machine
end

section
/-! SUPPORT of O11. What masks and counters read after a step, and what a counter's event leaves of a port and of the time
counter (R397). -/

namespace Sys2Proof.Machine

/-! Masks of classes. -/

/-- A mask built bit by bit from below. -/
theorem testBit_foldl_mask (g : Nat → Bool) (n : Nat) :
    (List.range n).foldl (fun m c => if g c then m + 2 ^ c else m) 0 < 2 ^ n ∧
      ∀ c < n, ((List.range n).foldl (fun m c => if g c then m + 2 ^ c else m) 0).testBit c = g c := by
  induction n with
  | zero => exact ⟨Nat.one_pos, fun c hc => absurd hc (Nat.not_lt_zero c)⟩
  | succ n ih =>
    obtain ⟨hlt, hbits⟩ := ih
    rw [List.range_succ, List.foldl_append, List.foldl_cons, List.foldl_nil]
    generalize (List.range n).foldl (fun m c => if g c then m + 2 ^ c else m) 0 = m at hlt hbits ⊢
    cases hg : g n with
    | false =>
      rw [if_neg Bool.false_ne_true]
      refine ⟨by omega, fun c hc => ?_⟩
      rcases Nat.lt_succ_iff_lt_or_eq.1 hc with h | rfl
      · exact hbits c h
      · rw [hg, Nat.testBit_lt_two_pow hlt]
    | true =>
      rw [if_pos rfl, Nat.add_comm]
      refine ⟨by omega, fun c hc => ?_⟩
      rcases Nat.lt_succ_iff_lt_or_eq.1 hc with h | rfl
      · rw [Nat.testBit_two_pow_add_gt h, hbits c h]
      · rw [hg, Nat.testBit_two_pow_add_eq, Nat.testBit_lt_two_pow hlt]; rfl

/-- A bit taken out of a mask that has it. -/
theorem testBit_sub_two_pow {m c : Nat} (h : m.testBit c = true) : (m - 2 ^ c).testBit c = false := by
  have hle : 2 ^ c ≤ m := Nat.ge_two_pow_of_testBit h
  have hsum : (2 ^ c + (m - 2 ^ c)).testBit c = true := by rwa [Nat.add_sub_cancel' hle]
  rw [Nat.testBit_two_pow_add_eq] at hsum
  simpa using hsum

/-! Counters (R397). -/

/-- A counter advanced: no other counter, and nothing that has left the device. -/
theorem Dev.count_parts (d : Dev) (n k : Nat) : (d.count n k).out = d.out ∧ ∃ w, (d.count n k).pc.ctrs =
    sPut Ctr.zero d.pc.ctrs n { value := BitVec.ofNat 48 ((sGet Ctr.zero d.pc.ctrs n).value.toNat + k), wrap := w } := by
  unfold Dev.count
  dsimp only
  split
  · exact ⟨by simp, _, by rw [Dev.raise_pc]⟩
  · exact ⟨rfl, _, rfl⟩

theorem Dev.out_count (d : Dev) (n k : Nat) : (d.count n k).out = d.out := (d.count_parts n k).1

theorem Dev.ctr_count_ne (d : Dev) {n m : Nat} (k : Nat) (h : m ≠ n) :
    sGet Ctr.zero (d.count n k).pc.ctrs m = sGet Ctr.zero d.pc.ctrs m := by
  obtain ⟨-, w, hctrs⟩ := d.count_parts n k
  rw [hctrs, sGet_sPut_ne _ _ _ _ h]

theorem Dev.ctr_count_one (d : Dev) (n : Nat) :
    (sGet Ctr.zero (d.count n 1).pc.ctrs n).value = (sGet Ctr.zero d.pc.ctrs n).value + 1 := by
  obtain ⟨-, w, hctrs⟩ := d.count_parts n 1
  rw [hctrs, sGet_sPut_same, BitVec.ofNat_add, BitVec.ofNat_toNat, BitVec.setWidth_eq]
  rfl

theorem Dev.ctr_settle (d : Dev) (n : Nat) : sGet Ctr.zero d.settle.pc.ctrs n = sGet Ctr.zero d.pc.ctrs n := by
  have hpc : d.flushIrq.pc = d.pc := d.flushIrq_pc
  rw [← hpc]
  exact sGet_sNorm (fun _ => Ctr.zero) _ n

/-- What has left the device before the end of a command stays as it was, behind the messages owed. -/
theorem Dev.out_settle_append (d : Dev) : ∃ xs, d.settle.out = xs ++ d.out := by
  refine d.flushIrq_keeps (P := fun e => ∃ xs, e.out = xs ++ d.out) (fun e v h => ?_) (fun _ h => h) (fun _ h => h)
    ⟨[], rfl⟩
  obtain ⟨xs, h⟩ := h
  unfold Dev.message
  split
  · exact ⟨xs, h⟩
  · exact ⟨_ :: xs, congrArg (List.cons _) h⟩

/-! What a counter's event leaves of a port and of the time counter. -/

section
variable {d e : Dev} {ps : List Part} {p : Nat}

/-- Only counters, and PC_ALARM, which lies above the blocks that a frame's reception reads. -/
theorem Dev.Frame.fld_below (h : d.Frame e ps [R.PC_ALARM]) {o : Nat} (ho : o < 0xE0000) (f : Field) :
    e.fld o f = d.fld o f :=
  h.fld_eq (by simp only [R.PC_ALARM, List.mem_singleton]; omega) f

theorem Dev.Frame.inFault_below (h : d.Frame e ps [R.PC_ALARM]) : e.inFault = d.inFault := by
  rw [Dev.inFault, Dev.inFault, h.fld_below (by decide)]

theorem Dev.Frame.fc_below (h : d.Frame e ps [R.PC_ALARM]) (hp : p < 64) :
    e.fld (R.LK_ETH_CFG p) F.LK_ETH_CFG_fc = d.fld (R.LK_ETH_CFG p) F.LK_ETH_CFG_fc :=
  h.fld_below (by simp only [R.LK_ETH_CFG]; omega) _

theorem Dev.Frame.ethernet_below (h : d.Frame e ps [R.PC_ALARM]) (hp : p < 64) : e.ethernet p = d.ethernet p := by
  rw [Dev.ethernet, Dev.ethernet, Dev.flag, Dev.flag, h.fld_below (by simp only [R.LK_PORT_CFG]; omega)]

theorem Dev.Frame.isazu_below (h : d.Frame e ps [R.PC_ALARM]) (hp : p < 64) : e.isazu p = d.isazu p := by
  rw [Dev.isazu, Dev.isazu, Dev.flag, Dev.flag, h.fld_below (by simp only [R.LK_PORT_CFG]; omega)]

theorem Dev.Frame.carrying_below (h : d.Frame e ps [R.PC_ALARM]) (hp : p < 64) : e.carrying p = d.carrying p := by
  rw [Dev.carrying, Dev.carrying, if_pos hp, if_pos hp, Dev.portOn, Dev.portOn, Dev.linkUp, Dev.linkUp, Dev.flag, Dev.flag,
    h.fld_below (by simp only [R.LK_PORT_CTRL]; omega), h.fld_below (by simp only [R.LK_STATUS]; omega)]

theorem Dev.Frame.maxFrame_below (h : d.Frame e ps [R.PC_ALARM]) (hp : p < 64) : e.maxFrame p = d.maxFrame p := by
  rw [Dev.maxFrame, Dev.maxFrame, if_pos hp, if_pos hp, h.fld_below (by simp only [R.LK_PORT_CFG]; omega)]

theorem Dev.Frame.rxError_below (h : d.Frame e ps [R.PC_ALARM]) (hp : p < 64) (octets : List Byte) (err : Option RxFault) :
    e.rxError p octets err = d.rxError p octets err := by
  simp only [Dev.rxError, h.maxFrame_below hp]

/-- A receive stamp reads the time counter, the lane's rate and its receive delay. -/
theorem Dev.Frame.rxStamp_below (h : d.Frame e ps [R.PC_ALARM]) (htc : Part.tc ∉ ps) (hboard : Part.board ∉ ps) {n : Nat}
    (hn : n < 71) (age symbols phase : Nat) : e.rxStamp n age symbols phase = d.rxStamp n age symbols phase := by
  have htime : e.tc = d.tc := h.1 .tc htc
  have hticks : e.ticks = d.ticks := (h.1 .board hboard).2.2
  have hrate : e.rateNow n = d.rateNow n := h.fld_below (by simp only [R.LN_STATUS]; omega) _
  have hdelay : e.reg (R.LN_RX_DELAY n) = d.reg (R.LN_RX_DELAY n) :=
    h.reg_eq (by simp only [R.LN_RX_DELAY, R.PC_ALARM, List.mem_singleton]; omega)
  have hstamp (off : Int) : e.stampAt off = d.stampAt off := by
    simp only [Dev.stampAt, Dev.marksAfter, Dev.now, Dev.te, Dev.timeValid, Dev.flag, htime, hticks,
      h.fld_below (show R.TC_STATUS < 0xE0000 by decide)]
  simp only [Dev.rxStamp, hrate, hdelay, hstamp]

end

end Sys2Proof.Machine
end

section
/-! PROOF of O11. What a frame received on an Ethernet port becomes; flow control and credit (R109, R110, R129, R228, R237,
R240). -/

namespace Sys2Proof.Machine

/-! A frame received on an Ethernet port (R109, R110, R228). -/

/-- The FEC codewords of a frame received are counted. -/
def Dev.codewordsCounted (d : Dev) (p : Nat) (x : StartSymbol) : Dev :=
  (d.count (portCtr p 22) x.fixed).count (portCtr p 23) x.lost

theorem Dev.frame_codewordsCounted (d : Dev) (p : Nat) (x : StartSymbol) :
    d.Frame (d.codewordsCounted p x) [] [R.PC_ALARM] :=
  (d.frame_count _ _ _ (by simp)).trans (Dev.frame_count _ _ _ _ (by simp))

/-- The frame that Ethernet port p receives, stamped with the phase of the lane that brought its START. -/
def Dev.rxFrame (d : Dev) (p : Nat) (octets : List Byte) (x : StartSymbol) (age symbols : Nat) : Machine.Frame :=
  let at_ := d.rxStamp (p + x.lane) age symbols (d.fld (R.LN_PHASE_INST (p + x.lane)) F.LN_PHASE_INST_phase)
  { id := 0, port := p, octets := octets, cls := none, stamp := at_.t48, te := at_.te, invalid := at_.invalid
    second := none, direct := none, tx := none, err := false }

theorem Dev.rxFrame_codewordsCounted (d : Dev) {p : Nat} (hp : p < 64) (octets : List Byte) (x : StartSymbol)
    (age symbols : Nat) : (d.codewordsCounted p x).rxFrame p octets x age symbols = d.rxFrame p octets x age symbols := by
  have hcount := d.frame_codewordsCounted p x
  have hlane : p + x.lane < 71 := by omega
  have hphase := hcount.fld_below (o := R.LN_PHASE_INST (p + x.lane)) (by simp only [R.LN_PHASE_INST]; omega)
    F.LN_PHASE_INST_phase
  simp only [Dev.rxFrame, hphase, hcount.rxStamp_below (by decide) (by decide) hlane]

/-- What Ethernet port p makes of a frame whose codewords are counted: an error is counted, a frame of the MAC consumed, and any
other frame waits for the spreader. -/
def Dev.frameMade (d : Dev) (p cls : Nat) (f : Machine.Frame) : Dev :=
  match d.rxError p f.octets none with
  | some k => d.badFrame p cls k f
  | none =>
    match macControl f.octets with
    | some (pfc, classes, quanta) => d.pfcTake p pfc classes quanta
    | none => d.inject f

section
variable {d : Dev} {p : Nat} (cls : Nat) {f : Machine.Frame}

theorem Dev.frameMade_bad {k : Nat} (h : d.rxError p f.octets none = some k) :
    d.frameMade p cls f = d.badFrame p cls k f := by
  rw [Dev.frameMade, h]

theorem Dev.frameMade_control {pfc : Bool} {classes : BitVec 8} {quanta : List (BitVec 16)}
    (h : d.rxError p f.octets none = none) (hmac : macControl f.octets = some (pfc, classes, quanta)) :
    d.frameMade p cls f = d.pfcTake p pfc classes quanta := by
  rw [Dev.frameMade, h, hmac]

theorem Dev.frameMade_good (h : d.rxError p f.octets none = none) (hmac : macControl f.octets = none) :
    d.frameMade p cls f = d.inject f := by
  rw [Dev.frameMade, h, hmac]

end

theorem Dev.not_isazu_of_ethernet {d : Dev} {p : Nat} (h : d.ethernet p = true) : d.isazu p = false := by
  simp only [Dev.ethernet, Bool.and_eq_true] at h
  simp [Dev.isazu, h.2]

theorem portOn_linkUp_of_carrying {d : Dev} {p : Fin 64} (h : d.carrying p = true) : d.portOn p = true ∧ d.linkUp p = true := by
  rw [Dev.carrying, if_pos p.isLt, Bool.and_eq_true] at h
  exact h

/-- A frame received without a line error on an Ethernet port that carries. -/
theorem answers_frameReceived {s : State} {p : Fin 64} {octets : List Byte} {start : StartSymbol} {age symbols : Nat}
    {Q : Dev → Prop} (hs : s.Up) (heth : s.dev.ethernet p = true) (hcarry : s.dev.carrying p = true)
    (hpair : s.dev.isPairPort p = false)
    (hQ : Q ((s.dev.codewordsCounted p start).frameMade p start.cls.toNat
      (s.dev.rxFrame p octets start age symbols)).settle) : Answers (.frameReceived p octets none start age symbols) s Q := by
  obtain ⟨hon, hup⟩ := portOn_linkUp_of_carrying hcarry
  have hstate : (s.dev.fld (R.LK_PORT_CTRL p) F.LK_PORT_CTRL_state == enOn) = true := hon
  have hisz := Dev.not_isazu_of_ethernet heth
  rw [← s.dev.rxFrame_codewordsCounted p.isLt] at hQ
  refine .of_running hs (show execFrameReceived p octets none start age symbols s = running s _ from rfl) ?_
  simp only [hstate, hup, hpair, hisz, Bool.true_or, Bool.not_true, Bool.or_self, Bool.false_eq_true, if_false]
  exact hQ

theorem Dev.rxError_good {d : Dev} {p : Nat} {octets : List Byte} (hmin : 64 ≤ octets.length)
    (hmax : octets.length ≤ d.maxFrame p)
    (hfcs : octets.drop (octets.length - 4) = fcs (octets.take (octets.length - 4))) : d.rxError p octets none = none := by
  rw [Dev.rxError]
  rw [if_neg (Nat.not_lt.2 hmax), if_neg (Nat.not_lt.2 hmin), if_pos hfcs]

/-- A frame too short, or with a wrong FCS, has an error of its own event; none of them is one of the FEC codewords'. -/
theorem Dev.rxError_bad (d : Dev) (p : Nat) {octets : List Byte}
    (h : octets.length < 64 ∨ octets.drop (octets.length - 4) ≠ fcs (octets.take (octets.length - 4))) :
    ∃ k, d.rxError p octets none = some k ∧ k < 22 := by
  rw [Dev.rxError]
  split
  · exact ⟨_, rfl, by decide⟩
  · split
    · exact ⟨_, rfl, by decide⟩
    · next hlong =>
      rw [if_neg (h.resolve_left hlong)]
      split
      · exact ⟨_, rfl, by decide⟩
      · exact ⟨_, rfl, by decide⟩

/-- A frame in error on an Ethernet port, its head cell not complete, is counted and nothing else. -/
theorem Dev.badFrame_short {d : Dev} {p : Nat} (hp : p < 64) (hisz : d.isazu p = false) (cls k : Nat) {f : Machine.Frame}
    (h : f.octets.length < 256) : d.badFrame p cls k f = d.count (portCtr p k) := by
  have hkept : (d.keptOctets p f.octets).length < 256 := Nat.lt_of_le_of_lt (List.length_take_le' _ _) h
  have hisz' : ¬ (d.count (portCtr p k)).isazu p = true := by
    rw [(d.frame_count (r := [R.PC_ALARM]) _ _ [] (by simp)).isazu_below hp, hisz]
    exact Bool.false_ne_true
  rw [Dev.badFrame, if_pos hkept, Dev.creditReturn]
  exact if_neg hisz'

theorem Dev.frame_awaitPipe (d : Dev) (f : Machine.Frame) (r : List Nat) : d.Frame (d.awaitPipe f) [.sw] r :=
  d.frame_sw _ r (by simp)

theorem Dev.frame_countRx (d : Dev) (p n : Nat) : d.Frame (d.countRx p n) [] [R.PC_ALARM] :=
  (d.frame_count _ _ _ (by simp)).trans (Dev.frame_count _ _ _ _ (by simp))

/-- A good frame waits for the spreader, outside a loss of ROOT lock. -/
theorem Dev.inject_waits {d : Dev} (f : Machine.Frame) (hf : d.inFault = false) :
    d.inject f = (d.countRx f.port f.octets.length).awaitPipe f := by
  have hf' := (d.frame_countRx f.port f.octets.length).inFault_below.trans hf
  simp [Dev.inject, Dev.arrive, hf']

theorem good_frame_waits {s : State} (p : Fin 64) {octets : List Byte} (start : StartSymbol) (age symbols : Nat) (hs : s.Up)
    (heth : s.dev.ethernet p = true) (hcarry : s.dev.carrying p = true) (hpair : s.dev.isPairPort p = false)
    (herr : s.dev.rxError p octets none = none) (hf : s.dev.inFault = false) (hmac : macControl octets = none) :
    Answers (.frameReceived p octets none start age symbols) s (fun e =>
      e.sw.arrive = s.dev.sw.arrive ++ [{ s.dev.rxFrame p octets start age symbols with id := s.dev.sw.nextId }] ∧
      s.dev.Frame e [.sw] [R.PC_ALARM]) := by
  have hcount := s.dev.frame_codewordsCounted p start
  have hboth := hcount.trans (Dev.frame_countRx _ p octets.length)
  refine answers_frameReceived hs heth hcarry hpair ?_
  rw [Dev.frameMade_good (f := s.dev.rxFrame p octets start age symbols) _ ((hcount.rxError_below p.isLt _ _).trans herr) hmac,
    Dev.inject_waits _ (hcount.inFault_below.trans hf)]
  refine ⟨?_, Dev.Frame.settle ((hboth.mono (by simp) (List.Subset.refl _)).trans (Dev.frame_awaitPipe _ _ _))⟩
  rw [Dev.settle_sw, ← hboth.sw_eq (by decide)]
  rfl

theorem bad_frame_counted {s : State} (p : Fin 64) {octets : List Byte} (start : StartSymbol) (age symbols : Nat) (hs : s.Up)
    (heth : s.dev.ethernet p = true) (hcarry : s.dev.carrying p = true) (hpair : s.dev.isPairPort p = false)
    (hshort : octets.length < 256)
    (hbad : octets.length < 64 ∨ octets.drop (octets.length - 4) ≠ fcs (octets.take (octets.length - 4))) :
    Answers (.frameReceived p octets none start age symbols) s (fun e =>
      e.sw = s.dev.sw ∧ s.dev.Frame e [] [R.PC_ALARM] ∧
      ∃ k, s.dev.rxError p octets none = some k ∧
        (sGet Ctr.zero e.pc.ctrs (portCtr p k)).value = (sGet Ctr.zero s.dev.pc.ctrs (portCtr p k)).value + 1) := by
  obtain ⟨k, herr, hk⟩ := s.dev.rxError_bad p hbad
  have hcount := s.dev.frame_codewordsCounted p start
  have hframe := (hcount.trans (Dev.frame_count _ (portCtr p k) 1 _ (by simp))).settle
  have hne {j : Nat} (hj : 22 ≤ j) : portCtr p k ≠ portCtr p j := by simp only [portCtr]; omega
  refine answers_frameReceived hs heth hcarry hpair ?_
  rw [Dev.frameMade_bad (f := s.dev.rxFrame p octets start age symbols) _ ((hcount.rxError_below p.isLt _ _).trans herr),
    Dev.badFrame_short p.isLt ((hcount.isazu_below p.isLt).trans (Dev.not_isazu_of_ethernet heth)) _ k hshort]
  refine ⟨hframe.sw_eq (by decide), hframe, k, herr, ?_⟩
  rw [Dev.ctr_settle, Dev.ctr_count_one, Dev.codewordsCounted, Dev.ctr_count_ne _ _ (hne (by decide)),
    Dev.ctr_count_ne _ _ (hne (by decide))]

/-! Flow control (R109, R237). -/

/-- The classes of port p paused after a flow-control frame. -/
def Dev.pausedAfter (d : Dev) (p : Nat) (classes : BitVec 8) (quanta : List (BitVec 16)) : Nat :=
  (List.range 8).foldl (fun m c => if (if bit classes.toNat c then decide (0 < (quanta.getD c 0).toNat)
    else bit (sGet 0 d.sw.paused p) c) then m + 2 ^ c else m) 0

theorem Dev.bit_pausedAfter (d : Dev) (p : Nat) (classes : BitVec 8) (quanta : List (BitVec 16)) (c : Fin 8) :
    bit (d.pausedAfter p classes quanta) c = (if bit classes.toNat c then decide (0 < (quanta.getD c 0).toNat)
      else bit (sGet 0 d.sw.paused p) c) :=
  (testBit_foldl_mask _ 8).2 c c.isLt

/-- A port that obeys PFC takes the frame. -/
theorem Dev.pfcTake_obeyed {d : Dev} {p : Nat} (classes : BitVec 8) (quanta : List (BitVec 16)) (heth : d.ethernet p = true)
    (hcarry : d.carrying p = true) (hfc : d.fld (R.LK_ETH_CFG p) F.LK_ETH_CFG_fc = 2) :
    d.pfcTake p true classes quanta = (d.count (portCtr p 20)).setPaused p (d.pausedAfter p classes quanta) := by
  simp only [Dev.pfcTake, heth, hcarry, hfc, Bool.not_true, Bool.or_self, Bool.false_eq_true, if_false, beq_self_eq_true,
    bne_self_eq_false, Bool.false_or, if_true]
  rfl

/-- What a PFC frame does to a device whose counters have moved: the classes named follow their quanta. -/
theorem Dev.Frame.pfc_obeyed {d e : Dev} (h : d.Frame e [] [R.PC_ALARM]) {p : Nat} (hp : p < 64) (classes : BitVec 8)
    (quanta : List (BitVec 16)) (heth : d.ethernet p = true) (hcarry : d.carrying p = true)
    (hfc : d.fld (R.LK_ETH_CFG p) F.LK_ETH_CFG_fc = 2) :
    d.Frame (e.pfcTake p true classes quanta).settle [.sw] [R.PC_ALARM] ∧
      (e.pfcTake p true classes quanta).settle.sw.arrive = d.sw.arrive ∧
      ∀ c : Fin 8, bit (sGet 0 (e.pfcTake p true classes quanta).settle.sw.paused p) c =
        (if bit classes.toNat c then decide (0 < (quanta.getD c 0).toNat) else bit (sGet 0 d.sw.paused p) c) := by
  have hcount := h.trans (e.frame_count (portCtr p 20) 1 _ (by simp))
  have hsw : e.sw = d.sw := h.sw_eq (by decide)
  rw [Dev.pfcTake_obeyed classes quanta ((h.ethernet_below hp).trans heth) ((h.carrying_below hp).trans hcarry)
    ((h.fc_below hp).trans hfc), Dev.settle_sw]
  refine ⟨?_, (congrArg Sw.arrive (hcount.sw_eq (by decide)) :), fun c => ?_⟩
  · exact ((hcount.mono (by simp) (List.Subset.refl _)).trans (Dev.frame_sw _ _ _ (by simp))).settle
  · rw [← hsw, ← e.bit_pausedAfter]
    exact congrArg (bit · c) (sGet_sPut_same _ _ _ _)

theorem pfc_frame_consumed {s : State} (p : Fin 64) {octets : List Byte} (start : StartSymbol) (age symbols : Nat) (hs : s.Up)
    (heth : s.dev.ethernet p = true) (hcarry : s.dev.carrying p = true) (hpair : s.dev.isPairPort p = false)
    (herr : s.dev.rxError p octets none = none) (classes : BitVec 8) (quanta : List (BitVec 16))
    (hmac : macControl octets = some (true, classes, quanta)) (hfc : s.dev.fld (R.LK_ETH_CFG p) F.LK_ETH_CFG_fc = 2) :
    Answers (.frameReceived p octets none start age symbols) s (fun e =>
      s.dev.Frame e [.sw] [R.PC_ALARM] ∧ e.sw.arrive = s.dev.sw.arrive ∧
      ∀ c : Fin 8, bit (sGet 0 e.sw.paused p) c =
        (if bit classes.toNat c then decide (0 < (quanta.getD c 0).toNat) else bit (sGet 0 s.dev.sw.paused p) c)) := by
  have hcount := s.dev.frame_codewordsCounted p start
  refine answers_frameReceived hs heth hcarry hpair ?_
  rw [Dev.frameMade_control (f := s.dev.rxFrame p octets start age symbols) _ ((hcount.rxError_below p.isLt _ _).trans herr) hmac]
  exact hcount.pfc_obeyed p.isLt classes quanta heth hcarry hfc

theorem pfc_received {s : State} (p : Fin 64) (c : Fin 8) (classes : BitVec 8) (quanta : List (BitVec 16)) (hs : s.Up)
    (heth : s.dev.ethernet p = true) (hcarry : s.dev.carrying p = true)
    (hfc : s.dev.fld (R.LK_ETH_CFG p) F.LK_ETH_CFG_fc = 2) :
    Answers (.pfcReceived p true classes quanta) s (fun e =>
      s.dev.Frame e [.sw] [R.PC_ALARM] ∧
      bit (sGet 0 e.sw.paused p) c =
        (if bit classes.toNat c then decide (0 < (quanta.getD c 0).toNat) else bit (sGet 0 s.dev.sw.paused p) c)) := by
  obtain ⟨hframe, -, hpaused⟩ := (Dev.Frame.refl s.dev [] [R.PC_ALARM]).pfc_obeyed p.isLt classes quanta heth hcarry hfc
  exact .of_running (f := fun d => d.pfcTake p true classes quanta) hs rfl ⟨hframe, hpaused c⟩

theorem pause_expired {s : State} (p : Fin 64) (c : Fin 8) (hs : s.Up) (h : bit (sGet 0 s.dev.sw.paused p) c = true) :
    Answers (.pauseExpiry p c) s (fun e => s.dev.Frame e [.sw] [] ∧ bit (sGet 0 e.sw.paused p) c = false) := by
  refine .of_running hs (show execPauseExpiry p c s = running s _ from rfl) ?_
  dsimp only
  rw [if_pos h, Dev.settle_sw]
  refine ⟨(s.dev.frame_sw _ _ (by simp)).settle, ?_⟩
  exact (congrArg (bit · c) (sGet_sPut_same _ _ _ _)).trans (testBit_sub_two_pow h)

/-- The flow-control frame of a port that obeys PFC, with no class released. -/
theorem Dev.pfcSend_now {d : Dev} {p : Nat} (heth : d.ethernet p = true) (hcarry : d.carrying p = true)
    (hidle : d.txIdle p = false) (hrun : d.txRun p = none) (hdue : sGet none d.sw.fcDue p = none)
    (hfc : d.fld (R.LK_ETH_CFG p) F.LK_ETH_CFG_fc = 2) :
    d.pfcSend p [] = (d.count (portCtr p 19)).emit (.pfc p (d.port p).mac (d.xoff p)
      ((List.range 8).map fun c => if bit (d.xoff p) c then 0xFFFF else 0)) := by
  simp [Dev.pfcSend, Dev.pfcEmit, heth, hcarry, hidle, hrun, hdue, hfc]

theorem pfc_refreshed {s : State} (p : Fin 64) (hs : s.Up) (heth : s.dev.ethernet p = true)
    (hcarry : s.dev.carrying p = true) (hxoff : s.dev.xoff p ≠ 0) (hfc : s.dev.fld (R.LK_ETH_CFG p) F.LK_ETH_CFG_fc = 2)
    (hrun : s.dev.txRun p = none) (hdue : sGet none s.dev.sw.fcDue p = none) (hidle : s.dev.txIdle p = false) :
    Answers (.pfcRefresh p) s (fun e =>
      s.dev.Frame e [] [R.PC_ALARM] ∧
      ∃ xs, e.out = xs ++ .pfc p (s.dev.port p).mac (s.dev.xoff p)
        ((List.range 8).map fun c => if bit (s.dev.xoff p) c then 0xFFFF else 0) :: s.dev.out) := by
  refine .of_running (f := fun d => if d.xoff p = 0 then d else d.pfcSend p []) hs rfl ?_
  rw [if_neg hxoff, Dev.pfcSend_now heth hcarry hidle hrun hdue hfc]
  refine ⟨((s.dev.frame_count _ _ _ (by simp)).trans (Dev.frame_emit _ _ _ _)).settle, ?_⟩
  obtain ⟨xs, hout⟩ := Dev.out_settle_append ((s.dev.count (portCtr p 19)).emit (.pfc p (s.dev.port p).mac (s.dev.xoff p)
    ((List.range 8).map fun c => if bit (s.dev.xoff p) c then 0xFFFF else 0)))
  exact ⟨xs, by rw [hout, Dev.emit, Dev.out_count]⟩

/-! Credit (R240). -/

theorem Dev.credit_setCredit_same (d : Dev) (p c : Nat) (x : Credit) : (d.setCredit p c x).credit p c = x :=
  sGet_sPut_same _ _ _ _

theorem Dev.credit_setCredit_ne (d : Dev) (p : Nat) {b c : Nat} (x : Credit) (h : b ≠ c) :
    (d.setCredit p c x).credit p b = d.credit p b :=
  sGet_sPut_ne _ _ _ _ (by simp only [pcKey]; omega)

/-- A step that gives the credit of each class of a port anew, class by class. -/
theorem Dev.credit_foldl_setCredit (d : Dev) (p : Nat) (f : Credit → Nat → Credit) (n c : Nat) :
    ((List.range n).foldl (fun d c => d.setCredit p c (f (d.credit p c) c)) d).credit p c =
      if c < n then f (d.credit p c) c else d.credit p c := by
  induction n with
  | zero => rfl
  | succ n ih =>
    rw [List.range_succ, List.foldl_append, List.foldl_cons, List.foldl_nil]
    by_cases h : c = n
    · subst h
      rw [Dev.credit_setCredit_same, ih, if_neg (Nat.lt_irrefl c), if_pos (Nat.lt_succ_self c)]
    · rw [Dev.credit_setCredit_ne _ _ _ h, ih]
      exact if_congr (by omega) rfl rfl

@[simp] theorem Dev.credit_settle (d : Dev) (p c : Nat) : d.settle.credit p c = d.credit p c := by simp [Dev.credit]

theorem credit_received {s : State} (p : Fin 64) (c : Fin 8) (counts : BitVec 128) (hs : s.Up) (hf : s.dev.inFault = false)
    (hisz : s.dev.isazu p = true) (hup : s.dev.linkUp p = true) :
    Answers (.creditBlock p counts) s (fun e => s.dev.Frame e [.sw] [] ∧
      e.credit p c = { s.dev.credit p c with partner := bits counts.toNat (127 - 16 * c) (112 - 16 * c) }) := by
  refine .of_running hs (show execCreditBlock p counts s = running s _ from rfl) ?_
  dsimp only
  rw [if_neg (by simp [hisz, hup, hf])]
  refine ⟨(Dev.Frame.foldl (fun d _ => d.frame_sw _ _ (by simp)) _ _).settle, ?_⟩
  rw [Dev.credit_settle]
  exact (s.dev.credit_foldl_setCredit p (fun x c => { x with partner := bits counts.toNat (127 - 16 * c) (112 - 16 * c) })
    8 c).trans (if_pos c.isLt)

theorem credit_sent {s : State} (p : Fin 64) (hs : s.Up) (hinv : s.Inv) (hf : s.dev.inFault = false)
    (hisz : s.dev.isazu p = true) (hon : s.dev.portOn p = true) (hup : s.dev.linkUp p = true)
    (hidle : s.dev.txIdle p = false) (hresync : s.dev.ps.resync = false) :
    Answers (.creditBlockSend p) s (fun e => s.dev.Frame e [.ports] [] ∧
      e.out = .credit p ((List.range 8).map fun c => (s.dev.credit p c).granted) :: s.dev.out) := by
  have hfilled := Dev.frame_ite (c := s.dev.framed3 p = true)
    (s.dev.frame_setPort (p := [.ports]) p { s.dev.port p with filled := (s.dev.port p).filled + 1 } [] (by simp))
    (.refl s.dev _ _)
  refine .of_running hs (show execCreditBlockSend p s = running s _ from rfl) ?_
  dsimp only
  rw [if_neg (by simp [hisz, hup, hon, hf, hidle, hresync])]
  refine ⟨(hfilled.trans (Dev.frame_emit _ _ _ _)).settle, ?_⟩
  split
  · exact Dev.out_settle _ hinv.2.1 hinv.2.2
  · exact Dev.out_settle _ hinv.2.1 hinv.2.2

/-- Settles O11, clause by clause. -/
theorem portTraffic : Obligations.PortTraffic := by
  refine ⟨fun s p octets start age symbols hs heth hcarry hpair => ⟨fun hmin hmax hfcs hf => ?_, ?_⟩,
    fun s p c counts classes quanta hs hinv hf hcarry => ⟨fun hisz => ?_, fun heth => ?_⟩⟩
  · have herr := Dev.rxError_good hmin hmax hfcs
    exact ⟨pfc_frame_consumed p start age symbols hs heth hcarry hpair herr,
      good_frame_waits p start age symbols hs heth hcarry hpair herr hf⟩
  · exact bad_frame_counted p start age symbols hs heth hcarry hpair
  · obtain ⟨hon, hup⟩ := portOn_linkUp_of_carrying hcarry
    exact ⟨credit_received p c counts hs hf hisz hup, credit_sent p hs hinv hf hisz hon hup⟩
  · exact ⟨pfc_received p c classes quanta hs heth hcarry, pause_expired p c hs,
      fun hxoff hfc hrun hdue hidle => pfc_refreshed p hs heth hcarry hxoff hfc hrun hdue hidle⟩

end Sys2Proof.Machine
end

section
/-! PROOF of O12, refuted. A management block sent takes the framing counter over the data positions before its own, and a frame
in transmission sends its blocks there: the switch core does not stay as it was (R117, R118, R120). -/

namespace Sys2Proof.Machine

theorem Dev.frame_delayPartTo (d : Dev) (n tx : Nat) (r : List Nat) : d.Frame (d.delayPartTo n tx).2 [.lanes] r :=
  d.frame_setLane n _ r (by simp)

/-- A management block leaves, and its lane keeps its sequence number and its instant. -/
def Dev.sendMgmt (d : Dev) (p i tx : Nat) (body : Nat × Nat) : Dev :=
  (d.delayPartTo (p + i) tx).2.emit (.mgmtBlock p i (mgmtBlockOf body.1 (d.delayPartTo (p + i) tx).1 body.2))

theorem Dev.frame_sendMgmt (d : Dev) (p i tx : Nat) (body : Nat × Nat) (r : List Nat) :
    d.Frame (d.sendMgmt p i tx body) [.lanes] r :=
  (d.frame_delayPartTo _ _ r).trans (Dev.frame_emit _ _ _ r)

/-- Where the framing counter does not stand at a management position, it moves on to the next. -/
theorem Dev.txRun_mgmtPosition {d : Dev} {p : Nat} (i : Nat) (h : (d.port p).c % 4096 ≠ 2048) :
    (d.mgmtPosition p i).txRun p = (d.advanceTo p (nextAt 4096 2048 (d.port p).c)).txRun p := by
  have hnot : ¬((d.port p).c % 4096 = 2048 ∧ (!(d.port p).sentAt.contains i) = true) := fun hc => h hc.1
  rw [Dev.mgmtPosition, if_neg hnot]
  exact (Dev.frame_setPort (p := [.ports]) _ p _ [] (by simp)).txRun_eq (by decide) p

theorem Dev.frame_mgmtPosition (d : Dev) (p i : Nat) : d.Frame (d.mgmtPosition p i) [.ports, .sw] [] :=
  (Dev.frame_ite (.refl d _ _) (d.frame_advanceTo p _)).trans (Dev.frame_setPort _ p _ _ (by simp))

/-- Outside CAPEX, with the link not up, a block has no body. -/
theorem Dev.bodyToSend_none {d : Dev} {p : Nat} (i : Nat) (hcapex : d.allLanes p 5 = false) (hdown : d.linkUp p = false) :
    d.bodyToSend p i = ((0, 0), d) := by
  simp [Dev.bodyToSend, hcapex, hdown]

theorem Dev.Frame.portLanes_eq {d e : Dev} {ps : List Part} {r : List Nat} (h : d.Frame e ps r) {p : Nat}
    (hp : R.LK_PORT_CFG p ∉ r) : e.portLanes p = d.portLanes p := by
  rw [Dev.portLanes, Dev.portLanes, h.fld_eq hp]

theorem Dev.Frame.bodyToSend_none {d e : Dev} {ps : List Part} (h : d.Frame e ps []) {p : Nat} (i : Nat)
    (hcapex : d.allLanes p 5 = false) (hdown : d.linkUp p = false) : e.bodyToSend p i = ((0, 0), e) := by
  have hbringup (n : Nat) : e.bringup n = d.bringup n := h.fld_eq (by simp) _
  refine Dev.bodyToSend_none i ?_ ((h.flag_eq (by simp) _).trans hdown)
  simpa only [Dev.allLanes, h.portLanes_eq (p := p) (by simp), hbringup] using hcapex

/-- The instant at which a block that leaves now passes lane n's transmitter. -/
def Dev.leavesAt (d : Dev) (n : Nat) : Nat := t48Add d.now (d.reg (R.LN_TX_DELAY n)).toNat

theorem exec_managementBlockSend_no_body {s : State} {p : Fin 64} (hs : s.Up) (hisz : s.dev.isazu p = true)
    (hframing : s.dev.framing3 p = true) (hlanes : 0 < s.dev.portLanes p) (hidle : s.dev.txIdle p = false)
    (hcapex : s.dev.allLanes p 5 = false) (hdown : s.dev.linkUp p = false) :
    exec (.managementBlockSend p 0) s =
      .next { s with dev := ((s.dev.mgmtPosition p 0).sendMgmt p 0 (s.dev.leavesAt p) (0, 0)).settle } := by
  have hrate : ¬ 3 ≤ s.dev.rateNow p := by
    simp only [Dev.framing3, Bool.and_eq_true, decide_eq_true_eq] at hframing
    omega
  have hbody : (s.dev.mgmtPosition p 0).bodyToSend p 0 = ((0, 0), s.dev.mgmtPosition p 0) :=
    (s.dev.frame_mgmtPosition p 0).bodyToSend_none 0 hcapex hdown
  have hlanes' : ¬ s.dev.portLanes p ≤ 0 := by omega
  refine (show execManagementBlockSend p 0 s = running s _ from rfl).trans ((running_next hs.1.1 hs.1.2 hs.2).trans ?_)
  simp only [Fin.val_zero, Nat.add_zero, hlanes', hisz, hidle, hrate, hframing, hbody, decide_false, Bool.not_true,
    Bool.or_self, Bool.false_eq_true, if_false]
  rfl

/-- A frame in transmission goes on at the data positions before the block. -/
theorem Dev.txRun_sendMgmt {d : Dev} {p : Nat} (i tx : Nat) (body : Nat × Nat) (h : (d.port p).c % 4096 ≠ 2048) :
    ((d.mgmtPosition p i).sendMgmt p i tx body).settle.txRun p =
      (d.txRun p).map (·.past (d.blocksDue p (nextAt 4096 2048 (d.port p).c))) := by
  rw [((Dev.frame_sendMgmt _ p i tx body []).settle).txRun_eq (by decide), Dev.txRun_mgmtPosition i h,
    Dev.txRun_advanceTo]

/-- Lane 0, the only one of port 0, is in SYMLOCK again after the loss of its link, with the frame that was in transmission not
ended yet. -/
def symlockState : State :=
  { pending := []
    dev := (sendingDev [(R.LK_PORT_CFG 0, F.LK_PORT_CFG_width, 1), (R.LK_PORT_CTRL 0, F.LK_PORT_CTRL_state, enOn),
        (R.LN_CTRL 0, F.LN_CTRL_state, enOn), (R.LN_STATUS 0, F.LN_STATUS_bringup, 4)]).setLane 0
      { Lane.reset with port := some 0, width := 1 } }

/-- The block's position lies 2,047 data positions on, and the END block goes at the first of them. -/
theorem txRun_symlockState (tx : Nat) :
    ((symlockState.dev.mgmtPosition 0 0).sendMgmt 0 0 tx (0, 0)).settle.txRun 0 = some (endLeft.past 2047) := by
  have hrun : symlockState.dev.txRun 0 = some endLeft := by decide +kernel
  have hdue : symlockState.dev.blocksDue 0 (nextAt 4096 2048 (symlockState.dev.port 0).c) = 2047 := by decide +kernel
  rw [Dev.txRun_sendMgmt 0 tx _ (by decide +kernel), hrun, hdue]
  rfl

/-- Refutes O12: a management block sent changes more than the port and its lane where a frame is in transmission. -/
theorem not_linkDelay : ¬ Obligations.LinkDelay := by
  intro h
  have hs : symlockState.Up := by decide +kernel
  have hisz : symlockState.dev.isazu (0 : Fin 64) = true := by decide +kernel
  have hframing : symlockState.dev.framing3 (0 : Fin 64) = true := by decide +kernel
  have hlanes : 0 < symlockState.dev.portLanes (0 : Fin 64) := by decide +kernel
  have hidle : symlockState.dev.txIdle (0 : Fin 64) = false := by decide +kernel
  have hcapex : symlockState.dev.allLanes (0 : Fin 64) 5 = false := by decide +kernel
  have hdown : symlockState.dev.linkUp (0 : Fin 64) = false := by decide +kernel
  obtain ⟨-, hsend, -⟩ := h symlockState 0 0 0 0 { fwdSum := 0, fwdN := 0, revSum := 0, revN := 0, spoilt := false } 0 hs
    (by decide +kernel) hisz
  obtain ⟨t, ht, -, hframe, -⟩ := hsend hframing hlanes hidle hcapex hdown
  rw [exec_managementBlockSend_no_body hs hisz hframing hlanes hidle hcapex hdown] at ht
  cases ht
  have hkept : ((symlockState.dev.mgmtPosition 0 0).sendMgmt 0 0 (symlockState.dev.leavesAt 0) (0, 0)).settle.txRun 0 =
      symlockState.dev.txRun 0 := hframe.txRun_eq (by decide) 0
  rw [txRun_symlockState] at hkept
  exact absurd hkept (by decide +kernel)

end Sys2Proof.Machine
end

section
/-! SUPPORT of the time core's statements (O13, O14, O15, O16). What keeps the time core: its hidden state and the registers of
its block; what a change of validity makes of them, and of the parts of TC_STATUS that it does not change (R147). -/

namespace Sys2Proof.Machine

/-! What keeps the time core. -/

/-- The time core is the same in `e` as in `d`: its hidden state, and the registers of its block. -/
structure Dev.KeepsTime (d e : Dev) : Prop where
  tc  : e.tc = d.tc
  reg : ∀ o, o / 0x10000 = 2 → e.reg o = d.reg o

theorem Dev.KeepsTime.refl (d : Dev) : d.KeepsTime d := ⟨rfl, fun _ _ => rfl⟩

theorem Dev.KeepsTime.trans {d e f : Dev} (h : d.KeepsTime e) (h' : e.KeepsTime f) : d.KeepsTime f :=
  ⟨h'.tc.trans h.tc, fun o ho => (h'.reg o ho).trans (h.reg o ho)⟩

theorem Dev.KeepsTime.foldl {α : Type} {g : Dev → α → Dev} (hg : ∀ (d : Dev) (x : α), d.KeepsTime (g d x))
    (xs : List α) (d : Dev) : d.KeepsTime (xs.foldl g d) := by
  induction xs generalizing d with
  | nil => exact .refl d
  | cons x xs ih => exact (hg d x).trans (ih (g d x))

theorem Dev.KeepsTime.ite {a b d : Dev} {c : Prop} [Decidable c] (ha : d.KeepsTime a) (hb : d.KeepsTime b) :
    d.KeepsTime (if c then a else b) := by
  split
  · exact ha
  · exact hb

theorem Dev.Frame.tc_eq {d e : Dev} {p : List Part} {r : List Nat} (h : d.Frame e p r) (hp : Part.tc ∉ p) : e.tc = d.tc :=
  h.1 .tc hp

/-- A frame without the time core's hidden state and registers. -/
theorem Dev.Frame.keepsTime {d e : Dev} {p : List Part} {r : List Nat} (h : d.Frame e p r) (hp : Part.tc ∉ p)
    (hr : ∀ o ∈ r, o / 0x10000 ≠ 2) : d.KeepsTime e :=
  ⟨h.tc_eq hp, fun o ho => h.reg_eq fun hm => hr o hm ho⟩

theorem Dev.KeepsTime.fld {d e : Dev} (h : d.KeepsTime e) {o : Nat} (ho : o / 0x10000 = 2) (f : Field) :
    e.fld o f = d.fld o f := by
  rw [Dev.fld, Dev.fld, h.reg o ho]

theorem Dev.KeepsTime.flag {d e : Dev} (h : d.KeepsTime e) {o : Nat} (ho : o / 0x10000 = 2) (f : Field) :
    e.flag o f = d.flag o f := by
  rw [Dev.flag, Dev.flag, h.fld ho]

theorem Dev.KeepsTime.validity {d e : Dev} (h : d.KeepsTime e) : e.validity = d.validity := h.fld (by decide) _
theorem Dev.KeepsTime.timeValid {d e : Dev} (h : d.KeepsTime e) : e.timeValid = d.timeValid := h.flag (by decide) _
theorem Dev.KeepsTime.te {d e : Dev} (h : d.KeepsTime e) : e.te = d.te := h.fld (by decide) _
theorem Dev.KeepsTime.now {d e : Dev} (h : d.KeepsTime e) : e.now = d.now := by rw [Dev.now, Dev.now, h.tc]

theorem Dev.keepsTime_count (d : Dev) (n k : Nat) : d.KeepsTime (d.count n k) :=
  (d.frame_count (p := []) (r := [R.PC_ALARM]) n k (by simp)).keepsTime (by simp) (by decide)

theorem Dev.keepsTime_record (d : Dev) (typ : Nat) (body : List Byte) : d.KeepsTime (d.record typ body) :=
  (d.frame_record (p := [.log]) (r := logRegs) typ body (by decide) (List.Subset.refl _)).keepsTime (by decide) (by decide)

/-! What the end of a command keeps of the time core. -/

@[simp] theorem Dev.te_settle (d : Dev) : d.settle.te = d.te := by simp [Dev.te]
@[simp] theorem Dev.validity_settle (d : Dev) : d.settle.validity = d.validity := by simp [Dev.validity]
@[simp] theorem Dev.timeValid_settle (d : Dev) : d.settle.timeValid = d.timeValid := by simp [Dev.timeValid]

/-! What starts and stops with TIME_VALID keeps the time core (R175, R186, R214, R382). -/

/-- A step over all channels keeps the time core when it does so at each of them. -/
theorem Dev.keepsTime_forChans {g : Dev → Nat → Dev} (hg : ∀ (d : Dev) (c : Nat), d.KeepsTime (g d c)) (d : Dev) :
    d.KeepsTime (d.forChans g) := Dev.KeepsTime.foldl hg _ d

theorem Dev.keepsTime_edgeTimeFall (d : Dev) : d.KeepsTime d.edgeTimeFall :=
  (d.frame_edgeTimeFall (p := [.chans]) [] (by simp)).keepsTime (by decide) (by simp)

theorem Dev.keepsTime_trigTimeFall (d : Dev) : d.KeepsTime d.trigTimeFall :=
  (d.frame_trigTimeFall (p := [.tg]) (r := [R.PC_ALARM]) (by simp) (by simp)).keepsTime (by decide) (by decide)

/-- The registers of an edge channel lie in its block, whatever its number. -/
theorem chan_reg_not_time (c : Nat) : (∀ o ∈ [R.EC_DTC_LATE c, R.EC_ALARM c, R.PC_ALARM], o / 0x10000 ≠ 2) ∧
    R.EC_STATUS c / 0x10000 ≠ 2 := by
  simp only [List.mem_cons, List.not_mem_nil, or_false, forall_eq_or_imp, forall_eq, R.EC_DTC_LATE, R.EC_ALARM, R.PC_ALARM,
    R.EC_STATUS]
  omega

theorem Dev.keepsTime_makeDue (d : Dev) (c lead : Nat) (g : DtcEntry → Bool) : d.KeepsTime (d.makeDue c lead g) :=
  (d.frame_makeDue (p := [.chans]) (r := [R.EC_DTC_LATE c, R.EC_ALARM c, R.PC_ALARM]) c lead g (by simp) (by simp) (by simp)
    (by simp)).keepsTime (by decide) (chan_reg_not_time c).1

theorem Dev.keepsTime_setChan (d : Dev) (c : Nat) (x : Chan) : d.KeepsTime (d.setChan c x) := ⟨rfl, fun _ _ => rfl⟩

theorem Dev.keepsTime_edgeTimeRise (d : Dev) : d.KeepsTime d.edgeTimeRise := by
  refine Dev.keepsTime_forChans (fun d c => ?_) d
  refine .ite ((d.frame_deadClose (p := [.chans]) c 2 [] (by simp)).keepsTime (by decide) (by simp)) (.ite (.refl d) ?_)
  exact (d.keepsTime_setChan c _).trans (Dev.keepsTime_makeDue _ c _ _)

theorem Dev.keepsTime_makeLate (d : Dev) (g : PendDec → Bool) : d.KeepsTime (d.makeLate g) := by
  have hmarked (x : Tg) : d.KeepsTime { d with tg := x } := ⟨rfl, fun _ _ => rfl⟩
  unfold Dev.makeLate
  refine (hmarked _).trans (.foldl (fun d _ => ?_) _ _)
  exact (((d.frame_addSat (r := [R.TG_LATE, R.TG_ALARM, R.PC_ALARM]) _ _ [] (by simp)).trans
    (Dev.frame_raise _ _ [] (by simp))).trans (Dev.frame_count _ _ _ [] (by simp))).keepsTime (by simp) (by decide)

theorem Dev.keepsTime_setUnitRun (d : Dev) (u : Nat) (x : UnitRun) : d.KeepsTime (d.setUnitRun u x) :=
  ⟨rfl, fun _ _ => rfl⟩

theorem Dev.keepsTime_trigTimeRise (d : Dev) : d.KeepsTime d.trigTimeRise := by
  unfold Dev.trigTimeRise
  exact (Dev.KeepsTime.foldl (fun d x => d.keepsTime_setUnitRun _ _) _ d).trans (Dev.keepsTime_makeLate _ _)

theorem Dev.keepsTime_calAbort (d : Dev) : d.KeepsTime d.calAbort := by
  unfold Dev.calAbort
  split
  · next hop =>
    obtain ⟨o, ho⟩ := Option.isSome_iff_exists.1 hop
    have hend : d.Frame (d.opEnd 4) [.chans, .ca] [R.CA_STATUS, R.CA_ALARM, R.EC_STATUS o.target] :=
      d.frame_opEnd 4 (by simp) (by simp) (by simp) fun o' ho' => by simp [Option.some.inj (ho.symm.trans ho')]
    refine (hend.trans (Dev.frame_raise _ _ _ (by simp))).keepsTime (by decide) ?_
    simpa using ⟨by decide, by decide, (chan_reg_not_time o.target).2⟩
  · exact .refl d

/-! A change of validity (R147). -/

/-- TC_STATUS shows a validity state, and the level of TIME_VALID in it. -/
def Dev.showValidity (d : Dev) (st : Nat) : Dev :=
  (d.setFld R.TC_STATUS F.TC_STATUS_state st).setFlag R.TC_STATUS F.TC_STATUS_time_valid (decide (2 ≤ st))

/-- The validity state entered, before what starts or stops with TIME_VALID follows. -/
def Dev.validityEntered (d : Dev) (st : Nat) : Dev :=
  { d.showValidity st with tc := { d.tc with goodRun := 0, badRun := 0
                                             marks := if d.timeValid == decide (2 ≤ st) then d.tc.marks else d.marked 0 } }

theorem Dev.reg_validityEntered (d : Dev) (st o : Nat) : (d.validityEntered st).reg o = (d.showValidity st).reg o := rfl

theorem Dev.fld_validityEntered (d : Dev) (st o : Nat) (f : Field) :
    (d.validityEntered st).fld o f = (d.showValidity st).fld o f := by
  rw [Dev.fld, d.reg_validityEntered, ← Dev.fld]

theorem Dev.flag_validityEntered (d : Dev) (st o : Nat) (f : Field) :
    (d.validityEntered st).flag o f = (d.showValidity st).flag o f := by
  rw [Dev.flag, d.fld_validityEntered, ← Dev.flag]

/-- What follows a validity state keeps the time core. -/
theorem Dev.keepsTime_setValidity (d : Dev) (st : Nat) : (d.validityEntered st).KeepsTime (d.setValidity st) := by
  have hfall (e : Dev) : e.KeepsTime e.edgeTimeFall.trigTimeFall.calAbort :=
    (e.keepsTime_edgeTimeFall.trans (Dev.keepsTime_trigTimeFall _)).trans (Dev.keepsTime_calAbort _)
  have hrise (e : Dev) : e.KeepsTime e.edgeTimeRise.trigTimeRise :=
    e.keepsTime_edgeTimeRise.trans (Dev.keepsTime_trigTimeRise _)
  exact .ite (hfall _) (.ite (hrise _) (.refl _))

/-- The counter, what waits for it, and the parts of TC_STATUS that no change of validity moves are the same in `e` as in
`d`. -/
structure Dev.KeepsCounter (d e : Dev) : Prop where
  acc    : e.tc.acc = d.tc.acc
  expect : e.tc.expect = d.tc.expect
  step   : e.tc.step = d.tc.step
  te     : e.te = d.te
  busy   : e.flag R.TC_STATUS F.TC_STATUS_step_busy = d.flag R.TC_STATUS F.TC_STATUS_step_busy

theorem Dev.KeepsCounter.refl (d : Dev) : d.KeepsCounter d := ⟨rfl, rfl, rfl, rfl, rfl⟩

theorem Dev.KeepsCounter.trans {d e f : Dev} (h : d.KeepsCounter e) (h' : e.KeepsCounter f) : d.KeepsCounter f where
  acc := h'.acc.trans h.acc
  expect := h'.expect.trans h.expect
  step := h'.step.trans h.step
  te := h'.te.trans h.te
  busy := h'.busy.trans h.busy

theorem Dev.KeepsTime.keepsCounter {d e : Dev} (h : d.KeepsTime e) : d.KeepsCounter e where
  acc := by rw [h.tc]
  expect := by rw [h.tc]
  step := by rw [h.tc]
  te := h.te
  busy := h.flag (by decide) _

theorem Dev.keepsCounter_validityEntered (d : Dev) (st : Nat) : d.KeepsCounter (d.validityEntered st) where
  acc := rfl
  expect := rfl
  step := rfl
  te := by
    rw [Dev.te, d.fld_validityEntered, Dev.showValidity, Dev.setFlag, Dev.fld_setFld_clear _ _ _ _ _ (by decide),
      d.fld_setFld_clear _ _ _ _ (by decide), ← Dev.te]
  busy := by
    rw [d.flag_validityEntered, Dev.showValidity, Dev.setFlag, Dev.flag_setFld_clear _ _ _ _ _ (by decide),
      d.flag_setFld_clear _ _ _ _ (by decide)]

theorem Dev.keepsCounter_setValidity (d : Dev) (st : Nat) : d.KeepsCounter (d.setValidity st) :=
  (d.keepsCounter_validityEntered st).trans (d.keepsTime_setValidity st).keepsCounter

theorem Dev.validity_setValidity (d : Dev) {st : Nat} (h : st < 4) : (d.setValidity st).validity = st := by
  rw [(d.keepsTime_setValidity st).validity, Dev.validity, d.fld_validityEntered, Dev.showValidity, Dev.setFlag,
    Dev.fld_setFld_clear _ _ _ _ _ (by decide), d.fld_setFld_low _ _ _ ⟨by decide, by decide, h⟩]

theorem Dev.timeValid_setValidity (d : Dev) (st : Nat) : (d.setValidity st).timeValid = decide (2 ≤ st) := by
  rw [(d.keepsTime_setValidity st).timeValid, Dev.timeValid, d.flag_validityEntered]
  exact Dev.flag_setFlag_same _ _ _ _ (by decide)

/-- Of the registers of the time core a validity state has TC_STATUS alone. -/
theorem Dev.reg_setValidity (d : Dev) (st : Nat) {o : Nat} (ho : o / 0x10000 = 2) (hne : o ≠ R.TC_STATUS) :
    (d.setValidity st).reg o = d.reg o := by
  rw [(d.keepsTime_setValidity st).reg o ho, d.reg_validityEntered, Dev.showValidity, Dev.setFlag,
    Dev.reg_setFld_ne _ _ _ hne, d.reg_setFld_ne _ _ hne]

theorem Dev.flag_setValidity (d : Dev) (st : Nat) {o : Nat} (ho : o / 0x10000 = 2) (hne : o ≠ R.TC_STATUS) (f : Field) :
    (d.setValidity st).flag o f = d.flag o f := by
  rw [Dev.flag, Dev.flag, Dev.fld, Dev.fld, d.reg_setValidity st ho hne]

/-! An alarm of the time core. -/

theorem Dev.keepsCounter_raise_TC_ALARM (d : Dev) (f : Field) : d.KeepsCounter (d.raise R.TC_ALARM f) where
  acc := by rw [Dev.raise_tc]
  expect := by rw [Dev.raise_tc]
  step := by rw [Dev.raise_tc]
  te := d.fld_raise_ne f _ (by decide)
  busy := d.flag_raise_ne f _ (by decide)

@[simp] theorem Dev.validity_raise_TC_ALARM (d : Dev) (f : Field) : (d.raise R.TC_ALARM f).validity = d.validity :=
  d.fld_raise_ne f _ (by decide)

@[simp] theorem Dev.timeValid_raise_TC_ALARM (d : Dev) (f : Field) : (d.raise R.TC_ALARM f).timeValid = d.timeValid :=
  d.flag_raise_ne f _ (by decide)

theorem Dev.keepsCounter_validLost (d : Dev) : d.KeepsCounter d.validLost :=
  (d.keepsCounter_setValidity 1).trans (Dev.keepsCounter_raise_TC_ALARM _ _)

theorem Dev.validity_validLost (d : Dev) : d.validLost.validity = 1 :=
  (Dev.validity_raise_TC_ALARM _ _).trans (d.validity_setValidity (by decide))

theorem Dev.timeValid_validLost (d : Dev) : d.validLost.timeValid = false :=
  (Dev.timeValid_raise_TC_ALARM _ _).trans (d.timeValid_setValidity 1)

/-- The rows of R147 leave the counter alone. -/
theorem Dev.keepsCounter_validCheck (d : Dev) : d.KeepsCounter d.validCheck := by
  unfold Dev.validCheck Dev.holdReturn
  split
  · split
    · split
      · exact d.keepsCounter_setValidity 2
      · exact .refl d
    · split
      · exact .refl d
      · exact ⟨rfl, rfl, rfl, rfl, rfl⟩
  · split
    · exact d.keepsCounter_validLost
    · split
      · exact (d.keepsCounter_setValidity 3).trans (Dev.keepsCounter_raise_TC_ALARM _ _)
      · split
        · exact d.keepsCounter_setValidity 3
        · exact .refl d
  · split
    · exact d.keepsCounter_validLost
    · split
      · exact d.keepsCounter_setValidity 2
      · exact .refl d
  · exact .refl d

end Sys2Proof.Machine
end

section
/-! PROOF of O13. A TIME tick and the window decisions that it brings; the commit of TC_INCR; the latching read of TC_NOW
(R137–R139, R47, R425). -/

namespace Sys2Proof.Machine

/-! The window decisions of a tick (R169, R170). -/

/-- The registers that the window decision of channel c may touch. -/
def judgeRegsAt (c : Nat) : List Nat := [R.EC_REJECT c, R.EC_OVERFLOW c, R.EC_ALARM c]

section
variable {d : Dev} {p : List Part} {r : List Nat} {c : Nat}

theorem Dev.frame_enterMark (d : Dev) (c : Nat) (x : EdgeRec) (r : List Nat) (h : Part.chans ∈ p) :
    d.Frame (d.enterMark c x) p r := d.frame_setChan c _ r h

theorem Dev.frame_refuseEdge (d : Dev) (x : EdgeRec) (hp : Part.chans ∈ p) (h : judgeRegsAt c ⊆ r) (hpc : R.PC_ALARM ∈ r) :
    d.Frame (d.refuseEdge c x) p r :=
  (((d.frame_addSat _ _ p (h (by simp [judgeRegsAt]))).trans (Dev.frame_raise _ _ p (h (by simp [judgeRegsAt])))).trans
    (Dev.frame_count _ _ _ p hpc)).trans (Dev.frame_setChan _ c _ r hp)

theorem Dev.frame_acceptEdge (d : Dev) (x : EdgeRec) (hp : [.chans, .tg] ⊆ p) (h : judgeRegsAt c ⊆ r)
    (hpc : R.PC_ALARM ∈ r) : d.Frame (d.acceptEdge c x) p r := by
  have hcount : d.Frame (d.count (chanCtr c 0)) p r := d.frame_count _ _ p hpc
  have hchan (e : Dev) (y : Chan) : e.Frame (e.setChan c y) p r := e.frame_setChan c y r (hp (by simp))
  unfold Dev.acceptEdge
  dsimp only
  split
  · exact hcount.trans (Dev.frame_refuseEdge _ x (hp (by simp)) h hpc)
  · split
    · exact (hcount.trans (hchan _ _)).trans (Dev.frame_tg _ _ r (hp (by simp)))
    · exact hcount.trans (hchan _ _)

theorem Dev.frame_decideWait (d : Dev) (w : EdgeWait) (hp : [.chans, .tg] ⊆ p) (h : judgeRegsAt w.chan ⊆ r)
    (hpc : R.PC_ALARM ∈ r) : d.Frame (d.decideWait w) p r := by
  unfold Dev.decideWait Dev.judge
  split
  · split
    · exact d.frame_acceptEdge _ hp h hpc
    · exact (d.frame_addSat _ _ p (h (by simp [judgeRegsAt]))).trans (Dev.frame_count _ _ _ p hpc)
  · exact d.frame_enterMark _ _ r (hp (by simp))

end

/-- A fold of steps, each with one frame for the elements of the list. -/
theorem Dev.Frame.foldl_of_mem {α : Type} {g : Dev → α → Dev} {p : List Part} {r : List Nat} {xs : List α}
    (hg : ∀ (d : Dev), ∀ x ∈ xs, d.Frame (g d x) p r) (d : Dev) : d.Frame (xs.foldl g d) p r := by
  induction xs generalizing d with
  | nil => exact .refl d p r
  | cons x xs ih => exact (hg d x (by simp)).trans (ih (fun d y hy => hg d y (by simp [hy])) _)

theorem Dev.judgeRegsAt_subset (d : Dev) {w : EdgeWait} (h : w ∈ d.ec.waits) : judgeRegsAt w.chan ⊆ d.judgeRegs := by
  intro o ho
  exact List.mem_cons_of_mem _ (List.mem_flatMap.2 ⟨w, h, ho⟩)

/-- The edges whose wait is over reach their decisions: channels, trigger plane, and their registers. -/
theorem Dev.frame_decideDue (d : Dev) : d.Frame d.decideDue [.chans, .tg] d.judgeRegs := by
  refine (d.frame_ec { d.ec with waits := _ } d.judgeRegs (by simp)).trans (.foldl_of_mem (fun e w hw => ?_) _)
  exact e.frame_decideWait w (List.Subset.refl _) (d.judgeRegsAt_subset ((List.takeWhile_prefix _).subset hw))
    (by simp [Dev.judgeRegs])

/-- Where no edge waits, a tick brings no decision. -/
theorem Dev.decideDue_of_no_waits {d : Dev} (h : d.ec.waits = []) : d.decideDue = d := by
  have hec : { d.ec with waits := [] } = d.ec := by rw [← h]
  simp only [Dev.decideDue, h, List.takeWhile_nil, List.dropWhile_nil, List.foldl_nil, hec]

/-! A TIME tick (R137, R138). -/

theorem Dev.frame_tick (d : Dev) (r : List Nat) : d.Frame d.tick [.board, .tc, .ck] r := by
  refine ⟨fun u hu => ?_, fun _ _ => rfl⟩
  cases u <;> first | exact absurd (by decide) hu | simp [Dev.SamePart, Dev.tick]

theorem Dev.judgeRegs_tick (d : Dev) : d.tick.judgeRegs = d.judgeRegs := rfl

theorem Dev.frame_ticked (d : Dev) : d.Frame d.tick.decideDue [.board, .tc, .ck, .chans, .tg] d.judgeRegs :=
  ((d.frame_tick _).mono (by decide) (List.Subset.refl _)).trans
    ((d.judgeRegs_tick ▸ d.tick.frame_decideDue).mono (by decide) (List.Subset.refl _))

theorem Dev.frame_ticked_of_no_waits {d : Dev} (h : d.ec.waits = []) : d.Frame d.tick.decideDue [.board, .tc, .ck] [] := by
  rw [Dev.decideDue_of_no_waits (d := d.tick) h]
  exact d.frame_tick []

/-- The increment of a tick: TC_INCR with the commit that waits, or the nominal sequence. -/
def Dev.tickIncr (d : Dev) : Nat :=
  if d.flag R.TC_CTRL F.TC_CTRL_incr_src then d.tc.incrNext.getD d.tc.incr
  else if d.tc.pos = 0 ∨ d.tc.pos = 2 then 1759218604441 else 1759218604442

theorem nominalIncr_eq (pos : Fin 5) :
    nominalIncr pos = if pos = 0 ∨ pos = 2 then 1759218604441 else 1759218604442 := by
  simp only [nominalIncr, Fin.ext_iff]
  rfl

theorem Dev.tc_ticked (d : Dev) : d.tick.decideDue.tc = d.tc.tick (d.flag R.TC_CTRL F.TC_CTRL_incr_src) :=
  d.tick.frame_decideDue.tc_eq (by decide)

theorem Dev.acc_ticked (d : Dev) : d.tick.decideDue.tc.acc = (d.tc.acc + d.tickIncr) % 2 ^ 72 := by
  rw [d.tc_ticked, Dev.tickIncr, ← nominalIncr_eq]
  rfl

theorem Dev.ticks_ticked (d : Dev) : d.tick.decideDue.ticks = d.ticks + 1 :=
  (d.tick.frame_decideDue.1 .board (by decide)).2.2

theorem answers_timeTick {s : State} {Q : Dev → Prop} (hs : s.Awake) (hQ : Q s.dev.tick.decideDue.settle) :
    Answers .timeTick s Q := .of_awake (f := fun d => d.tick.decideDue) hs rfl hQ

theorem time_ticked {s : State} (hs : s.Awake) : Answers .timeTick s (fun e =>
    (s.dev.ec.waits = [] → s.dev.Frame e [.board, .tc, .ck] []) ∧
      s.dev.Frame e [.board, .tc, .ck, .chans, .tg] s.dev.judgeRegs ∧ e.ticks = s.dev.ticks + 1 ∧
      e.tc.pos = s.dev.tc.pos + 1 ∧ e.tc.acc = (s.dev.tc.acc + s.dev.tickIncr) % 2 ^ 72) := by
  refine answers_timeTick hs ⟨fun h => (Dev.frame_ticked_of_no_waits h).settle, s.dev.frame_ticked.settle, ?_, ?_, ?_⟩
  · rw [Dev.settle_ticks, s.dev.ticks_ticked]
  · rw [Dev.settle_tc, s.dev.tc_ticked]
    rfl
  · rw [Dev.settle_tc, s.dev.acc_ticked]

/-! A commit of TC_INCR (R138). -/

/-- The value of a commit of TC_INCR, its low half as written before. -/
def Dev.incrValue (d : Dev) (w : Word) : Nat :=
  getField w F.TC_INCR_HI_value_hi * 2 ^ 32 + (d.reg R.TC_INCR_LO).toNat

/-- An increment within 1,000 ppm of 1.6 ns. -/
abbrev incrNear (v : Nat) : Prop := ((5 * v : Nat) - (8 * 2 ^ 40 : Nat) : Int).natAbs * 1000 ≤ 8 * 2 ^ 40

theorem Dev.incrCommit_near {d : Dev} {w : Word} (h : incrNear (d.incrValue w)) :
    d.incrCommit w = { d.store R.TC_INCR_HI w with tc := { d.tc with incrNext := some (d.incrValue w) } } :=
  if_neg (Nat.not_lt.2 h)

theorem Dev.incrCommit_far {d : Dev} {w : Word} (h : ¬ incrNear (d.incrValue w)) :
    d.incrCommit w = d.raise R.TC_ALARM F.TC_ALARM_incr_reject := if_pos (Nat.not_le.1 h)

/-- A write of a field that takes every value stores it. -/
theorem FieldSpec.getField_store_any {f : Field} (hf : f.ok) (w x : Word) :
    getField ((⟨f, .rw, .any⟩ : FieldSpec).store w x) f = getField w f := by
  rw [FieldSpec.store, WRule.store, getField_putField_same _ _ _ hf]
  exact Nat.mod_eq_of_lt (Nat.mod_lt _ (Nat.two_pow_pos _))

theorem Dev.fieldsStored_TC_INCR_HI (d : Dev) (w : Word) : d.fieldsStored R.TC_INCR_HI w =
    (⟨F.TC_INCR_HI_value_hi, .rw, .any⟩ : FieldSpec).store w (d.reg R.TC_INCR_HI) := by
  have hspec : regSpec R.TC_INCR_HI = some ⟨R.TC_INCR_HI, 1, 0, 1, 0, 0x199, [⟨F.TC_INCR_HI_value_hi, .rw, .any⟩]⟩ := by
    decide
  simp only [Dev.fieldsStored, hspec, List.foldl_cons, List.foldl_nil]

/-- A write of a register of the time core. -/
theorem Dev.writeReg_TC (d : Dev) {o : Nat} (w : Word) (h : o / 0x10000 = 2) : d.writeReg o w = d.writeTC o w := by
  simp only [Dev.writeReg, h]

theorem Dev.writeReg_TC_INCR_HI (d : Dev) (w : Word) : d.writeReg R.TC_INCR_HI w = d.incrCommit w := by
  rw [d.writeReg_TC w (by decide), Dev.writeTC, if_neg (by decide), if_pos rfl]

theorem increment_committed {s : State} (w : Word) (hs : s.Up) : Answers (.incrCommit w) s (fun e =>
    if incrNear (s.dev.incrValue w) then
      e.tc = { s.dev.tc with incrNext := some (s.dev.incrValue w) } ∧ s.dev.Frame e [.tc] [R.TC_INCR_HI] ∧
        e.fld R.TC_INCR_HI F.TC_INCR_HI_value_hi = getField w F.TC_INCR_HI_value_hi
    else e.tc = s.dev.tc ∧ s.dev.Frame e [] [R.TC_ALARM] ∧ e.flag R.TC_ALARM F.TC_ALARM_incr_reject = true) := by
  refine .of_write hs (o := R.TC_INCR_HI) (w := w) (by decide) rfl ?_
  change (if _ then _ else _ : Prop)
  rw [s.dev.writeReg_TC_INCR_HI]
  split
  · next h =>
    rw [Dev.incrCommit_near h]
    refine ⟨Dev.settle_tc _, ?_, ?_⟩
    · exact ((s.dev.frame_setReg _ [.tc] (by simp)).trans (Dev.frame_tc _ _ _ (by simp))).settle
    · rw [Dev.fld_settle]
      refine (s.dev.fld_store R.TC_INCR_HI w _).trans ?_
      rw [s.dev.fieldsStored_TC_INCR_HI, FieldSpec.getField_store_any ⟨by decide, by decide⟩]
  · next h =>
    rw [Dev.incrCommit_far h]
    refine ⟨?_, (s.dev.frame_raise _ [] (by simp)).settle, ?_⟩
    · rw [Dev.settle_tc, Dev.raise_tc]
    · rw [Dev.flag_settle, s.dev.flag_raise_same _ _ ⟨by decide, by decide⟩]

/-! The latching read of TC_NOW (R139, R425). -/

/-- What TC_NOW_HI latches at a read of TC_NOW_LO. -/
def Dev.nowHigh (d : Dev) : Word :=
  wordOf 0 [(F.TC_NOW_HI_te, d.te), (F.TC_NOW_HI_invalid, one (!d.timeValid)), (F.TC_NOW_HI_t48_hi, d.now / 2 ^ 32)]

theorem Dev.view_TC_NOW_LO (d : Dev) : d.view R.TC_NOW_LO = BitVec.ofNat 32 d.now := by
  have hwidth : d.beyondWidth R.TC_NOW_LO = false := by simp [Dev.beyondWidth, R.TC_NOW_LO, R.LK_PORT_CTRL]
  have hlatched : isLatched R.TC_NOW_LO = false := by decide
  have hlive : d.live R.TC_NOW_LO = BitVec.ofNat 32 d.now := rfl
  simp [Dev.view, hwidth, hlatched, hlive]

theorem Dev.view_TC_NOW_HI (d : Dev) : d.view R.TC_NOW_HI = sGet (resetWord R.TC_NOW_HI) d.latch R.TC_NOW_HI := by
  have hwidth : d.beyondWidth R.TC_NOW_HI = false := by simp [Dev.beyondWidth, R.TC_NOW_HI, R.LK_PORT_CTRL]
  have hlatched : isLatched R.TC_NOW_HI = true := by decide
  simp [Dev.view, hwidth, hlatched]

theorem Dev.nowHigh_fields (d : Dev) (h : d.now < 2 ^ 48) :
    getField d.nowHigh F.TC_NOW_HI_t48_hi = d.now / 2 ^ 32 ∧ getField d.nowHigh F.TC_NOW_HI_te = d.te ∧
      getField d.nowHigh F.TC_NOW_HI_invalid = one (!d.timeValid) := by
  have hte : F.TC_NOW_HI_te.ok := ⟨by decide, by decide⟩
  have hinv : F.TC_NOW_HI_invalid.ok := ⟨by decide, by decide⟩
  have hhi : F.TC_NOW_HI_t48_hi.ok := ⟨by decide, by decide⟩
  have hdiv : d.now / 2 ^ 32 < 2 ^ 16 := by omega
  have hd : d.te < 2 ^ 8 := d.fld_lt _ _
  have hone : one (!d.timeValid) < 2 ^ 1 := by cases d.timeValid <;> decide
  simp only [Dev.nowHigh, wordOf, List.foldl_cons, List.foldl_nil]
  refine ⟨?_, ?_, ?_⟩
  · rw [getField_putField_same _ _ _ hhi]
    exact Nat.mod_eq_of_lt hdiv
  · rw [getField_putField_apart _ _ _ _ hhi hte (.inl (by decide)),
      getField_putField_apart _ _ _ _ hinv hte (.inl (by decide)), getField_putField_same _ _ _ hte]
    exact Nat.mod_eq_of_lt hd
  · rw [getField_putField_apart _ _ _ _ hhi hinv (.inl (by decide)), getField_putField_same _ _ _ hinv]
    exact Nat.mod_eq_of_lt hone

/-- The device after a read of TC_NOW_LO. -/
def Dev.nowRead (d : Dev) : Dev :=
  ((d.emit (.readData .bar0 R.TC_NOW_LO (BitVec.ofNat 32 d.now))).latchReg R.TC_NOW_HI d.nowHigh).setReg R.TC_NOW_LO
    (d.reg R.TC_NOW_LO)

/-- A read of TC_NOW_LO sets no register: it has no field that clears. -/
theorem Dev.readAccess_TC_NOW_LO (d : Dev) : d.readAccess R.TC_NOW_LO = d.nowRead := by
  have hspec : regSpec R.TC_NOW_LO = some ⟨R.TC_NOW_LO, 1, 0, 1, 0, 0, [⟨F.TC_NOW_LO_t48_lo, .ro, .any⟩]⟩ := by decide
  simp only [Dev.readAccess, hspec, d.view_TC_NOW_LO, Dev.latchGroup, if_true]
  rfl

theorem Dev.frame_latchReg (d : Dev) (o : Nat) (w : Word) (r : List Nat) : d.Frame (d.latchReg o w) [.board] r := by
  refine ⟨fun u hu => ?_, fun _ _ => rfl⟩
  cases u <;> first | exact absurd (by decide) hu | simp [Dev.SamePart, Dev.latchReg]

theorem Dev.reg_latchReg (d : Dev) (o : Nat) (w : Word) (o' : Nat) : (d.latchReg o w).reg o' = d.reg o' := rfl
theorem Dev.hr_latchReg (d : Dev) (o : Nat) (w : Word) : (d.latchReg o w).hr = d.hr := rfl
theorem Dev.out_latchReg (d : Dev) (o : Nat) (w : Word) : (d.latchReg o w).out = d.out := rfl

/-- A register set to the word that it holds. -/
theorem Dev.frame_setReg_held (d : Dev) {o : Nat} {w : Word} (h : d.reg o = w) (p : List Part) (r : List Nat) :
    d.Frame (d.setReg o w) p r := by
  refine ⟨(d.frame_setReg (r := [o]) w p (by simp)).1, fun o' _ => ?_⟩
  rw [d.reg_setReg]
  split
  · next ho => rw [ho, h]
  · rfl

theorem Dev.frame_nowRead (d : Dev) : d.Frame d.nowRead [.board] [] :=
  ((d.frame_emit _ _ _).trans (Dev.frame_latchReg _ _ _ _)).trans 
    (Dev.frame_setReg_held _ (Dev.reg_latchReg _ _ _ _) _ _)

theorem Dev.hr_nowRead (d : Dev) : d.nowRead.hr = d.hr := by rw [Dev.nowRead, Dev.setReg_hr, Dev.hr_latchReg, Dev.emit_hr]

theorem Dev.out_nowRead (d : Dev) :
    d.nowRead.out = .readData .bar0 R.TC_NOW_LO (BitVec.ofNat 32 d.now) :: d.out := by
  rw [Dev.nowRead, Dev.setReg_out, Dev.out_latchReg, Dev.emit]

theorem Dev.view_nowRead (d : Dev) : d.nowRead.settle.view R.TC_NOW_HI = d.nowHigh := by
  rw [Dev.view_TC_NOW_HI, Dev.settle_latch, Dev.nowRead, Dev.setReg_latch]
  exact sGet_sPut_same _ _ _ _

theorem answers_nowRead {s : State} {Q : Dev → Prop} (hs : s.Awake) (hQ : Q s.dev.nowRead.settle) :
    Answers (.latchingRead .tcNow) s Q := by
  refine .of_awake (f := fun d => d.readAccess R.TC_NOW_LO) hs rfl ?_
  rwa [s.dev.readAccess_TC_NOW_LO]

theorem now_read {s : State} (hs : s.Awake) (hinv : s.Inv) : Answers (.latchingRead .tcNow) s (fun e =>
    s.dev.Frame e [.board] [] ∧ e.out = .readData .bar0 R.TC_NOW_LO (BitVec.ofNat 32 s.dev.now) :: s.dev.out ∧
      (s.dev.now < 2 ^ 48 →
        getField (e.view R.TC_NOW_HI) F.TC_NOW_HI_t48_hi = s.dev.now / 2 ^ 32 ∧
        getField (e.view R.TC_NOW_HI) F.TC_NOW_HI_te = s.dev.te ∧
        getField (e.view R.TC_NOW_HI) F.TC_NOW_HI_invalid = one (!s.dev.timeValid))) := by
  obtain ⟨-, h64, h65⟩ := hinv
  refine answers_nowRead hs ⟨s.dev.frame_nowRead.settle, ?_, fun h => ?_⟩
  · rw [Dev.out_settle _ (by rwa [Dev.hr_nowRead]) (by rwa [Dev.hr_nowRead]), s.dev.out_nowRead]
  · rw [s.dev.view_nowRead]
    exact s.dev.nowHigh_fields h

/-- Settles O13: a tick adds its increment and leaves the rest to the edges that wait; a commit and a read act alone. -/
theorem counterRegisters : Obligations.CounterRegisters :=
  ⟨fun _ w hs => ⟨time_ticked hs, fun hsafe => increment_committed w ⟨hs, hsafe⟩⟩, fun _ hs hinv => now_read hs hinv⟩

end Sys2Proof.Machine
end

section
/-! PROOF of O14. What a tick does to the accumulator; that no register shows more of it than T48; and the way of a device
without an image from reset to SAFE, on which the counter stays at 0 (R137). -/

namespace Sys2Proof.Machine

/-! The accumulator at a tick. -/

theorem nominalIncr_bounds (pos : Nat) : 1759218604441 ≤ nominalIncr pos ∧ nominalIncr pos ≤ 1759218604442 := by
  unfold nominalIncr
  split <;> omega

theorem Dev.tickIncr_bounds {d : Dev} (h : d.flag R.TC_CTRL F.TC_CTRL_incr_src = false) :
    1759218604441 ≤ d.tickIncr ∧ d.tickIncr ≤ 1759218604442 := by
  rw [Dev.tickIncr, h, if_neg Bool.false_ne_true, ← nominalIncr_eq]
  exact nominalIncr_bounds _

theorem accumulator_ticked {s : State} (hs : s.Up) : Answers .timeTick s (fun e => e.tc.acc < 2 ^ 72 ∧
    s.dev.Frame e [.board, .tc, .ck, .chans, .tg] s.dev.judgeRegs ∧
    ∃ incr, e.tc.acc = (s.dev.tc.acc + incr) % 2 ^ 72 ∧
      (s.dev.flag R.TC_CTRL F.TC_CTRL_incr_src = false → 1759218604441 ≤ incr ∧ incr ≤ 1759218604442)) := by
  have hacc : s.dev.tick.decideDue.settle.tc.acc = (s.dev.tc.acc + s.dev.tickIncr) % 2 ^ 72 := by
    rw [Dev.settle_tc, s.dev.acc_ticked]
  refine answers_timeTick hs.1 ⟨?_, s.dev.frame_ticked.settle, _, hacc, Dev.tickIncr_bounds⟩
  rw [hacc]
  exact Nat.mod_lt _ (Nat.two_pow_pos _)

/-! What registers report of the accumulator. -/

/-- The device with another value in the accumulator. -/
def Dev.withAcc (d : Dev) (acc : Nat) : Dev := { d with tc := { d.tc with acc := acc } }

section
variable (d : Dev) (acc o : Nat)

theorem Dev.viewGL_withAcc : (d.withAcc acc).viewGL o = d.viewGL o := rfl
theorem Dev.viewCK_withAcc : (d.withAcc acc).viewCK o = d.viewCK o := rfl
theorem Dev.viewLN_withAcc : (d.withAcc acc).viewLN o = d.viewLN o := rfl
theorem Dev.viewLK_withAcc : (d.withAcc acc).viewLK o = d.viewLK o := rfl
theorem Dev.viewCL_withAcc : (d.withAcc acc).viewCL o = d.viewCL o := rfl
theorem Dev.viewEC_withAcc : (d.withAcc acc).viewEC o = d.viewEC o := rfl
theorem Dev.viewTG_withAcc : (d.withAcc acc).viewTG o = d.viewTG o := rfl
theorem Dev.viewPL_withAcc : (d.withAcc acc).viewPL o = d.viewPL o := rfl
theorem Dev.viewMI_withAcc : (d.withAcc acc).viewMI o = d.viewMI o := rfl
theorem Dev.viewCA_withAcc : (d.withAcc acc).viewCA o = d.viewCA o := rfl
theorem Dev.beyondWidth_withAcc : (d.withAcc acc).beyondWidth o = d.beyondWidth o := rfl

theorem Dev.viewSW_withAcc : (d.withAcc acc).viewSW o = d.viewSW o := by
  unfold Dev.viewSW
  split
  · rfl
  split
  · rfl
  dsimp only
  split
  · rfl
  split
  · rfl
  cases inst (R.SW_CREDIT ((o - R.SW_PORT_CFG 0) / 0x100) 0) 4 8 o <;> rfl

/-- The time core's own registers show the accumulator through T48 alone. -/
theorem Dev.viewTC_withAcc (h : (d.withAcc acc).now = d.now) : (d.withAcc acc).viewTC o = d.viewTC o := by
  unfold Dev.viewTC
  rw [h]
  rfl

/-- Accumulators with one T48 read alike. -/
theorem Dev.view_withAcc (h : (d.withAcc acc).now = d.now) : (d.withAcc acc).view o = d.view o := by
  have hlive : (d.withAcc acc).live o = d.live o := by
    unfold Dev.live
    split
    · exact d.viewGL_withAcc acc o
    · exact d.viewCK_withAcc acc o
    · exact d.viewTC_withAcc acc o h
    · exact d.viewLN_withAcc acc o
    · exact d.viewLK_withAcc acc o
    · exact d.viewSW_withAcc acc o
    · exact d.viewCL_withAcc acc o
    · exact d.viewEC_withAcc acc o
    · exact d.viewTG_withAcc acc o
    · exact d.viewPL_withAcc acc o
    · exact d.viewMI_withAcc acc o
    · exact d.viewCA_withAcc acc o
    · rfl
  unfold Dev.view
  rw [hlive, d.beyondWidth_withAcc]
  rfl

end

/-! What the way from reset to SAFE keeps. -/

/-- The counter with TE, and the registers of the lanes, are the same in `e` as in `d`. -/
structure Dev.KeepsStart (d e : Dev) : Prop where
  counter : d.KeepsCounter e
  lane    : ∀ o, o / 0x10000 = 3 → e.reg o = d.reg o

theorem Dev.KeepsStart.refl (d : Dev) : d.KeepsStart d := ⟨.refl d, fun _ _ => rfl⟩

theorem Dev.KeepsStart.trans {d e f : Dev} (h : d.KeepsStart e) (h' : e.KeepsStart f) : d.KeepsStart f :=
  ⟨h.counter.trans h'.counter, fun o ho => (h'.lane o ho).trans (h.lane o ho)⟩

theorem Dev.KeepsStart.foldl_of_mem {α : Type} {g : Dev → α → Dev} {xs : List α}
    (hg : ∀ (d : Dev), ∀ x ∈ xs, d.KeepsStart (g d x)) (d : Dev) : d.KeepsStart (xs.foldl g d) := by
  induction xs generalizing d with
  | nil => exact .refl d
  | cons x xs ih => exact (hg d x (by simp)).trans (ih (fun d y hy => hg d y (by simp [hy])) _)

theorem Dev.KeepsStart.foldl {α : Type} {g : Dev → α → Dev} (hg : ∀ (d : Dev) (x : α), d.KeepsStart (g d x))
    (xs : List α) (d : Dev) : d.KeepsStart (xs.foldl g d) := .foldl_of_mem (fun d x _ => hg d x) d

theorem Dev.KeepsStart.ite {a b d : Dev} {c : Prop} [Decidable c] (ha : d.KeepsStart a) (hb : d.KeepsStart b) :
    d.KeepsStart (if c then a else b) := by
  split
  · exact ha
  · exact hb

/-- A frame without the time core and the lanes' registers. -/
theorem Dev.Frame.keepsStart {d e : Dev} {p : List Part} {r : List Nat} (h : d.Frame e p r) (hp : Part.tc ∉ p)
    (hr : ∀ o ∈ r, o / 0x10000 ≠ 2 ∧ o / 0x10000 ≠ 3) : d.KeepsStart e :=
  ⟨(h.keepsTime hp fun o ho => (hr o ho).1).keepsCounter, fun o ho => h.reg_eq fun hm => (hr o hm).2 ho⟩

/-- A register outside the blocks of the time core and the lanes. -/
theorem Dev.keepsStart_setFld (d : Dev) {o : Nat} (f : Field) (v : Nat) (h : o / 0x10000 ≠ 2 ∧ o / 0x10000 ≠ 3) :
    d.KeepsStart (d.setFld o f v) :=
  (d.frame_setFld f v [] (List.mem_singleton_self o)).keepsStart (by simp) (by simpa using h)

theorem Dev.keepsStart_record (d : Dev) (typ : Nat) (body : List Byte) : d.KeepsStart (d.record typ body) :=
  (d.frame_record (p := [.log]) (r := logRegs) typ body (by decide) (List.Subset.refl _)).keepsStart (by decide) (by decide)

/-- Parts of the device other than registers and the time core. -/
theorem Dev.keepsStart_of_eq {d e : Dev} (hr : e.regs = d.regs) (ht : e.tc = d.tc) : d.KeepsStart e := by
  have hreg (o : Nat) : e.reg o = d.reg o := by rw [Dev.reg, Dev.reg, hr]
  exact ⟨Dev.KeepsTime.keepsCounter ⟨ht, fun o _ => hreg o⟩, fun o _ => hreg o⟩

theorem Dev.not_lane_of_mem_validRegs {d : Dev} {o : Nat} (h : o ∈ d.validRegs) : o / 0x10000 ≠ 3 := by
  simp only [Dev.validRegs, List.mem_append, List.mem_map, List.mem_cons, List.not_mem_nil, or_false] at h
  rcases h with ((h | ⟨c, -, rfl⟩) | ⟨c, -, rfl⟩) | h
  · rcases h with rfl | rfl | rfl | rfl | rfl | rfl | rfl <;> decide
  · simp only [R.EC_ALARM]; omega
  · simp only [R.EC_DTC_LATE]; omega
  · split at h
    · simp only [List.mem_singleton, R.EC_STATUS] at h; omega
    · simp at h

theorem Dev.keepsStart_setValidity (d : Dev) (st : Nat) : d.KeepsStart (d.setValidity st) :=
  ⟨d.keepsCounter_setValidity st, fun _ ho => (d.frame_setValidity st (List.Subset.refl _) (List.Subset.refl _)).reg_eq
    fun hm => Dev.not_lane_of_mem_validRegs hm ho⟩

theorem Dev.keepsStart_calAbort (d : Dev) : d.KeepsStart d.calAbort :=
  ⟨d.keepsTime_calAbort.keepsCounter, fun _ ho => (d.frame_calAbort (p := validParts) (r := d.validRegs) (by decide)
    (by decide) (validRegs_of d (List.Subset.refl _)) fun o ho => by simp [Dev.validRegs, ho]).reg_eq
    fun hm => Dev.not_lane_of_mem_validRegs hm ho⟩

theorem Dev.keepsStart_emit (d : Dev) (x : Out) : d.KeepsStart (d.emit x) := Dev.keepsStart_of_eq rfl rfl

theorem Dev.keepsStart_toHost (d : Dev) (a : Nat) (bs : List Byte) : d.KeepsStart (d.toHost a bs) :=
  .ite (d.keepsStart_emit _) (.refl d)

/-! Every block goes OFF (R339). -/

theorem Dev.keepsStart_chanCut (d : Dev) (c : Nat) : d.KeepsStart (d.chanCut c) := by
  have hstatus : R.EC_STATUS c / 0x10000 ≠ 2 ∧ R.EC_STATUS c / 0x10000 ≠ 3 := by simp only [R.EC_STATUS]; omega
  have hctrl : R.EC_CTRL c / 0x10000 ≠ 2 ∧ R.EC_CTRL c / 0x10000 ≠ 3 := by simp only [R.EC_CTRL]; omega
  have hchan (d : Dev) (x : Chan) : d.KeepsStart (d.setChan c x) := Dev.keepsStart_of_eq rfl rfl
  have hwaits (x : Ec) : d.KeepsStart { d with ec := x } := Dev.keepsStart_of_eq rfl rfl
  exact ((((hwaits _).trans (Dev.keepsStart_setFld _ _ _ hctrl)).trans (Dev.keepsStart_setFld _ _ _ hstatus)).trans
    (Dev.keepsStart_setFld _ _ _ hstatus)).trans ((hchan _ _).trans (hchan _ _))

theorem Dev.keepsStart_engineOff (d : Dev) : d.KeepsStart d.engineOff := by
  have hemptied (x : Tg) : d.KeepsStart { d with tg := x } := Dev.keepsStart_of_eq rfl rfl
  refine ((hemptied _).trans (Dev.keepsStart_setFld _ _ _ (by decide))).trans (.foldl (fun d u => ?_) _ _)
  have hunit : R.TG_CU_CTRL u / 0x10000 ≠ 2 ∧ R.TG_CU_CTRL u / 0x10000 ≠ 3 := by simp only [R.TG_CU_CTRL]; omega
  have hdel : d.KeepsStart (d.delUnitRun u) := Dev.keepsStart_of_eq rfl rfl
  exact hdel.trans (Dev.keepsStart_setFld _ _ _ hunit)

theorem Dev.keepsStart_pailLevels (d : Dev) : d.KeepsStart d.pailLevels := by
  have hshow (d : Dev) (f : Field) (n high low : Nat) : d.KeepsStart (if high ≤ n then d.setFlag R.PL_STATUS f true
      else if n ≤ low then d.setFlag R.PL_STATUS f false else d) :=
    .ite (d.keepsStart_setFld _ _ (by decide)) (.ite (d.keepsStart_setFld _ _ (by decide)) (.refl d))
  exact (hshow d _ _ _ _).trans (hshow _ _ _ _ _)

theorem Dev.keepsStart_pailOff (d : Dev) : d.KeepsStart d.pailOff := by
  have hemptied : d.KeepsStart { d with pl := Pl.reset } := Dev.keepsStart_of_eq rfl rfl
  unfold Dev.pailOff
  exact ((hemptied.trans (Dev.keepsStart_pailLevels _)).trans (Dev.keepsStart_setFld _ _ _ (by decide))).trans
    (Dev.keepsStart_setFld _ _ _ (by decide))

theorem Dev.keepsStart_setRingState (d : Dev) (r st : Nat) : d.KeepsStart (d.setRingState r st) :=
  (d.keepsStart_setFld _ _ (by simp only [R.HR_RING_CTRL]; omega)).trans (Dev.keepsStart_toHost _ _ _)

/-- The clock outputs, the PPS outputs and the ports of a device are OFF. -/
def Dev.outputsOff (d : Dev) : Dev :=
  let d1 := (List.range 8).foldl (fun d n => d.setOutState n enOff) d
  let d2 := (List.range 2).foldl (fun d m => (d.setPpsOut m { d.ppsOut m with pulsing := false }).setPpsState m enOff) d1
  (List.range 64).foldl (fun d p => d.setFld (R.LK_PORT_CTRL p) F.LK_PORT_CTRL_state enOff) d2

/-- The channels, the engine, the pail port and the rings of a device are OFF. -/
def Dev.cardOff (d : Dev) : Dev :=
  let d1 := (List.range 128).foldl (fun d c => if d.chanState c = enOff then d else d.chanCut c) d
  let d2 := d1.engineOff.pailOff
  d2.ringsActive.foldl (fun d r => (d.setRing r { Ring.reset with lost := (d.ring r).lost }).setRingState r enOff) d2

theorem Dev.keepsStart_outputsOff (d : Dev) : d.KeepsStart d.outputsOff := by
  refine ((Dev.KeepsStart.foldl_of_mem (fun d n hn => ?_) d).trans
    (.foldl_of_mem (fun d m hm => ?_) _)).trans (.foldl_of_mem (fun d p hp => ?_) _)
  · have : n < 8 := List.mem_range.1 hn
    exact d.keepsStart_setFld (o := R.CK_OUT_CFG n) _ _ (by simp only [R.CK_OUT_CFG]; omega)
  · have : m < 2 := List.mem_range.1 hm
    have hpulse (x : PpsOut) : d.KeepsStart (d.setPpsOut m x) := Dev.keepsStart_of_eq rfl rfl
    exact (hpulse _).trans (Dev.keepsStart_setFld (o := R.CK_PPS_CFG m) _ _ _ (by simp only [R.CK_PPS_CFG]; omega))
  · have : p < 64 := List.mem_range.1 hp
    exact d.keepsStart_setFld (o := R.LK_PORT_CTRL p) _ _ (by simp only [R.LK_PORT_CTRL]; omega)

theorem Dev.keepsStart_cardOff (d : Dev) : d.KeepsStart d.cardOff := by
  have hchans : d.KeepsStart ((List.range 128).foldl (fun d c => if d.chanState c = enOff then d else d.chanCut c) d) :=
    .foldl (fun d c => .ite (.refl d) (d.keepsStart_chanCut c)) _ d
  refine ((hchans.trans (Dev.keepsStart_engineOff _)).trans (Dev.keepsStart_pailOff _)).trans (.foldl (fun d r => ?_) _ _)
  have hring (x : Ring) : d.KeepsStart (d.setRing r x) := Dev.keepsStart_of_eq rfl rfl
  exact (hring _).trans (Dev.keepsStart_setRingState _ r _)

/-- Every lane is OFF. -/
def Dev.LanesOff (d : Dev) : Prop := ∀ n < 64, d.laneState n = enOff

theorem Dev.KeepsStart.lanesOff {d e : Dev} (h : d.KeepsStart e) (hd : d.LanesOff) : e.LanesOff := by
  intro n hn
  have hblock : R.LN_CTRL n / 0x10000 = 3 := by simp only [R.LN_CTRL]; omega
  rw [Dev.laneState, Dev.fld, h.lane _ hblock, ← Dev.fld]
  exact hd n hn

/-- With every lane OFF, the other blocks alone go OFF. -/
theorem Dev.allOff_of_lanesOff {d : Dev} (h : d.LanesOff) : d.allOff = d.outputsOff.cardOff := by
  have hlanes : (List.range 64).foldl (fun d n => if d.laneState n = enOff then d else d.laneOff n) d.outputsOff =
      d.outputsOff := foldl_eq_self fun n hn => if_pos ((d.keepsStart_outputsOff.lanesOff h) n (List.mem_range.1 hn))
  unfold Dev.allOff
  exact congrArg Dev.cardOff hlanes

/-! Entry to SAFE (R327, R339). -/

theorem Dev.keepsStart_switchClear (d : Dev) : d.KeepsStart d.switchClear := by
  have hemptied (x : Sw) : d.KeepsStart { d with sw := x } := Dev.keepsStart_of_eq rfl rfl
  have hset (d : Dev) (p c : Nat) (x : Credit) : d.KeepsStart (d.setCredit p c x) := Dev.keepsStart_of_eq rfl rfl
  have hraise (d : Dev) (p c : Nat) : d.KeepsStart (d.creditRaise p c) := by
    unfold Dev.creditRaise
    exact .ite (hset d p c _) (.refl d)
  unfold Dev.switchClear
  exact (hemptied _).trans (.foldl (g := fun d (x : Nat × Credit) => d.creditRaise (x.1 / 8) (x.1 % 8))
    (fun d x => hraise d _ _) _ _)

theorem Dev.keepsStart_stopWalk (d : Dev) : d.KeepsStart d.stopWalk := by
  have hidle (x : Enum) : d.KeepsStart { d with en := x } := Dev.keepsStart_of_eq rfl rfl
  exact (hidle _).trans (Dev.keepsStart_setFld (o := R.GL_ENUM_STAT) _ _ _ (by decide))

theorem Dev.keepsStart_turnOver (d : Dev) : d.KeepsStart d.turnOver := by
  have hphase (x : Mi) : d.KeepsStart { d with mi := x } := Dev.keepsStart_of_eq rfl rfl
  exact (hphase _).trans (Dev.keepsStart_setFld (o := R.MI_STATUS) _ _ _ (by decide))

/-- The device in SAFE, its clocks unlocked, before its blocks go OFF. -/
def Dev.safeClocks (d : Dev) (cause : Nat) : Dev :=
  let d0 := (d.calAbort).setValidity 0
  let d1 : Dev := { d0 with stage := .safe, safeCause := cause, fireStep := 0, glazeWait := false, load := none
                            ck := { d0.ck with episode := none, buildOut := false } }
  ((d1.setCleaner 7 0x7F).setFlag R.CK_SYN_STATUS F.CK_SYN_STATUS_locked false).setPair 0

/-- The rest of the entry to SAFE, once the blocks are OFF. -/
def Dev.safeRest (d : Dev) (cause : Nat) : Dev :=
  let d1 := (d.switchClear).stopWalk.turnOver
  ({ d1 with cl := { d1.cl with held := [] } } : Dev).recStage 5 cause

theorem Dev.enterSafe_eq (d : Dev) (cause : Nat) : d.enterSafe cause = (d.safeClocks cause).allOff.safeRest cause := rfl

theorem Dev.keepsStart_safeClocks (d : Dev) (cause : Nat) : d.KeepsStart (d.safeClocks cause) := by
  have hvalid : d.KeepsStart ((d.calAbort).setValidity 0) := d.keepsStart_calAbort.trans (Dev.keepsStart_setValidity _ 0)
  have hstage (e : Dev) (x : Ck) : e.KeepsStart { e with
      stage := .safe, safeCause := cause, fireStep := 0, glazeWait := false, load := none, ck := x } :=
    Dev.keepsStart_of_eq rfl rfl
  have hclocks (e : Dev) : e.KeepsStart (((e.setCleaner 7 0x7F).setFlag R.CK_SYN_STATUS F.CK_SYN_STATUS_locked false).setPair
      0) :=
    (((e.keepsStart_setFld _ _ (by decide)).trans (Dev.keepsStart_setFld _ _ _ (by decide))).trans
      (Dev.keepsStart_setFld (o := R.CK_SYN_STATUS) _ _ _ (by decide))).trans
      (Dev.keepsStart_setFld (o := R.PS_PAIR_STATUS) _ _ _ (by decide))
  exact (hvalid.trans (hstage _ _)).trans (hclocks _)

theorem Dev.keepsStart_safeRest (d : Dev) (cause : Nat) : d.KeepsStart (d.safeRest cause) := by
  have hunheld (e : Dev) (x : Cl) : e.KeepsStart { e with cl := x } := Dev.keepsStart_of_eq rfl rfl
  exact (((d.keepsStart_switchClear.trans (Dev.keepsStart_stopWalk _)).trans (Dev.keepsStart_turnOver _)).trans
    (hunheld _ _)).trans (Dev.keepsStart_record _ _ _)

/-- A device whose lanes are OFF enters SAFE with its counter as it stands. -/
theorem Dev.keepsStart_enterSafe {d : Dev} (h : d.LanesOff) (cause : Nat) : d.KeepsStart (d.enterSafe cause) := by
  have hclocks := d.keepsStart_safeClocks cause
  rw [d.enterSafe_eq, Dev.allOff_of_lanesOff (hclocks.lanesOff h)]
  exact ((hclocks.trans (Dev.keepsStart_outputsOff _)).trans (Dev.keepsStart_cardOff _)).trans
    (Dev.keepsStart_safeRest _ cause)

/-! The start of bisque (R333). -/

/-- The bisque image and a clear's mark of the non-volatile store are the same in `e` as in `d`. -/
structure Dev.KeepsImage (d e : Dev) : Prop where
  bisque   : e.nv.bisque = d.nv.bisque
  clearing : e.nv.clearing = d.nv.clearing

theorem Dev.KeepsImage.trans {d e f : Dev} (h : d.KeepsImage e) (h' : e.KeepsImage f) : d.KeepsImage f :=
  ⟨h'.bisque.trans h.bisque, h'.clearing.trans h.clearing⟩

theorem Dev.keepsImage_record (d : Dev) (typ : Nat) (body : List Byte) : d.KeepsImage (d.record typ body) := by
  have hnv : (d.record typ body).nv = d.nv :=
    (d.frame_record (p := [.log]) (r := logRegs) typ body (by decide) (List.Subset.refl _)).1 .nv (by decide)
  exact ⟨by rw [hnv], by rw [hnv]⟩

/-- A write to the MRAM, on every way that it goes: neither the counter nor an image. -/
theorem Dev.mramWrite_keeps (d : Dev) (b : Nat) (told : Bool) :
    d.KeepsStart (d.mramWrite b told).1 ∧ d.KeepsImage (d.mramWrite b told).1 := by
  have hnv (x : Nv) : d.KeepsStart { d with nv := x } := Dev.keepsStart_of_eq rfl rfl
  have hspare (x : Nv) (hx : x.bisque = d.nv.bisque ∧ x.clearing = d.nv.clearing) :
      d.KeepsImage { d with nv := x.wrote b } := ⟨(Nv.wrote_bisque x b).trans hx.1, (Nv.wrote_clearing x b).trans hx.2⟩
  unfold Dev.mramWrite
  split
  · exact ⟨hnv _, hspare _ ⟨rfl, rfl⟩⟩
  · split
    · cases told
      · exact ⟨.refl d, rfl, rfl⟩
      · exact ⟨d.keepsStart_record _ _, d.keepsImage_record _ _⟩
    · refine ⟨(hnv _).trans (Dev.keepsStart_record _ _ _), (hspare _ ?_).trans (Dev.keepsImage_record _ _ _)⟩
      split <;> exact ⟨rfl, rfl⟩

/-- A write of the log header that leaves the image and a clear's mark. -/
theorem Dev.headerWrite_keeps (d : Dev) {f : Nv → Nv} (hf : ∀ nv, (f nv).bisque = nv.bisque ∧ (f nv).clearing = nv.clearing) :
    d.KeepsStart (d.headerWrite f) ∧ d.KeepsImage (d.headerWrite f) := by
  have hcounts : d.KeepsStart { d with nv := f d.nv } := Dev.keepsStart_of_eq rfl rfl
  have himage : d.KeepsImage { d with nv := f d.nv } := ⟨(hf d.nv).1, (hf d.nv).2⟩
  obtain ⟨hstart, hkept⟩ := ({ d with nv := f d.nv } : Dev).mramWrite_keeps klogBase true
  unfold Dev.headerWrite
  dsimp only
  split
  · exact ⟨hcounts.trans hstart, himage.trans hkept⟩
  · exact d.mramWrite_keeps klogBase true

theorem Dev.keepsStart_klogReport (d : Dev) : d.KeepsStart d.klogReport :=
  ((((d.keepsStart_setFld _ _ (by decide)).trans (Dev.keepsStart_setFld _ _ _ (by decide))).trans
    (Dev.keepsStart_setFld _ _ _ (by decide))).trans (Dev.keepsStart_setFld _ _ _ (by decide))).trans
    (Dev.keepsStart_setFld _ _ _ (by decide))

/-- The start of bisque with no clear left over: neither the counter nor the image. -/
theorem Dev.bisqueBegin_keeps {d : Dev} (h : d.nv.clearing = none) :
    d.KeepsStart d.bisqueBegin ∧ d.bisqueBegin.nv.bisque = d.nv.bisque := by
  have hstage : d.KeepsStart { d with stage := .bisque } := Dev.keepsStart_of_eq rfl rfl
  obtain ⟨hstart, himage⟩ := ({ d with stage := .bisque } : Dev).headerWrite_keeps
    (f := fun nv => { nv with pwr := min (nv.pwr + 1) 0xFFFFFFFF }) fun _ => ⟨rfl, rfl⟩
  have hclear := himage.clearing.trans h
  unfold Dev.bisqueBegin
  dsimp only
  rw [hclear]
  refine ⟨?_, himage.bisque⟩
  exact (((hstage.trans hstart).trans (Dev.keepsStart_klogReport _)).trans (Dev.keepsStart_setFld _ _ _ (by decide))).trans
    ((Dev.keepsStart_setFld _ _ _ (by decide)).trans (Dev.keepsStart_setFld _ _ _ (by decide)))

theorem Dev.checkImage_nil (d : Dev) (kind : Nat) : d.checkImage kind [] = .absent := by
  simp [Dev.checkImage]

theorem lane_reset_off : ∀ n < 64, getField (resetWord (R.LN_CTRL n)) F.LN_CTRL_state = enOff := by decide

theorem TC_STATUS_reset_te : getField (resetWord R.TC_STATUS) F.TC_STATUS_te = 0 := by decide

/-- A device without registers written has its lanes OFF. -/
theorem Dev.lanesOff_of_no_regs {d : Dev} (h : d.regs = []) : d.LanesOff := by
  intro n hn
  rw [Dev.laneState, Dev.fld, Dev.reg, h]
  exact lane_reset_off n hn

/-- A device without a bisque image goes to SAFE. -/
theorem answers_resetRelease_absent {s : State} {temps : List Int} {Q : Dev → Prop} (hscan : s.dev.mi.scan = false)
    (hoff : s.dev.stage = .off) (hb : s.dev.nv.bisque = []) (hc : s.dev.nv.clearing = none)
    (hQ : Q (s.dev.bisqueBegin.bisqueFail 1 0 1).settle) : Answers (.resetRelease temps) s Q := by
  have hstage : ¬ (s.dev.stage != .off) = true := by simp [hoff]
  have hrun : exec (.resetRelease temps) s = .next { s with dev := (s.dev.bisqueBegin.bisqueFail 1 0 1).settle } := by
    change execResetRelease temps s = _
    rw [execResetRelease, always_next hscan, if_neg hstage]
    dsimp only
    rw [(Dev.bisqueBegin_keeps hc).2, hb, Dev.checkImage_nil]
  exact ⟨_, hrun, rfl, hQ⟩

theorem counter_starts_at_zero {s : State} (temps : List Int) (hscan : s.dev.mi.scan = false) (hoff : s.dev.stage = .off)
    (htc : s.dev.tc = Tc.reset) (hregs : s.dev.regs = []) (hb : s.dev.nv.bisque = []) (hc : s.dev.nv.clearing = none) :
    Answers (.resetRelease temps) s (fun e => e.tc.acc = 0 ∧ e.te = 0) := by
  refine answers_resetRelease_absent hscan hoff hb hc ?_
  have hbegin : s.dev.KeepsStart (s.dev.bisqueBegin.recImage 1 1 0) :=
    (Dev.bisqueBegin_keeps hc).1.trans (Dev.keepsStart_record _ _ _)
  have hlanes := hbegin.lanesOff (Dev.lanesOff_of_no_regs hregs)
  obtain ⟨hcounter, -⟩ := hbegin.trans (Dev.keepsStart_enterSafe hlanes 1)
  refine ⟨?_, ?_⟩
  · rw [Dev.settle_tc]
    exact hcounter.acc.trans (by rw [htc]; rfl)
  · rw [Dev.te_settle]
    refine hcounter.te.trans ?_
    rw [Dev.te, Dev.fld, Dev.reg, hregs]
    exact TC_STATUS_reset_te

/-- Settles O14: a tick adds modulo 2^72, a register shows T48 alone, and nothing before the first tick moves the counter. -/
theorem timeAccumulator : Obligations.TimeAccumulator := by
  refine ⟨fun s hs => accumulator_ticked hs, fun d acc => ⟨rfl, fun h o => d.view_withAcc acc o h⟩,
    fun nv pins out free => ⟨rfl, TC_STATUS_reset_te⟩, fun s temps hscan hoff htc hregs hb hc =>
      counter_starts_at_zero temps hscan hoff htc hregs hb hc⟩

end Sys2Proof.Machine
end

section
/-! PROOF of O15. A step of the time counter: its commit, its refusal, and what follows from one applied (R140–R144, R61, R171,
R186, R214). -/

namespace Sys2Proof.Machine

/-! A refusal (R141, R144). -/

/-- A refusal is noted: alarm, count and record. -/
def Dev.refusalNoted (d : Dev) (cause : Nat) (ch : Int) : Dev :=
  ((d.raise R.TC_ALARM F.TC_ALARM_step_refused).count (devCtr 12)).recStep 2 d.te cause ch

theorem Dev.frame_refusalNoted (d : Dev) (cause : Nat) (ch : Int) :
    d.Frame (d.refusalNoted cause ch) [.log] (R.TC_ALARM :: logRegs) :=
  ((d.frame_raise _ _ (by simp)).trans (Dev.frame_count _ _ _ _ (by simp [logRegs]))).trans
    (Dev.frame_record _ _ _ (by simp) (List.subset_cons_self _ _))

theorem Dev.keepsTime_refusalNoted (d : Dev) (cause : Nat) (ch : Int) :
    (d.raise R.TC_ALARM F.TC_ALARM_step_refused).KeepsTime (d.refusalNoted cause ch) :=
  (Dev.keepsTime_count _ _ _).trans (Dev.keepsTime_record _ _ _)

theorem Dev.tc_refusalNoted (d : Dev) (cause : Nat) (ch : Int) : (d.refusalNoted cause ch).tc = d.tc := by
  rw [(d.keepsTime_refusalNoted cause ch).tc, Dev.raise_tc]

theorem Dev.keepsCounter_refusalNoted (d : Dev) (cause : Nat) (ch : Int) : d.KeepsCounter (d.refusalNoted cause ch) :=
  (d.keepsCounter_raise_TC_ALARM _).trans (d.keepsTime_refusalNoted cause ch).keepsCounter

theorem Dev.validity_refusalNoted (d : Dev) (cause : Nat) (ch : Int) : (d.refusalNoted cause ch).validity = d.validity := by
  rw [(d.keepsTime_refusalNoted cause ch).validity, Dev.validity_raise_TC_ALARM]

theorem Dev.alarm_refusalNoted (d : Dev) (cause : Nat) (ch : Int) :
    (d.refusalNoted cause ch).flag R.TC_ALARM F.TC_ALARM_step_refused = true := by
  rw [(d.keepsTime_refusalNoted cause ch).flag (by decide), d.flag_raise_same _ _ ⟨by decide, by decide⟩]

/-- A refusal where the time is not VALID is its notice alone. -/
theorem Dev.stepRefuse_of_not_valid {d : Dev} (h : d.validity ≠ 2) (cause : Nat) (ch : Int) :
    d.stepRefuse cause ch = d.refusalNoted cause ch :=
  if_neg ((d.validity_refusalNoted cause ch).trans_ne h)

/-- A refusal where the time is VALID loses it. -/
theorem Dev.stepRefuse_of_valid {d : Dev} (h : d.validity = 2) (cause : Nat) (ch : Int) :
    d.stepRefuse cause ch = (d.refusalNoted cause ch).validLost :=
  if_pos ((d.validity_refusalNoted cause ch).trans h)

theorem Dev.keepsCounter_stepRefuse (d : Dev) (cause : Nat) (ch : Int) : d.KeepsCounter (d.stepRefuse cause ch) := by
  by_cases h : d.validity = 2
  · rw [Dev.stepRefuse_of_valid h]
    exact (d.keepsCounter_refusalNoted cause ch).trans (Dev.keepsCounter_validLost _)
  · rw [Dev.stepRefuse_of_not_valid h]
    exact d.keepsCounter_refusalNoted cause ch

theorem Dev.alarm_stepRefuse (d : Dev) (cause : Nat) (ch : Int) :
    (d.stepRefuse cause ch).flag R.TC_ALARM F.TC_ALARM_step_refused = true := by
  by_cases h : d.validity = 2
  · rw [Dev.stepRefuse_of_valid h, Dev.validLost, Dev.flag_raise_clear _ _ _ _ (by decide),
      Dev.flag_setValidity _ _ (by decide) (by decide), d.alarm_refusalNoted]
  · rw [Dev.stepRefuse_of_not_valid h, d.alarm_refusalNoted]

theorem Dev.validity_stepRefuse {d : Dev} (h : d.validity = 2) (cause : Nat) (ch : Int) :
    (d.stepRefuse cause ch).validity = 1 := by
  rw [Dev.stepRefuse_of_valid h, Dev.validity_validLost]

theorem Dev.validRegs_of_ca {d e : Dev} (h : e.ca = d.ca) : e.validRegs = d.validRegs := by
  rw [Dev.validRegs, Dev.validRegs, h]

theorem logRegs_validRegs_subset (d : Dev) : R.TC_ALARM :: logRegs ⊆ logRegs ++ d.validRegs := by
  intro o ho
  rcases List.mem_cons.1 ho with rfl | ho
  · exact List.mem_append_right _ (validRegs_of d (List.Subset.refl _)).alarm
  · exact List.mem_append_left _ ho

theorem Dev.frame_stepRefuse (d : Dev) (cause : Nat) (ch : Int) {p : List Part} (hp : .log :: validParts ⊆ p) :
    d.Frame (d.stepRefuse cause ch) p (logRegs ++ d.validRegs) := by
  obtain ⟨hlog, hvalid⟩ := List.cons_subset.1 hp
  have hnoted := d.frame_refusalNoted cause ch
  have hmono := hnoted.mono (q := p) (by simpa using hlog) (logRegs_validRegs_subset d)
  by_cases h : d.validity = 2
  · rw [Dev.stepRefuse_of_valid h]
    refine hmono.trans (Dev.frame_validLost _ hvalid ?_)
    rw [Dev.validRegs_of_ca (hnoted.ca_eq (by decide))]
    exact List.subset_append_right _ _
  · rw [Dev.stepRefuse_of_not_valid h]
    exact hmono

/-! The commit of a step (R140, R141). -/

/-- The change that a commit carries, its low half as written before. -/
def Dev.stepValue (d : Dev) (w : Word) : Nat :=
  getField w F.TC_STEP_HI_value_hi * 2 ^ 32 + (d.reg R.TC_STEP_LO).toNat

/-- The request that a commit makes. -/
def Dev.stepCommitted (d : Dev) (w : Word) : StepReq where
  value := if getField w F.TC_STEP_HI_absolute == 1 then (d.stepValue w : Int) else signed 48 (d.stepValue w)
  absolute := getField w F.TC_STEP_HI_absolute == 1
  onPps := false
  force := getField w F.TC_STEP_HI_force == 1

theorem Dev.stepValue_lt (d : Dev) (w : Word) : d.stepValue w < 2 ^ 48 := by
  have hhi : getField w F.TC_STEP_HI_value_hi < 2 ^ 16 := Nat.mod_lt _ (Nat.two_pow_pos _)
  have hlo := (d.reg R.TC_STEP_LO).isLt
  unfold Dev.stepValue
  omega

/-- The 48 bits of a number of 48 bits, whether it is read as signed or not. -/
theorem unsigned_of_lt {v : Nat} (h : v < 2 ^ 48) : unsigned 48 (v : Int) = v ∧ unsigned 48 (signed 48 v) = v := by
  have hv : v % 2 ^ 48 = v := Nat.mod_eq_of_lt h
  refine ⟨by unfold unsigned; omega, ?_⟩
  unfold signed
  rw [hv]
  split <;> (unfold unsigned; omega)

theorem Dev.unsigned_stepCommitted (d : Dev) (w : Word) : unsigned 48 (d.stepCommitted w).value = d.stepValue w := by
  obtain ⟨hplain, hsigned⟩ := unsigned_of_lt (d.stepValue_lt w)
  unfold Dev.stepCommitted
  dsimp only
  split
  · exact hplain
  · exact hsigned

/-- A request waits for the step tick. -/
def Dev.stepPending (d : Dev) (q : StepReq) : Dev :=
  ({ d with tc := { d.tc with step := some q } } : Dev).setFlag R.TC_STATUS F.TC_STATUS_step_busy true

theorem Dev.stepRequest_taken {d : Dev} (h : d.tc.step = none) (q : StepReq) :
    d.stepRequest q = (d.stepPending q, true) := if_neg (by simp [h])

theorem Dev.stepRequest_refused {d : Dev} (h : d.tc.step.isSome = true) (q : StepReq) :
    d.stepRequest q = (d.stepRefuse 3 (q.change d.now), false) := if_pos h

theorem Dev.stepCommit_eq (d : Dev) (w : Word) : d.stepCommit w = if (d.stepRequest (d.stepCommitted w)).2 then
    (d.stepRequest (d.stepCommitted w)).1.store R.TC_STEP_HI w else (d.stepRequest (d.stepCommitted w)).1 := rfl

theorem Dev.stepCommit_taken {d : Dev} (h : d.tc.step = none) (w : Word) :
    d.stepCommit w = (d.stepPending (d.stepCommitted w)).store R.TC_STEP_HI w := by
  rw [d.stepCommit_eq, Dev.stepRequest_taken h, if_pos rfl]

theorem Dev.stepCommit_refused {d : Dev} (h : d.tc.step.isSome = true) (w : Word) :
    d.stepCommit w = d.stepRefuse 3 ((d.stepCommitted w).change d.now) := by
  rw [d.stepCommit_eq, Dev.stepRequest_refused h, if_neg Bool.false_ne_true]

theorem Dev.writeReg_TC_STEP_HI (d : Dev) (w : Word) : d.writeReg R.TC_STEP_HI w = d.stepCommit w := by
  rw [d.writeReg_TC w (by decide), Dev.writeTC, if_neg (by decide), if_neg (by decide), if_pos rfl]

theorem Dev.frame_stepPending (d : Dev) (q : StepReq) : d.Frame (d.stepPending q) [.tc] [R.TC_STATUS] :=
  (d.frame_tc _ _ (by simp)).trans (Dev.frame_setFlag _ _ _ _ (by simp))

theorem answers_stepCommit {s : State} {w : Word} {Q : Dev → Prop} (hs : s.Up) (hQ : Q (s.dev.stepCommit w).settle) :
    Answers (.stepCommit w) s Q := by
  refine .of_write hs (o := R.TC_STEP_HI) (w := w) (by decide) rfl ?_
  rwa [s.dev.writeReg_TC_STEP_HI]

theorem step_committed {s : State} (w : Word) (hs : s.Up) (h : s.dev.tc.step = none) : Answers (.stepCommit w) s (fun e =>
    s.dev.Frame e [.tc] [R.TC_STATUS, R.TC_STEP_HI] ∧ e.flag R.TC_STATUS F.TC_STATUS_step_busy = true ∧
      e.tc = { s.dev.tc with step := some (s.dev.stepCommitted w) }) := by
  refine answers_stepCommit hs ?_
  rw [Dev.stepCommit_taken h]
  refine ⟨?_, ?_, Dev.settle_tc _⟩
  · exact (((s.dev.frame_stepPending _).mono (List.Subset.refl _) (by simp)).trans (Dev.frame_setReg _ _ _ (by simp))).settle
  · rw [Dev.flag_settle, Dev.flag, Dev.fld, Dev.store, Dev.reg_setReg_ne _ _ (by decide)]
    exact Dev.flag_setFlag_same _ _ _ _ (by decide)

theorem step_commit_refused {s : State} (w : Word) (hs : s.Up) (h : s.dev.tc.step.isSome = true) (hv : s.dev.validity ≠ 2) :
    Answers (.stepCommit w) s (fun e => s.dev.Frame e [.log] (R.TC_ALARM :: logRegs) ∧ e.tc = s.dev.tc ∧
      e.flag R.TC_ALARM F.TC_ALARM_step_refused = true) := by
  refine answers_stepCommit hs ?_
  rw [Dev.stepCommit_refused h, Dev.stepRefuse_of_not_valid hv]
  refine ⟨(s.dev.frame_refusalNoted _ _).settle, ?_, ?_⟩
  · rw [Dev.settle_tc, s.dev.tc_refusalNoted]
  · rw [Dev.flag_settle, s.dev.alarm_refusalNoted]

/-! What follows from a step applied (R61, R143, R171, R186, R214, R382). -/

/-- The PPS outputs, the lanes, the channels, the engine and a calibration after a step of the counter from `old`. -/
def Dev.stepFollowed (d : Dev) (ch : Int) (old : Nat) : Dev :=
  ((((d.ppsStep ch).disturbAll).edgeStep old).trigStep old).calAbort

theorem Dev.frame_ppsStep (d : Dev) (ch : Int) {p : List Part} (r : List Nat) (h : Part.ck ∈ p) :
    d.Frame (d.ppsStep ch) p r := .foldl (fun d _ => d.frame_ck _ r h) _ d

theorem Dev.frame_disturbAll (d : Dev) {p : List Part} (r : List Nat) (h : Part.lanes ∈ p) : d.Frame d.disturbAll p r :=
  .foldl (fun d n => Dev.frame_ite (d.frame_setLane n _ r h) (.refl d p r)) _ d

theorem Dev.frame_edgeStep (d : Dev) (old : Nat) {p : List Part} {r : List Nat} (hp : Part.chans ∈ p) (h : ValidRegs r) :
    d.Frame (d.edgeStep old) p r := by
  refine Dev.frame_forChans (fun d c hc => ?_) d
  refine Dev.frame_ite (.refl d p r) (Dev.frame_ite ?_ (d.frame_setChan c _ r hp))
  exact (d.frame_setChan c _ r hp).trans (Dev.frame_makeDue _ c _ _ hp (h.ecLate c hc) (h.ecAl c hc) h.pc)

theorem Dev.frame_closeWin (d : Dev) (u tDec : Nat) {p : List Part} {r : List Nat} (hp : Part.tg ∈ p) (h : R.PC_ALARM ∈ r) :
    d.Frame (d.closeWin u tDec) p r := by
  have hset (d : Dev) (x : UnitRun) : d.Frame (d.setUnitRun u x) p r := d.frame_setUnitRun u x r hp
  have hcount (d : Dev) (n : Nat) : d.Frame (d.count n) p r := d.frame_count n 1 p h
  unfold Dev.closeWin
  split
  · exact .refl d p r
  split
  · exact .refl d p r
  exact Dev.frame_ite (hset d _) (Dev.frame_ite ((hset d _).trans (hcount _ _)) (Dev.frame_ite
    (((hcount d _).trans (hset _ _)).trans (hcount _ _)) (((hcount d _).trans (hset _ _)).trans (hcount _ _))))

/-- Units close their windows and go on from the counter; decisions are made late after that. -/
theorem Dev.trigStep_eq_makeLate (d : Dev) (old : Nat) :
    ∃ e g, d.Frame e [.tg] [R.PC_ALARM] ∧ d.trigStep old = e.makeLate g := by
  refine ⟨_, _, .foldl (fun e x => ?_) _ _, rfl⟩
  have hclosed : e.Frame (if x.2.heldAt.isSome then
      e.setUnitRun x.1 { x.2 with wins := x.2.wins.map fun w => { w with tDec := some (w.tDec.getD e.now) } }
      else (List.range x.2.wins.length).foldl (fun e _ => e.closeWin x.1 e.now) e) [.tg] [R.PC_ALARM] :=
    Dev.frame_ite (e.frame_setUnitRun _ _ _ (by simp)) (.foldl (fun e _ => e.frame_closeWin _ _ (by simp) (by simp)) _ _)
  dsimp only
  split
  · exact hclosed.trans (Dev.frame_setUnitRun _ _ _ _ (by simp))
  · exact hclosed

theorem Dev.frame_trigStep (d : Dev) (old : Nat) {p : List Part} {r : List Nat} (hp : Part.tg ∈ p) (h : ValidRegs r) :
    d.Frame (d.trigStep old) p r := by
  obtain ⟨e, g, hframe, hlate⟩ := d.trigStep_eq_makeLate old
  rw [hlate]
  exact (hframe.mono (by simpa using hp) (by simpa using h.pc)).trans (e.frame_makeLate g hp h)

theorem Dev.keepsTime_edgeStep (d : Dev) (old : Nat) : d.KeepsTime (d.edgeStep old) := by
  refine Dev.keepsTime_forChans (fun d c => ?_) d
  exact .ite (.refl d) (.ite ((d.keepsTime_setChan c _).trans (Dev.keepsTime_makeDue _ c _ _)) (d.keepsTime_setChan c _))

theorem Dev.keepsTime_trigStep (d : Dev) (old : Nat) : d.KeepsTime (d.trigStep old) := by
  obtain ⟨e, g, hframe, hlate⟩ := d.trigStep_eq_makeLate old
  rw [hlate]
  exact (hframe.keepsTime (by decide) (by decide)).trans (e.keepsTime_makeLate g)

theorem Dev.keepsTime_stepFollowed (d : Dev) (ch : Int) (old : Nat) : d.KeepsTime (d.stepFollowed ch old) := by
  have hpps := (d.frame_ppsStep ch (p := [.ck]) [] (by simp)).keepsTime (by decide) (by simp)
  have hlanes (e : Dev) := (e.frame_disturbAll (p := [.lanes]) [] (by simp)).keepsTime (by decide) (by simp)
  exact (((hpps.trans (hlanes _)).trans (Dev.keepsTime_edgeStep _ old)).trans (Dev.keepsTime_trigStep _ old)).trans
    (Dev.keepsTime_calAbort _)

theorem Dev.frame_stepFollowed (d : Dev) (ch : Int) (old : Nat) {p : List Part} {r : List Nat}
    (hp : .lanes :: cleanParts ⊆ p) (hr : d.validRegs ⊆ r) : d.Frame (d.stepFollowed ch old) p r := by
  have h := validRegs_of d hr
  have hbefore {q : List Part} (hq : [.ck, .lanes, .chans, .tg] ⊆ q) :
      d.Frame ((((d.ppsStep ch).disturbAll).edgeStep old).trigStep old) q r :=
    (((d.frame_ppsStep ch r (hq (by simp))).trans (Dev.frame_disturbAll _ r (hq (by simp)))).trans
      (Dev.frame_edgeStep _ old (hq (by simp)) h)).trans (Dev.frame_trigStep _ old (hq (by simp)) h)
  have hca := (hbefore (List.Subset.refl _)).ca_eq (by decide)
  refine (hbefore fun x hx => hp ?_).trans (Dev.frame_calAbort _ (hp (by decide)) (hp (by decide)) h fun o ho => hr ?_)
  · simp only [List.mem_cons, List.not_mem_nil, or_false] at hx
    rcases hx with rfl | rfl | rfl | rfl <;> decide
  · rw [hca] at ho
    simp [Dev.validRegs, ho]

/-! The step tick (R141–R143). -/

/-- The pending step is taken up. -/
def Dev.stepTaken (d : Dev) : Dev :=
  ({ d with tc := { d.tc with step := none } } : Dev).setFlag R.TC_STATUS F.TC_STATUS_step_busy false

/-- The counter after a change, with its time epoch, and the alarm. -/
def Dev.stepAdded (d : Dev) (ch : Int) (expect : Nat) : Dev :=
  ((({ d with tc := { d.tc with acc := (((d.tc.acc : Int) + ch * 2 ^ 24) % (2 ^ 72 : Nat)).toNat
                                expect := expect
                                marks := d.marked ch } } : Dev).setFld R.TC_STATUS F.TC_STATUS_te (d.te + 1)).raise
    R.TC_ALARM F.TC_ALARM_step_applied)

/-- A change beyond TC_STEP_LIMIT. -/
abbrev Dev.stepLarge (d : Dev) (ch : Int) : Prop := ns (d.reg R.TC_STEP_LIMIT).toNat < ch.natAbs

/-- A step applied is counted, and a large one recorded. -/
def Dev.stepNoted (d : Dev) (ch : Int) (large : Prop) [Decidable large] : Dev :=
  if large then (d.count (devCtr 11)).recStep 1 (d.count (devCtr 11)).te 0 ch else d.count (devCtr 11)

/-- What refuses a step at its tick. -/
abbrev Dev.stepBad (d : Dev) (r : StepReq) : Prop :=
  d.inFault = true ∨ r.change d.now = 0 ∨ (d.stepLarge (r.change d.now) ∧ r.force = false)

theorem Dev.inFault_stepTaken (d : Dev) : d.stepTaken.inFault = d.inFault := by
  rw [Dev.inFault, Dev.inFault, Dev.stepTaken, Dev.setFlag, Dev.fld_setFld_ne _ _ _ _ (by decide)]
  rfl

theorem Dev.stepNow_refused {d : Dev} {r : StepReq} (hr : d.tc.step = some r) (hbad : d.stepBad r) :
    ∃ cause, d.stepNow = d.stepTaken.stepRefuse cause (r.change d.now) := by
  have hfault := d.inFault_stepTaken
  unfold Dev.stepTaken at hfault ⊢
  unfold Dev.stepNow
  rw [hr]
  dsimp only
  rw [hfault]
  by_cases hf : d.inFault = true
  · exact ⟨2, if_pos hf⟩
  by_cases hz : r.change d.now = 0
  · exact ⟨4, by rw [if_neg hf, if_pos hz]⟩
  obtain ⟨hlarge, hforce⟩ := (hbad.resolve_left hf).resolve_left hz
  exact ⟨1, by rw [if_neg hf, if_neg hz, if_pos (by simp [hlarge, hforce])]⟩

theorem Dev.stepNow_applied {d : Dev} {r : StepReq} (hr : d.tc.step = some r) (hgood : ¬ d.stepBad r) : ∃ expect,
    d.stepNow = ((d.stepTaken.stepAdded (r.change d.now) expect).stepNoted (r.change d.now)
      (d.stepLarge (r.change d.now))).stepFollowed (r.change d.now) d.now := by
  obtain ⟨hf, hgood⟩ := not_or.1 hgood
  obtain ⟨hz, hlarge⟩ := not_or.1 hgood
  have hfault := d.inFault_stepTaken
  refine ⟨if r.onPps then d.stepTaken.tc.expect else t48Add d.stepTaken.tc.expect (r.change d.now), ?_⟩
  unfold Dev.stepTaken at hfault ⊢
  unfold Dev.stepNow
  rw [hr]
  dsimp only
  rw [hfault, if_neg hf, if_neg hz, if_neg (by simpa using hlarge)]
  simp only [decide_eq_true_eq]
  rfl

/-! The device once the step is taken up. -/

theorem Dev.frame_stepTaken (d : Dev) : d.Frame d.stepTaken [.tc] [R.TC_STATUS] :=
  (d.frame_tc _ _ (by simp)).trans (Dev.frame_setFlag _ _ _ _ (by simp))

theorem Dev.te_stepTaken (d : Dev) : d.stepTaken.te = d.te :=
  Dev.fld_setFld_clear _ _ _ _ _ (by decide)

theorem Dev.validity_stepTaken (d : Dev) : d.stepTaken.validity = d.validity :=
  Dev.fld_setFld_clear _ _ _ _ _ (by decide)

theorem Dev.busy_stepTaken (d : Dev) : d.stepTaken.flag R.TC_STATUS F.TC_STATUS_step_busy = false :=
  Dev.flag_setFlag_same _ _ _ _ (by decide)

theorem Dev.validRegs_stepTaken (d : Dev) : d.stepTaken.validRegs = d.validRegs := Dev.validRegs_of_ca rfl

theorem Dev.frame_stepTaken_step (d : Dev) {p : List Part} (hp : Part.tc ∈ p) :
    d.Frame d.stepTaken p (logRegs ++ d.validRegs) :=
  d.frame_stepTaken.mono (by simpa using hp)
    (by simpa using Or.inr (validRegs_of d (List.Subset.refl _)).status)

/-- A step refused at its tick: nothing of it is applied. -/
theorem step_refused {s : State} {r : StepReq} (hs : s.Awake) (hr : s.dev.tc.step = some r) (hbad : s.dev.stepBad r) :
    Answers .stepApply s (fun e => s.dev.Frame e (.log :: cleanParts) (logRegs ++ s.dev.validRegs) ∧
      e.tc.acc = s.dev.tc.acc ∧ e.te = s.dev.te ∧ e.tc.step = none ∧ e.tc.expect = s.dev.tc.expect ∧
      e.flag R.TC_STATUS F.TC_STATUS_step_busy = false ∧ e.flag R.TC_ALARM F.TC_ALARM_step_refused = true ∧
      (s.dev.validity = 2 → e.validity = 1)) := by
  obtain ⟨cause, hstep⟩ := Dev.stepNow_refused hr hbad
  have hkeeps := s.dev.stepTaken.keepsCounter_stepRefuse cause (r.change s.dev.now)
  have hframe := s.dev.stepTaken.frame_stepRefuse cause (r.change s.dev.now) (p := .log :: cleanParts) (by decide)
  rw [s.dev.validRegs_stepTaken] at hframe
  refine .of_awake (f := Dev.stepNow) hs rfl ?_
  rw [hstep]
  refine ⟨((s.dev.frame_stepTaken_step (by decide)).trans hframe).settle, ?_, ?_, ?_, ?_, ?_, ?_, fun hv => ?_⟩
  · rw [Dev.settle_tc, hkeeps.acc]
    rfl
  · rw [Dev.te_settle, hkeeps.te, s.dev.te_stepTaken]
  · rw [Dev.settle_tc, hkeeps.step]
    rfl
  · rw [Dev.settle_tc, hkeeps.expect]
    rfl
  · rw [Dev.flag_settle, hkeeps.busy, s.dev.busy_stepTaken]
  · rw [Dev.flag_settle, Dev.alarm_stepRefuse]
  · rw [Dev.validity_settle, Dev.validity_stepRefuse (s.dev.validity_stepTaken.trans hv)]

/-! The counter once the step is added. -/

section
variable (d : Dev) (ch : Int) (expect : Nat)

theorem Dev.frame_stepAdded : d.Frame (d.stepAdded ch expect) [.tc] [R.TC_STATUS, R.TC_ALARM] :=
  ((d.frame_tc _ _ (by simp)).trans (Dev.frame_setFld _ _ _ _ (by simp))).trans (Dev.frame_raise _ _ _ (by simp))

theorem Dev.acc_stepAdded : ((d.stepAdded ch expect).tc.acc : Int) = (d.tc.acc + ch * 2 ^ 24) % 2 ^ 72 := by
  rw [Dev.stepAdded, Dev.raise_tc, Dev.setFld_tc]
  exact Int.toNat_of_nonneg (Int.emod_nonneg _ (by decide))

theorem Dev.step_stepAdded : (d.stepAdded ch expect).tc.step = d.tc.step := by
  rw [Dev.stepAdded, Dev.raise_tc, Dev.setFld_tc]

theorem Dev.te_stepAdded : (d.stepAdded ch expect).te = (d.te + 1) % 256 := by
  rw [Dev.te, Dev.stepAdded, Dev.fld_raise_ne _ _ _ (by decide)]
  exact Dev.fld_setFld_same _ _ _ _ ⟨by decide, by decide⟩

theorem Dev.busy_stepAdded : (d.stepAdded ch expect).flag R.TC_STATUS F.TC_STATUS_step_busy =
    d.flag R.TC_STATUS F.TC_STATUS_step_busy := by
  rw [Dev.stepAdded, Dev.flag_raise_ne _ _ _ (by decide)]
  exact Dev.flag_setFld_clear _ _ _ _ _ (by decide)

theorem Dev.validity_stepAdded : (d.stepAdded ch expect).validity = d.validity := by
  rw [Dev.stepAdded, Dev.validity_raise_TC_ALARM]
  exact Dev.fld_setFld_clear _ _ _ _ _ (by decide)

theorem Dev.alarm_stepAdded : (d.stepAdded ch expect).flag R.TC_ALARM F.TC_ALARM_step_applied = true :=
  Dev.flag_raise_same _ _ _ ⟨by decide, by decide⟩

end

theorem Dev.frame_stepNoted (d : Dev) (ch : Int) (large : Prop) [Decidable large] :
    d.Frame (d.stepNoted ch large) [.log] logRegs := by
  have hcount := d.frame_count (devCtr 11) 1 [.log] (r := logRegs) (by simp [logRegs])
  exact Dev.frame_ite (hcount.trans (Dev.frame_record _ _ _ (by simp) (List.Subset.refl _))) hcount

/-- A step applied at its tick. -/
theorem step_applied {s : State} {r : StepReq} (hs : s.Awake) (hr : s.dev.tc.step = some r) (hgood : ¬ s.dev.stepBad r) :
    Answers .stepApply s (fun e => s.dev.Frame e (.log :: .lanes :: cleanParts) (logRegs ++ s.dev.validRegs) ∧
      (e.tc.acc : Int) = (s.dev.tc.acc + r.change s.dev.now * 2 ^ 24) % 2 ^ 72 ∧ e.te = (s.dev.te + 1) % 256 ∧
      e.tc.step = none ∧ e.flag R.TC_STATUS F.TC_STATUS_step_busy = false ∧
      e.flag R.TC_ALARM F.TC_ALARM_step_applied = true ∧ e.validity = s.dev.validity) := by
  obtain ⟨expect, hstep⟩ := Dev.stepNow_applied hr hgood
  have hadded := s.dev.stepTaken.frame_stepAdded (r.change s.dev.now) expect
  have hnoted := (s.dev.stepTaken.stepAdded (r.change s.dev.now) expect).frame_stepNoted (r.change s.dev.now)
    (s.dev.stepLarge (r.change s.dev.now))
  have hkeeps := (hnoted.keepsTime (by decide) (by decide)).trans
    (Dev.keepsTime_stepFollowed _ (r.change s.dev.now) s.dev.now)
  have hvalid := validRegs_of s.dev (List.Subset.refl _)
  have hca := (hnoted.ca_eq (by decide)).trans (hadded.ca_eq (by decide))
  have hfollowed := Dev.frame_stepFollowed ((s.dev.stepTaken.stepAdded (r.change s.dev.now) expect).stepNoted
    (r.change s.dev.now) (s.dev.stepLarge (r.change s.dev.now))) (r.change s.dev.now) s.dev.now
    (p := .log :: .lanes :: cleanParts) (r := logRegs ++ s.dev.validRegs) (by decide)
    (by rw [Dev.validRegs_of_ca hca, s.dev.validRegs_stepTaken]; exact List.subset_append_right _ _)
  refine .of_awake (f := Dev.stepNow) hs rfl ?_
  rw [hstep]
  refine ⟨?_, ?_, ?_, ?_, ?_, ?_, ?_⟩
  · refine ((((s.dev.frame_stepTaken_step (by decide)).trans (hadded.mono (by decide) ?_)).trans
      (hnoted.mono (by decide) (List.subset_append_left _ _))).trans hfollowed).settle
    simpa using ⟨.inr hvalid.status, .inr hvalid.alarm⟩
  · rw [Dev.settle_tc, hkeeps.tc, Dev.acc_stepAdded]
    rfl
  · rw [Dev.te_settle, hkeeps.te, Dev.te_stepAdded, s.dev.te_stepTaken]
  · rw [Dev.settle_tc, hkeeps.tc, Dev.step_stepAdded]
    rfl
  · rw [Dev.flag_settle, hkeeps.flag (by decide), Dev.busy_stepAdded, s.dev.busy_stepTaken]
  · rw [Dev.flag_settle, hkeeps.flag (by decide), Dev.alarm_stepAdded]
  · rw [Dev.validity_settle, hkeeps.validity, Dev.validity_stepAdded, s.dev.validity_stepTaken]

/-- Settles O15: a commit waits or is refused; the step tick refuses the pending step, or adds it to the counter. -/
theorem counterStep : Obligations.CounterStep := by
  intro s w r hs
  refine ⟨fun h => ?_, fun h hv => step_commit_refused w hs h hv, fun hr =>
    ⟨fun hbad => step_refused hs.1 hr hbad, fun hgood => step_applied hs.1 hr hgood⟩⟩
  obtain ⟨t, hrun, hpending, hframe, hbusy, htc⟩ := step_committed w hs h
  exact ⟨t, hrun, hpending, hframe, hbusy, _, htc, beq_iff_eq, beq_iff_eq, s.dev.unsigned_stepCommitted w⟩

end Sys2Proof.Machine
end

section
/-! PROOF of O16. The rows of validity that the host and a timer bring about (R147), and the edges of the 1PPS time source with
TC_PPS_EXPECT (R145, R425). -/

namespace Sys2Proof.Machine

/-! Registers of the time source that no change of validity moves. -/

/-- The registers of validity: seven by name, and those of edge channels by their place in a channel's window. -/
theorem Dev.place_of_mem_validRegs {d : Dev} {o : Nat} (h : o ∈ d.validRegs) :
    o ∈ [R.TC_STATUS, R.TC_ALARM, R.CA_STATUS, R.CA_ALARM, R.TG_ALARM, R.TG_LATE, R.PC_ALARM] ∨
      0x70000 ≤ o ∧ o % 0x200 ∈ [0x24, 0x28, 0x38] := by
  simp only [Dev.validRegs, List.mem_append, List.mem_map] at h
  rcases h with ((h | ⟨c, -, rfl⟩) | ⟨c, -, rfl⟩) | h
  · exact .inl h
  · refine .inr ?_
    simp only [R.EC_ALARM, List.mem_cons]
    omega
  · refine .inr ?_
    simp only [R.EC_DTC_LATE, List.mem_cons]
    omega
  · refine .inr ?_
    split at h
    · simp only [List.mem_singleton, R.EC_STATUS] at h
      simp only [List.mem_cons]
      omega
    · simp at h

theorem Dev.source_not_mem_validRegs (d : Dev) :
    R.TC_SRC_CFG ∉ d.validRegs ∧ R.PS_PAIR_STATUS ∉ d.validRegs ∧ R.TC_PPS_STAMP_LO ∉ d.validRegs :=
  ⟨fun h => absurd (Dev.place_of_mem_validRegs h) (by decide), fun h => absurd (Dev.place_of_mem_validRegs h) (by decide),
    fun h => absurd (Dev.place_of_mem_validRegs h) (by decide)⟩

theorem Dev.Frame.standby_eq {d e : Dev} {p : List Part} {r : List Nat} (h : d.Frame e p r) (hr : R.PS_PAIR_STATUS ∉ r) :
    e.standby = d.standby := by
  rw [Dev.standby, Dev.pairState, h.fld_eq hr]
  rfl

theorem Dev.Frame.timeSource_eq {d e : Dev} {p : List Part} {r : List Nat} (h : d.Frame e p r) (hr : R.PS_PAIR_STATUS ∉ r)
    (hr' : R.TC_SRC_CFG ∉ r) : e.timeSource = d.timeSource := by
  rw [Dev.timeSource, h.standby_eq hr, h.fld_eq hr']
  rfl

theorem Dev.Frame.locked_eq {d e : Dev} {p : List Part} {r : List Nat} (h : d.Frame e p r) (hr : R.CK_STATUS ∉ r) :
    e.locked = d.locked := by
  rw [Dev.locked, Dev.cleaner, h.fld_eq hr]
  rfl

theorem Dev.Frame.inFault_eq {d e : Dev} {p : List Part} {r : List Nat} (h : d.Frame e p r) (hr : R.CK_STATUS ∉ r) :
    e.inFault = d.inFault := by
  rw [Dev.inFault, h.fld_eq hr]
  rfl

theorem Dev.Frame.validity_eq {d e : Dev} {p : List Part} {r : List Nat} (h : d.Frame e p r) (hr : R.TC_STATUS ∉ r) :
    e.validity = d.validity := h.fld_eq hr _

/-- The registers of validity after a step that begins no calibration. -/
theorem Dev.validRegs_subset_of_op {d e : Dev} (h : e.ca.op = d.ca.op ∨ e.ca.op = none) : e.validRegs ⊆ d.validRegs := by
  rcases h with h | h
  · rw [Dev.validRegs, Dev.validRegs, h]
    exact List.Subset.refl _
  · rw [Dev.validRegs, Dev.validRegs, h]
    exact List.append_subset.2 ⟨List.subset_append_left _ _, List.nil_subset _⟩

/-! The rows of R147. -/

theorem Dev.validCheck_of_aligning {d : Dev} (h : d.validity = 1) : d.validCheck =
    if d.timeSource = 3 then (if d.sourcePresent && d.locked then d.setValidity 2 else d)
    else if d.sourcePresent && d.locked then d else { d with tc := { d.tc with goodRun := 0 } } := by
  simp only [Dev.validCheck, h]

theorem Dev.validCheck_of_valid {d : Dev} (h : d.validity = 2) : d.validCheck =
    if d.cleaner = 1 ∨ d.cleaner = 2 then d.validLost
    else if !d.sourcePresent then (d.setValidity 3).raise R.TC_ALARM F.TC_ALARM_src_lost
    else if d.cleaner = 6 then d.setValidity 3 else d := by
  simp only [Dev.validCheck, h]

theorem Dev.validCheck_of_hold {d : Dev} (h : d.validity = 3) : d.validCheck =
    if d.cleaner = 1 then d.validLost else if d.sourcePresent && d.locked then d.setValidity 2 else d := by
  simp only [Dev.validCheck, h, Dev.holdReturn]

/-- ALIGNING, with a source other than the host's own word: the rows change no register. -/
theorem Dev.validCheck_aligning {d : Dev} (h : d.validity = 1) (hs : d.timeSource ≠ 3) :
    ∃ x, d.validCheck = { d with tc := x } := by
  rw [Dev.validCheck_of_aligning h, if_neg hs]
  split
  · exact ⟨d.tc, rfl⟩
  · exact ⟨_, rfl⟩

theorem Dev.sourcePresent_host {d : Dev} (hs : d.timeSource = 3) :
    d.sourcePresent = d.flag R.TC_CTRL F.TC_CTRL_host_valid := by
  simp only [Dev.sourcePresent, hs]

theorem Dev.cleaner_of_locked {d : Dev} (h : d.locked = true) : d.cleaner = 4 ∨ d.cleaner = 5 := by
  simpa [Dev.locked] using h

/-- VALID, and the host withdraws its word: HOLD. -/
theorem Dev.validCheck_host_lost {d : Dev} (h : d.validity = 2) (hs : d.timeSource = 3) (hl : d.locked = true)
    (hv : d.flag R.TC_CTRL F.TC_CTRL_host_valid = false) :
    d.validCheck = (d.setValidity 3).raise R.TC_ALARM F.TC_ALARM_src_lost := by
  have hclean := Dev.cleaner_of_locked hl
  rw [Dev.validCheck_of_valid h, if_neg (by omega), Dev.sourcePresent_host hs, hv, if_pos (by decide)]

/-- ALIGNING or HOLD, and the host gives its word: VALID. -/
theorem Dev.validCheck_host_valid {d : Dev} (h : d.validity = 1 ∨ d.validity = 3) (hs : d.timeSource = 3)
    (hl : d.locked = true) (hv : d.flag R.TC_CTRL F.TC_CTRL_host_valid = true) : d.validCheck = d.setValidity 2 := by
  have hclean := Dev.cleaner_of_locked hl
  have hpresent : (d.sourcePresent && d.locked) = true := by rw [Dev.sourcePresent_host hs, hv, hl]; rfl
  rcases h with h | h
  · rw [Dev.validCheck_of_aligning h, if_pos hs, if_pos hpresent]
  · rw [Dev.validCheck_of_hold h, if_neg (by omega), if_pos hpresent]

/-! TC_SRC_CFG. -/

theorem Dev.writeReg_TC_SRC_CFG (d : Dev) (w : Word) : d.writeReg R.TC_SRC_CFG w = d.sourceWrite w := by
  rw [d.writeReg_TC w (by decide), Dev.writeTC, if_neg (by decide), if_neg (by decide), if_neg (by decide), if_pos rfl]

theorem answers_sourceWrite {s : State} {w : Word} {Q : Dev → Prop} (hs : s.Up) (hQ : Q (s.dev.sourceWrite w).settle) :
    Answers (.sourceWrite w) s Q := by
  refine .of_write hs (o := R.TC_SRC_CFG) (w := w) (by decide) rfl ?_
  rwa [s.dev.writeReg_TC_SRC_CFG]

/-- The source field is stored last, and takes every value. -/
theorem Dev.source_fieldsStored (d : Dev) (w : Word) :
    getField (d.fieldsStored R.TC_SRC_CFG w) F.TC_SRC_CFG_source = getField w F.TC_SRC_CFG_source := by
  have hspec : (regSpec R.TC_SRC_CFG).map (·.fields) = some [⟨F.TC_SRC_CFG_port, .rw, .any⟩,
      ⟨F.TC_SRC_CFG_refin, .rw, .any⟩, ⟨F.TC_SRC_CFG_source, .rw, .any⟩] := by decide
  obtain ⟨r, hr, hfields⟩ := Option.map_eq_some_iff.1 hspec
  simp only [Dev.fieldsStored, hr, hfields, List.foldl_cons, List.foldl_nil]
  exact FieldSpec.getField_store_any ⟨by decide, by decide⟩ _ _

/-- TC_SRC_CFG is written, and the next edge is the first of its source. -/
def Dev.sourceStored (d : Dev) (w : Word) : Dev :=
  { d.store R.TC_SRC_CFG w with tc := { d.tc with firstEdge := true } }

theorem Dev.frame_sourceStored (d : Dev) (w : Word) : d.Frame (d.sourceStored w) [.tc] [R.TC_SRC_CFG] :=
  (d.frame_setReg _ _ (by simp)).trans (Dev.frame_tc _ _ _ (by simp))

theorem Dev.source_sourceStored (d : Dev) (w : Word) :
    (d.sourceStored w).fld R.TC_SRC_CFG F.TC_SRC_CFG_source = getField w F.TC_SRC_CFG_source :=
  (d.fld_store R.TC_SRC_CFG w _).trans (d.source_fieldsStored w)

/-- A write that changes the source, on a device that is no STANDBY. -/
theorem Dev.sourceWrite_changed {d : Dev} {w : Word} (hstandby : d.standby = false)
    (h : d.fld R.TC_SRC_CFG F.TC_SRC_CFG_source ≠ getField w F.TC_SRC_CFG_source) : d.sourceWrite w =
      if getField w F.TC_SRC_CFG_source = 0 then
        (if (d.sourceStored w).validity = 0 then d.sourceStored w else (d.sourceStored w).setValidity 0)
      else if (d.sourceStored w).inFault then d.sourceStored w
      else if (d.sourceStored w).validity = 0 then ((d.sourceStored w).setValidity 1).validCheck
      else
        let e : Dev := { d.sourceStored w with tc := { (d.sourceStored w).tc with integ := 0 } }
        (if e.validity = 1 then e.setValidity 1 else e.validLost).validCheck := by
  have hsource := d.source_sourceStored w
  have hb : (d.sourceStored w).standby = false :=
    ((d.frame_sourceStored w).standby_eq (by decide)).trans hstandby
  have hfirst : d.sourceWrite w = if (d.sourceStored w).standby then d.sourceStored w
      else if (d.sourceStored w).fld R.TC_SRC_CFG F.TC_SRC_CFG_source = 0 then
        (if (d.sourceStored w).validity = 0 then d.sourceStored w else (d.sourceStored w).setValidity 0)
      else if (d.sourceStored w).inFault then d.sourceStored w
      else if (d.sourceStored w).validity = 0 then ((d.sourceStored w).setValidity 1).validCheck
      else
        let e : Dev := { d.sourceStored w with tc := { (d.sourceStored w).tc with integ := 0 } }
        (if e.validity = 1 then e.setValidity 1 else e.validLost).validCheck := by
    refine if_neg fun hsame => h ?_
    simp only [Bool.and_eq_true, beq_iff_eq] at hsame
    rw [hsame.1.1, d.fld_store, d.source_fieldsStored]
  rw [hfirst, hb, if_neg Bool.false_ne_true, hsource]

section
variable {s : State} {w : Word}

/-- A frame of a write to one register of the time core, and of what validity makes of it. -/
theorem Dev.Frame.then_valid {d e f : Dev} {o : Nat} (h : d.Frame e [.tc] [o]) (h' : e.Frame f validParts (o :: d.validRegs)) :
    d.Frame f validParts (o :: d.validRegs) := (h.mono (by decide) (by simp)).trans h'

/-- A first source: ALIGNING. -/
theorem source_begun (hs : s.Up) (hstandby : s.dev.standby = false) (hv : s.dev.validity = 0)
    (h0 : s.dev.fld R.TC_SRC_CFG F.TC_SRC_CFG_source = 0) (hf : s.dev.inFault = false)
    (hw : getField w F.TC_SRC_CFG_source = 1 ∨ getField w F.TC_SRC_CFG_source = 2) :
    Answers (.sourceWrite w) s (fun e => s.dev.Frame e validParts (R.TC_SRC_CFG :: s.dev.validRegs) ∧
      e.validity = 1 ∧ e.timeValid = false) := by
  have hstored := s.dev.frame_sourceStored w
  have hregs : (s.dev.sourceStored w).validRegs = s.dev.validRegs := Dev.validRegs_of_ca rfl
  have hbegun := (s.dev.sourceStored w).frame_setValidity 1 (List.Subset.refl validParts) (List.Subset.refl _)
  obtain ⟨hcfg, hpair, -⟩ := (s.dev.sourceStored w).source_not_mem_validRegs
  have hsource : ((s.dev.sourceStored w).setValidity 1).timeSource ≠ 3 := by
    rw [hbegun.timeSource_eq hpair hcfg, Dev.timeSource, hstored.standby_eq (by decide), hstandby,
      if_neg Bool.false_ne_true, s.dev.source_sourceStored]
    omega
  obtain ⟨x, hx⟩ := Dev.validCheck_aligning ((s.dev.sourceStored w).validity_setValidity (by decide)) hsource
  refine answers_sourceWrite hs ?_
  rw [Dev.sourceWrite_changed hstandby (by omega), if_neg (by omega), hstored.inFault_eq (by decide), hf,
    if_neg Bool.false_ne_true, if_pos ((hstored.validity_eq (by decide)).trans hv), hx]
  refine ⟨((hstored.then_valid ?_).trans (Dev.frame_tc _ _ _ (by decide))).settle, ?_, ?_⟩
  · exact hbegun.mono (List.Subset.refl _) (by rw [hregs]; exact List.subset_cons_self _ _)
  · rw [Dev.validity_settle]
    exact (s.dev.sourceStored w).validity_setValidity (by decide)
  · rw [Dev.timeValid_settle]
    exact (s.dev.sourceStored w).timeValid_setValidity 1

/-- No source: INVALID. -/
theorem source_ended (hs : s.Up) (hstandby : s.dev.standby = false) (hv : s.dev.validity ≠ 0)
    (h0 : s.dev.fld R.TC_SRC_CFG F.TC_SRC_CFG_source ≠ 0) (hw : getField w F.TC_SRC_CFG_source = 0) :
    Answers (.sourceWrite w) s (fun e => s.dev.Frame e validParts (R.TC_SRC_CFG :: s.dev.validRegs) ∧
      e.validity = 0 ∧ e.timeValid = false) := by
  have hstored := s.dev.frame_sourceStored w
  have hregs : (s.dev.sourceStored w).validRegs = s.dev.validRegs := Dev.validRegs_of_ca rfl
  refine answers_sourceWrite hs ?_
  rw [Dev.sourceWrite_changed hstandby (by omega), if_pos hw,
    if_neg ((hstored.validity_eq (by decide)).trans_ne hv)]
  refine ⟨(hstored.then_valid ?_).settle, ?_, ?_⟩
  · exact Dev.frame_setValidity _ 0 (List.Subset.refl _) (by rw [hregs]; exact List.subset_cons_self _ _)
  · rw [Dev.validity_settle, Dev.validity_setValidity _ (by decide)]
  · rw [Dev.timeValid_settle, Dev.timeValid_setValidity]
    rfl

end

/-! TC_CTRL.host_valid. -/

theorem Dev.writeReg_TC_CTRL (d : Dev) (w : Word) : d.writeReg R.TC_CTRL w = (d.store R.TC_CTRL w).validCheck := by
  rw [d.writeReg_TC w (by decide), Dev.writeTC, if_pos rfl]

theorem answers_hostValidWrite {s : State} {w : Word} {Q : Dev → Prop} (hs : s.Up)
    (hQ : Q (s.dev.store R.TC_CTRL w).validCheck.settle) : Answers (.hostValidWrite w) s Q := by
  refine .of_write hs (o := R.TC_CTRL) (w := w) (by decide) rfl ?_
  rwa [s.dev.writeReg_TC_CTRL]

theorem Dev.hostValid_fieldsStored (d : Dev) (w : Word) :
    getField (d.fieldsStored R.TC_CTRL w) F.TC_CTRL_host_valid = getField w F.TC_CTRL_host_valid := by
  have hspec : (regSpec R.TC_CTRL).map (·.fields) = some [⟨F.TC_CTRL_host_valid, .rw, .any⟩,
      ⟨F.TC_CTRL_servo_mode, .rw, .any⟩, ⟨F.TC_CTRL_incr_src, .rw, .any⟩] := by decide
  obtain ⟨r, hr, hfields⟩ := Option.map_eq_some_iff.1 hspec
  have hok : F.TC_CTRL_host_valid.ok := ⟨by decide, by decide⟩
  simp only [Dev.fieldsStored, hr, hfields, List.foldl_cons, List.foldl_nil]
  rw [FieldSpec.getField_store_apart _ ⟨by decide, by decide⟩ hok (.inl (by decide)),
    FieldSpec.getField_store_apart _ ⟨by decide, by decide⟩ hok (.inl (by decide)),
    FieldSpec.getField_store_any hok]

theorem Dev.flag_store_TC_CTRL (d : Dev) (w : Word) :
    (d.store R.TC_CTRL w).flag R.TC_CTRL F.TC_CTRL_host_valid = (getField w F.TC_CTRL_host_valid != 0) := by
  rw [Dev.flag, d.fld_store, d.hostValid_fieldsStored]

/-- What a write of TC_CTRL leaves that the rows of R147 look at, where the host's word is the source. -/
theorem Dev.host_stored {d : Dev} (w : Word) (hstandby : d.standby = false)
    (h3 : d.fld R.TC_SRC_CFG F.TC_SRC_CFG_source = 3) (hl : d.locked = true) :
    d.Frame (d.store R.TC_CTRL w) [] [R.TC_CTRL] ∧ (d.store R.TC_CTRL w).validity = d.validity ∧
      (d.store R.TC_CTRL w).timeSource = 3 ∧ (d.store R.TC_CTRL w).locked = true := by
  have hstored : d.Frame (d.store R.TC_CTRL w) [] [R.TC_CTRL] := d.frame_setReg _ _ (by simp)
  refine ⟨hstored, hstored.validity_eq (by decide), ?_, (hstored.locked_eq (by decide)).trans hl⟩
  rw [hstored.timeSource_eq (by decide) (by decide), Dev.timeSource, hstandby, if_neg Bool.false_ne_true, h3]

section
variable {s : State} {w : Word}

theorem Dev.frame_hostValid (d : Dev) (w : Word) :
    d.Frame (d.store R.TC_CTRL w).validCheck validParts (R.TC_CTRL :: d.validRegs) :=
  (d.frame_setReg _ _ (by simp)).trans (Dev.frame_validCheck _ (List.Subset.refl _) (List.subset_cons_self _ _))

theorem host_word_withdrawn (hs : s.Up) (hstandby : s.dev.standby = false)
    (h3 : s.dev.fld R.TC_SRC_CFG F.TC_SRC_CFG_source = 3) (hl : s.dev.locked = true) (hv : s.dev.validity = 2)
    (hw : getField w F.TC_CTRL_host_valid = 0) : Answers (.hostValidWrite w) s (fun e =>
      s.dev.Frame e validParts (R.TC_CTRL :: s.dev.validRegs) ∧ e.validity = 3 ∧ e.timeValid = true) := by
  obtain ⟨-, hvalid, hsource, hlocked⟩ := Dev.host_stored w hstandby h3 hl
  have hflag : (s.dev.store R.TC_CTRL w).flag R.TC_CTRL F.TC_CTRL_host_valid = false := by
    rw [s.dev.flag_store_TC_CTRL, hw]
    rfl
  have hrow := Dev.validCheck_host_lost (hvalid.trans hv) hsource hlocked hflag
  refine answers_hostValidWrite hs ⟨(s.dev.frame_hostValid w).settle, ?_, ?_⟩
  · rw [Dev.validity_settle, hrow, Dev.validity_raise_TC_ALARM, Dev.validity_setValidity _ (by decide)]
  · rw [Dev.timeValid_settle, hrow, Dev.timeValid_raise_TC_ALARM, Dev.timeValid_setValidity]
    rfl

theorem host_word_given (hs : s.Up) (hstandby : s.dev.standby = false)
    (h3 : s.dev.fld R.TC_SRC_CFG F.TC_SRC_CFG_source = 3) (hl : s.dev.locked = true)
    (hv : s.dev.validity = 1 ∨ s.dev.validity = 3) (hw : getField w F.TC_CTRL_host_valid = 1) :
    Answers (.hostValidWrite w) s (fun e =>
      s.dev.Frame e validParts (R.TC_CTRL :: s.dev.validRegs) ∧ e.validity = 2 ∧ e.timeValid = true) := by
  obtain ⟨-, hvalid, hsource, hlocked⟩ := Dev.host_stored w hstandby h3 hl
  have hflag : (s.dev.store R.TC_CTRL w).flag R.TC_CTRL F.TC_CTRL_host_valid = true := by
    rw [s.dev.flag_store_TC_CTRL, hw]
    rfl
  have hrow := Dev.validCheck_host_valid (by rwa [hvalid]) hsource hlocked hflag
  refine answers_hostValidWrite hs ⟨(s.dev.frame_hostValid w).settle, ?_, ?_⟩
  · rw [Dev.validity_settle, hrow, Dev.validity_setValidity _ (by decide)]
  · rw [Dev.timeValid_settle, hrow, Dev.timeValid_setValidity]
    rfl

end

/-! The end of HOLD by its timer. -/

theorem hold_expired {s : State} (hs : s.Up) (hv : s.dev.validity = 3) : Answers .holdLimitExpiry s (fun e =>
    s.dev.Frame e validParts s.dev.validRegs ∧ e.validity = 1 ∧ e.timeValid = false ∧
      e.flag R.TC_ALARM F.TC_ALARM_hold_expired = true ∧ e.flag R.TC_ALARM F.TC_ALARM_valid_lost = true) := by
  have hregs := validRegs_of s.dev (List.Subset.refl _)
  refine .of_running (f := fun d => if d.validity = 3 then d.validLost.raise R.TC_ALARM F.TC_ALARM_hold_expired else d) hs rfl ?_
  rw [if_pos hv]
  refine ⟨?_, ?_, ?_, ?_, ?_⟩
  · exact ((s.dev.frame_validLost (List.Subset.refl _) (List.Subset.refl _)).trans
      (Dev.frame_raise _ _ _ hregs.alarm)).settle
  · rw [Dev.validity_settle, Dev.validity_raise_TC_ALARM, Dev.validity_validLost]
  · rw [Dev.timeValid_settle, Dev.timeValid_raise_TC_ALARM, Dev.timeValid_validLost]
  · rw [Dev.flag_settle, Dev.flag_raise_same _ _ _ ⟨by decide, by decide⟩]
  · rw [Dev.flag_settle, Dev.flag_raise_clear _ _ _ _ (by decide), Dev.validLost,
      Dev.flag_raise_same _ _ _ ⟨by decide, by decide⟩]

/-! TC_PPS_EXPECT. -/

theorem pps_expect_missed {s : State} (hs : s.Up) (h1 : s.dev.timeSource = 1) : Answers .ppsExpectMissed s (fun e =>
    s.dev.Frame e [.tc] [] ∧ e.tc = { s.dev.tc with expect := t48Add s.dev.tc.expect (ns 1000000000 : Nat) }) := by
  refine .of_running (f := fun d => if d.timeSource = 1 then
    { d with tc := { d.tc with expect := t48Add d.tc.expect second } } else d) hs rfl ?_
  rw [if_pos h1]
  exact ⟨(s.dev.frame_tc _ _ (by simp)).settle, Dev.settle_tc _⟩

theorem Dev.writeReg_TC_PPS_EXPECT_HI (d : Dev) (w : Word) : d.writeReg R.TC_PPS_EXPECT_HI w = d.expectCommit w := by
  rw [d.writeReg_TC w (by decide), Dev.writeTC, if_neg (by decide), if_neg (by decide), if_neg (by decide),
    if_neg (by decide), if_neg (by decide), if_pos rfl]

theorem pps_expect_committed {s : State} {lo w : Word} (hs : s.Up) (hlo : s.dev.tc.heldLo = some lo) :
    Answers (.ppsExpectCommit w) s (fun e => s.dev.Frame e [.tc] [] ∧
      e.tc = { s.dev.tc with heldLo := none
                             expect := getField w F.TC_PPS_EXPECT_HI_next_hi * 2 ^ 32 + lo.toNat }) := by
  refine .of_write hs (o := R.TC_PPS_EXPECT_HI) (w := w) (by decide) rfl ?_
  rw [s.dev.writeReg_TC_PPS_EXPECT_HI]
  refine ⟨(s.dev.frame_tc _ _ (by simp)).settle, ?_⟩
  rw [Dev.settle_tc, Dev.expectCommit, hlo]
  rfl

/-! Offset samples (R145, R147, R148). -/

/-- What an offset sample needs of the units and registers that it may touch. -/
structure SampleIn (d : Dev) (p : List Part) (r : List Nat) : Prop where
  parts : .log :: validParts ⊆ p
  log   : logRegs ⊆ r
  valid : d.validRegs ⊆ r
  ofs   : R.TC_OFS_LAST ∈ r
  sp    : R.CK_PHASE_SP ∈ r

section
variable {d e : Dev} {p : List Part} {r : List Nat}

theorem SampleIn.tc (h : SampleIn d p r) : Part.tc ∈ p := h.parts (by decide)

theorem SampleIn.validParts (h : SampleIn d p r) : validParts ⊆ p := (List.cons_subset.1 h.parts).2

theorem SampleIn.keep (h : SampleIn d p r) (hm : d.Moves e p r) : SampleIn e p r :=
  ⟨h.parts, h.log, List.Subset.trans (Dev.validRegs_subset_of_op hm.op) h.valid, h.ofs, h.sp⟩

theorem Dev.moves_setValidity (d : Dev) (st : Nat) (h : SampleIn d p r) : d.Moves (d.setValidity st) p r :=
  ⟨d.frame_setValidity st h.validParts h.valid, d.setValidity_op st⟩

theorem Dev.moves_validLost (d : Dev) (h : SampleIn d p r) : d.Moves d.validLost p r :=
  ⟨d.frame_validLost h.validParts h.valid, d.validLost_op⟩

theorem Dev.moves_stepRefuse (d : Dev) (cause : Nat) (ch : Int) (h : SampleIn d p r) :
    d.Moves (d.stepRefuse cause ch) p r := by
  have hnoted : d.Frame (d.refusalNoted cause ch) [.log] (R.TC_ALARM :: logRegs) := d.frame_refusalNoted cause ch
  have hmoves : d.Moves (d.refusalNoted cause ch) p r :=
    (hnoted.mono (by simpa using h.parts (by decide)) (List.cons_subset.2 ⟨(validRegs_of d h.valid).alarm, h.log⟩)).moves
      (hnoted.ca_eq (by decide))
  by_cases hv : d.validity = 2
  · rw [Dev.stepRefuse_of_valid hv]
    exact hmoves.trans (Dev.moves_validLost _ (h.keep hmoves))
  · rwa [Dev.stepRefuse_of_not_valid hv]

theorem Dev.moves_stepRequest (d : Dev) (q : StepReq) (h : SampleIn d p r) : d.Moves (d.stepRequest q).1 p r := by
  cases hstep : d.tc.step with
  | none =>
    rw [Dev.stepRequest_taken hstep]
    have hpending := d.frame_stepPending q
    exact (hpending.mono (by simpa using h.tc) (by simpa using (validRegs_of d h.valid).status)).moves
      (hpending.ca_eq (by decide))
  | some x =>
    rw [Dev.stepRequest_refused (by rw [hstep]; rfl)]
    exact d.moves_stepRefuse 3 _ h

theorem Dev.expect_stepRequest (d : Dev) (q : StepReq) : (d.stepRequest q).1.tc.expect = d.tc.expect := by
  cases hstep : d.tc.step with
  | none =>
    rw [Dev.stepRequest_taken hstep]
    rfl
  | some x =>
    rw [Dev.stepRequest_refused (by rw [hstep]; rfl)]
    exact (d.keepsCounter_stepRefuse 3 _).expect

theorem Dev.moves_tc (d : Dev) (x : Tc) (h : Part.tc ∈ p) : d.Moves { d with tc := x } p r := (d.frame_tc x r h).moves rfl

/-- The servo answers a large offset with a step, and any other with a setpoint. -/
theorem Dev.servo_cases (d : Dev) (ofs : Int) (onPps : Bool) :
    (∃ q, d.servo ofs onPps = { (d.stepRequest q).1 with tc := { (d.stepRequest q).1.tc with integ := 0 } }) ∨
    ∃ integ sp e, (e = d ∨ e = d.raise R.TC_ALARM F.TC_ALARM_sp_clamp) ∧ d.servo ofs onPps =
      ({ e with tc := { e.tc with integ := integ, sp := sp } } : Dev).setSigned R.CK_PHASE_SP F.CK_PHASE_SP_value sp := by
  unfold Dev.servo
  dsimp only
  split
  · exact .inl ⟨_, rfl⟩
  · refine .inr ⟨_, _, _, ?_, rfl⟩
    split
    · exact .inl rfl
    · exact .inr rfl

theorem Dev.moves_servo (d : Dev) (ofs : Int) (onPps : Bool) (h : SampleIn d p r) : d.Moves (d.servo ofs onPps) p r := by
  rcases d.servo_cases ofs onPps with ⟨q, hq⟩ | ⟨integ, sp, e, he, hsp⟩
  · rw [hq]
    exact (d.moves_stepRequest q h).trans (Dev.moves_tc _ _ h.tc)
  · have hclamp : d.Moves e p r := by
      rcases he with rfl | rfl
      · exact .refl e p r
      · exact (d.frame_raise _ p (validRegs_of d h.valid).alarm).moves (d.raise_ca _ _)
    rw [hsp]
    exact (hclamp.trans (Dev.moves_tc _ _ h.tc)).trans ((Dev.frame_setSigned _ _ _ p h.sp).moves rfl)

theorem Dev.expect_servo (d : Dev) (ofs : Int) (onPps : Bool) : (d.servo ofs onPps).tc.expect = d.tc.expect := by
  rcases d.servo_cases ofs onPps with ⟨q, hq⟩ | ⟨integ, sp, e, he, hsp⟩
  · rw [hq]
    exact d.expect_stepRequest q
  · rw [hsp]
    rcases he with rfl | rfl
    · rfl
    · have hclamp := congrArg Tc.expect (d.raise_tc R.TC_ALARM F.TC_ALARM_sp_clamp)
      exact hclamp

/-- An offset is published and given to the device's servo. -/
def Dev.offsetTaken (d : Dev) (ofs : Int) (onPps : Bool) : Dev :=
  let d1 := d.setSigned R.TC_OFS_LAST F.TC_OFS_LAST_value (clampI (-0x7FFFFFFF) 0x7FFFFFFF ofs)
  if d.flag R.TC_CTRL F.TC_CTRL_servo_mode then d1.servo ofs onPps else d1

theorem Dev.moves_offsetTaken (d : Dev) (ofs : Int) (onPps : Bool) (h : SampleIn d p r) :
    d.Moves (d.offsetTaken ofs onPps) p r := by
  have hofs : d.Moves (d.setSigned R.TC_OFS_LAST F.TC_OFS_LAST_value (clampI (-0x7FFFFFFF) 0x7FFFFFFF ofs)) p r :=
    (d.frame_setSigned _ _ p h.ofs).moves rfl
  unfold Dev.offsetTaken
  dsimp only
  split
  · exact hofs.trans (Dev.moves_servo _ _ _ (h.keep hofs))
  · exact hofs

theorem Dev.expect_offsetTaken (d : Dev) (ofs : Int) (onPps : Bool) :
    (d.offsetTaken ofs onPps).tc.expect = d.tc.expect := by
  unfold Dev.offsetTaken
  dsimp only
  split
  · exact Dev.expect_servo _ _ _
  · rfl

/-- An offset sample ends in one of four ways: a validity state entered or lost, a run of samples counted, nothing. -/
theorem Dev.sample_cases (d : Dev) (ofs : Int) (onPps : Bool) : ∃ x : Tc,
    x.expect = (d.offsetTaken ofs onPps).tc.expect ∧
    (d.sample ofs onPps = (d.offsetTaken ofs onPps).setValidity 2 ∨ d.sample ofs onPps = (d.offsetTaken ofs onPps).validLost ∨
      d.sample ofs onPps = { d.offsetTaken ofs onPps with tc := x }) := by
  have htaken : (if d.flag R.TC_CTRL F.TC_CTRL_servo_mode then
      (d.setSigned R.TC_OFS_LAST F.TC_OFS_LAST_value (clampI (-0x7FFFFFFF) 0x7FFFFFFF ofs)).servo ofs onPps
      else d.setSigned R.TC_OFS_LAST F.TC_OFS_LAST_value (clampI (-0x7FFFFFFF) 0x7FFFFFFF ofs)) =
      d.offsetTaken ofs onPps := rfl
  unfold Dev.sample
  dsimp only
  rw [htaken]
  split
  · refine (ite_eq_or_eq _ _ _).elim (fun h => ⟨_, rfl, .inl h⟩) fun h => ⟨_, ?_, .inr (.inr h)⟩
    rfl
  · refine (ite_eq_or_eq _ _ _).elim (fun h => ⟨_, rfl, .inr (.inl h)⟩) fun h => ⟨_, ?_, .inr (.inr h)⟩
    rfl
  · exact ⟨_, rfl, .inr (.inr rfl)⟩

theorem Dev.moves_sample (d : Dev) (ofs : Int) (onPps : Bool) (h : SampleIn d p r) : d.Moves (d.sample ofs onPps) p r := by
  have htaken := d.moves_offsetTaken ofs onPps h
  obtain ⟨x, -, hv | hv | hv⟩ := d.sample_cases ofs onPps <;> rw [hv]
  · exact htaken.trans (Dev.moves_setValidity _ 2 (h.keep htaken))
  · exact htaken.trans (Dev.moves_validLost _ (h.keep htaken))
  · exact htaken.trans (Dev.moves_tc _ _ h.tc)

theorem Dev.expect_sample (d : Dev) (ofs : Int) (onPps : Bool) : (d.sample ofs onPps).tc.expect = d.tc.expect := by
  obtain ⟨x, hx, hv | hv | hv⟩ := d.sample_cases ofs onPps <;> rw [hv, ← d.expect_offsetTaken ofs onPps]
  · exact (Dev.keepsCounter_setValidity _ 2).expect
  · exact (Dev.keepsCounter_validLost _).expect
  · exact hx

end

/-! An edge of the 1PPS time source (R145, R425). -/

/-- The stamp of an edge is shown. -/
def Dev.stampShown (d : Dev) (stamp : Stamp) : Dev :=
  (d.setReg R.TC_PPS_STAMP_LO (BitVec.ofNat 32 stamp.t48)).setReg R.TC_PPS_STAMP_HI
    (wordOf 0 [(F.TC_PPS_STAMP_HI_te, stamp.te), (F.TC_PPS_STAMP_HI_invalid, one stamp.invalid),
      (F.TC_PPS_STAMP_HI_t48_hi, stamp.t48 / 2 ^ 32)])

theorem Dev.frame_stampShown (d : Dev) (stamp : Stamp) :
    d.Frame (d.stampShown stamp) [] [R.TC_PPS_STAMP_LO, R.TC_PPS_STAMP_HI] :=
  (d.frame_setReg _ _ (by simp)).trans (Dev.frame_setReg _ _ _ (by simp))

theorem Dev.reg_stampShown (d : Dev) (stamp : Stamp) :
    (d.stampShown stamp).reg R.TC_PPS_STAMP_LO = BitVec.ofNat 32 stamp.t48 := by
  rw [Dev.stampShown, Dev.reg_setReg_ne _ _ (by decide), Dev.reg_setReg_same]

/-- The selected REFIN is QUALIFIED. -/
def Dev.sourceOk (d : Dev) : Bool := d.qualified (d.fld R.TC_SRC_CFG F.TC_SRC_CFG_refin)

/-- An edge within 500 µs of TC_PPS_EXPECT. -/
def Dev.edgeNear (d : Dev) (stamp : Stamp) : Bool := decide ((t48Sub stamp.t48 d.tc.expect).natAbs ≤ ns 500000)

/-- The first edge of a source with realign. -/
def Dev.edgeFirst (d : Dev) : Bool := d.tc.firstEdge && d.flag R.TC_SERVO_CFG F.TC_SERVO_CFG_realign

/-- An edge moves TC_PPS_EXPECT and ends the wait for a first edge. -/
def Dev.edgeTaken (d : Dev) (stamp : Stamp) : Dev :=
  { d with tc := { d.tc with
      expect := if d.edgeNear stamp || (d.sourceOk && d.edgeFirst) then t48Add d.tc.expect second else d.tc.expect
      firstEdge := d.tc.firstEdge && !d.sourceOk } }

theorem Dev.ppsSourceEdge_eq (d : Dev) (stamp : Stamp) : d.ppsSourceEdge stamp =
    if !(d.stampShown stamp).sourceOk then (d.stampShown stamp).edgeTaken stamp
    else if (d.stampShown stamp).edgeNear stamp || (d.stampShown stamp).edgeFirst then
      ((d.stampShown stamp).edgeTaken stamp).sample (t48Sub stamp.t48 (d.stampShown stamp).tc.expect) true
    else ((d.stampShown stamp).edgeTaken stamp).raise R.TC_ALARM F.TC_ALARM_src_lost := rfl

theorem Dev.expect_edgeTaken {d : Dev} {stamp : Stamp} (h : (t48Sub stamp.t48 d.tc.expect).natAbs ≤ ns 500000) :
    (d.edgeTaken stamp).tc.expect = t48Add d.tc.expect (ns 1000000000 : Nat) := by
  have hnear : d.edgeNear stamp = true := decide_eq_true h
  exact if_pos (by rw [hnear, Bool.true_or])

theorem Dev.expect_ppsSourceEdge {d : Dev} {stamp : Stamp} (h : (t48Sub stamp.t48 d.tc.expect).natAbs ≤ ns 500000) :
    (d.ppsSourceEdge stamp).tc.expect = t48Add d.tc.expect (ns 1000000000 : Nat) := by
  have hshown : (d.stampShown stamp).tc = d.tc := (d.frame_stampShown stamp).tc_eq (by decide)
  have htaken := Dev.expect_edgeTaken (d := d.stampShown stamp) (stamp := stamp) (by rwa [hshown])
  rw [hshown] at htaken
  rw [d.ppsSourceEdge_eq, ← htaken]
  split
  · rfl
  split
  · exact Dev.expect_sample _ _ _
  · rw [Dev.raise_tc]

/-- An edge of the time source, after its stamp is shown. -/
theorem Dev.moves_ppsSourceEdge (d : Dev) (stamp : Stamp) {p : List Part} {r : List Nat} (h : SampleIn d p r) :
    (d.stampShown stamp).Moves (d.ppsSourceEdge stamp) p r := by
  have hca : (d.stampShown stamp).ca = d.ca := (d.frame_stampShown stamp).ca_eq (by decide)
  have hshown : SampleIn (d.stampShown stamp) p r :=
    ⟨h.parts, h.log, by rw [Dev.validRegs_of_ca hca]; exact h.valid, h.ofs, h.sp⟩
  have htaken : (d.stampShown stamp).Moves ((d.stampShown stamp).edgeTaken stamp) p r := Dev.moves_tc _ _ h.tc
  rw [d.ppsSourceEdge_eq]
  split
  · exact htaken
  split
  · exact htaken.trans (Dev.moves_sample _ _ _ (hshown.keep htaken))
  · exact htaken.trans ((Dev.frame_raise _ _ p (validRegs_of d h.valid).alarm).moves (Dev.raise_ca _ _ _))

/-! The reference's own qualification at an edge (R34, R36). -/

/-- The evaluation of a reference leaves TC_PPS_EXPECT. -/
theorem Dev.expect_refEval (d : Dev) (n : Nat) : (d.refEval n).tc.expect = d.tc.expect := by
  have hchanged (e : Dev) : e.refsChanged.tc.expect = e.tc.expect := by
    have hselect : e.reselect.tc = e.tc :=
      (e.frame_reselect (p := [.ck]) (r := [R.CK_STATUS, R.CK_ALARM]) (by simp) (by simp) (by simp)).tc_eq (by decide)
    rw [Dev.refsChanged, e.reselect.keepsCounter_validCheck.expect, hselect]
  have hdisqualify : (d.disqualify n).tc = d.tc :=
    (d.frame_disqualify (p := [.ck]) (r := [R.CK_REF_STATUS n]) n (by simp) (by simp)).tc_eq (by decide)
  unfold Dev.refEval
  split
  · rfl
  · rw [hchanged]
    split
    · split <;> rfl
    · rw [hdisqualify]

/-- An edge evaluates its reference, or leaves its measurement for the next one. -/
theorem Dev.ppsQualEdge_cases (d : Dev) (k at_ : Nat) : ∃ e, d.Frame e [.ck] [R.CK_REF_STATUS k, R.CK_REF_FOFF k] ∧
    (d.ppsQualEdge k at_ = e ∨ d.ppsQualEdge k at_ = e.refEval k) := by
  have hedge (x : RefH) : d.Frame (d.setRefH k x) [.ck] [R.CK_REF_STATUS k, R.CK_REF_FOFF k] :=
    d.frame_setRefH k x _ (by simp)
  unfold Dev.ppsQualEdge
  dsimp only
  split
  · exact ⟨d, .refl d _ _, .inl rfl⟩
  split
  · exact ⟨_, hedge _, .inl rfl⟩
  split
  · exact ⟨_, hedge _, .inl rfl⟩
  · exact ⟨_, (hedge _).trans ((Dev.frame_setSigned _ _ _ _ (by simp)).trans (Dev.frame_setFlag _ _ _ _ (by simp))), .inr rfl⟩

theorem Dev.moves_ppsQualEdge (d : Dev) (k at_ : Nat) :
    d.Moves (d.ppsQualEdge k at_) cleanParts ([R.CK_REF_STATUS k, R.CK_REF_FOFF k] ++ d.cleanRegs) := by
  obtain ⟨e, hframe, he⟩ := d.ppsQualEdge_cases k at_
  have hmoves : d.Moves e cleanParts ([R.CK_REF_STATUS k, R.CK_REF_FOFF k] ++ d.cleanRegs) :=
    (hframe.mono (by decide) (List.subset_append_left _ _)).moves (hframe.ca_eq (by decide))
  rcases he with he | he <;> rw [he]
  · exact hmoves
  · exact hmoves.trans (e.moves_refEval k (List.Subset.refl _) (Dev.CleanIn.keep hmoves (d.cleanIn_cons _)) (by simp))

theorem Dev.expect_ppsQualEdge (d : Dev) (k at_ : Nat) : (d.ppsQualEdge k at_).tc.expect = d.tc.expect := by
  obtain ⟨e, hframe, he⟩ := d.ppsQualEdge_cases k at_
  rcases he with he | he <;> rw [he]
  · rw [hframe.tc_eq (by decide)]
  · rw [e.expect_refEval, hframe.tc_eq (by decide)]

/-! PPS_REF_EDGE. -/

/-- The registers that an edge of the 1PPS time source may touch. -/
def Dev.ppsEdgeRegs (d : Dev) (k : Nat) : List Nat :=
  [R.TC_PPS_STAMP_LO, R.TC_PPS_STAMP_HI, R.TC_OFS_LAST, R.CK_PHASE_SP, R.CK_REF_STATUS k, R.CK_REF_FOFF k] ++ logRegs ++
    d.cleanRegs

theorem Dev.ppsEdgeRegs_subset (d : Dev) (k : Nat) :
    [R.CK_REF_STATUS k, R.CK_REF_FOFF k] ++ d.cleanRegs ⊆ d.ppsEdgeRegs k ∧
      [R.TC_PPS_STAMP_LO, R.TC_PPS_STAMP_HI] ⊆ d.ppsEdgeRegs k ∧
      [R.TC_OFS_LAST, R.CK_PHASE_SP] ++ logRegs ++ d.validRegs ⊆ d.ppsEdgeRegs k := by
  refine ⟨fun o ho => ?_, fun o ho => ?_, fun o ho => ?_⟩ <;>
    simp only [Dev.ppsEdgeRegs, Dev.cleanRegs, List.mem_append, List.mem_cons, List.not_mem_nil, or_false] at ho ⊢ <;>
    tauto

theorem Dev.source_not_mem_cleanRegs (d : Dev) : R.TC_SRC_CFG ∉ d.cleanRegs ∧ R.PS_PAIR_STATUS ∉ d.cleanRegs := by
  obtain ⟨hcfg, hpair, -⟩ := d.source_not_mem_validRegs
  simp only [Dev.cleanRegs, List.mem_append, not_or]
  exact ⟨⟨by decide, hcfg⟩, by decide, hpair⟩

/-- The qualification of the edge leaves the time source. -/
theorem Dev.source_ppsQualEdge (d : Dev) {k : Nat} (hk : k < 4) (at_ : Nat) :
    (d.ppsQualEdge k at_).timeSource = d.timeSource ∧
      (d.ppsQualEdge k at_).fld R.TC_SRC_CFG F.TC_SRC_CFG_refin = d.fld R.TC_SRC_CFG F.TC_SRC_CFG_refin := by
  obtain ⟨hcfg, hpair⟩ := d.source_not_mem_cleanRegs
  have hframe := (d.moves_ppsQualEdge k at_).frame
  have hcfg' : R.TC_SRC_CFG ∉ [R.CK_REF_STATUS k, R.CK_REF_FOFF k] ++ d.cleanRegs := by
    simp only [List.mem_append, List.mem_cons, List.not_mem_nil, or_false, R.CK_REF_STATUS, R.CK_REF_FOFF, not_or]
    exact ⟨⟨by simp only [R.TC_SRC_CFG]; omega, by simp only [R.TC_SRC_CFG]; omega⟩, hcfg⟩
  have hpair' : R.PS_PAIR_STATUS ∉ [R.CK_REF_STATUS k, R.CK_REF_FOFF k] ++ d.cleanRegs := by
    simp only [List.mem_append, List.mem_cons, List.not_mem_nil, or_false, R.CK_REF_STATUS, R.CK_REF_FOFF, not_or]
    exact ⟨⟨by simp only [R.PS_PAIR_STATUS]; omega, by simp only [R.PS_PAIR_STATUS]; omega⟩, hpair⟩
  exact ⟨hframe.timeSource_eq hpair' hcfg', hframe.fld_eq hcfg' _⟩

/-- Calibration values that waited for the edge apply: only calibration changes. -/
theorem Dev.frame_refApply (d : Dev) (k : Nat) : d.Frame (d.refApply k) [.ca] [] :=
  Dev.frame_ite (.refl d _ _) (d.frame_ca _ _ (by simp))

theorem Dev.sampleIn_ppsQualEdge (d : Dev) (k at_ : Nat) : SampleIn (d.ppsQualEdge k at_) (.log :: cleanParts)
    ([R.TC_OFS_LAST, R.CK_PHASE_SP] ++ logRegs ++ d.validRegs) where
  parts := by decide
  log := List.subset_append_of_subset_left _ (List.subset_append_right _ _)
  valid := List.Subset.trans (Dev.validRegs_subset_of_op (d.moves_ppsQualEdge k at_).op) (List.subset_append_right _ _)
  ofs := by simp
  sp := by simp

theorem pps_source_edge {s : State} (k : Fin 4) (since at_ : Nat) (hs : s.Up) (hp : s.dev.isPps k = true)
    (h1 : s.dev.timeSource = 1) (hk : s.dev.fld R.TC_SRC_CFG F.TC_SRC_CFG_refin = k) :
    Answers (.ppsRefEdge k since at_) s (fun e => s.dev.Frame e (.log :: cleanParts) (s.dev.ppsEdgeRegs k) ∧
      e.reg R.TC_PPS_STAMP_LO = BitVec.ofNat 32 (s.dev.refStamp k since).t48 ∧
      ((t48Sub (s.dev.refStamp k since).t48 s.dev.tc.expect).natAbs ≤ ns 500000 →
        e.tc.expect = t48Add s.dev.tc.expect (ns 1000000000 : Nat))) := by
  obtain ⟨hregs, hstamp, hsample⟩ := s.dev.ppsEdgeRegs_subset k
  have hqual := (s.dev.moves_ppsQualEdge k at_).frame
  have hedge := (Dev.moves_ppsSourceEdge _ (s.dev.refStamp k since) (s.dev.sampleIn_ppsQualEdge k at_)).frame
  obtain ⟨hsource, hrefin⟩ := s.dev.source_ppsQualEdge k.isLt at_
  have happly := ((s.dev.ppsQualEdge k at_).ppsSourceEdge (s.dev.refStamp k since)).frame_refApply k
  refine .of_running (f := fun d => if !d.isPps k then d else
    (if (d.ppsQualEdge k at_).timeSource = 1 ∧ (d.ppsQualEdge k at_).fld R.TC_SRC_CFG F.TC_SRC_CFG_refin = k then
      (d.ppsQualEdge k at_).ppsSourceEdge (d.refStamp k since) else d.ppsQualEdge k at_).refApply k) hs rfl ?_
  rw [hp, Bool.not_true, if_neg Bool.false_ne_true, if_pos ⟨hsource.trans h1, hrefin.trans hk⟩]
  refine ⟨?_, ?_, fun hnear => ?_⟩
  · exact ((((hqual.mono (by decide) hregs).trans ((Dev.frame_stampShown _ _).mono (List.nil_subset _) hstamp)).trans
      (hedge.mono (List.Subset.refl _) hsample)).trans (happly.mono (by decide) (List.nil_subset _))).settle
  · rw [Dev.reg_settle, happly.reg_eq (by simp), hedge.reg_eq, Dev.reg_stampShown]
    simp only [List.mem_append, not_or]
    exact ⟨by decide, (s.dev.source_not_mem_validRegs).2.2⟩
  · rw [Dev.settle_tc, happly.tc_eq (by decide), ← s.dev.expect_ppsQualEdge k at_]
    exact Dev.expect_ppsSourceEdge (by rwa [s.dev.expect_ppsQualEdge])

/-- Settles O16: each row and each edge by its own lemma. -/
theorem timeSources : Obligations.TimeSources := by
  refine ⟨fun s w hs hstandby => ⟨source_begun hs hstandby, source_ended hs hstandby, fun h3 hl =>
    ⟨host_word_withdrawn hs hstandby h3 hl, host_word_given hs hstandby h3 hl⟩, hold_expired hs⟩,
    fun s k since at_ w hs => ⟨pps_source_edge k since at_ hs, pps_expect_missed hs, fun lo => pps_expect_committed hs⟩⟩

end Sys2Proof.Machine
end

section
/-! SUPPORT of O30. The host rings' operations: what each keeps of the rings and of what has left the device; the taking of a
descriptor, and the completion that its command writes (R289, R292, R297, R302). -/

namespace Sys2Proof.Machine

/-! The host interface. -/

theorem Dev.frame_hr (d : Dev) (x : Hr) {p : List Part} (r : List Nat) (h : Part.hr ∈ p) :
    d.Frame { d with hr := x } p r := by
  refine ⟨fun u hu => ?_, fun _ _ => rfl⟩
  cases u <;> first | exact absurd h hu | simp [Dev.SamePart]

theorem Dev.frame_setRing (d : Dev) (y : Nat) (x : Ring) {p : List Part} (r : List Nat) (h : Part.hr ∈ p) :
    d.Frame (d.setRing y x) p r := d.frame_hr _ r h

theorem Dev.frame_toHost (d : Dev) (a : Nat) (bs : List Byte) (p : List Part) (r : List Nat) :
    d.Frame (d.toHost a bs) p r := Dev.frame_ite (d.frame_emit _ p r) (.refl d p r)

theorem Dev.ring_setRing_same (d : Dev) (y : Nat) (x : Ring) : (d.setRing y x).ring y = x := sGet_sPut_same _ _ _ _

theorem Dev.ring_setRing_ne (d : Dev) {y z : Nat} (x : Ring) (h : z ≠ y) : (d.setRing y x).ring z = d.ring z :=
  sGet_sPut_ne _ _ _ _ h

theorem Dev.challenge_setRing (d : Dev) (y : Nat) {z : Nat} {x : Ring} (h : x.challenge = (d.ring z).challenge) :
    ((d.setRing z x).ring y).challenge = (d.ring y).challenge := by
  by_cases hy : y = z
  · rw [hy, Dev.ring_setRing_same, h]
  · rw [d.ring_setRing_ne _ hy]

/-- With the link up a write to host memory has left the device. -/
theorem Dev.mem_out_toHost (d : Dev) (a : Nat) (bs : List Byte) (h : d.hr.linkUp = true) :
    .hostWrite a bs ∈ (d.toHost a bs).out := by
  rw [Dev.toHost, if_pos h]
  exact List.mem_cons_self

/-! What keeps the commands in execution. -/

/-- The rings keep their commands in execution, reserved places and challenges from `d` to `e`, the link its state, and what
has left the device stays noted. -/
structure Dev.KeepsRings (d e : Dev) : Prop where
  link      : e.hr.linkUp = d.hr.linkUp
  reserved  : ∀ y, (e.ring y).reserved = (d.ring y).reserved
  busy      : ∀ y, (e.ring y).busy = (d.ring y).busy
  challenge : ∀ y, (e.ring y).challenge = (d.ring y).challenge
  out       : ∀ x ∈ d.out, x ∈ e.out

section
variable {d e f : Dev}

theorem Dev.KeepsRings.trans (h : d.KeepsRings e) (h' : e.KeepsRings f) : d.KeepsRings f where
  link := h'.link.trans h.link
  reserved y := (h'.reserved y).trans (h.reserved y)
  busy y := (h'.busy y).trans (h.busy y)
  challenge y := (h'.challenge y).trans (h.challenge y)
  out x hx := h'.out x (h.out x hx)

/-- The host interface is the same but for its messages. -/
theorem Dev.keepsRings_of_hr (h : e.hr.sans = d.hr.sans) (hout : ∀ x ∈ d.out, x ∈ e.out) : d.KeepsRings e := by
  have hrings : e.hr.rings = d.hr.rings := (congrArg Hr.rings h :)
  have hlink : e.hr.linkUp = d.hr.linkUp := (congrArg Hr.linkUp h :)
  have hring (y : Nat) : e.ring y = d.ring y := by rw [Dev.ring, hrings, ← Dev.ring]
  exact ⟨hlink, fun y => by rw [hring], fun y => by rw [hring], fun y => by rw [hring], hout⟩

/-- A frame without the host interface. -/
theorem Dev.Frame.keepsRings {p : List Part} {r : List Nat} (h : d.Frame e p r) (hp : Part.hr ∉ p)
    (hout : ∀ x ∈ d.out, x ∈ e.out) : d.KeepsRings e := Dev.keepsRings_of_hr (h.1 .hr hp) hout

theorem Dev.KeepsRings.refl (d : Dev) : d.KeepsRings d := Dev.keepsRings_of_hr rfl fun _ h => h

end

theorem Dev.keepsRings_setFld (d : Dev) (o : Nat) (f : Field) (v : Nat) : d.KeepsRings (d.setFld o f v) :=
  (d.frame_setFld (r := [o]) f v [] (by simp)).keepsRings (by simp) fun x hx => hx

theorem Dev.keepsRings_raise (d : Dev) (o : Nat) (f : Field) : d.KeepsRings (d.raise o f) :=
  (d.frame_raise (r := [o]) f [] (by simp)).keepsRings (by simp) fun x hx => by rwa [d.raise_out]

theorem Dev.keepsRings_count (d : Dev) (n k : Nat) : d.KeepsRings (d.count n k) :=
  (d.frame_count (r := [R.PC_ALARM]) n k [] (by simp)).keepsRings (by simp) fun x hx => by rwa [d.out_count]

theorem Dev.keepsRings_toHost (d : Dev) (a : Nat) (bs : List Byte) : d.KeepsRings (d.toHost a bs) := by
  refine (d.frame_toHost a bs [] []).keepsRings (by simp) fun x hx => ?_
  unfold Dev.toHost
  split
  · exact List.mem_cons_of_mem _ hx
  · exact hx

theorem Dev.keepsRings_message (d : Dev) (v : Nat) : d.KeepsRings (d.message v) :=
  Dev.keepsRings_of_hr (d.message_hr v) fun _ => Dev.mem_out_message v

theorem Dev.keepsRings_settle (d : Dev) : d.KeepsRings d.settle :=
  (d.frame_settle [] []).keepsRings (by simp) fun _ => Dev.mem_out_settle

theorem Dev.keepsRings_record (d : Dev) (typ : Nat) (body : List Byte) : d.KeepsRings (d.record typ body) := by
  refine (d.frame_record (p := [.log]) (r := logRegs) typ body (by simp) (List.Subset.refl _)).keepsRings (by decide)
    fun x hx => ?_
  unfold Dev.record
  split
  · rwa [Dev.out_count, Dev.raise_out]
  · exact hx

/-- A ring set to one that differs in its count of fresh entries alone. -/
theorem Dev.keepsRings_setFresh (d : Dev) (y n : Nat) : d.KeepsRings (d.setRing y { d.ring y with fresh := n }) := by
  have hring (z : Nat) : (d.setRing y { d.ring y with fresh := n }).ring z = d.ring z ∨
      z = y ∧ (d.setRing y { d.ring y with fresh := n }).ring z = { d.ring y with fresh := n } := by
    by_cases h : z = y
    · exact .inr ⟨h, by rw [h, Dev.ring_setRing_same]⟩
    · exact .inl (d.ring_setRing_ne _ h)
  refine ⟨rfl, fun z => ?_, fun z => ?_, fun z => ?_, fun x hx => hx⟩ <;>
    rcases hring z with h | ⟨rfl, h⟩ <;> rw [h]

/-! An index advances (R292, R306). -/

/-- didx advances and the status entry follows; the count of fresh entries changes, with or without a message. -/
theorem Dev.advance_cases (d : Dev) (y n : Nat) : ∃ e fresh,
    e = (d.setFld (R.HR_RING_DIDX y) F.HR_RING_DIDX_didx ((d.didx y + n) % 2 ^ 32)).writeStatus y ∧
      (d.advance y n = e.setRing y { e.ring y with fresh := fresh } ∨
        d.advance y n = (e.setRing y { e.ring y with fresh := fresh }).message y) := by
  unfold Dev.advance
  dsimp only
  split
  · exact ⟨_, 0, rfl, .inr rfl⟩
  · exact ⟨_, _, rfl, .inl rfl⟩

theorem Dev.keepsRings_advance (d : Dev) (y n : Nat) : d.KeepsRings (d.advance y n) := by
  obtain ⟨e, fresh, rfl, h | h⟩ := d.advance_cases y n <;> rw [h]
  · exact ((d.keepsRings_setFld _ _ _).trans (Dev.keepsRings_toHost _ _ _)).trans (Dev.keepsRings_setFresh _ y fresh)
  · exact (((d.keepsRings_setFld _ _ _).trans (Dev.keepsRings_toHost _ _ _)).trans (Dev.keepsRings_setFresh _ y fresh)).trans
      (Dev.keepsRings_message _ y)

theorem Dev.frame_advance (d : Dev) (y n : Nat) : d.Frame (d.advance y n) [.hr] [R.HR_RING_DIDX y] := by
  obtain ⟨e, fresh, rfl, h | h⟩ := d.advance_cases y n <;> rw [h]
  · exact ((d.frame_setFld _ _ _ (by simp)).trans (Dev.frame_toHost _ _ _ _ _)).trans (Dev.frame_setRing _ _ _ _ (by simp))
  · exact (((d.frame_setFld _ _ _ (by simp)).trans (Dev.frame_toHost _ _ _ _ _)).trans
      (Dev.frame_setRing _ _ _ _ (by simp))).trans (Dev.frame_message _ _ _ _)

theorem Dev.frame_writeStatus (d : Dev) (y : Nat) : d.Frame (d.writeStatus y) [] [] := d.frame_toHost _ _ _ _

theorem Dev.reg_message (d : Dev) (v o : Nat) : (d.message v).reg o = d.reg o :=
  (d.frame_message v [] []).reg_eq (by simp)

theorem Dev.pc_message (d : Dev) (v : Nat) : (d.message v).pc = d.pc := by
  unfold Dev.message
  split <;> rfl

theorem Dev.pc_toHost (d : Dev) (a : Nat) (bs : List Byte) : (d.toHost a bs).pc = d.pc := by
  unfold Dev.toHost
  split <;> rfl

theorem Dev.pc_advance (d : Dev) (y n : Nat) : (d.advance y n).pc = d.pc := by
  obtain ⟨e, fresh, rfl, h | h⟩ := d.advance_cases y n <;> rw [h]
  · exact Dev.pc_toHost _ _ _
  · exact (Dev.pc_message _ _).trans (Dev.pc_toHost _ _ _)

/-- A register of 32 bits set to a value. -/
theorem Dev.toNat_setFld_whole (d : Dev) (o : Nat) {v : Nat} (h : v < 2 ^ 32) :
    ((d.setFld o ⟨31, 0⟩ v).reg o).toNat = v := by
  have hget (w : Word) : getField w ⟨31, 0⟩ = w.toNat := by
    have := w.isLt
    simp only [getField]
    omega
  rw [← hget]
  exact d.fld_setFld_low o ⟨31, 0⟩ v ⟨by decide, by decide, h⟩

theorem Dev.didx_advance (d : Dev) (y n : Nat) : (d.advance y n).didx y = (d.didx y + n) % 2 ^ 32 := by
  have hlt : (d.didx y + n) % 2 ^ 32 < 2 ^ 32 := Nat.mod_lt _ (Nat.two_pow_pos _)
  have hset : ((d.setFld (R.HR_RING_DIDX y) F.HR_RING_DIDX_didx ((d.didx y + n) % 2 ^ 32)).writeStatus y).didx y =
      (d.didx y + n) % 2 ^ 32 := by
    rw [Dev.didx, (Dev.frame_writeStatus _ y).reg_eq (by simp)]
    exact d.toNat_setFld_whole _ hlt
  obtain ⟨e, fresh, rfl, h | h⟩ := d.advance_cases y n <;> rw [h]
  · exact hset
  · rw [Dev.didx, Dev.reg_message]
    exact hset

/-! A command ends (R297, R302). -/

/-- The place of a command is free again, and its ring too. -/
def Dev.released (d : Dev) (y : Nat) : Dev :=
  (d.unreserve y).setRing y { (d.unreserve y).ring y with busy := false }

/-- A completion of status 3 or 4 is counted as a failure. -/
def Dev.failureNoted (d : Dev) (status : Nat) : Dev :=
  if status = 3 ∨ status = 4 then
    ((d.addSat R.HR_CMD_ERR F.HR_CMD_ERR_bad 1).raise R.HR_ALARM F.HR_ALARM_cmd_err).count (devCtr 8)
  else d

theorem Dev.finish_eq (d : Dev) (o : Origin) (status r0 r1 : Nat) : d.finish o status r0 r1 =
    ((d.released o.ring).failureNoted status).ringWrite (((d.released o.ring).failureNoted status).cplRing o.ring)
      (cplBytes ((d.released o.ring).failureNoted status).v3 o status r0 r1) := rfl

theorem Dev.frame_released (d : Dev) (y : Nat) : d.Frame (d.released y) [.hr] [] :=
  (d.frame_setRing _ _ _ (by simp)).trans (Dev.frame_setRing _ _ _ _ (by simp))

theorem Dev.cplRing_released (d : Dev) (y : Nat) : (d.released y).cplRing y = d.cplRing y :=
  (d.frame_released y).fld_eq (by simp) _

/-- Registers that a failure may touch. -/
def failureRegs : List Nat := [R.HR_ALARM, R.HR_CMD_ERR, R.PC_ALARM]

theorem Dev.frame_failureNoted (d : Dev) (status : Nat) : d.Frame (d.failureNoted status) [] failureRegs :=
  Dev.frame_ite (((d.frame_addSat _ _ _ (by decide)).trans (Dev.frame_raise _ _ _ (by decide))).trans
    (Dev.frame_count _ _ _ _ (by decide))) (.refl d _ _)

theorem Dev.failureNoted_eq (d : Dev) {status : Nat} (h : status ≠ 3 ∧ status ≠ 4) : d.failureNoted status = d :=
  if_neg (by omega)

theorem Dev.keepsRings_failureNoted (d : Dev) (status : Nat) : d.KeepsRings (d.failureNoted status) := by
  unfold Dev.failureNoted
  split
  · exact ((d.keepsRings_setFld _ _ _).trans (Dev.keepsRings_raise _ _ _)).trans (Dev.keepsRings_count _ _ _)
  · exact .refl d

theorem Dev.cplRing_lt (d : Dev) (y : Nat) : d.cplRing y < 64 := d.fld_lt _ F.HR_RING_CFG_cpl_ring

/-- The completion ring of any ring is one by the same register, which no failure touches. -/
theorem Dev.cplRing_failureNoted (d : Dev) (status y : Nat) : (d.failureNoted status).cplRing y = d.cplRing y := by
  refine (d.frame_failureNoted status).fld_eq ?_ _
  simp only [failureRegs, List.mem_cons, List.not_mem_nil, or_false, R.HR_RING_CFG, R.HR_ALARM, R.HR_CMD_ERR, R.PC_ALARM]
  omega

theorem Dev.frame_ringWrite (d : Dev) (y : Nat) (bs : List Byte) :
    d.Frame (d.ringWrite y bs) [.hr] [R.HR_RING_DIDX y] :=
  (d.frame_toHost _ _ _ _).trans (Dev.frame_advance _ _ _)

theorem Dev.keepsRings_ringWrite (d : Dev) (y : Nat) (bs : List Byte) : d.KeepsRings (d.ringWrite y bs) :=
  (d.keepsRings_toHost _ _).trans (Dev.keepsRings_advance _ _ _)

/-- A command that ends without a failure. -/
theorem Dev.frame_finish_good (d : Dev) (o : Origin) {status : Nat} (r0 r1 : Nat) (h : status ≠ 3 ∧ status ≠ 4) :
    d.Frame (d.finish o status r0 r1) [.hr] [R.HR_RING_DIDX (d.cplRing o.ring)] := by
  rw [d.finish_eq, Dev.failureNoted_eq _ h, d.cplRing_released]
  exact ((d.frame_released o.ring).mono (List.Subset.refl _) (List.nil_subset _)).trans (Dev.frame_ringWrite _ _ _)

theorem Dev.frame_finish (d : Dev) (o : Origin) (status r0 r1 : Nat) :
    d.Frame (d.finish o status r0 r1) [.hr] (R.HR_RING_DIDX (d.cplRing o.ring) :: failureRegs) := by
  rw [d.finish_eq, Dev.cplRing_failureNoted, d.cplRing_released]
  exact (((d.frame_released o.ring).mono (List.Subset.refl _) (List.nil_subset _)).trans
    ((Dev.frame_failureNoted _ _).mono (List.nil_subset _) (List.subset_cons_self _ _))).trans
    ((Dev.frame_ringWrite _ _ _).mono (List.Subset.refl _) (by simp))

/-- What ends a command, once its ring and its place are free, keeps the rings. -/
theorem Dev.keepsRings_finish (d : Dev) (o : Origin) (status r0 r1 : Nat) :
    (d.released o.ring).KeepsRings (d.finish o status r0 r1) := by
  rw [d.finish_eq]
  exact (Dev.keepsRings_failureNoted _ _).trans (Dev.keepsRings_ringWrite _ _ _)

theorem Dev.out_finish (d : Dev) (o : Origin) (status r0 r1 : Nat) {x : Out} (h : x ∈ d.out) :
    x ∈ (d.finish o status r0 r1).out := (d.keepsRings_finish o status r0 r1).out x h

/-- The end of a command leaves every challenge. -/
theorem Dev.challenge_finish (d : Dev) (o : Origin) (status r0 r1 y : Nat) :
    ((d.finish o status r0 r1).ring y).challenge = (d.ring y).challenge := by
  rw [(d.keepsRings_finish o status r0 r1).challenge, Dev.released, Dev.challenge_setRing, Dev.unreserve,
    Dev.challenge_setRing] <;> rfl

/-! A descriptor is taken (R290, R302). -/

theorem Dev.frame_takeCommand (d : Dev) (y : Nat) : d.Frame (d.takeCommand y) [.hr] [R.HR_RING_DIDX y] :=
  ((d.frame_advance y 1).trans (Dev.frame_setRing _ _ _ _ (by simp))).trans (Dev.frame_setRing _ _ _ _ (by simp))

theorem Dev.pc_takeCommand (d : Dev) (y : Nat) : (d.takeCommand y).pc = d.pc := d.pc_advance y 1

/-- What a ring ready for a command says of its completion ring. -/
theorem Dev.cplRing_ne_of_cmdReady {d : Dev} {y : Nat} (h : d.cmdReady y = true) : d.cplRing y ≠ y := by
  simp only [Dev.cmdReady, Dev.cplRoom, Bool.and_eq_true, beq_iff_eq] at h
  obtain ⟨⟨⟨⟨htype, -⟩, -⟩, -⟩, ⟨hcpl, -⟩, -⟩ := h
  intro heq
  rw [← Dev.cplRing, heq, htype] at hcpl
  exact absurd hcpl (by decide)

/-- The device `t` executes a command that it has taken from ring y of `d`: the ring is one further, a place of the completion
ring is reserved, and the rest of the ring registers is as before. -/
structure Dev.Executes (d t : Dev) (y : Nat) : Prop where
  reg      : ∀ o, o / 0x10000 = 9 → o ≠ R.HR_RING_DIDX y → t.reg o = d.reg o
  didx     : t.didx y = (d.didx y + 1) % 2 ^ 32
  link     : t.hr.linkUp = d.hr.linkUp
  reserved : (t.ring (d.cplRing y)).reserved = (d.ring (d.cplRing y)).reserved + 1

/-- A step of the execution that keeps the rings' registers and places. -/
theorem Dev.Executes.step {d t u : Dev} {y : Nat} {p : List Part} {r : List Nat} (h : d.Executes t y) (hf : t.Frame u p r)
    (hr : ∀ o ∈ r, o / 0x10000 ≠ 9) (hy : y < 64) (hlink : u.hr.linkUp = t.hr.linkUp)
    (hreserved : ∀ z, (u.ring z).reserved = (t.ring z).reserved) : d.Executes u y where
  reg o ho hne := (hf.reg_eq fun hm => hr o hm ho).trans (h.reg o ho hne)
  didx := by
    have hblock : R.HR_RING_DIDX y / 0x10000 = 9 := by simp only [R.HR_RING_DIDX]; omega
    rw [Dev.didx, hf.reg_eq fun hm => hr _ hm hblock, ← Dev.didx, h.didx]
  link := hlink.trans h.link
  reserved := (hreserved _).trans h.reserved

/-- A step of the execution that keeps all of the rings. -/
theorem Dev.Executes.keep {d t u : Dev} {y : Nat} {p : List Part} {r : List Nat} (h : d.Executes t y) (hf : t.Frame u p r)
    (hr : ∀ o ∈ r, o / 0x10000 ≠ 9) (hy : y < 64) (hk : t.KeepsRings u) : d.Executes u y :=
  h.step hf hr hy hk.link hk.reserved

theorem Dev.cplRing_advance (d : Dev) (y z n : Nat) : (d.advance z n).cplRing y = d.cplRing y := by
  refine (d.frame_advance z n).fld_eq ?_ _
  simp only [List.mem_singleton, R.HR_RING_CFG, R.HR_RING_DIDX]
  omega

theorem Dev.executes_takeCommand {d : Dev} {y : Nat} (h : d.cmdReady y = true) : d.Executes (d.takeCommand y) y where
  reg o _ ho := (d.frame_takeCommand y).reg_eq (by simpa using ho)
  didx := d.didx_advance y 1
  link := (d.keepsRings_advance y 1).link
  reserved := by
    have hcpl : (d.advance y 1).fld (R.HR_RING_CFG y) F.HR_RING_CFG_cpl_ring = d.cplRing y := d.cplRing_advance y y 1
    rw [Dev.takeCommand]
    dsimp only
    rw [Dev.ring_setRing_ne _ _ (Dev.cplRing_ne_of_cmdReady h), Dev.reserve, hcpl, Dev.ring_setRing_same]
    exact congrArg (· + 1) ((d.keepsRings_advance y 1).reserved _)

/-- The registers that place an entry of ring y in host memory. -/
def placeRegs (y : Nat) : List Nat := [R.HR_CTRL, R.HR_RING_CFG y, R.HR_RING_BASE_LO y, R.HR_RING_BASE_HI y, R.HR_RING_DIDX y]

theorem Dev.entry_eq {d u : Dev} {y : Nat} (h : ∀ o ∈ placeRegs y, u.reg o = d.reg o) :
    u.entryAddr y (u.didx y) = d.entryAddr y (d.didx y) ∧ u.v3 = d.v3 ∧ u.didx y = d.didx y := by
  simp only [placeRegs, List.mem_cons, List.not_mem_nil, or_false, forall_eq_or_imp, forall_eq] at h
  obtain ⟨hctrl, hcfg, hlo, hhi, hdidx⟩ := h
  simp only [Dev.entryAddr, Dev.didx, Dev.ringSize, Dev.ringType, Dev.v3, Dev.fld, hctrl, hcfg, hlo, hhi, hdidx, and_self]

/-- The registers that place an entry of the completion ring are none that a command touches before its completion. -/
theorem placeRegs_apart {y q : Nat} (hq : q < 64) (hne : q ≠ y) {o : Nat} (ho : o ∈ placeRegs q) :
    o / 0x10000 = 9 ∧ o ≠ R.HR_RING_DIDX y ∧ o ∉ failureRegs := by
  simp only [placeRegs, failureRegs, List.mem_cons, List.not_mem_nil, or_false, R.HR_CTRL, R.HR_RING_CFG, R.HR_RING_BASE_LO,
    R.HR_RING_BASE_HI, R.HR_RING_DIDX, R.HR_ALARM, R.HR_CMD_ERR, R.PC_ALARM] at ho ⊢
  omega

theorem Dev.Executes.cplRing {d t : Dev} {y : Nat} (h : d.Executes t y) (hy : y < 64) : t.cplRing y = d.cplRing y := by
  rw [Dev.cplRing, Dev.cplRing, Dev.fld, Dev.fld, h.reg _ (by simp only [R.HR_RING_CFG]; omega)
    (by simp only [R.HR_RING_CFG, R.HR_RING_DIDX]; omega)]

theorem Dev.busy_released (d : Dev) (y : Nat) : ((d.released y).ring y).busy = false := by
  rw [Dev.released, Dev.ring_setRing_same]

theorem Dev.reserved_released {d : Dev} {y : Nat} (h : d.cplRing y ≠ y) :
    ((d.released y).ring (d.cplRing y)).reserved = (d.ring (d.cplRing y)).reserved - 1 := by
  rw [Dev.released, Dev.ring_setRing_ne _ _ h]
  exact congrArg Ring.reserved (d.ring_setRing_same _ _)

/-- The origin of a command of an opcode. -/
def Dev.cmdOrigin (d : Dev) (c : CmdDesc) (opcode : Nat) : Origin :=
  { ring := c.ring, index := d.didx c.ring, opcode := opcode, cookie := c.cookie.toNat, kind := 1 }

/-- A command ends: its completion stands in the next entry of the completion ring. -/
theorem Dev.Executes.completes {d t : Dev} {c : CmdDesc} (h : d.Executes t c.ring) (hready : d.cmdReady c.ring = true)
    (opcode status r0 r1 : Nat) :
    Completes c opcode status r0 r1 d (t.finish (d.cmdOrigin c opcode) status r0 r1).settle := by
  have hne := Dev.cplRing_ne_of_cmdReady hready
  have hcpl := h.cplRing c.ring.isLt
  have hnoted := (t.released c.ring).frame_failureNoted status
  have hkeeps := (t.released c.ring).keepsRings_failureNoted status
  have hplace : ∀ o ∈ placeRegs (d.cplRing c.ring), ((t.released c.ring).failureNoted status).reg o = d.reg o := by
    intro o ho
    obtain ⟨hblock, hdidx, hfail⟩ := placeRegs_apart (d.cplRing_lt _) hne ho
    rw [hnoted.reg_eq hfail, (t.frame_released _).reg_eq (by simp), h.reg o hblock hdidx]
  obtain ⟨haddr, hv3, hdq⟩ := Dev.entry_eq hplace
  have hdr : R.HR_RING_DIDX c.ring ≠ R.HR_RING_DIDX (d.cplRing c.ring) := by
    simp only [R.HR_RING_DIDX]
    omega
  have hfail : R.HR_RING_DIDX c.ring ∉ failureRegs := by
    simp only [failureRegs, List.mem_cons, List.not_mem_nil, or_false, R.HR_RING_DIDX, R.HR_ALARM, R.HR_CMD_ERR, R.PC_ALARM]
    omega
  have hfinish : t.finish (d.cmdOrigin c opcode) status r0 r1 = ((t.released c.ring).failureNoted status).ringWrite
      (d.cplRing c.ring) (cplBytes d.v3 (d.cmdOrigin c opcode) status r0 r1) := by
    rw [t.finish_eq, Dev.cmdOrigin, Dev.cplRing_failureNoted, t.cplRing_released, hcpl, hv3]
  have hring := (Dev.keepsRings_ringWrite ((t.released c.ring).failureNoted status) (d.cplRing c.ring)
    (cplBytes d.v3 (d.cmdOrigin c opcode) status r0 r1)).trans (Dev.keepsRings_settle _)
  rw [hfinish]
  refine ⟨fun hlink => ?_, ?_, ?_, ?_, ?_⟩
  · refine Dev.mem_out_settle ((Dev.keepsRings_advance _ _ _).out _ ?_)
    rw [haddr]
    refine Dev.mem_out_toHost _ _ _ (hkeeps.link.trans ?_)
    exact h.link.trans hlink
  · rw [Dev.didx, Dev.reg_settle, ← Dev.didx, Dev.ringWrite, Dev.didx_advance, Dev.didx,
      (Dev.frame_toHost _ _ _ [] []).reg_eq (by simp), ← Dev.didx, hdq]
  · rw [Dev.didx, Dev.reg_settle, (Dev.frame_ringWrite _ _ _).reg_eq (by simpa using hdr), hnoted.reg_eq hfail,
      (t.frame_released _).reg_eq (by simp), ← Dev.didx, h.didx]
  · rw [hring.busy, hkeeps.busy, t.busy_released]
  · rw [hring.reserved, hkeeps.reserved, ← hcpl, Dev.reserved_released (hcpl.trans_ne hne), hcpl, h.reserved,
      Nat.add_sub_cancel]

/-- A host command on a ring that is ready for it. -/
theorem answers_command {i : Instr} {c : CmdDesc} {op : Nat} {f : Dev → Origin → Dev} {s : State} {Q : Dev → Prop}
    (hs : s.Up) (hi : exec i s = running s fun d => d.command c op f) (hready : s.dev.cmdReady c.ring = true)
    (hQ : Q (f (s.dev.takeCommand c.ring) (s.dev.cmdOrigin c op)).settle) : Answers i s Q := by
  refine .of_running (f := fun d => d.command c op f) hs hi ?_
  dsimp only [Dev.command]
  rwa [hready, Bool.not_true, if_neg Bool.false_ne_true]

/-- A host command that ends at once, on the device that its own work leaves. -/
theorem answers_ended {i : Instr} {c : CmdDesc} {op status r0 r1 : Nat} {f : Dev → Origin → Dev} {u : Dev} {s : State}
    {Q : Dev → Prop} (hs : s.Up) (hi : exec i s = running s fun d => d.command c op f)
    (hready : s.dev.cmdReady c.ring = true)
    (hf : f (s.dev.takeCommand c.ring) (s.dev.cmdOrigin c op) = u.finish (s.dev.cmdOrigin c op) status r0 r1)
    (hQ : Q (u.finish (s.dev.cmdOrigin c op) status r0 r1).settle) : Answers i s Q :=
  answers_command hs hi hready (hf ▸ hQ)

/-- The whole frame of a command that has ended, with its completion. -/
theorem Dev.Executes.ended {d t : Dev} {c : CmdDesc} {p : List Part} {r : List Nat} (h : d.Executes t c.ring)
    (hready : d.cmdReady c.ring = true) (hf : d.Frame t p r) (hp : Part.hr ∈ p) (hr : d.cmdRegs c.ring ⊆ r)
    (opcode status r0 r1 : Nat) :
    d.Frame (t.finish (d.cmdOrigin c opcode) status r0 r1).settle p r ∧
      Completes c opcode status r0 r1 d (t.finish (d.cmdOrigin c opcode) status r0 r1).settle := by
  refine ⟨(hf.trans ((t.frame_finish _ status r0 r1).mono (by simpa using hp) ?_)).settle, h.completes hready opcode status r0 r1⟩
  rw [Dev.cmdOrigin, h.cplRing c.ring.isLt]
  exact List.Subset.trans (List.subset_cons_self _ _) hr

end Sys2Proof.Machine
end

section
/-! PROOF of O30. The commands that complete at once, the challenge of a clear of the kiln log, its check, and its end (R152,
R298, R394, R395, R398, R416). -/

namespace Sys2Proof.Machine

section
variable {s : State} {c : CmdDesc}

/-! What a command finds once its descriptor is taken. -/

theorem Dev.frame_taken (d : Dev) (c : CmdDesc) : d.Frame (d.takeCommand c.ring) [.hr] (d.cmdRegs c.ring) :=
  (d.frame_takeCommand c.ring).mono (List.Subset.refl _) (by simp [Dev.cmdRegs])

theorem Dev.keepsTime_takeCommand (d : Dev) {y : Nat} (hy : y < 64) : d.KeepsTime (d.takeCommand y) := by
  refine (d.frame_takeCommand y).keepsTime (by decide) ?_
  simp only [List.mem_singleton, forall_eq, R.HR_RING_DIDX]
  omega

theorem Dev.v3_takeCommand (d : Dev) (y : Nat) : (d.takeCommand y).v3 = d.v3 := by
  rw [Dev.v3, (d.frame_takeCommand y).fld_eq, ← Dev.v3]
  simp only [List.mem_singleton, R.HR_CTRL, R.HR_RING_DIDX]
  omega

theorem Dev.Frame.nv_eq {d e : Dev} {p : List Part} {r : List Nat} (h : d.Frame e p r) (hp : Part.nv ∉ p) : e.nv = d.nv :=
  h.1 .nv hp

theorem Dev.nv_takeCommand (d : Dev) (y : Nat) : (d.takeCommand y).nv = d.nv := (d.frame_takeCommand y).nv_eq (by decide)

theorem Dev.busy_takeCommand (d : Dev) (y : Nat) : ((d.takeCommand y).ring y).busy = true := by
  rw [Dev.takeCommand, Dev.ring_setRing_same]

theorem Dev.challenge_takeCommand (d : Dev) (y z : Nat) : ((d.takeCommand y).ring z).challenge = (d.ring z).challenge := by
  rw [Dev.takeCommand, Dev.challenge_setRing, Dev.reserve, Dev.challenge_setRing, (d.keepsRings_advance y 1).challenge] <;> rfl

/-! NOP and opcodes without a meaning (R298). -/

theorem nop_done (hs : s.Up) (hready : s.dev.cmdReady c.ring = true) : Answers (.nop c) s (fun e =>
    Completes c 13 0 0 0 s.dev e ∧
      s.dev.Frame e [.hr] [R.HR_RING_DIDX c.ring, R.HR_RING_DIDX (s.dev.cplRing c.ring)]) := by
  have hexec := Dev.executes_takeCommand hready
  have hend := (s.dev.takeCommand c.ring).frame_finish_good (s.dev.cmdOrigin c 13) 0 0 (status := 0) (by decide)
  rw [Dev.cmdOrigin, hexec.cplRing c.ring.isLt] at hend
  refine answers_ended hs rfl hready rfl ⟨hexec.completes hready 13 0 0 0, ?_⟩
  exact (((s.dev.frame_takeCommand c.ring).mono (List.Subset.refl _) (by simp)).trans
    (hend.mono (List.Subset.refl _) (by simp))).settle

/-- A failure leaves the alarm of failed commands. -/
theorem Dev.cmdErr_finish (d : Dev) (o : Origin) (r0 r1 : Nat) :
    (d.finish o 3 r0 r1).flag R.HR_ALARM F.HR_ALARM_cmd_err = true := by
  have hraised (e : Dev) : ((e.raise R.HR_ALARM F.HR_ALARM_cmd_err).count (devCtr 8)).flag R.HR_ALARM F.HR_ALARM_cmd_err =
      true := by
    rw [Dev.flag, (Dev.frame_count (r := [R.PC_ALARM]) _ _ _ [] (by simp)).fld_eq (by decide), ← Dev.flag,
      Dev.flag_raise_same _ _ _ ⟨by decide, by decide⟩]
  rw [d.finish_eq, Dev.flag, (Dev.frame_ringWrite _ _ _).fld_eq, ← Dev.flag]
  · exact hraised _
  · simp only [List.mem_singleton, R.HR_ALARM, R.HR_RING_DIDX]
    omega

theorem bad_opcode_done {op : Byte} (hs : s.Up) (hready : s.dev.cmdReady c.ring = true)
    (hop : op.toNat = 0 ∨ 13 < op.toNat) : Answers (.badOpcode op c) s (fun e =>
      s.dev.Frame e [.hr] (s.dev.cmdRegs c.ring) ∧ Completes c op.toNat 3 0 0 s.dev e ∧
        e.flag R.HR_ALARM F.HR_ALARM_cmd_err = true) := by
  obtain ⟨hframe, hdone⟩ := (Dev.executes_takeCommand hready).ended hready (s.dev.frame_taken c) (by decide)
    (List.Subset.refl _) op.toNat 3 0 0
  refine .of_running (f := fun d => if 1 ≤ op.toNat ∧ op.toNat ≤ 13 then d
    else d.command c op.toNat fun d o => d.finish o 3) hs rfl ?_
  rw [if_neg (by omega)]
  dsimp only [Dev.command]
  rw [hready, Bool.not_true, if_neg Bool.false_ne_true]
  refine ⟨hframe, hdone, ?_⟩
  rw [Dev.flag_settle]
  exact Dev.cmdErr_finish _ _ _ _

/-! What a command writes for the host. -/

/-- Octets are written to host memory, unless a command brings none. -/
def Dev.handOver (d : Dev) (nothing : Bool) (a : Nat) (bs : List Byte) : Dev := if nothing then d else d.toHost a bs

section
variable (d : Dev) (nothing : Bool) (a : Nat) (bs : List Byte)

theorem Dev.frame_handOver (p : List Part) (r : List Nat) : d.Frame (d.handOver nothing a bs) p r :=
  Dev.frame_ite (.refl d p r) (d.frame_toHost a bs p r)

theorem Dev.keepsRings_handOver : d.KeepsRings (d.handOver nothing a bs) := by
  unfold Dev.handOver
  split
  · exact .refl d
  · exact d.keepsRings_toHost a bs

end

theorem Dev.mem_out_handOver {d : Dev} {nothing : Bool} (h : nothing = false) (a : Nat) (bs : List Byte)
    (hlink : d.hr.linkUp = true) : .hostWrite a bs ∈ (d.handOver nothing a bs).out := by
  rw [Dev.handOver, h, if_neg Bool.false_ne_true]
  exact d.mem_out_toHost a bs hlink

/-! TSQ_READ (R152). -/

theorem length_leBytes (n v : Nat) : (leBytes n v).length = n := by
  induction n generalizing v with
  | zero => rfl
  | succ n ih => simp [leBytes, ih]

theorem TsqEntry.length_bytes (e : TsqEntry) : e.bytes.length = 16 := by
  simp [TsqEntry.bytes, length_leBytes]

theorem TsqEntry.length_flatMap_bytes (es : List TsqEntry) : (es.flatMap TsqEntry.bytes).length = 16 * es.length := by
  induction es with
  | nil => rfl
  | cons e es ih =>
    rw [List.flatMap_cons, List.length_append, ih, e.length_bytes, List.length_cons]
    omega

theorem TsqEntry.flatMap_bytes_ne_nil {es : List TsqEntry} (h : es ≠ []) : es.flatMap TsqEntry.bytes ≠ [] := by
  have hpos := List.length_pos_iff.2 h
  rw [ne_eq, ← List.length_eq_zero_iff, TsqEntry.length_flatMap_bytes]
  omega

theorem entriesOf_ne_zero (c : CmdDesc) : entriesOf c ≠ 0 := by
  unfold entriesOf
  omega

/-- Entries read with both their copies good leave the device as it is. -/
theorem Dev.tsqTakes_good (d : Dev) (xs : List (Nat × TsqEntry)) (got : List Byte) :
    xs.foldl (fun acc x => acc.1.tsqTake .good acc.2 x.2) (d, got) =
      (d, got ++ (xs.map (·.2)).flatMap TsqEntry.bytes) := by
  induction xs generalizing got with
  | nil => simp
  | cons x xs ih =>
    rw [List.foldl_cons]
    refine (ih (got ++ x.2.bytes)).trans ?_
    rw [List.map_cons, List.flatMap_cons, List.append_assoc]

/-- Entries have left the transmit-timestamp queue. -/
def Dev.tsqDrained (d : Dev) (n : Nat) : Dev := { d with tc := { d.tc with tsq := d.tc.tsq.drop n } }

/-- The entries of TSQ_READ are given to the host. -/
def Dev.tsqGiven (d : Dev) (n a : Nat) : Dev :=
  (d.tsqDrained n).handOver ((d.tc.tsq.take n).flatMap TsqEntry.bytes).isEmpty a ((d.tc.tsq.take n).flatMap TsqEntry.bytes)

section
variable (d : Dev) (n a : Nat)

theorem Dev.frame_tsqDrained : d.Frame (d.tsqDrained n) [.tc] [] := d.frame_tc _ _ (by simp)

theorem Dev.frame_tsqGiven : d.Frame (d.tsqGiven n a) [.tc] [] :=
  (d.frame_tsqDrained n).trans (Dev.frame_handOver _ _ _ _ _ _)

theorem Dev.keepsRings_tsqGiven : d.KeepsRings (d.tsqGiven n a) :=
  ((d.frame_tsqDrained n).keepsRings (by decide) fun _ h => h).trans (Dev.keepsRings_handOver _ _ _ _)

theorem Dev.tsq_tsqGiven : (d.tsqGiven n a).tc.tsq = d.tc.tsq.drop n := by
  rw [Dev.tsqGiven, (Dev.frame_handOver _ _ _ _ [] []).tc_eq (by decide)]
  rfl

theorem Dev.mem_out_tsqGiven (hn : n ≠ 0) (hne : d.tc.tsq ≠ []) (hlink : d.hr.linkUp = true) :
    .hostWrite a ((d.tc.tsq.take n).flatMap TsqEntry.bytes) ∈ (d.tsqGiven n a).out := by
  have hbytes := TsqEntry.flatMap_bytes_ne_nil (es := d.tc.tsq.take n) (by simpa [hn] using hne)
  exact Dev.mem_out_handOver (by simpa using hbytes) _ _ hlink

end

/-- The work of TSQ_READ with every copy good. -/
theorem Dev.tsqRead_eq (d : Dev) (n a : Nat) (o : Origin) :
    (let es := d.tc.tsq.take n
     let (d1, bs) := ((List.range es.length).zip es).foldl (fun acc x => acc.1.tsqTake .good acc.2 x.2)
       (d.tsqDrained n, [])
     let d2 := if bs.isEmpty then d1 else d1.toHost a bs
     d2.finish o 0 (bs.length / 16) (d2.fld R.TC_TSQ_STAT F.TC_TSQ_STAT_lost)) =
      (d.tsqGiven n a).finish o 0 (d.tc.tsq.take n).length (d.fld R.TC_TSQ_STAT F.TC_TSQ_STAT_lost) := by
  have hzip : ((List.range (d.tc.tsq.take n).length).zip (d.tc.tsq.take n)).map (·.2) = d.tc.tsq.take n :=
    List.map_snd_zip (by simp)
  have hlost := (d.frame_tsqGiven n a).fld_eq (o := R.TC_TSQ_STAT) (by simp) F.TC_TSQ_STAT_lost
  dsimp only
  rw [Dev.tsqTakes_good, hzip, List.nil_append, TsqEntry.length_flatMap_bytes, Nat.mul_div_cancel_left _ (by decide), ← hlost,
    Dev.tsqGiven, Dev.handOver]

theorem tsq_read_done (hs : s.Up) (hready : s.dev.cmdReady c.ring = true) : Answers (.tsqRead c []) s (fun e =>
    s.dev.Frame e [.hr, .tc] (s.dev.cmdRegs c.ring) ∧ e.tc.tsq = s.dev.tc.tsq.drop (entriesOf c) ∧
      Completes c 5 0 (s.dev.tc.tsq.take (entriesOf c)).length (s.dev.fld R.TC_TSQ_STAT F.TC_TSQ_STAT_lost) s.dev e ∧
      (s.dev.tc.tsq ≠ [] → s.dev.hr.linkUp = true →
        .hostWrite c.addr.toNat ((s.dev.tc.tsq.take (entriesOf c)).flatMap TsqEntry.bytes) ∈ e.out)) := by
  have htime := s.dev.keepsTime_takeCommand c.ring.isLt
  have hgiven := (s.dev.takeCommand c.ring).frame_tsqGiven (entriesOf c) c.addr.toNat
  have htaken := Dev.executes_takeCommand hready
  have hexec := htaken.keep hgiven (by simp) c.ring.isLt (Dev.keepsRings_tsqGiven _ _ _)
  obtain ⟨hframe, hdone⟩ := hexec.ended hready (((s.dev.frame_taken c).mono (by simp) (List.Subset.refl _)).trans
    (hgiven.mono (q := [.hr, .tc]) (by simp) (List.nil_subset _))) (by simp) (List.Subset.refl _) 5 0
    (s.dev.tc.tsq.take (entriesOf c)).length (s.dev.fld R.TC_TSQ_STAT F.TC_TSQ_STAT_lost)
  have hout := (s.dev.takeCommand c.ring).mem_out_tsqGiven (entriesOf c) c.addr.toNat (entriesOf_ne_zero c)
  have htsq := (s.dev.takeCommand c.ring).tsq_tsqGiven (entriesOf c) c.addr.toNat
  have hwork := (s.dev.takeCommand c.ring).tsqRead_eq (entriesOf c) c.addr.toNat (s.dev.cmdOrigin c 5)
  rw [htime.tc] at hout htsq
  have hes : (s.dev.takeCommand c.ring).tc.tsq.take (entriesOf c) = s.dev.tc.tsq.take (entriesOf c) := by rw [htime.tc]
  refine answers_ended hs rfl hready (hwork.trans (by rw [hes, htime.fld (by decide)])) ⟨hframe, ?_, hdone, fun hne hlink => ?_⟩
  · rw [Dev.settle_tc, (Dev.frame_finish _ _ _ _ _).tc_eq (by decide), htsq]
  · exact Dev.mem_out_settle (Dev.out_finish _ _ _ _ _ (hout hne (htaken.link.trans hlink)))

/-! CTR_SNAPSHOT (R398). -/

theorem snapshot_refused (hs : s.Up) (hready : s.dev.cmdReady c.ring = true) (hn : 4096 < entriesOf c) :
    Answers (.ctrSnapshot c) s (fun e => s.dev.Frame e [.hr] (s.dev.cmdRegs c.ring) ∧ Completes c 6 4 0 0 s.dev e) := by
  refine answers_ended (u := s.dev.takeCommand c.ring) (status := 4) (r0 := 0) (r1 := 0) hs rfl hready (if_pos hn) ?_
  exact (Dev.executes_takeCommand hready).ended hready (s.dev.frame_taken c) (by decide) (List.Subset.refl _) 6 4 0 0

/-- The octets of a snapshot: the head, and the counters from one on. -/
def Dev.snapshotBytes (d : Dev) (first n : Nat) : List Byte :=
  leBytes 6 d.now ++ leBytes 1 d.te ++ leBytes 1 (if d.timeValid then 0 else 1) ++ leBytes 4 first ++ leBytes 4 n ++
    ((List.range n).map (· + first)).flatMap d.ctrEntry

theorem Dev.snapshotBytes_takeCommand (d : Dev) {y : Nat} (hy : y < 64) (first n : Nat) :
    (d.takeCommand y).snapshotBytes first n = d.snapshotBytes first n := by
  have htime := d.keepsTime_takeCommand hy
  have hctr : (d.takeCommand y).ctrEntry = d.ctrEntry := by
    funext m
    rw [Dev.ctrEntry, Dev.ctrEntry, d.pc_takeCommand]
  rw [Dev.snapshotBytes, Dev.snapshotBytes, htime.now, htime.te, htime.timeValid, hctr]

theorem snapshot_done (hs : s.Up) (hready : s.dev.cmdReady c.ring = true) (hn : entriesOf c ≤ 4096)
    (hclear : bit (s.dev.arg1 c) 0 = false) : Answers (.ctrSnapshot c) s (fun e =>
      s.dev.Frame e [.hr] (s.dev.cmdRegs c.ring) ∧ Completes c 6 0 (entriesOf c) s.dev.te s.dev e ∧
        (s.dev.hr.linkUp = true →
          .hostWrite c.addr.toNat (s.dev.snapshotBytes c.arg0.toNat (entriesOf c)) ∈ e.out)) := by
  have htaken := Dev.executes_takeCommand hready
  have hgiven := (s.dev.takeCommand c.ring).frame_toHost c.addr.toNat (s.dev.snapshotBytes c.arg0.toNat (entriesOf c))
  have hexec := htaken.keep (hgiven [] []) (by simp) c.ring.isLt (Dev.keepsRings_toHost _ _ _)
  obtain ⟨hframe, hdone⟩ := hexec.ended hready ((s.dev.frame_taken c).trans (hgiven _ _)) (by simp) (List.Subset.refl _) 6 0
    (entriesOf c) s.dev.te
  have harg : ((s.dev.takeCommand c.ring).toHost c.addr.toNat (s.dev.snapshotBytes c.arg0.toNat (entriesOf c))).arg1 c =
      s.dev.arg1 c := by
    rw [Dev.arg1, Dev.arg1, Dev.v3, (hgiven [] []).fld_eq (by simp), ← Dev.v3, s.dev.v3_takeCommand]
  refine answers_ended (u := (s.dev.takeCommand c.ring).toHost c.addr.toNat
    (s.dev.snapshotBytes c.arg0.toNat (entriesOf c))) (status := 0) (r0 := entriesOf c) (r1 := s.dev.te) hs rfl hready ?_
    ⟨hframe, hdone, fun hlink => ?_⟩
  · refine (if_neg (Nat.not_lt.2 hn)).trans ?_
    have hbytes := s.dev.snapshotBytes_takeCommand c.ring.isLt c.arg0.toNat (entriesOf c)
    unfold Dev.snapshotBytes at hbytes harg ⊢
    dsimp only
    rw [hbytes, harg, hclear, if_neg Bool.false_ne_true, (s.dev.keepsTime_takeCommand c.ring.isLt).te]
  · exact Dev.mem_out_settle (Dev.out_finish _ _ _ _ _ (Dev.mem_out_toHost _ _ _ (htaken.link.trans hlink)))

/-! KLOG_READ (R394). -/

theorem klog_read_done (hs : s.Up) (hready : s.dev.cmdReady c.ring = true) (hclear : s.dev.nv.clearing = none) :
    let rs := packRecords (256 * entriesOf c) (s.dev.nv.klog.drop c.arg0.toNat)
    Answers (.klogRead c) s (fun e => s.dev.Frame e [.hr] (s.dev.cmdRegs c.ring) ∧
      Completes c 7 0 rs.length (c.arg0.toNat + rs.length) s.dev e ∧ e.nv = s.dev.nv ∧
        (rs ≠ [] → s.dev.hr.linkUp = true → .hostWrite c.addr.toNat rs.flatten ∈ e.out)) := by
  intro rs
  have htaken := Dev.executes_takeCommand hready
  have hnv := s.dev.nv_takeCommand c.ring
  have hgiven := (s.dev.takeCommand c.ring).frame_handOver rs.isEmpty c.addr.toNat rs.flatten
  have hexec := htaken.keep (hgiven [] []) (by simp) c.ring.isLt (Dev.keepsRings_handOver _ _ _ _)
  obtain ⟨hframe, hdone⟩ := hexec.ended hready ((s.dev.frame_taken c).trans (hgiven _ _)) (by simp) (List.Subset.refl _) 7 0
    rs.length (c.arg0.toNat + rs.length)
  refine answers_ended (u := (s.dev.takeCommand c.ring).handOver rs.isEmpty c.addr.toNat rs.flatten) (status := 0)
    (r0 := rs.length) (r1 := c.arg0.toNat + rs.length) hs rfl hready ?_ ⟨hframe, hdone, hframe.nv_eq (by decide),
      fun hne hlink => ?_⟩
  · dsimp only
    rw [hnv, hclear, Option.isSome_none, if_neg Bool.false_ne_true]
    rfl
  · exact Dev.mem_out_settle (Dev.out_finish _ _ _ _ _
      (Dev.mem_out_handOver (by simpa using hne) _ _ (htaken.link.trans hlink)))

/-! KLOG_CLEAR_BEGIN (R416). -/

/-- The challenge of ring y is void. -/
def Dev.challengeVoid (d : Dev) (y : Nat) : Dev :=
  if (d.ring y).challenge.isSome then d.setRing y { d.ring y with challenge := none } else d

/-- The rings after the challenges of a list of them are void. -/
structure Dev.Voided (d e : Dev) (ys : List Nat) : Prop where
  frame     : d.Frame e [.hr] []
  link      : e.hr.linkUp = d.hr.linkUp
  reserved  : ∀ z, (e.ring z).reserved = (d.ring z).reserved
  challenge : ∀ z ∈ ys, (e.ring z).challenge = none
  kept      : ∀ z, (d.ring z).challenge = none → (e.ring z).challenge = none

theorem Dev.voided_nil (d : Dev) : d.Voided d [] := ⟨.refl _ _ _, rfl, fun _ => rfl, by simp, fun _ h => h⟩

theorem Dev.voided_one (d : Dev) (y : Nat) : d.Voided (d.challengeVoid y) [y] := by
  unfold Dev.challengeVoid
  split
  · refine ⟨d.frame_setRing _ _ _ (by simp), rfl, fun z => ?_, fun z hz => ?_, fun z hz => ?_⟩
    · by_cases h : z = y
      · rw [h, Dev.ring_setRing_same]
      · rw [d.ring_setRing_ne _ h]
    · rw [List.mem_singleton.1 hz, Dev.ring_setRing_same]
    · by_cases h : z = y
      · rw [h, Dev.ring_setRing_same]
      · rwa [d.ring_setRing_ne _ h]
  · next h =>
    refine ⟨.refl _ _ _, rfl, fun _ => rfl, fun z hz => ?_, fun _ hz => hz⟩
    rw [List.mem_singleton.1 hz]
    exact Option.not_isSome_iff_eq_none.1 h

theorem Dev.Voided.trans {d e f : Dev} {y : Nat} {ys : List Nat} (h : d.Voided e [y]) (h' : e.Voided f ys) :
    d.Voided f (y :: ys) where
  frame := h.frame.trans h'.frame
  link := h'.link.trans h.link
  reserved z := (h'.reserved z).trans (h.reserved z)
  challenge z hz := by
    rcases List.mem_cons.1 hz with rfl | hz
    · exact h'.kept z (h.challenge z (List.mem_singleton_self z))
    · exact h'.challenge z hz
  kept z hz := h'.kept z (h.kept z hz)

theorem Dev.voided_foldl (ys : List Nat) (d : Dev) : d.Voided (ys.foldl Dev.challengeVoid d) ys := by
  induction ys generalizing d with
  | nil => exact d.voided_nil
  | cons y ys ih => exact (d.voided_one y).trans (ih _)

/-- The octets of a challenge for a key slot. -/
def Dev.challengeBytes (d : Dev) (slot : Nat) : List Byte :=
  (d.freeBytes 32).1 ++ leBytes 4 d.nv.clears ++ leBytes 4 d.nv.pwr ++ leBytes 1 slot ++ leBytes 7 0

theorem Dev.length_challengeBytes (d : Dev) (slot : Nat) : (d.challengeBytes slot).length = 48 := by
  simp [Dev.challengeBytes, Dev.freeBytes, length_leBytes]

/-- Free octets are drawn, and every challenge is void. -/
def Dev.challengesVoid (d : Dev) : Dev := (List.range 64).foldl Dev.challengeVoid (d.freeBytes 32).2

/-- Ring y holds a challenge for a key slot, the only one. -/
def Dev.challenged (d : Dev) (y slot : Nat) : Dev :=
  d.challengesVoid.setRing y { d.challengesVoid.ring y with
    challenge := some { slot := slot, bytes := d.challengeBytes slot, at_ := d.challengesVoid.ticks } }

theorem Dev.frame_freeBytes (d : Dev) (n : Nat) (p : List Part) (r : List Nat) : d.Frame (d.freeBytes n).2 p r := by
  refine ⟨fun u _ => ?_, fun _ _ => rfl⟩
  cases u <;> simp [Dev.SamePart, Dev.freeBytes]

theorem Dev.voided_challengesVoid (d : Dev) : d.Voided d.challengesVoid (List.range 64) := by
  obtain ⟨hframe, hlink, hreserved, hchallenge, hkept⟩ := Dev.voided_foldl (List.range 64) (d.freeBytes 32).2
  unfold Dev.challengesVoid
  exact ⟨(d.frame_freeBytes 32 _ _).trans hframe, hlink, hreserved, hchallenge, hkept⟩

theorem Dev.frame_challenged (d : Dev) (y slot : Nat) : d.Frame (d.challenged y slot) [.hr] [] :=
  d.voided_challengesVoid.frame.trans (Dev.frame_setRing _ _ _ _ (by simp))

theorem Dev.link_setRing (d : Dev) (y : Nat) (x : Ring) : (d.setRing y x).hr.linkUp = d.hr.linkUp := rfl

theorem Dev.link_challenged (d : Dev) (y slot : Nat) : (d.challenged y slot).hr.linkUp = d.hr.linkUp := by
  rw [Dev.challenged, Dev.link_setRing, d.voided_challengesVoid.link]

theorem Dev.reserved_challenged (d : Dev) (y slot z : Nat) :
    ((d.challenged y slot).ring z).reserved = (d.ring z).reserved := by
  by_cases h : z = y
  · rw [h, Dev.challenged, Dev.ring_setRing_same, d.voided_challengesVoid.reserved]
  · rw [Dev.challenged, Dev.ring_setRing_ne _ _ h, d.voided_challengesVoid.reserved]

theorem Dev.ticks_challengesVoid (d : Dev) : d.challengesVoid.ticks = d.ticks :=
  (d.voided_challengesVoid.frame.1 .board (by decide)).2.2

theorem Dev.challenge_challenged (d : Dev) (y slot : Nat) : ((d.challenged y slot).ring y).challenge =
    some { slot := slot, bytes := d.challengeBytes slot, at_ := d.ticks } := by
  rw [Dev.challenged, Dev.ring_setRing_same, d.ticks_challengesVoid]

theorem Dev.challenge_challenged_ne (d : Dev) {y slot z : Nat} (hz : z < 64) (h : z ≠ y) :
    ((d.challenged y slot).ring z).challenge = none := by
  rw [Dev.challenged, Dev.ring_setRing_ne _ _ h]
  exact d.voided_challengesVoid.challenge z (List.mem_range.2 hz)

theorem challenge_given (hs : s.Up) (hready : s.dev.cmdReady c.ring = true) (hslot : c.arg0.toNat ≤ 7) :
    Answers (.klogClearBegin c) s (fun e => s.dev.Frame e [.hr] (s.dev.cmdRegs c.ring) ∧ Completes c 8 0 48 0 s.dev e ∧
      (∃ h, (e.ring c.ring).challenge = some h ∧ h.slot = c.arg0.toNat ∧ h.bytes.length = 48 ∧ h.at_ = s.dev.ticks ∧
        (s.dev.hr.linkUp = true → .hostWrite c.addr.toNat h.bytes ∈ e.out)) ∧
      ∀ r < 64, r ≠ c.ring.val → (e.ring r).challenge = none) := by
  have htaken := Dev.executes_takeCommand hready
  have hgiven := (s.dev.takeCommand c.ring).frame_challenged c.ring c.arg0.toNat
  have hsent := ((s.dev.takeCommand c.ring).challenged c.ring c.arg0.toNat).frame_toHost c.addr.toNat
    ((s.dev.takeCommand c.ring).challengeBytes c.arg0.toNat)
  have hkeeps := ((s.dev.takeCommand c.ring).challenged c.ring c.arg0.toNat).keepsRings_toHost c.addr.toNat
    ((s.dev.takeCommand c.ring).challengeBytes c.arg0.toNat)
  have hlink := (s.dev.takeCommand c.ring).link_challenged c.ring c.arg0.toNat
  have hexec := (htaken.step hgiven (by simp) c.ring.isLt hlink (Dev.reserved_challenged _ _ _)).keep (hsent [] []) (by simp)
    c.ring.isLt hkeeps
  obtain ⟨hframe, hdone⟩ := hexec.ended hready (((s.dev.frame_taken c).trans (hgiven.mono (List.Subset.refl _)
    (List.nil_subset _))).trans (hsent _ _)) (by simp) (List.Subset.refl _) 8 0 48 0
  have hchallenge (z : Nat) := (Dev.keepsRings_settle _).challenge z |>.trans
    ((Dev.challenge_finish _ (s.dev.cmdOrigin c 8) 0 48 0 z).trans (hkeeps.challenge z))
  have hticks : (s.dev.takeCommand c.ring).ticks = s.dev.ticks := ((s.dev.frame_takeCommand c.ring).1 .board (by decide)).2.2
  refine answers_ended (u := ((s.dev.takeCommand c.ring).challenged c.ring c.arg0.toNat).toHost c.addr.toNat
    ((s.dev.takeCommand c.ring).challengeBytes c.arg0.toNat)) (status := 0) (r0 := 48) (r1 := 0) hs rfl hready
    (if_neg (Nat.not_lt.2 hslot)) ⟨hframe, hdone, ⟨_, (hchallenge _).trans (Dev.challenge_challenged _ _ _), rfl,
      Dev.length_challengeBytes _ _, hticks, fun hup => ?_⟩,
    fun r hr hne => (hchallenge r).trans (Dev.challenge_challenged_ne _ hr hne)⟩
  exact Dev.mem_out_settle (Dev.out_finish _ _ _ _ _ (Dev.mem_out_toHost _ _ _ (hlink.trans (htaken.link.trans hup))))

/-! KLOG_CLEAR_FINISH (R395, R416). -/

theorem Dev.clearAllowed_takeCommand (d : Dev) (c : CmdDesc) :
    (d.takeCommand c.ring).clearAllowed c = d.clearAllowed c := by
  have hticks : (d.takeCommand c.ring).ticks = d.ticks := ((d.frame_takeCommand c.ring).1 .board (by decide)).2.2
  unfold Dev.clearAllowed
  rw [d.challenge_takeCommand, hticks, d.nv_takeCommand]

/-- A clear's command has its ring: the challenge is used up. -/
def Dev.challengeUsed (d : Dev) (y : Nat) : Dev := d.setRing y { d.ring y with challenge := none }

theorem Dev.reserved_challengeUsed (d : Dev) (y z : Nat) : ((d.challengeUsed y).ring z).reserved = (d.ring z).reserved := by
  by_cases h : z = y
  · rw [h, Dev.challengeUsed, Dev.ring_setRing_same]
  · rw [Dev.challengeUsed, Dev.ring_setRing_ne _ _ h]

theorem Dev.frame_challengeUsed (d : Dev) (y : Nat) : d.Frame (d.challengeUsed y) [.hr] [] :=
  d.frame_setRing _ _ _ (by simp)

/-- The command completes when the clear ends. -/
def Dev.clearOwed (d : Dev) (o : Origin) : Dev := { d with hr := { d.hr with clearFor := some o } }

theorem Dev.frame_clearOwed (d : Dev) (y : Nat) (o : Origin) : d.Frame ((d.challengeUsed y).clearOwed o) [.hr] [] :=
  (d.frame_challengeUsed y).trans (Dev.frame_hr _ _ _ (by simp))

theorem Dev.busy_clearOwed (d : Dev) (y : Nat) (o : Origin) :
    (((d.challengeUsed y).clearOwed o).ring y).busy = (d.ring y).busy := by
  change ((d.challengeUsed y).ring y).busy = _
  rw [Dev.challengeUsed, Dev.ring_setRing_same]

/-- A clear is refused: record and alarm. -/
def Dev.clearRefused (d : Dev) (slot y : Nat) : Dev :=
  (d.record 0x02 (leBytes 1 slot ++ leBytes 1 y ++ leBytes 2 0)).raise R.ER_ALARM F.ER_ALARM_auth_fail

theorem Dev.frame_clearRefused (d : Dev) (slot y : Nat) : d.Frame (d.clearRefused slot y) [.log] logRegs :=
  (d.frame_record _ _ (by simp) (List.Subset.refl _)).trans (Dev.frame_raise _ _ _ (by decide))

theorem Dev.keepsRings_clearRefused (d : Dev) (slot y : Nat) : d.KeepsRings (d.clearRefused slot y) :=
  (d.keepsRings_record _ _).trans (Dev.keepsRings_raise _ _ _)

/-- KLOG_CLEAR_FINISH while no other clear runs. -/
theorem answers_klogClearFinish {Q : Dev → Prop} (hs : s.Up) (hready : s.dev.cmdReady c.ring = true)
    (hclear : s.dev.nv.clearing = none)
    (hQ : Q (if s.dev.clearAllowed c then
        (((s.dev.takeCommand c.ring).challengeUsed c.ring).clearOwed (s.dev.cmdOrigin c 9)).beginClear (c.arg0.toNat % 8)
      else (((s.dev.takeCommand c.ring).challengeUsed c.ring).clearRefused c.arg0.toNat c.ring).finish
        (s.dev.cmdOrigin c 9) 7).settle) : Answers (.klogClearFinish c) s Q := by
  refine .of_running (f := fun d => if d.nv.clearing.isSome then d else d.command c 9 fun d o =>
    if d.clearAllowed c then
      ((d.challengeUsed c.ring).clearOwed o).beginClear (c.arg0.toNat % 8)
    else ((d.challengeUsed c.ring).clearRefused c.arg0.toNat c.ring).finish o 7) hs rfl ?_
  rw [hclear, Option.isSome_none, if_neg Bool.false_ne_true]
  dsimp only [Dev.command]
  rw [hready, Bool.not_true, if_neg Bool.false_ne_true, s.dev.clearAllowed_takeCommand]
  exact hQ

theorem clear_refused (hs : s.Up) (hready : s.dev.cmdReady c.ring = true) (hclear : s.dev.nv.clearing = none)
    (hwrong : s.dev.clearAllowed c = false) : Answers (.klogClearFinish c) s (fun e =>
      s.dev.Frame e [.hr, .log] (logRegs ++ s.dev.cmdRegs c.ring) ∧ Completes c 9 7 0 0 s.dev e ∧ e.nv = s.dev.nv ∧
        e.flag R.ER_ALARM F.ER_ALARM_auth_fail = true ∧ (e.ring c.ring).challenge = none) := by
  have hused := (s.dev.takeCommand c.ring).frame_challengeUsed c.ring
  have hrefused := ((s.dev.takeCommand c.ring).challengeUsed c.ring).frame_clearRefused c.arg0.toNat c.ring
  have hkeeps := ((s.dev.takeCommand c.ring).challengeUsed c.ring).keepsRings_clearRefused c.arg0.toNat c.ring
  have hexec := ((Dev.executes_takeCommand hready).step hused (by simp) c.ring.isLt (Dev.link_setRing _ _ _)
    (Dev.reserved_challengeUsed _ _)).keep hrefused (by decide) c.ring.isLt hkeeps
  have hwork : s.dev.Frame (((s.dev.takeCommand c.ring).challengeUsed c.ring).clearRefused c.arg0.toNat c.ring) [.hr, .log]
      (logRegs ++ s.dev.cmdRegs c.ring) :=
    (((s.dev.frame_taken c).mono (by simp) (List.subset_append_right _ _)).trans
      (hused.mono (by simp) (List.nil_subset _))).trans (hrefused.mono (by simp) (List.subset_append_left _ _))
  obtain ⟨hframe, hdone⟩ := hexec.ended hready hwork (by simp) (List.subset_append_right _ _) 9 7 0 0
  refine answers_klogClearFinish hs hready hclear ?_
  rw [hwrong, if_neg Bool.false_ne_true]
  refine ⟨hframe, hdone, hframe.nv_eq (by decide), ?_, ?_⟩
  · rw [Dev.flag_settle, Dev.flag, (Dev.frame_finish_good _ _ _ _ (by decide)).fld_eq, ← Dev.flag, Dev.clearRefused,
      Dev.flag_raise_same _ _ _ ⟨by decide, by decide⟩]
    have hlt := (((s.dev.takeCommand c.ring).challengeUsed c.ring).clearRefused c.arg0.toNat c.ring).cplRing_lt c.ring
    simp only [List.mem_singleton, Dev.cmdOrigin, R.ER_ALARM, R.HR_RING_DIDX]
    omega
  · rw [(Dev.keepsRings_settle _).challenge, Dev.challenge_finish, hkeeps.challenge, Dev.challengeUsed,
      Dev.ring_setRing_same]

/-! The clear itself (R395). -/

/-- The counter of clears and the mark of one are in the MRAM. -/
def Dev.clearMarked (d : Dev) (slot : Nat) : Dev :=
  { d with nv := ({ d.nv with
      clears := d.nv.clears + 1
      clearing := some { records := d.nv.klog.length, refused := d.fld R.ER_REFUSED F.ER_REFUSED_count, slot := slot } } :
    Nv).wrote klogBase }

theorem Dev.beginClear_good (d : Dev) (slot : Nat) (h : d.nv.bad = []) : d.beginClear slot =
    ((d.clearMarked slot).setFlag R.ER_STATUS F.ER_STATUS_clearing true).setFld R.ER_CLEARS F.ER_CLEARS_count
      (d.nv.clears + 1) := by
  unfold Dev.beginClear
  dsimp only
  rw [Dev.mramWrite_good _ _ _ (by exact h)]
  rfl

/-- A clear has begun: counter, mark and status; the log is as it was. -/
theorem Dev.clear_begun {d : Dev} (h : d.nv.bad = []) (slot : Nat) :
    d.Frame (d.beginClear slot) [.nv] [R.ER_STATUS, R.ER_CLEARS] ∧ (d.beginClear slot).nv.clears = d.nv.clears + 1 ∧
      (d.beginClear slot).nv.klog = d.nv.klog ∧ (d.beginClear slot).nv.clearing.isSome = true ∧
      (d.beginClear slot).flag R.ER_STATUS F.ER_STATUS_clearing = true ∧ d.KeepsRings (d.beginClear slot) := by
  have hmarked : d.Frame (d.clearMarked slot) [.nv] [R.ER_STATUS, R.ER_CLEARS] := d.frame_nv _ _ (by simp)
  rw [d.beginClear_good slot h]
  refine ⟨(hmarked.trans (Dev.frame_setFlag _ _ _ _ (by simp))).trans (Dev.frame_setFld _ _ _ _ (by simp)), ?_, ?_, ?_, ?_,
    ((hmarked.keepsRings (by decide) fun _ hx => hx).trans (Dev.keepsRings_setFld _ _ _ _)).trans
      (Dev.keepsRings_setFld _ _ _ _)⟩
  · exact Nv.wrote_clears _ _
  · exact Nv.wrote_klog _ _
  · exact congrArg Option.isSome (Nv.wrote_clearing _ _)
  · rw [Dev.flag_setFld_ne _ _ _ _ (by decide)]
    exact Dev.flag_setFlag_same _ _ _ _ (by decide)

theorem clear_allowed (hs : s.Up) (hready : s.dev.cmdReady c.ring = true) (hclear : s.dev.nv.clearing = none)
    (hright : s.dev.clearAllowed c = true) (hgood : s.dev.nv.bad = []) : Answers (.klogClearFinish c) s (fun e =>
      s.dev.Frame e [.hr, .nv] (R.ER_STATUS :: R.ER_CLEARS :: s.dev.cmdRegs c.ring) ∧ e.nv.clears = s.dev.nv.clears + 1 ∧
        e.nv.klog = s.dev.nv.klog ∧ e.nv.clearing.isSome = true ∧ (e.ring c.ring).busy = true ∧
        e.flag R.ER_STATUS F.ER_STATUS_clearing = true) := by
  have howed := (s.dev.takeCommand c.ring).frame_clearOwed c.ring (s.dev.cmdOrigin c 9)
  have hnv := howed.nv_eq (by decide)
  rw [s.dev.nv_takeCommand] at hnv
  obtain ⟨hframe, hclears, hklog, hmark, hflag, hkeeps⟩ := Dev.clear_begun (hnv ▸ hgood) (c.arg0.toNat % 8)
  rw [hnv] at hclears hklog
  have htaken := (s.dev.frame_taken c).mono (q := [.hr, .nv]) (t := R.ER_STATUS :: R.ER_CLEARS :: s.dev.cmdRegs c.ring)
    (by simp) (fun o ho => List.mem_cons_of_mem _ (List.mem_cons_of_mem _ ho))
  refine answers_klogClearFinish hs hready hclear ?_
  rw [if_pos hright]
  refine ⟨?_, ?_, ?_, ?_, ?_, ?_⟩
  · exact ((htaken.trans (howed.mono (by simp) (List.nil_subset _))).trans (hframe.mono (by simp) (by simp))).settle
  · rw [Dev.settle_nv, hclears]
  · rw [Dev.settle_nv, hklog]
  · rw [Dev.settle_nv, hmark]
  · rw [(Dev.keepsRings_settle _).busy, hkeeps.busy, Dev.busy_clearOwed, Dev.busy_takeCommand]
  · rw [Dev.flag_settle, hflag]

end

/-! The end of a clear (R395). -/

/-- The CLEAR record of a clear's mark. -/
def Nv.clearRecord (nv : Nv) (m : ClearMark) : List Byte :=
  recordBytes nv 0x01 (leBytes 4 nv.clears ++ leBytes 4 m.records ++ leBytes 4 m.refused ++ leBytes 1 m.slot ++ leBytes 3 0)

/-- The log holds the CLEAR record alone, and the mark is gone. -/
def Dev.clearStored (d : Dev) (m : ClearMark) : Dev :=
  { d with nv := { (d.nv.wrote (klogBase + 1)).wrote klogBase with klog := [d.nv.clearRecord m], clearing := none } }

theorem Dev.finishClear_good (d : Dev) (m : ClearMark) (h : d.nv.bad = []) : d.finishClear m =
    (((d.clearStored m).setFld R.ER_REFUSED F.ER_REFUSED_count 0).setFlag R.ER_STATUS F.ER_STATUS_full false).klogReport := by
  unfold Dev.finishClear
  dsimp only
  rw [Dev.mramWrite_good _ _ _ h, Dev.headerWrite_good _ _ (by simpa using h)]
  rfl

/-- The registers that a report of the log touches. -/
def reportRegs : List Nat := [R.ER_STATUS, R.ER_USED, R.ER_CLEARS, R.ER_PWR_CYCLES, R.ER_MINUTES]

theorem Dev.frame_klogReport (d : Dev) : d.Frame d.klogReport [] reportRegs :=
  ((((d.frame_setFld _ _ _ (by decide)).trans (Dev.frame_setFld _ _ _ _ (by decide))).trans
    (Dev.frame_setFld _ _ _ _ (by decide))).trans (Dev.frame_setFld _ _ _ _ (by decide))).trans
    (Dev.frame_setFld _ _ _ _ (by decide))

/-- The registers that the end of a clear touches. -/
def clearEndRegs : List Nat := reportRegs ++ [R.ER_ALARM, R.ER_REFUSED]

/-- The same before its alarm. -/
def clearStoreRegs : List Nat := reportRegs ++ [R.ER_REFUSED]

theorem Dev.frame_finishClear (d : Dev) (m : ClearMark) (h : d.nv.bad = []) :
    d.Frame (d.finishClear m) [.nv] clearStoreRegs := by
  rw [d.finishClear_good m h]
  exact (((d.frame_nv _ _ (by simp)).trans (Dev.frame_setFld _ _ _ _ (by decide))).trans
    (Dev.frame_setFlag _ _ _ _ (by decide))).trans
    ((Dev.frame_klogReport _).mono (List.nil_subset _) (List.subset_append_left _ _))

theorem Dev.nv_finishClear (d : Dev) (m : ClearMark) (h : d.nv.bad = []) : (d.finishClear m).nv =
    { (d.nv.wrote (klogBase + 1)).wrote klogBase with klog := [d.nv.clearRecord m], clearing := none } := by
  rw [d.finishClear_good m h, (Dev.frame_klogReport _).nv_eq (by simp)]
  rfl

/-- The status shows no clear. -/
def Dev.clearShown (d : Dev) (m : ClearMark) : Dev := (d.finishClear m).setFlag R.ER_STATUS F.ER_STATUS_clearing false

/-- The clear has ended, its command apart. -/
def Dev.clearDone (d : Dev) (m : ClearMark) : Dev := (d.clearShown m).raise R.ER_ALARM F.ER_ALARM_clear_done

section
variable {d : Dev} (h : d.nv.bad = []) (m : ClearMark)
include h

theorem Dev.frame_clearShown : d.Frame (d.clearShown m) [.nv] clearStoreRegs :=
  (d.frame_finishClear m h).trans (Dev.frame_setFlag _ _ _ _ (by decide))

theorem Dev.frame_clearDone : d.Frame (d.clearDone m) [.nv] clearEndRegs :=
  ((Dev.frame_clearShown h m).mono (List.Subset.refl _) (by decide)).trans (Dev.frame_raise _ _ _ (by decide))

theorem Dev.nv_clearDone : (d.clearDone m).nv =
    { (d.nv.wrote (klogBase + 1)).wrote klogBase with klog := [d.nv.clearRecord m], clearing := none } := by
  rw [Dev.clearDone, Dev.raise_nv, Dev.clearShown, Dev.setFlag, Dev.setFld_nv, d.nv_finishClear m h]

/-- The completion ring of any ring, of whatever number: the alarm of a clear is no part of a ring's configuration. -/
theorem Dev.cplRing_clearDone (y : Nat) : (d.clearDone m).cplRing y = d.cplRing y := by
  have hshown : (d.clearShown m).cplRing y = d.cplRing y := by
    refine (Dev.frame_clearShown h m).fld_eq ?_ _
    simp only [clearStoreRegs, reportRegs, List.mem_append, List.mem_cons, List.not_mem_nil, or_false, R.HR_RING_CFG,
      R.ER_STATUS, R.ER_USED, R.ER_CLEARS, R.ER_PWR_CYCLES, R.ER_MINUTES, R.ER_REFUSED]
    omega
  rw [← hshown, Dev.cplRing, Dev.cplRing, Dev.fld, Dev.fld, Dev.clearDone, Dev.reg_raise]
  split
  · next hreg =>
    rw [hreg.1]
    exact getField_putField_apart _ _ _ _ ⟨by decide, by decide⟩ ⟨by decide, by decide⟩ (.inl (by decide))
  · rfl

end

theorem Dev.status_clearDone (d : Dev) (m : ClearMark) : (d.clearDone m).flag R.ER_STATUS F.ER_STATUS_clearing = false := by
  rw [Dev.clearDone, Dev.flag_raise_ne _ _ _ (by decide)]
  exact Dev.flag_setFlag_same _ _ _ _ (by decide)

theorem Dev.alarm_clearDone (d : Dev) (m : ClearMark) : (d.clearDone m).flag R.ER_ALARM F.ER_ALARM_clear_done = true :=
  Dev.flag_raise_same _ _ _ ⟨by decide, by decide⟩

/-- The command that waits for the end of a clear completes. -/
def Dev.clearAnswered (d : Dev) : Dev :=
  match d.hr.clearFor with
  | none => d
  | some o => ({ d with hr := { d.hr with clearFor := none } } : Dev).finish o 0

theorem Dev.frame_clearAnswered (d : Dev) : ∃ r, d.Frame d.clearAnswered [.hr] r ∧
    ∀ x ∈ r, ∃ o, d.hr.clearFor = some o ∧ x = R.HR_RING_DIDX (d.cplRing o.ring) := by
  unfold Dev.clearAnswered
  split
  · exact ⟨[], .refl _ _ _, by simp⟩
  · next o ho =>
    refine ⟨[R.HR_RING_DIDX (d.cplRing o.ring)], ?_, fun x hx => ⟨o, ho, List.mem_singleton.1 hx⟩⟩
    exact (d.frame_hr _ _ (by simp)).trans (Dev.frame_finish_good _ o 0 0 (by decide))

theorem Dev.Frame.clearFor_eq {d e : Dev} {p : List Part} {r : List Nat} (h : d.Frame e p r) (hp : Part.hr ∉ p) :
    e.hr.clearFor = d.hr.clearFor := by
  have hhr : e.hr.sans = d.hr.sans := h.1 .hr hp
  exact (congrArg Hr.clearFor hhr :)

/-- With no record held over, the end of a clear is the clear done and its command answered. (`raise` stands under a name
of its own, so that the kernel compares the two sides without running it on the alarm's register.) -/
theorem exec_klogClearEnd {s : State} {m : ClearMark} (hs : s.Awake) (hm : s.dev.nv.clearing = some m)
    (hq : s.dev.klogQueue = []) :
    exec .klogClearEnd s = .next { s with dev := (s.dev.clearDone m).clearAnswered.settle } := by
  have hexec : exec .klogClearEnd s = execKlogClearEnd s := rfl
  rw [hexec, execKlogClearEnd, awake_next hs.1 hs.2, Dev.clearDone]
  obtain ⟨raised, hraised⟩ : ∃ f, f = Dev.raise := ⟨_, rfl⟩
  rw [← hraised, hm]
  dsimp only
  rw [hq, List.length_nil, List.range_zero, List.foldl_nil]
  rfl

theorem clear_ended {s : State} {m : ClearMark} {regs : List Nat} (hs : s.Awake) (hm : s.dev.nv.clearing = some m)
    (hq : s.dev.klogQueue = []) (hgood : s.dev.nv.bad = [])
    (hregs : ∀ o, s.dev.hr.clearFor = some o → s.dev.cmdRegs o.ring ⊆ regs) : Answers .klogClearEnd s (fun e =>
      s.dev.Frame e [.nv, .hr] (clearEndRegs ++ regs) ∧ e.nv.clearing = none ∧ e.nv.clears = s.dev.nv.clears ∧
        e.nv.keys = s.dev.nv.keys ∧ e.flag R.ER_ALARM F.ER_ALARM_clear_done = true ∧
        e.flag R.ER_STATUS F.ER_STATUS_clearing = false ∧ e.nv.klog = [s.dev.nv.clearRecord m]) := by
  have hdone := Dev.frame_clearDone hgood m
  have hnv := Dev.nv_clearDone hgood m
  have hfor := hdone.clearFor_eq (by decide)
  obtain ⟨r, hanswer, hr⟩ := (s.dev.clearDone m).frame_clearAnswered
  have hapart : R.ER_ALARM ∉ r ∧ R.ER_STATUS ∉ r := by
    refine ⟨fun hx => ?_, fun hx => ?_⟩ <;> obtain ⟨o, -, ho⟩ := hr _ hx <;>
      simp only [R.ER_ALARM, R.ER_STATUS, R.HR_RING_DIDX] at ho <;>
      have hlt := (s.dev.clearDone m).cplRing_lt o.ring <;> omega
  have hsub : r ⊆ regs := by
    intro x hx
    obtain ⟨o, ho, rfl⟩ := hr x hx
    rw [Dev.cplRing_clearDone hgood]
    exact hregs o (hfor.symm.trans ho) (by simp [Dev.cmdRegs])
  refine ⟨_, exec_klogClearEnd hs hm hq, rfl, ?_, ?_, ?_, ?_, ?_, ?_, ?_⟩
  · exact ((hdone.mono (by simp) (List.subset_append_left _ _)).trans
      (hanswer.mono (by simp) (List.subset_append_of_subset_right _ hsub))).settle
  · rw [Dev.settle_nv, hanswer.nv_eq (by decide), hnv]
  · rw [Dev.settle_nv, hanswer.nv_eq (by decide), hnv]
    simp
  · rw [Dev.settle_nv, hanswer.nv_eq (by decide), hnv]
    simp
  · rw [Dev.flag_settle, hanswer.flag_eq hapart.1, Dev.alarm_clearDone]
  · rw [Dev.flag_settle, hanswer.flag_eq hapart.2, Dev.status_clearDone]
  · rw [Dev.settle_nv, hanswer.nv_eq (by decide), hnv]

/-- Settles O30: each command by its own lemma. -/
theorem readingAndClearing : Obligations.ReadingAndClearing := by
  refine ⟨fun s c op hs hready => ⟨nop_done hs hready, bad_opcode_done hs hready, tsq_read_done hs hready,
    snapshot_refused hs hready, fun hn harg => snapshot_done hs hready hn harg, klog_read_done hs hready⟩,
    fun s c hs => ⟨challenge_given hs, clear_refused hs, clear_allowed hs, fun m hm hq hgood =>
      clear_ended hs.1 hm hq hgood fun o ho => ?_⟩⟩
  rw [ho]
  exact List.Subset.refl _

end Sys2Proof.Machine
end

section
/-! SUPPORT of the edge channels' statements (O21, O22, O23). What each operation on a channel leaves of its hidden state, of the records
that wait for a window decision, and of the registers that the next operation reads. -/

namespace Sys2Proof.Machine

/-! The hidden state of a channel. -/

section
variable {d e : Dev} {p : List Part} {r : List Nat}

theorem Dev.Frame.chan_eq (h : d.Frame e p r) (hp : Part.chans ∉ p) (c : Nat) : e.chan c = d.chan c := by
  rw [Dev.chan, Dev.chan, (h.1 .chans hp).1]

theorem Dev.Frame.ec_eq (h : d.Frame e p r) (hp : Part.chans ∉ p) : e.ec = d.ec := (h.1 .chans hp).2

theorem Dev.hasWaits_of_ec (h : e.ec = d.ec) (c : Nat) : e.hasWaits c = d.hasWaits c := by
  rw [Dev.hasWaits, Dev.hasWaits, h]

end

section
variable (d : Dev) (c : Nat)

@[simp] theorem Dev.chan_setChan (x : Chan) : (d.setChan c x).chan c = x := sGet_sPut_same _ _ _ _
@[simp] theorem Dev.ec_setChan (x : Chan) : (d.setChan c x).ec = d.ec := rfl
@[simp] theorem Dev.reg_setChan (x : Chan) (o : Nat) : (d.setChan c x).reg o = d.reg o := rfl
@[simp] theorem Dev.fld_setChan (x : Chan) (o : Nat) (f : Field) : (d.setChan c x).fld o f = d.fld o f := rfl
@[simp] theorem Dev.flag_setChan (x : Chan) (o : Nat) (f : Field) : (d.setChan c x).flag o f = d.flag o f := rfl
@[simp] theorem Dev.chan_setReg (o : Nat) (w : Word) : (d.setReg o w).chan c = d.chan c := rfl
@[simp] theorem Dev.chan_setFld (o : Nat) (f : Field) (v : Nat) : (d.setFld o f v).chan c = d.chan c := rfl
@[simp] theorem Dev.chan_setFlag (o : Nat) (f : Field) (b : Bool) : (d.setFlag o f b).chan c = d.chan c := rfl
@[simp] theorem Dev.chan_emit (x : Out) : (d.emit x).chan c = d.chan c := rfl
@[simp] theorem Dev.chan_settle : d.settle.chan c = d.chan c := by simp [Dev.chan]

@[simp] theorem Dev.chan_raise (o : Nat) (f : Field) : (d.raise o f).chan c = d.chan c := by simp [Dev.chan]

@[simp] theorem Dev.chan_count (n k : Nat) : (d.count n k).chan c = d.chan c :=
  (d.frame_count (r := [R.PC_ALARM]) n k [] (by simp)).chan_eq (by simp) c

@[simp] theorem Dev.ec_count (n k : Nat) : (d.count n k).ec = d.ec :=
  (d.frame_count (r := [R.PC_ALARM]) n k [] (by simp)).ec_eq (by simp)

end

/-! Marks and PULSE records (R178–R180). -/

/-- A channel without its records, and without the reasons for which it is not live. -/
def Chan.sansMarks (x : Chan) : Chan := { x with latest := none, queue := [], held := [], seq := 0, dead := [] }

section
variable (d : Dev) (c : Nat) (x : EdgeRec)

theorem Dev.pushMark_of_not_waiting (h : d.hasWaits c = false) : d.pushMark c x = (d.noteRec c x).enterMark c x :=
  if_neg (by rw [h]; exact Bool.false_ne_true)

theorem Dev.chan_enterMark (h : (d.chan c).queue.length < 512) :
    (d.enterMark c x).chan c = (d.chan c).enter (d.destOf c) x := by
  have hfree : (d.chan c).queueFull = false := decide_eq_false (by omega)
  rw [Dev.enterMark, Dev.chan_setChan, hfree, if_neg Bool.false_ne_true]

/-- A record that no edge waits before takes the free position of the queue. -/
theorem Dev.chan_pushMark (hwaits : d.hasWaits c = false) (hroom : (d.chan c).queue.length < 512) :
    (d.pushMark c x).chan c = ({ d.chan c with latest := some ⟨x.t48, x.te, d.ticks⟩ } : Chan).enter (d.destOf c) x := by
  have hnoted : (d.noteRec c x).chan c = { d.chan c with latest := some ⟨x.t48, x.te, d.ticks⟩ } := d.chan_setChan c _
  rw [d.pushMark_of_not_waiting c x hwaits, Dev.chan_enterMark _ c x (by rwa [hnoted]), hnoted]
  rfl

/-- A record changes the queue of its channel, what is held for it, or what waits, and the last record alone. -/
theorem Dev.sansMarks_pushMark : ((d.pushMark c x).chan c).sansMarks = (d.chan c).sansMarks ∧
    ((d.pushMark c x).chan c).dead = (d.chan c).dead := by
  have hnote (e : Dev) (h : e.chans = (d.noteRec c x).chans) :
      (e.chan c).sansMarks = (d.chan c).sansMarks ∧ (e.chan c).dead = (d.chan c).dead := by
    rw [Dev.chan, h, ← Dev.chan, Dev.noteRec, Dev.chan_setChan]
    exact ⟨rfl, rfl⟩
  unfold Dev.pushMark
  dsimp only
  split
  · exact hnote _ rfl
  · obtain ⟨hsans, hdead⟩ := hnote _ rfl
    rw [← hsans, ← hdead, Dev.enterMark, Dev.chan_setChan]
    split <;> exact ⟨rfl, rfl⟩

end

/-! Setup registers of a channel that its own operations leave alone. -/

/-- What the operations on channel c read and do not write, but for the enable rule: its state, direction and destinations, and
TIME_VALID. -/
def setupRegs (c : Nat) : List Nat := [R.EC_CTRL c, R.EC_PAD c, R.EC_OUT_CFG c, R.TC_STATUS]

/-- The registers that the operations on channel c write, but for the enable rule. -/
def chanWorkRegs (c : Nat) : List Nat :=
  [R.EC_STATUS c, R.EC_ALARM c, R.EC_CAL_STAT c, R.EC_IN_DELAY c, R.EC_OUT_DELAY c, R.EC_DTC_LATE c, R.EC_DTC_REFUSED c,
    R.EC_DTC_FLUSHED c, R.CA_ALARM, R.PC_ALARM]

theorem chanWorkRegs_apart {c : Nat} (hc : c < 128) {o : Nat} (ho : o ∈ chanWorkRegs c) : o ∉ setupRegs c := by
  simp only [chanWorkRegs, setupRegs, List.mem_cons, List.not_mem_nil, or_false, not_or, R.EC_CTRL, R.EC_PAD, R.EC_OUT_CFG,
    R.EC_STATUS, R.EC_ALARM, R.EC_CAL_STAT, R.EC_IN_DELAY, R.EC_OUT_DELAY, R.EC_DTC_LATE, R.EC_DTC_REFUSED, R.EC_DTC_FLUSHED,
    R.CA_ALARM, R.PC_ALARM, R.TC_STATUS] at ho ⊢
  omega

/-- The setup registers of channel c read in `e` as in `d`. -/
def Dev.KeepsSetup (d e : Dev) (c : Nat) : Prop := ∀ o ∈ setupRegs c, e.reg o = d.reg o

section
variable {d e f : Dev} {c : Nat} {p : List Part} {r : List Nat}

theorem Dev.KeepsSetup.trans (h : d.KeepsSetup e c) (h' : e.KeepsSetup f c) : d.KeepsSetup f c :=
  fun o ho => (h' o ho).trans (h o ho)

theorem Dev.Frame.keepsSetup (h : d.Frame e p r) (hr : ∀ o ∈ r, o ∉ setupRegs c) : d.KeepsSetup e c :=
  fun o ho => h.reg_eq fun hm => hr o hm ho

/-- The operations on a channel keep its setup. -/
theorem Dev.Frame.keepsSetup_work (h : d.Frame e p r) (hc : c < 128) (hr : r ⊆ chanWorkRegs c) : d.KeepsSetup e c :=
  h.keepsSetup fun _ ho => chanWorkRegs_apart hc (hr ho)

theorem Dev.KeepsSetup.flag_ctrl (h : d.KeepsSetup e c) (f : Field) : e.flag (R.EC_CTRL c) f = d.flag (R.EC_CTRL c) f := by
  rw [Dev.flag, Dev.flag, Dev.fld, Dev.fld, h _ (by simp [setupRegs])]

theorem Dev.KeepsSetup.chanState (h : d.KeepsSetup e c) : e.chanState c = d.chanState c := by
  rw [Dev.chanState, Dev.chanState, Dev.fld, Dev.fld, h _ (by simp [setupRegs])]

theorem Dev.KeepsSetup.isDtc (h : d.KeepsSetup e c) : e.isDtc c = d.isDtc c := by
  rw [Dev.isDtc, Dev.isDtc, Dev.fld, Dev.fld, h _ (by simp [setupRegs])]

theorem Dev.KeepsSetup.timeValid (h : d.KeepsSetup e c) : e.timeValid = d.timeValid := by
  rw [Dev.timeValid, Dev.timeValid, Dev.flag, Dev.flag, Dev.fld, Dev.fld, h _ (by simp [setupRegs])]

theorem Dev.KeepsSetup.privileged (h : d.KeepsSetup e c) : e.privileged c = d.privileged c := by
  rw [Dev.privileged, Dev.privileged, h.flag_ctrl]

theorem Dev.KeepsSetup.recording (h : d.KeepsSetup e c) : e.recording c = d.recording c := by
  rw [Dev.recording, Dev.recording, h.chanState]

end

/-! Live time (R175). -/

section
variable {d : Dev} {c k : Nat}

theorem Dev.deadOpen_of_recording (hk : (d.chan c).dead.contains k = false) (hr : d.recording c = true) :
    d.deadOpen c k =
      (d.setChan c { d.chan c with dead := k :: (d.chan c).dead }).pushMark c (d.mkRec c 2 k (d.recAt c)) :=
  if_neg (by rw [hk, hr]; exact Bool.false_ne_true)

theorem Dev.deadClose_of_recording (hk : (d.chan c).dead.contains k = true) (hr : d.recording c = true) :
    d.deadClose c k =
      (d.setChan c { d.chan c with dead := (d.chan c).dead.erase k }).pushMark c (d.mkRec c 3 k (d.recAt c)) :=
  if_pos (by rw [hk, hr]; rfl)

theorem Dev.deadClose_of_not_open (hk : (d.chan c).dead.contains k = false) : d.deadClose c k = d :=
  if_neg (by rw [hk]; exact Bool.false_ne_true)

theorem Dev.dead_deadClose (hk : (d.chan c).dead.contains k = true) (hr : d.recording c = true) :
    ((d.deadClose c k).chan c).dead = (d.chan c).dead.erase k := by
  rw [Dev.deadClose_of_recording hk hr, (Dev.sansMarks_pushMark _ _ _).2, Dev.chan_setChan]

theorem Dev.sansMarks_deadClose (d : Dev) (c k : Nat) :
    ((d.deadClose c k).chan c).sansMarks = (d.chan c).sansMarks := by
  unfold Dev.deadClose
  dsimp only
  split
  · rw [(Dev.sansMarks_pushMark _ _ _).1, Dev.chan_setChan]
    rfl
  · rfl

/-- A channel that makes records is not live once a reason for it is open. -/
theorem Dev.dead_deadOpen (hr : d.recording c = true) : ((d.deadOpen c k).chan c).dead.isEmpty = false := by
  cases hk : (d.chan c).dead.contains k with
  | true =>
    rw [Dev.deadOpen, if_pos (by rw [hk]; rfl)]
    cases hd : (d.chan c).dead with
    | nil => simp [hd] at hk
    | cons y ys => rfl
  | false =>
    rw [Dev.deadOpen_of_recording hk hr, (Dev.sansMarks_pushMark _ _ _).2, Dev.chan_setChan]
    rfl

theorem Dev.recording_of_tdcOn (h : d.tdcOn c = true) : d.recording c = true := by
  simp only [Dev.tdcOn, Dev.recording, Bool.and_eq_true, Bool.or_eq_true] at h ⊢
  exact .inl h.1

theorem Dev.isDtc_of_tdcOn (h : d.tdcOn c = true) : d.isDtc c = false := by
  simp only [Dev.tdcOn, Bool.and_eq_true, Bool.not_eq_true'] at h
  exact h.2

theorem Dev.chanState_of_tdcOn (h : d.tdcOn c = true) : d.chanState c = enOn := by
  simp only [Dev.tdcOn, Bool.and_eq_true, beq_iff_eq] at h
  exact h.1

/-- A TDC input is live while it is ON, TIME is valid, and no reason against it is open. -/
theorem Dev.chanLive_tdc (h : d.isDtc c = false) :
    d.chanLive c = (d.chanState c == enOn && d.timeValid && (d.chan c).dead.isEmpty) := by
  rw [Dev.chanLive, h, if_neg Bool.false_ne_true]

end

/-! A channel goes OFF (R167, R346). -/

section
variable (d : Dev) (c : Nat)

theorem Dev.frame_chanOff : d.Frame (d.chanOff c) [.chans] [R.EC_CTRL c, R.EC_STATUS c] :=
  (((d.frame_setFld _ _ _ (by simp)).trans (Dev.frame_setFlag _ _ _ _ (by simp))).trans
    (Dev.frame_setFlag _ _ _ _ (by simp))).trans (Dev.frame_setChan _ _ _ _ (by simp))

/-- Of EC_CTRL the state alone changes as a channel goes OFF. -/
theorem Dev.reg_ctrl_chanOff : (d.chanOff c).reg (R.EC_CTRL c) = (d.setChanState c enOff).reg (R.EC_CTRL c) := by
  have hne : R.EC_CTRL c ≠ R.EC_STATUS c := by simp only [R.EC_CTRL, R.EC_STATUS]; omega
  rw [Dev.chanOff, Dev.reg_setChan, Dev.setFlag, Dev.reg_setFld_ne _ _ _ hne, Dev.setFlag, Dev.reg_setFld_ne _ _ _ hne]

theorem Dev.chanState_setChanState {st : Nat} (h : st < 4) : (d.setChanState c st).chanState c = st :=
  d.fld_setFld_low _ _ _ ⟨by decide, by decide, h⟩

theorem Dev.chanState_chanOff : (d.chanOff c).chanState c = enOff := by
  rw [Dev.chanState, Dev.fld, d.reg_ctrl_chanOff]
  exact d.chanState_setChanState c (by decide)

theorem Dev.enable_chanOff :
    (d.chanOff c).flag (R.EC_CTRL c) F.EC_CTRL_enable = d.flag (R.EC_CTRL c) F.EC_CTRL_enable := by
  rw [Dev.flag, Dev.fld, d.reg_ctrl_chanOff]
  exact d.flag_setFld_clear _ _ _ _ (by decide)

theorem Dev.sched_chanOff : ((d.chanOff c).chan c).sched = [] := by rw [Dev.chanOff, Dev.chan_setChan]

/-- A channel OFF whose enable reads 0 stays OFF. -/
theorem Dev.chanAgain_of_disabled (h : d.flag (R.EC_CTRL c) F.EC_CTRL_enable = false) : d.chanAgain c = d :=
  if_neg (by rw [h]; exact Bool.false_ne_true)

end

/-- A count of 32 bits advanced, saturating. -/
theorem Dev.fld_addSat_whole (d : Dev) (o n : Nat) :
    (d.addSat o ⟨31, 0⟩ n).fld o ⟨31, 0⟩ = min (d.fld o ⟨31, 0⟩ + n) 0xFFFFFFFF :=
  d.fld_setFld_low o ⟨31, 0⟩ _ ⟨by decide, by decide, by dsimp only; omega⟩

/-! Values take effect (R172, R375). -/

section
variable (d : Dev) (c : Nat)

theorem Dev.frame_moveItem (kind index rate : Nat) {p : List Part} (r : List Nat) (h : Part.ca ∈ p) :
    d.Frame (d.moveItem kind index rate) p r := d.frame_ca _ r h

theorem Dev.frame_moveTrim (x : Int) {p : List Part} (r : List Nat) (h : Part.ca ∈ p) : d.Frame (d.moveTrim c x) p r :=
  d.frame_ca _ r h

/-- The values that waited have replaced those in effect. -/
def Dev.valuesTaken (w : ChanNew) : Dev :=
  ((d.setChan c { d.chan c with table := w.table, scd := w.scale, waiting := none }).setReg (R.EC_IN_DELAY c)
    (BitVec.ofNat 32 w.inDelay)).setReg (R.EC_OUT_DELAY c) (BitVec.ofNat 32 w.outDelay)

/-- The items without a register follow. -/
def Dev.itemsMoved (trim : Option Int) : Dev :=
  match trim with
  | some x => ((d.moveItem 6 c 0).moveItem 7 c 0).moveTrim c x
  | none => (d.moveItem 6 c 0).moveItem 7 c 0

theorem Dev.applyWaiting_eq (w : ChanNew) : d.applyWaiting c w =
    ((d.valuesTaken c w).itemsMoved c w.trim).setFlag (R.EC_STATUS c) F.EC_STATUS_stale false := by
  unfold Dev.applyWaiting Dev.itemsMoved
  cases w.trim <;> rfl

theorem Dev.frame_itemsMoved (trim : Option Int) : d.Frame (d.itemsMoved c trim) [.ca] [] := by
  have hmoved : d.Frame ((d.moveItem 6 c 0).moveItem 7 c 0) [.ca] [] :=
    (d.frame_moveItem _ _ _ _ (by simp)).trans (Dev.frame_moveItem _ _ _ _ _ (by simp))
  cases trim with
  | none => exact hmoved
  | some x => exact hmoved.trans (Dev.frame_moveTrim _ _ _ _ (by simp))

theorem Dev.frame_applyWaiting (w : ChanNew) :
    d.Frame (d.applyWaiting c w) [.chans, .ca] [R.EC_IN_DELAY c, R.EC_OUT_DELAY c, R.EC_STATUS c] := by
  rw [d.applyWaiting_eq]
  exact ((((d.frame_setChan c _ _ (by simp)).trans (Dev.frame_setReg _ _ _ (by simp))).trans
    (Dev.frame_setReg _ _ _ (by simp))).trans ((Dev.frame_itemsMoved _ c _).mono (by simp) (List.nil_subset _))).trans
    (Dev.frame_setFlag _ _ _ _ (by simp))

theorem Dev.chan_applyWaiting (w : ChanNew) : (d.applyWaiting c w).chan c =
    { d.chan c with table := w.table, scd := w.scale, waiting := none } := by
  rw [d.applyWaiting_eq, Dev.chan_setFlag, (Dev.frame_itemsMoved _ c _).chan_eq (by simp)]
  exact d.chan_setChan c _

theorem Dev.ec_applyWaiting (w : ChanNew) : (d.applyWaiting c w).ec = d.ec := by
  rw [d.applyWaiting_eq]
  exact ((d.valuesTaken c w).frame_itemsMoved c w.trim).ec_eq (by simp)

theorem Dev.delays_applyWaiting (w : ChanNew) :
    (d.applyWaiting c w).reg (R.EC_IN_DELAY c) = BitVec.ofNat 32 w.inDelay ∧
      (d.applyWaiting c w).reg (R.EC_OUT_DELAY c) = BitVec.ofNat 32 w.outDelay := by
  have hin : R.EC_IN_DELAY c ≠ R.EC_STATUS c ∧ R.EC_IN_DELAY c ≠ R.EC_OUT_DELAY c := by
    simp only [R.EC_IN_DELAY, R.EC_OUT_DELAY, R.EC_STATUS]
    omega
  have hout : R.EC_OUT_DELAY c ≠ R.EC_STATUS c := by simp only [R.EC_OUT_DELAY, R.EC_STATUS]; omega
  have hmoved := (d.valuesTaken c w).frame_itemsMoved c w.trim
  rw [d.applyWaiting_eq, Dev.setFlag]
  constructor
  · rw [Dev.reg_setFld_ne _ _ _ hin.1, hmoved.reg_eq (by simp), Dev.valuesTaken, Dev.reg_setReg_ne _ _ hin.2,
      Dev.reg_setReg_same]
  · rw [Dev.reg_setFld_ne _ _ _ hout, hmoved.reg_eq (by simp), Dev.valuesTaken, Dev.reg_setReg_same]

end

@[simp] theorem Dev.chanState_settle (d : Dev) (c : Nat) : d.settle.chanState c = d.chanState c := by simp [Dev.chanState]

@[simp] theorem Dev.chanLive_settle (d : Dev) (c : Nat) : d.settle.chanLive c = d.chanLive c := by
  simp [Dev.chanLive, Dev.isDtc]

end Sys2Proof.Machine
end

section
/-! PROOF of O23. The first entry of an idle DTC output, the end of a running entry with its PULSE record, and the end of STOPPING of a
DTC output (R167, R184, R185). -/

namespace Sys2Proof.Machine

/-! An entry begins (R185). -/

/-- The run of an entry that begins at its own instant. -/
def Dev.runOnTime (d : Dev) (c : Nat) (x : DtcEntry) : DtcRun :=
  { entry := x, start := toGrid x.t48, late := false, moved := 0, te := d.te, invalid := false
    stale := d.flag (R.EC_STATUS c) F.EC_STATUS_stale, limit := none }

/-- An entry of channel c has begun at its own instant. -/
def Dev.entryBegun (d : Dev) (c : Nat) (x : DtcEntry) (rest : List DtcEntry) : Dev :=
  (d.setChan c { d.chan c with sched := rest, running := some (d.runOnTime c x) }).emit
    (.pulses c (ofGrid (toGrid x.t48)) x.width x.period x.count)

/-- Channel c is an idle DTC output in ON, free of FAULT and no part of a STANDBY, and `x`, which is not late, is its first entry. -/
structure Dev.NextEntry (d : Dev) (c : Nat) (x : DtcEntry) (rest : List DtcEntry) : Prop where
  dtc     : d.isDtc c = true
  noFault : d.inFault = false
  on      : d.chanState c = enOn
  valid   : d.timeValid = true
  active  : d.standby = false
  sched   : (d.chan c).sched = x :: rest
  idle    : (d.chan c).running = none
  noFall  : (d.chan c).lastFall = none
  onTime  : x.due = none

section
variable {s : State} {c : Fin 128} {x : DtcEntry} {rest : List DtcEntry}

theorem exec_dtcEntryStart (hs : s.Up) (h : s.dev.NextEntry c x rest) :
    exec (.dtcEntryStart c .good) s = .next { s with dev := (s.dev.entryBegun c x rest).settle } := by
  have hexec : exec (.dtcEntryStart c .good) s = execDtcEntryStart c .good s := rfl
  have hactive (y : Chan) : (s.dev.setChan c y).standby = false := h.active
  rw [hexec, execDtcEntryStart, running_next hs.1.1 hs.1.2 hs.2, h.sched]
  simp [h.dtc, h.noFault, h.on, h.valid, h.idle, h.noFall, h.onTime, hactive, Dev.readDup, Dev.entryBegun, Dev.runOnTime]

theorem entry_begun (hs : s.Up) (hinv : s.Inv) (h : s.dev.NextEntry c x rest) :
    Answers (.dtcEntryStart c .good) s (fun e => s.dev.Frame e [.chans] [] ∧ (e.chan c).sched = rest ∧
      (e.chan c).running = some (s.dev.runOnTime c x) ∧
      e.out = .pulses c (ofGrid (toGrid x.t48)) x.width x.period x.count :: s.dev.out) := by
  refine ⟨_, exec_dtcEntryStart hs h, rfl, ?_, ?_, ?_, ?_⟩
  · exact ((s.dev.frame_setChan c _ [] (by simp)).trans (Dev.frame_emit _ _ _ _)).settle
  · simp [Dev.entryBegun]
  · simp [Dev.entryBegun]
  · exact Dev.out_settle _ hinv.2.1 hinv.2.2

end

/-! An entry ends (R184). -/

section
variable {d : Dev} {c : Nat} {run : DtcRun}

/-- The PULSE record of a running entry that has placed `n` pulses. -/
def Dev.pulseRec (d : Dev) (c n : Nat) (run : DtcRun) : EdgeRec :=
  { d.mkRec c 5 (min n 0xFFFF * 256 + run.entry.tag) (ofGrid run.start) with
    late := run.late, te := run.te, invalid := run.invalid, stale := run.stale }

/-- A running entry is over, and its pulses are counted. -/
def Dev.runOver (d : Dev) (c n : Nat) (run : DtcRun) : Dev :=
  (d.setChan c { d.chan c with
    running := none
    lastFall := some (gridAdd run.origin ((n - 1) * run.entry.period + run.entry.width), d.ticks) }).count (chanCtr c 7) n

theorem Dev.endRun_reporting (hrun : (d.chan c).running = some run)
    (hreport : d.flag (R.EC_OUT_CFG c) F.EC_OUT_CFG_report = true) (n : Nat) :
    d.endRun c n = (d.runOver c n run).pushMark c (d.pulseRec c n run) := by
  unfold Dev.endRun
  dsimp only
  rw [hrun]
  dsimp only
  rw [hreport, if_pos rfl]
  rfl

theorem Dev.chan_runOver (n : Nat) : (d.runOver c n run).chan c = { d.chan c with
    running := none
    lastFall := some (gridAdd run.origin ((n - 1) * run.entry.period + run.entry.width), d.ticks) } := by
  rw [Dev.runOver, Dev.chan_count, Dev.chan_setChan]

/-- The PULSE record enters the queue, and nothing runs. -/
theorem Dev.chan_endRun (hrun : (d.chan c).running = some run) (hroom : (d.chan c).queue.length < 512)
    (hwaits : d.hasWaits c = false) (hreport : d.flag (R.EC_OUT_CFG c) F.EC_OUT_CFG_report = true) (n : Nat) :
    ((d.endRun c n).chan c).running = none ∧ ∃ x, ((d.endRun c n).chan c).queue = (d.chan c).queue ++ [x] ∧ x.kind = 5 ∧
      x.late = run.late ∧ x.aux = min n 0xFFFF * 256 + run.entry.tag := by
  have hover : (d.runOver c n run).hasWaits c = false :=
    (Dev.hasWaits_of_ec (Dev.ec_count _ _ _) c).trans hwaits
  rw [Dev.endRun_reporting hrun hreport, Dev.chan_pushMark _ _ _ hover (by rwa [Dev.chan_runOver]), Dev.chan_runOver]
  exact ⟨rfl, _, rfl, rfl, rfl, rfl⟩

end

theorem entry_ended {s : State} {c : Fin 128} {run : DtcRun} (placed : Nat) (hs : s.Up)
    (hrun : (s.dev.chan c).running = some run) (hroom : (s.dev.chan c).queue.length < 512)
    (hwaits : s.dev.hasWaits c = false) (hreport : s.dev.flag (R.EC_OUT_CFG c) F.EC_OUT_CFG_report = true) :
    Answers (.dtcEntryEnd c placed) s (fun e => s.dev.Frame e [.chans] [R.PC_ALARM] ∧ (e.chan c).running = none ∧
      ∃ r, (e.chan c).queue = (s.dev.chan c).queue ++ [r] ∧ r.kind = 5 ∧ r.late = run.late ∧
        r.aux = min (min placed (run.limit.getD placed)) 0xFFFF * 256 + run.entry.tag) := by
  refine .of_running (f := fun d => match (d.chan c).running with
    | some r => d.endRun c (min placed (r.limit.getD placed))
    | none => d) hs rfl ?_
  rw [hrun, Dev.chan_settle]
  exact ⟨(s.dev.frame_endRun c _ (by simp) (by simp)).settle, Dev.chan_endRun hrun hroom hwaits hreport _⟩

/-! A stop discards what waits (R167). -/

theorem Dev.frame_dtcFlush (d : Dev) (c : Nat) : d.Frame (d.dtcFlush c) [.chans] [R.EC_DTC_FLUSHED c, R.PC_ALARM] :=
  Dev.frame_ite (.refl d _ _) (((d.frame_addSat _ _ _ (by simp)).trans (Dev.frame_count _ _ _ _ (by simp))).trans
    (Dev.frame_setChan _ _ _ _ (by simp)))

/-- Every entry that waits is counted. -/
theorem Dev.flushed_dtcFlush (d : Dev) (c : Nat) (hc : c < 128) :
    (d.dtcFlush c).fld (R.EC_DTC_FLUSHED c) F.EC_DTC_FLUSHED_count =
      min (d.fld (R.EC_DTC_FLUSHED c) F.EC_DTC_FLUSHED_count + (d.chan c).sched.length) 0xFFFFFFFF := by
  unfold Dev.dtcFlush
  dsimp only
  split
  next hnone =>
    have hlt := d.fld_lt (R.EC_DTC_FLUSHED c) F.EC_DTC_FLUSHED_count
    simp only [F.EC_DTC_FLUSHED_count] at hlt ⊢
    omega
  next =>
    have hpc : R.EC_DTC_FLUSHED c ∉ [R.PC_ALARM] := by
      simp only [List.mem_singleton, R.EC_DTC_FLUSHED, R.PC_ALARM]
      omega
    rw [Dev.fld_setChan, (Dev.frame_count _ _ _ [] (by simp)).fld_eq hpc]
    exact d.fld_addSat_whole _ _

theorem output_stopped {s : State} {c : Fin 128} (hs : s.Up) (hdtc : s.dev.isDtc c = true) (hfault : s.dev.inFault = false)
    (hstop : s.dev.chanState c = enStopping) (henable : s.dev.flag (R.EC_CTRL c) F.EC_CTRL_enable = false)
    (hidle : (s.dev.chan c).running = none) : Answers (.channelStoppingEnd c) s (fun e =>
      s.dev.Frame e [.chans] [R.EC_CTRL c, R.EC_STATUS c, R.EC_DTC_FLUSHED c, R.PC_ALARM] ∧
      e.chanState c = enOff ∧ (e.chan c).sched = [] ∧
      e.fld (R.EC_DTC_FLUSHED c) F.EC_DTC_FLUSHED_count =
        min (s.dev.fld (R.EC_DTC_FLUSHED c) F.EC_DTC_FLUSHED_count + (s.dev.chan c).sched.length) 0xFFFFFFFF) := by
  have hflush := s.dev.frame_dtcFlush c
  have hctrl : R.EC_CTRL c ∉ [R.EC_DTC_FLUSHED c, R.PC_ALARM] := by
    simp only [List.mem_cons, List.not_mem_nil, or_false, R.EC_CTRL, R.EC_DTC_FLUSHED, R.PC_ALARM]
    omega
  have hcount : R.EC_DTC_FLUSHED c ∉ [R.EC_CTRL c, R.EC_STATUS c] := by
    simp only [List.mem_cons, List.not_mem_nil, or_false, R.EC_CTRL, R.EC_DTC_FLUSHED, R.EC_STATUS]
    omega
  have hoff : ((s.dev.dtcFlush c).chanOff c).chanAgain c = (s.dev.dtcFlush c).chanOff c :=
    Dev.chanAgain_of_disabled _ _ (by rw [Dev.enable_chanOff, hflush.flag_eq hctrl, henable])
  have hexec : exec (.channelStoppingEnd c) s = .next { s with dev := ((s.dev.dtcFlush c).chanOff c).settle } := by
    have h : exec (.channelStoppingEnd c) s = execChannelStoppingEnd c s := rfl
    rw [h, execChannelStoppingEnd, running_next hs.1.1 hs.1.2 hs.2]
    simp [hstop, hfault, hdtc, hidle, hoff]
  refine ⟨_, hexec, rfl, ?_, ?_, ?_, ?_⟩
  · exact ((hflush.mono (List.Subset.refl _) (by simp)).trans
      ((Dev.frame_chanOff _ c).mono (List.Subset.refl _) (by simp))).settle
  · rw [Dev.chanState_settle, Dev.chanState_chanOff]
  · rw [Dev.chan_settle, Dev.sched_chanOff]
  · rw [Dev.fld_settle, (Dev.frame_chanOff _ c).fld_eq hcount, Dev.flushed_dtcFlush _ _ c.isLt]

/-- Settles O23: an entry begins, ends with its record, and a stop discards the others. -/
theorem scheduledPulses : Obligations.ScheduledPulses := fun _ _ _ _ _ placed hs hinv hdtc hfault =>
  ⟨fun hon hvalid hactive hsched hidle hfall hdue =>
      entry_begun hs hinv ⟨hdtc, hfault, hon, hvalid, hactive, hsched, hidle, hfall, hdue⟩,
    fun hrun hroom hwaits hreport => entry_ended placed hs hrun hroom hwaits hreport,
    fun hstop henable hidle => output_stopped hs hdtc hfault hstop henable hidle⟩

end Sys2Proof.Machine
end

section
/-! PROOF of O22. The turn of code-density calibration that a TDC input takes, and its end; waiting values; and the stale flag (R173–R175,
R375, R379). -/

namespace Sys2Proof.Machine

/-! No user calibration holds a channel (R382). -/

theorem Dev.opNames_none {d : Dev} (h : d.ca.op = none) (c : Nat) : d.opNames c = false := by
  rw [Dev.opNames, h]

theorem Dev.opHolds_none {d : Dev} (h : d.ca.op = none) (c : Nat) : d.opHolds c = false := by
  rw [Dev.opHolds, Dev.opNames_none h, Bool.false_and]

/-! A turn begins (R173). -/

/-- The turn of channel c is taken, and it is the next one's. -/
def Dev.turnPassed (d : Dev) : Dev := { d with ec := { d.ec with turn := (d.ec.turn + 1) % 128 } }

/-- A TDC input that is not privileged begins its turn. -/
def Dev.turnBegun (d : Dev) (c : Nat) : Dev := (d.turnPassed.setFlag (R.EC_STATUS c) F.EC_STATUS_cal true).deadOpen c 1

theorem Dev.takeTurn_tdc {d : Dev} {c : Nat} (hon : d.tdcOn c = true) (hp : d.privileged c = false) :
    d.turnPassed.takeTurn c = d.turnBegun c := by
  have hstate : d.turnPassed.chanState c = enOn := Dev.chanState_of_tdcOn hon
  have hdir : d.turnPassed.isDtc c = false := Dev.isDtc_of_tdcOn hon
  have hpriv : d.turnPassed.privileged c = false := hp
  simp [Dev.takeTurn, hstate, hdir, hpriv, Dev.turnBegun]

section
variable (d : Dev) (c : Nat)

/-- The setup of a channel in its turn. -/
theorem Dev.keepsSetup_calSet (hc : c < 128) (b : Bool) :
    d.KeepsSetup (d.setFlag (R.EC_STATUS c) F.EC_STATUS_cal b) c :=
  (d.frame_setFlag (r := [R.EC_STATUS c]) _ _ [] (by simp)).keepsSetup_work hc (by simp [chanWorkRegs])

theorem Dev.frame_turnBegun : d.Frame (d.turnBegun c) [.chans] [R.EC_STATUS c] :=
  ((d.frame_ec _ _ (by simp)).trans (Dev.frame_setFlag _ _ _ _ (by simp))).trans (Dev.frame_deadOpen _ _ _ _ (by simp))

theorem Dev.cal_turnBegun : (d.turnBegun c).flag (R.EC_STATUS c) F.EC_STATUS_cal = true := by
  rw [Dev.turnBegun, (Dev.frame_deadOpen (p := [.chans]) _ _ _ [] (by simp)).flag_eq (by simp)]
  exact Dev.flag_setFlag_same _ _ _ _ (by decide)

end

theorem Dev.chanLive_turnBegun {d : Dev} {c : Nat} (hc : c < 128) (hon : d.tdcOn c = true) :
    (d.turnBegun c).chanLive c = false := by
  have hset := (d.turnPassed).keepsSetup_calSet c hc true
  have hbegun := (d.frame_turnBegun c).keepsSetup_work hc (by simp [chanWorkRegs])
  have hrec : (d.turnPassed.setFlag (R.EC_STATUS c) F.EC_STATUS_cal true).recording c = true :=
    hset.recording.trans (Dev.recording_of_tdcOn hon)
  rw [Dev.chanLive_tdc (hbegun.isDtc.trans (Dev.isDtc_of_tdcOn hon)), Dev.turnBegun, Dev.dead_deadOpen hrec, Bool.and_false]

theorem turn_begun {s : State} {c : Fin 128} (hs : s.Up) (hop : s.dev.ca.op = none) (hstage : s.dev.stage = .glaze)
    (hon : s.dev.tdcOn c = true) (hpriv : s.dev.privileged c = false) (hruns : s.dev.turnRuns = false)
    (hturn : s.dev.ec.turn = c.val) (hperiod : s.dev.fld R.EC_GL_CAL F.EC_GL_CAL_period ≠ 0) :
    Answers (.calTurnStart c) s (fun e => e.flag (R.EC_STATUS c) F.EC_STATUS_cal = true ∧ e.chanLive c = false ∧
      s.dev.Frame e [.chans] [R.EC_STATUS c]) := by
  have hexec : exec (.calTurnStart c) s = .next { s with dev := (s.dev.turnBegun c).settle } := by
    have h : exec (.calTurnStart c) s = execCalTurnStart c s := rfl
    rw [h, execCalTurnStart, running_next hs.1.1 hs.1.2 hs.2, ← Dev.takeTurn_tdc hon hpriv]
    simp [hstage, hperiod, hturn, hruns, hop, Dev.turnPassed]
  refine ⟨_, hexec, rfl, ?_, ?_, (s.dev.frame_turnBegun c).settle⟩
  · rw [Dev.flag_settle, Dev.cal_turnBegun]
  · exact (s.dev.turnBegun c).chanLive_settle c ▸ Dev.chanLive_turnBegun c.isLt hon

/-! A turn ends (R173, R379). -/

section
variable (d : Dev) (c : Nat)

/-- The turn of channel c is over, and counted. -/
def Dev.turnEnded : Dev :=
  ((d.setFlag (R.EC_STATUS c) F.EC_STATUS_cal false).setChan c { d.chan c with postponed := 0 }).count (chanCtr c 8)

/-- The result of a turn is refused; the channel is not stale unless an accepted one still waits. -/
def Dev.turnRefused : Dev :=
  let e := ((d.raise R.CA_ALARM F.CA_ALARM_disagree).raise (R.EC_ALARM c) F.EC_ALARM_cal_refused).count (chanCtr c 9)
  if (d.chan c).waiting.any (·.turn) then e else e.setFlag (R.EC_STATUS c) F.EC_STATUS_stale false

/-- What the end of a turn makes of its two measurements. -/
def Dev.turnJudged (ok : Bool) (table : List (BitVec 16)) (scale : Int) (trim : Option Int) : Dev :=
  if !ok then d.turnRefused c else d.takeTable c table scale trim

/-- A user calibration of channel c that waited for a turn starts. -/
def Dev.opResumed : Dev :=
  match d.ca.op with
  | some o =>
    if o.waits && d.opNames c then ({ d with ca := { d.ca with op := some { o with waits := false } } } : Dev).opBegin o else d
  | none => d

/-- Registers that the end of a turn may touch. -/
def turnRegs (c : Nat) : List Nat := [R.EC_STATUS c, R.EC_ALARM c, R.CA_ALARM, R.PC_ALARM]

theorem turnRegs_work : turnRegs c ⊆ chanWorkRegs c := by simp [turnRegs, chanWorkRegs]

theorem Dev.frame_turnEnded : d.Frame (d.turnEnded c) [.chans] (turnRegs c) :=
  ((d.frame_setFlag _ _ _ (by simp [turnRegs])).trans (Dev.frame_setChan _ _ _ _ (by simp))).trans
    (Dev.frame_count _ _ _ _ (by simp [turnRegs]))

theorem Dev.frame_turnRefused : d.Frame (d.turnRefused c) [] (turnRegs c) := by
  have hcounted : d.Frame (((d.raise R.CA_ALARM F.CA_ALARM_disagree).raise (R.EC_ALARM c) F.EC_ALARM_cal_refused).count
      (chanCtr c 9)) [] (turnRegs c) :=
    ((d.frame_raise _ _ (by simp [turnRegs])).trans (Dev.frame_raise _ _ _ (by simp [turnRegs]))).trans
      (Dev.frame_count _ _ _ _ (by simp [turnRegs]))
  exact Dev.frame_ite hcounted (hcounted.trans (Dev.frame_setFlag _ _ _ _ (by simp [turnRegs])))

/-- What the end of a turn makes of its measurements on a TDC input that is not privileged. -/
def Dev.tdcJudged (a b : TurnMeas) (table : List (BitVec 16)) : Dev :=
  (d.turnEnded c).turnJudged c (agreeScale a.scale b.scale) table (meanOf a.scale b.scale) none

end

section
variable {d : Dev} {c : Nat} {a b : TurnMeas} {table : List (BitVec 16)}

theorem Dev.takeTable_tdc (h : d.privileged c = false) (table : List (BitVec 16)) (scale : Int) :
    d.takeTable c table scale none = d.setChan c { d.chan c with table := table, scd := scale } :=
  if_neg (by rw [h]; exact Bool.false_ne_true)

theorem Dev.keepsSetup_turnEnded (hc : c < 128) : d.KeepsSetup (d.turnEnded c) c :=
  (d.frame_turnEnded c).keepsSetup_work hc (turnRegs_work c)

theorem Dev.tdcJudged_agree (hc : c < 128) (hpriv : d.privileged c = false) (h : agreeScale a.scale b.scale = true) :
    d.tdcJudged c a b table =
      (d.turnEnded c).setChan c { (d.turnEnded c).chan c with table := table, scd := meanOf a.scale b.scale } := by
  rw [Dev.tdcJudged, h, ← Dev.takeTable_tdc ((Dev.keepsSetup_turnEnded hc).privileged.trans hpriv)]
  rfl

theorem Dev.tdcJudged_disagree (h : agreeScale a.scale b.scale = false) :
    d.tdcJudged c a b table = (d.turnEnded c).turnRefused c := by
  rw [Dev.tdcJudged, h]
  rfl

theorem Dev.frame_tdcJudged (hc : c < 128) (hpriv : d.privileged c = false) :
    d.Frame (d.tdcJudged c a b table) [.chans] (turnRegs c) := by
  cases h : agreeScale a.scale b.scale with
  | true =>
    rw [Dev.tdcJudged_agree hc hpriv h]
    exact (d.frame_turnEnded c).trans (Dev.frame_setChan _ _ _ _ (by simp))
  | false =>
    rw [Dev.tdcJudged_disagree h]
    exact (d.frame_turnEnded c).trans ((Dev.frame_turnRefused _ c).mono (List.nil_subset _) (List.Subset.refl _))

theorem Dev.frame_tdcClosed (hc : c < 128) (hpriv : d.privileged c = false) :
    d.Frame ((d.tdcJudged c a b table).deadClose c 1) [.chans] (turnRegs c) :=
  (Dev.frame_tdcJudged hc hpriv).trans (Dev.frame_deadClose _ _ _ _ (by simp))

theorem Dev.opResumed_none (h : d.ca.op = none) : d.opResumed c = d := by
  rw [Dev.opResumed, h]

theorem answers_calTurnEnd {s : State} {c : Fin 128} {Q : Dev → Prop} (hs : s.Up) (hop : s.dev.ca.op = none)
    (hcal : s.dev.flag (R.EC_STATUS c) F.EC_STATUS_cal = true) (hdtc : s.dev.isDtc c = false)
    (hpriv : s.dev.privileged c = false) (hQ : Q ((s.dev.tdcJudged c a b table).deadClose c 1).settle) :
    Answers (.calTurnEnd c a b table) s Q := by
  have hca : ((s.dev.tdcJudged c a b table).deadClose c 1).ca.op = none := by
    rw [(Dev.frame_tdcClosed c.isLt hpriv).ca_eq (by simp), hop]
  refine .of_running (f := fun d =>
    if !d.flag (R.EC_STATUS c) F.EC_STATUS_cal || d.opHolds c then d
    else
      let e := (d.turnEnded c).turnJudged c (agreeScale a.scale b.scale && (!d.isDtc c || agreeDelay a.trim b.trim)) table
        (meanOf a.scale b.scale) (if d.isDtc c then some (meanOf a.trim b.trim) else none)
      (if d.privileged c || d.isDtc c then e else e.deadClose c 1).opResumed c) hs rfl ?_
  simp only [hcal, Dev.opHolds_none hop, hdtc, hpriv, Bool.not_true, Bool.or_self, Bool.false_eq_true, if_false, Bool.not_false,
    Bool.true_or, Bool.and_true]
  rw [← Dev.tdcJudged, Dev.opResumed_none hca]
  exact hQ

theorem Dev.chan_turnEnded (d : Dev) (c : Nat) : (d.turnEnded c).chan c = { d.chan c with postponed := 0 } := by
  rw [Dev.turnEnded, Dev.chan_count, Dev.chan_setChan]

theorem Dev.cal_turnEnded (hc : c < 128) : (d.turnEnded c).flag (R.EC_STATUS c) F.EC_STATUS_cal = false := by
  have hpc : R.EC_STATUS c ∉ [R.PC_ALARM] := by
    simp only [List.mem_singleton, R.EC_STATUS, R.PC_ALARM]
    omega
  rw [Dev.turnEnded, (Dev.frame_count _ _ _ [] (by simp)).flag_eq hpc, Dev.flag_setChan]
  exact d.flag_setFlag_same _ _ _ (by decide)

theorem Dev.alarm_turnRefused (hc : c < 128) :
    (d.turnRefused c).flag (R.EC_ALARM c) F.EC_ALARM_cal_refused = true := by
  have hpc : R.EC_ALARM c ∉ [R.PC_ALARM] := by
    simp only [List.mem_singleton, R.EC_ALARM, R.PC_ALARM]
    omega
  have hstatus : R.EC_ALARM c ≠ R.EC_STATUS c := by simp only [R.EC_ALARM, R.EC_STATUS]; omega
  have hraised (e : Dev) : ((e.raise (R.EC_ALARM c) F.EC_ALARM_cal_refused).count (chanCtr c 9)).flag (R.EC_ALARM c)
      F.EC_ALARM_cal_refused = true := by
    rw [(Dev.frame_count _ _ _ [] (by simp)).flag_eq hpc]
    exact e.flag_raise_same _ _ ⟨by decide, by decide⟩
  unfold Dev.turnRefused
  dsimp only
  split
  · exact hraised _
  · rw [Dev.setFlag, Dev.flag_setFld_ne _ _ _ _ hstatus, hraised]

theorem Dev.cal_turnRefused (hc : c < 128) :
    (d.turnRefused c).flag (R.EC_STATUS c) F.EC_STATUS_cal = d.flag (R.EC_STATUS c) F.EC_STATUS_cal := by
  have hcounted : d.Frame (((d.raise R.CA_ALARM F.CA_ALARM_disagree).raise (R.EC_ALARM c) F.EC_ALARM_cal_refused).count
      (chanCtr c 9)) [] [R.CA_ALARM, R.EC_ALARM c, R.PC_ALARM] :=
    ((d.frame_raise _ _ (by simp)).trans (Dev.frame_raise _ _ _ (by simp))).trans (Dev.frame_count _ _ _ _ (by simp))
  have hkept := hcounted.flag_eq (o := R.EC_STATUS c) (by
    simp only [List.mem_cons, List.not_mem_nil, or_false, R.EC_STATUS, R.CA_ALARM, R.EC_ALARM, R.PC_ALARM]
    omega) F.EC_STATUS_cal
  unfold Dev.turnRefused
  dsimp only
  split
  · exact hkept
  · rw [Dev.setFlag, Dev.flag_setFld_clear _ _ _ _ _ (by decide), hkept]

theorem Dev.chan_turnRefused (d : Dev) (c : Nat) : (d.turnRefused c).chan c = d.chan c :=
  (d.frame_turnRefused c).chan_eq (by simp) c

/-- The end of a reason for which a channel was not live. -/
theorem Dev.cal_deadClose (d : Dev) (c k : Nat) :
    (d.deadClose c k).flag (R.EC_STATUS c) F.EC_STATUS_cal = d.flag (R.EC_STATUS c) F.EC_STATUS_cal :=
  (Dev.frame_deadClose (p := [.chans]) _ _ _ [] (by simp)).flag_eq (by simp) _

/-- A TDC input that was not live for its turn alone is live at the turn's end. -/
theorem Dev.chanLive_turn (hc : c < 128) (hpriv : d.privileged c = false) (hagree : agreeScale a.scale b.scale = true)
    (hon : d.tdcOn c = true) (hvalid : d.timeValid = true) (hdead : (d.chan c).dead = [1]) :
    ((d.tdcJudged c a b table).deadClose c 1).chanLive c = true := by
  have hjudged := (d.frame_tdcJudged (a := a) (b := b) (table := table) hc hpriv).keepsSetup_work hc (turnRegs_work c)
  have hclosed := (d.frame_tdcClosed (a := a) (b := b) (table := table) hc hpriv).keepsSetup_work hc (turnRegs_work c)
  have hone : ((d.tdcJudged c a b table).chan c).dead = [1] := by
    rw [Dev.tdcJudged_agree hc hpriv hagree, Dev.chan_setChan, Dev.chan_turnEnded]
    exact hdead
  have hrec := hjudged.recording.trans (Dev.recording_of_tdcOn hon)
  rw [Dev.chanLive_tdc (hclosed.isDtc.trans (Dev.isDtc_of_tdcOn hon)), hclosed.chanState, Dev.chanState_of_tdcOn hon,
    hclosed.timeValid, hvalid, Dev.dead_deadClose (by rw [hone]; rfl) hrec, hone]
  rfl

end

section
variable {s : State} {c : Fin 128} {a b : TurnMeas} (table : List (BitVec 16))

theorem turn_accepted (hs : s.Up) (hop : s.dev.ca.op = none) (hcal : s.dev.flag (R.EC_STATUS c) F.EC_STATUS_cal = true)
    (hdtc : s.dev.isDtc c = false) (hpriv : s.dev.privileged c = false) (hagree : agreeScale a.scale b.scale = true) :
    Answers (.calTurnEnd c a b table) s (fun e =>
      s.dev.Frame e [.chans] (turnRegs c) ∧ e.flag (R.EC_STATUS c) F.EC_STATUS_cal = false ∧
      (e.chan c).table = table ∧ (e.chan c).scd = meanOf a.scale b.scale ∧
      (s.dev.tdcOn c = true → s.dev.timeValid = true → (s.dev.chan c).dead = [1] → e.chanLive c = true)) := by
  have hsans := Dev.sansMarks_deadClose (s.dev.tdcJudged c a b table) c 1
  have hnew := Dev.tdcJudged_agree (d := s.dev) (table := table) c.isLt hpriv hagree
  refine answers_calTurnEnd hs hop hcal hdtc hpriv ⟨(Dev.frame_tdcClosed c.isLt hpriv).settle, ?_, ?_, ?_,
    fun hon hvalid hdead => ?_⟩
  · rw [Dev.flag_settle, Dev.cal_deadClose, hnew, Dev.flag_setChan, Dev.cal_turnEnded c.isLt]
  · rw [Dev.chan_settle]
    refine (congrArg Chan.table hsans :).trans ?_
    rw [hnew, Dev.chan_setChan]
    rfl
  · rw [Dev.chan_settle]
    refine (congrArg Chan.scd hsans :).trans ?_
    rw [hnew, Dev.chan_setChan]
    rfl
  · rw [Dev.chanLive_settle, Dev.chanLive_turn c.isLt hpriv hagree hon hvalid hdead]

theorem turn_refused (hs : s.Up) (hop : s.dev.ca.op = none) (hcal : s.dev.flag (R.EC_STATUS c) F.EC_STATUS_cal = true)
    (hdtc : s.dev.isDtc c = false) (hpriv : s.dev.privileged c = false) (hagree : agreeScale a.scale b.scale = false) :
    Answers (.calTurnEnd c a b table) s (fun e =>
      s.dev.Frame e [.chans] (turnRegs c) ∧ e.flag (R.EC_STATUS c) F.EC_STATUS_cal = false ∧
      (e.chan c).table = (s.dev.chan c).table ∧ e.flag (R.EC_ALARM c) F.EC_ALARM_cal_refused = true) := by
  have hold := Dev.tdcJudged_disagree (d := s.dev) (c := c.val) (table := table) hagree
  refine answers_calTurnEnd hs hop hcal hdtc hpriv ⟨(Dev.frame_tdcClosed c.isLt hpriv).settle, ?_, ?_, ?_⟩
  · rw [Dev.flag_settle, Dev.cal_deadClose, hold, Dev.cal_turnRefused c.isLt, Dev.cal_turnEnded c.isLt]
  · rw [Dev.chan_settle]
    refine (congrArg Chan.table (Dev.sansMarks_deadClose _ c 1) :).trans ?_
    rw [hold, Dev.chan_turnRefused, Dev.chan_turnEnded]
    rfl
  · rw [Dev.flag_settle, (Dev.frame_deadClose (p := [.chans]) _ _ _ [] (by simp)).flag_eq (by simp), hold,
      Dev.alarm_turnRefused c.isLt]

end

/-! Waiting values (R174, R375). -/

/-- The waiting values of channel c have taken effect. -/
def Dev.ValuesApplied (d : Dev) (c : Nat) (w : ChanNew) (e : Dev) : Prop :=
  d.Frame e [.chans, .ca] [R.EC_IN_DELAY c, R.EC_OUT_DELAY c, R.EC_STATUS c] ∧
    (e.chan c).waiting = none ∧ (e.chan c).table = w.table ∧ (e.chan c).scd = w.scale ∧
    e.reg (R.EC_IN_DELAY c) = BitVec.ofNat 32 w.inDelay ∧ e.reg (R.EC_OUT_DELAY c) = BitVec.ofNat 32 w.outDelay ∧
    e.flag (R.EC_STATUS c) F.EC_STATUS_stale = false

theorem Dev.applyWaiting_settle (d : Dev) (c : Nat) (w : ChanNew) : d.ValuesApplied c w (d.applyWaiting c w).settle := by
  refine ⟨(d.frame_applyWaiting c w).settle, ?_, ?_, ?_, ?_, ?_, ?_⟩
  · rw [Dev.chan_settle, d.chan_applyWaiting]
  · rw [Dev.chan_settle, d.chan_applyWaiting]
  · rw [Dev.chan_settle, d.chan_applyWaiting]
  · rw [Dev.reg_settle, (d.delays_applyWaiting c w).1]
  · rw [Dev.reg_settle, (d.delays_applyWaiting c w).2]
  · rw [Dev.flag_settle]
    exact Dev.flag_setFlag_same _ _ _ _ (by decide)

section
variable {s : State} {c : Fin 128} {w : ChanNew}

theorem privileged_applied (hs : s.Up) (hw : (s.dev.chan c).waiting = some w) (hpriv : s.dev.privileged c = true)
    (hturn : w.turn = true) : Answers (.privilegedApply c) s (s.dev.ValuesApplied c w) := by
  refine .of_running (f := fun d => match (d.chan c).waiting with
    | some w => if d.privileged c && w.turn then d.applyWaiting c w else d
    | none => d) hs rfl ?_
  rw [hw]
  dsimp only
  rw [hpriv, hturn, Bool.and_self, if_pos rfl]
  exact s.dev.applyWaiting_settle c w

theorem values_applied (hs : s.Up) (hop : s.dev.ca.op = none) (hw : (s.dev.chan c).waiting = some w)
    (hpriv : s.dev.privileged c = false) (hcal : s.dev.flag (R.EC_STATUS c) F.EC_STATUS_cal = false)
    (hfault : s.dev.inFault = false) : Answers (.channelValueApply c) s (s.dev.ValuesApplied c w) := by
  refine .of_running (f := fun d => match (d.chan c).waiting with
    | some w =>
      if d.privileged c || d.flag (R.EC_STATUS c) F.EC_STATUS_cal || d.opNames c || d.inFault then d
      else d.applyWaiting c w
    | none => d) hs rfl ?_
  rw [hw]
  dsimp only
  rw [hpriv, hcal, Dev.opNames_none hop, hfault, Bool.or_self, Bool.or_self, Bool.or_self, if_neg Bool.false_ne_true]
  exact s.dev.applyWaiting_settle c w

theorem channel_stale (hs : s.Up) (hw : (s.dev.chan c).waiting = some w) (hpriv : s.dev.privileged c = false) :
    Answers (.staleTimeout c) s (fun e => s.dev.RegsOnly e ∧ s.dev.KeepsRegs e [R.EC_STATUS c] ∧
      e.flag (R.EC_STATUS c) F.EC_STATUS_stale = true) := by
  refine .of_running (f := fun d => if (d.chan c).waiting.isSome && !d.privileged c
    then d.setFlag (R.EC_STATUS c) F.EC_STATUS_stale true else d) hs rfl ?_
  rw [hw, hpriv, Option.isSome_some, Bool.not_false, Bool.and_self, if_pos rfl]
  refine ⟨(s.dev.regsOnly_setFld _ _ _).settle, (s.dev.frame_setFlag _ _ [] (by simp)).settle.2, ?_⟩
  rw [Dev.flag_settle]
  exact s.dev.flag_setFlag_same _ _ _ (by decide)

end

/-- Settles O22: the turn's beginning, its two ends, and what waiting values do. -/
theorem channelCalibration : Obligations.ChannelCalibration := fun _ _ _ _ table _ hs hop =>
  ⟨fun hstage hon hpriv hruns hturn hperiod => turn_begun hs hop hstage hon hpriv hruns hturn hperiod,
    fun hcal hdtc hpriv => ⟨turn_accepted table hs hop hcal hdtc hpriv, turn_refused table hs hop hcal hdtc hpriv⟩,
    fun hw _ => ⟨privileged_applied hs hw, values_applied hs hop hw, channel_stale hs hw⟩⟩

end Sys2Proof.Machine
end

section
/-! PROOF of O21. The openings of mode 2 with their scale measurements; the commit of a window base; the collector and the history ring;
gathered frames; and the ends of STARTING and STOPPING of a TDC input (R167, R170, R172, R179, R181, R182, R190). -/

namespace Sys2Proof.Machine

/-! The scale measured at an opening (R172). -/

section
variable {d : Dev} {c : Nat} {m : ScaleMeas}

theorem Dev.applyScale_crossed (h : m.crossed = true) : d.applyScale c m = d := if_pos h

/-- A measurement too far from the scale of the calibration. -/
abbrev Dev.scaleFar (d : Dev) (c : Nat) (m : ScaleMeas) : Prop := 256 < (m.c2 - m.c1 - (d.chan c).scd).natAbs

theorem Dev.applyScale_far (h : m.crossed = false) (hfar : d.scaleFar c m) :
    d.applyScale c m = (d.raise (R.EC_ALARM c) F.EC_ALARM_scale_reject).count (chanCtr c 10) :=
  (if_neg (by rw [h]; exact Bool.false_ne_true)).trans (if_pos hfar)

theorem Dev.applyScale_near (h : m.crossed = false) (hnear : ¬ d.scaleFar c m) :
    d.applyScale c m = (d.setFld (R.EC_CAL_STAT c) F.EC_CAL_STAT_scale (m.c2 - m.c1).toNat).setChan c
      { d.chan c with offset := 2 * m.c1 - m.c2 } :=
  (if_neg (by rw [h]; exact Bool.false_ne_true)).trans (if_neg hnear)

/-- Registers that a scale measurement may touch. -/
def scaleRegs (c : Nat) : List Nat := [R.EC_CAL_STAT c, R.EC_ALARM c, R.PC_ALARM]

theorem scaleRegs_work (c : Nat) : scaleRegs c ⊆ chanWorkRegs c := by simp [scaleRegs, chanWorkRegs]

variable (d c m)

theorem Dev.frame_applyScale : d.Frame (d.applyScale c m) [.chans] (scaleRegs c) := by
  unfold Dev.applyScale
  dsimp only
  split
  · exact .refl d _ _
  · split
    · exact (d.frame_raise _ _ (by simp [scaleRegs])).trans (Dev.frame_count _ _ _ _ (by simp [scaleRegs]))
    · exact (d.frame_setFld _ _ _ (by simp [scaleRegs])).trans (Dev.frame_setChan _ _ _ _ (by simp))

/-- A scale measurement moves the interpolator's offset alone. -/
theorem Dev.chan_applyScale :
    (∃ o, (d.applyScale c m).chan c = { d.chan c with offset := o }) ∧ (d.applyScale c m).ec = d.ec := by
  unfold Dev.applyScale
  dsimp only
  split
  · exact ⟨⟨_, rfl⟩, rfl⟩
  · split
    · exact ⟨⟨(d.chan c).offset, by rw [Dev.chan_count, Dev.chan_raise]⟩, by rw [Dev.ec_count, Dev.raise_ec]⟩
    · exact ⟨⟨2 * m.c1 - m.c2, Dev.chan_setChan _ _ _⟩, rfl⟩

end

/-! A window of mode 2 opens (R170). -/

theorem head_pruneWins (t : Nat) (w : Opening) (ws : List Opening) : (pruneWins t (w :: ws)).head? = some w := by
  unfold pruneWins
  split <;> rfl

section
variable (d : Dev) (c : Nat)

/-- The next window of a mode 2 series opens, and the series goes on. -/
def Dev.windowOpened : Dev :=
  (d.openWin c (d.chan c).nextOpen).setChan c { (d.openWin c (d.chan c).nextOpen).chan c with
    nextOpen := t48Add (d.chan c).nextOpen ((d.reg (R.EC_WIN_PERIOD c)).toNat * 256 : Nat) }

theorem Dev.frame_windowOpened : d.Frame (d.windowOpened c) [.chans] [] :=
  (d.frame_setChan _ _ _ (by simp)).trans (Dev.frame_setChan _ _ _ _ (by simp))

theorem Dev.chan_windowOpened : ((d.windowOpened c).chan c).wins.head? =
      some ⟨(d.chan c).nextOpen, ((d.chan c).winCount + 1) % 256, d.ticks, none⟩ ∧
    ((d.windowOpened c).chan c).nextOpen =
      t48Add (d.chan c).nextOpen ((d.reg (R.EC_WIN_PERIOD c)).toNat * 256 : Nat) ∧
    ((d.windowOpened c).chan c).scd = (d.chan c).scd := by
  rw [Dev.windowOpened, Dev.chan_setChan, Dev.openWin, Dev.chan_setChan]
  exact ⟨head_pruneWins _ _ _, rfl, rfl⟩

end

theorem answers_windowOpening {s : State} {c : Fin 128} {m : ScaleMeas} {Q : Dev → Prop} (hs : s.Up)
    (hon : s.dev.tdcOn c = true) (hmode : s.dev.winMode c = 2) (hQ : Q ((s.dev.windowOpened c).applyScale c m).settle) :
    Answers (.windowOpening c m) s Q := by
  refine .of_running (f := fun d =>
    if !d.tdcOn c || d.winMode c == 0 then d
    else if d.winMode c == 2 then (d.windowOpened c).applyScale c m
    else if (d.chan c).wins.isEmpty then d
    else d.applyScale c m) hs rfl ?_
  rw [hon, hmode]
  exact hQ

theorem window_opened {s : State} {c : Fin 128} {m : ScaleMeas} (hs : s.Up) (hon : s.dev.tdcOn c = true)
    (hmode : s.dev.winMode c = 2) : Answers (.windowOpening c m) s (fun e =>
      s.dev.Frame e [.chans] (scaleRegs c) ∧
      (e.chan c).wins.head? = some ⟨(s.dev.chan c).nextOpen, ((s.dev.chan c).winCount + 1) % 256, s.dev.ticks, none⟩ ∧
      (e.chan c).nextOpen = t48Add (s.dev.chan c).nextOpen ((s.dev.reg (R.EC_WIN_PERIOD c)).toNat * 256 : Nat) ∧
      (m.crossed = true → s.dev.Frame e [.chans] []) ∧
      (m.crossed = false → (m.c2 - m.c1 - (s.dev.chan c).scd).natAbs ≤ 256 → 0 ≤ m.c2 - m.c1 → m.c2 - m.c1 < 65536 →
        (e.fld (R.EC_CAL_STAT c) F.EC_CAL_STAT_scale : Int) = m.c2 - m.c1 ∧ (e.chan c).offset = 2 * m.c1 - m.c2) ∧
      (m.crossed = false → 256 < (m.c2 - m.c1 - (s.dev.chan c).scd).natAbs →
        e.reg (R.EC_CAL_STAT c) = s.dev.reg (R.EC_CAL_STAT c) ∧
        e.flag (R.EC_ALARM c) F.EC_ALARM_scale_reject = true)) := by
  have hopened := s.dev.frame_windowOpened c
  obtain ⟨hhead, hnext, hscd⟩ := s.dev.chan_windowOpened c
  obtain ⟨⟨o, hchan⟩, -⟩ := (s.dev.windowOpened c).chan_applyScale c m
  refine answers_windowOpening hs hon hmode ⟨?_, ?_, ?_, fun hx => ?_, fun hx hnear hpos hlt => ?_, fun hx hfar => ?_⟩
  · exact ((hopened.mono (List.Subset.refl _) (List.nil_subset _)).trans (Dev.frame_applyScale _ c m)).settle
  · rw [Dev.chan_settle, hchan, hhead]
  · rw [Dev.chan_settle, hchan, hnext]
  · rw [Dev.applyScale_crossed hx]
    exact hopened.settle
  · have hnear' : ¬ (s.dev.windowOpened c).scaleFar c m := by
      rw [Dev.scaleFar, hscd]
      omega
    rw [Dev.fld_settle, Dev.chan_settle, Dev.applyScale_near hx hnear', Dev.fld_setChan, Dev.chan_setChan,
      Dev.fld_setFld_low _ _ _ _ ⟨by decide, by decide, by simp only [F.EC_CAL_STAT_scale]; omega⟩]
    exact ⟨Int.toNat_of_nonneg hpos, rfl⟩
  · have hfar' : (s.dev.windowOpened c).scaleFar c m := by rwa [Dev.scaleFar, hscd]
    have hapart : R.EC_CAL_STAT c ∉ [R.PC_ALARM] ∧ R.EC_ALARM c ∉ [R.PC_ALARM] ∧ R.EC_CAL_STAT c ≠ R.EC_ALARM c := by
      simp only [List.mem_singleton, R.EC_CAL_STAT, R.EC_ALARM, R.PC_ALARM]
      omega
    obtain ⟨hstat, halarm, hne⟩ := hapart
    rw [Dev.reg_settle, Dev.flag_settle, Dev.applyScale_far hx hfar', (Dev.frame_count _ _ _ [] (by simp)).reg_eq hstat,
      (Dev.frame_count _ _ _ [] (by simp)).flag_eq halarm, Dev.reg_raise_ne _ _ hne, hopened.reg_eq (by simp)]
    exact ⟨rfl, Dev.flag_raise_same _ _ _ ⟨by decide, by decide⟩⟩

/-! The commit of a window base (R190). -/

/-- A write of a register of the edge channels goes by the offset in its channel's window. -/
theorem Dev.writeReg_EC (d : Dev) {o : Nat} (w : Word) (h : o / 0x10000 = 7) : d.writeReg o w = d.writeEC o w := by
  simp only [Dev.writeReg, h]

theorem Dev.writeReg_EC_WIN_BASE_HI (d : Dev) {c : Nat} (hc : c < 128) (w : Word) :
    d.writeReg (R.EC_WIN_BASE_HI c) w = if d.chanState c != enOff then d.chanReject c else d.winBase c w := by
  have hwindow : R.EC_WIN_BASE_HI c / 0x10000 = 7 ∧ (R.EC_WIN_BASE_HI c - R.EC_CTRL 0) / 0x200 = c ∧
      R.EC_WIN_BASE_HI c % 0x200 = 0x20 ∧ R.EC_WIN_BASE_HI c ≠ R.EC_GL_CAL := by
    simp only [R.EC_WIN_BASE_HI, R.EC_CTRL, R.EC_GL_CAL]
    omega
  obtain ⟨hblock, hchan, hoff, hgl⟩ := hwindow
  rw [d.writeReg_EC w hblock, Dev.writeEC]
  simp only [hchan, hoff, if_neg hgl]
  rfl

theorem regSpec_EC_WIN_BASE_HI : ∀ c : Fin 128, (regSpec (R.EC_WIN_BASE_HI c)).isSome = true := by decide

theorem base_committed {s : State} {c : Fin 128} (w : Word) (hs : s.Up) (hoff : s.dev.chanState c = enOff) :
    Answers (.winBaseCommit c w) s (fun e => s.dev.Frame e [.chans] [R.EC_WIN_BASE_HI c] ∧
      (e.chan c).winBase = getField w F.EC_WIN_BASE_HI_base_hi * 2 ^ 32 + (s.dev.reg (R.EC_WIN_BASE_LO c)).toNat) := by
  refine .of_write hs (regSpec_EC_WIN_BASE_HI c) rfl ?_
  rw [s.dev.writeReg_EC_WIN_BASE_HI c.isLt, hoff, bne_self_eq_false, if_neg Bool.false_ne_true]
  refine ⟨((s.dev.frame_setReg _ _ (by simp)).trans (Dev.frame_setChan _ _ _ _ (by simp))).settle, ?_⟩
  rw [Dev.chan_settle, Dev.winBase, Dev.chan_setChan]

theorem base_rejected {s : State} {c : Fin 128} (w : Word) (hs : s.Up) (hoff : s.dev.chanState c ≠ enOff) :
    Answers (.winBaseCommit c w) s (fun e => s.dev.Frame e [] [R.EC_ALARM c] ∧ e.chans = s.dev.chans ∧
      e.flag (R.EC_ALARM c) F.EC_ALARM_cfg_reject = true) := by
  refine .of_write hs (regSpec_EC_WIN_BASE_HI c) rfl ?_
  rw [s.dev.writeReg_EC_WIN_BASE_HI c.isLt, if_pos (bne_iff_ne.2 hoff), Dev.chanReject, Dev.flag_settle]
  exact ⟨(s.dev.frame_raise _ _ (by simp)).settle, by rw [Dev.settle_chans, Dev.raise_chans],
    s.dev.flag_raise_same _ _ ⟨by decide, by decide⟩⟩

/-! The collector (R179, R181). -/

section
variable (d : Dev) (c : Nat) (r : EdgeRec)

/-- The collector goes on from the channel after c, whose oldest record has left its queue. -/
def Dev.recDrained : Dev :=
  ({ d with ec := { d.ec with collector := (c + 1) % 128 } } : Dev).setChan c
    { (d.chan c).pop (d.destOf c) with drained := some r.t48 }

theorem Chan.pop_none_held {x : Chan} (h : x.held = []) (o : EdgeDest) : x.pop o = { x with queue := x.queue.drop 1 } := by
  unfold Chan.pop
  dsimp only
  rw [h]

theorem Dev.frame_recDrained : d.Frame (d.recDrained c r) [.chans] [] :=
  (d.frame_ec _ _ (by simp)).trans (Dev.frame_setChan _ _ _ _ (by simp))

theorem Dev.frame_writeHist : d.Frame (d.writeHist c r) [.chans, .mi] [R.PC_ALARM] :=
  ((d.frame_setChan c _ _ (by simp)).trans (Dev.frame_mi _ _ _ (by simp))).trans (Dev.frame_count _ _ _ _ (by simp))

theorem Dev.chan_writeHist : ((d.writeHist c r).chan c).queue = (d.chan c).queue ∧
    ((d.writeHist c r).chan c).hist = (r :: (d.chan c).hist).take 4096 ∧ (d.writeHist c r).ec = d.ec := by
  have hput (x : Chan) (mi : Mi) : ({ d.setChan c x with mi := mi } : Dev).chan c = x := d.chan_setChan c x
  rw [Dev.writeHist, Dev.chan_count, Dev.ec_count, hput]
  exact ⟨rfl, rfl, rfl⟩

end

section
variable {s : State} {c : Fin 128}

theorem exec_collectorDrain {r : EdgeRec} {rs : List EdgeRec} (hs : s.Up) (hq : (s.dev.chan c).queue = r :: rs)
    (hturn : s.dev.serves c = true) (hhist : r.dest.hist = true) (hstream : r.dest.stream = 0) :
    exec (.collectorDrain c .good) s = .next { s with dev := ((s.dev.recDrained c r).writeHist c r).settle } := by
  have hexec : exec (.collectorDrain c .good) s = execCollectorDrain c .good s := rfl
  rw [hexec, execCollectorDrain, running_next hs.1.1 hs.1.2 hs.2, hq, hturn]
  simp only [Bool.not_true, Bool.false_eq_true, if_false, Dev.readDup, hstream, hhist, if_true]
  rfl

theorem record_drained {r : EdgeRec} {rs : List EdgeRec} (hs : s.Up) (hq : (s.dev.chan c).queue = r :: rs)
    (hheld : (s.dev.chan c).held = []) (hturn : s.dev.serves c = true) (hhist : r.dest.hist = true)
    (hstream : r.dest.stream = 0) : Answers (.collectorDrain c .good) s (fun e => (e.chan c).queue = rs ∧
      (e.chan c).hist = (r :: (s.dev.chan c).hist).take 4096 ∧ e.sw = s.dev.sw ∧
      e.ec.collector = (c.val + 1) % 128 ∧ s.dev.Frame e [.chans, .mi] [R.PC_ALARM]) := by
  have hchan : (s.dev.recDrained c r).chan c = { s.dev.chan c with queue := rs, drained := some r.t48 } := by
    rw [Dev.recDrained, Dev.chan_setChan, Chan.pop_none_held hheld, hq]
    rfl
  obtain ⟨hqueue, hring, hec⟩ := (s.dev.recDrained c r).chan_writeHist c r
  have hframe := ((s.dev.frame_recDrained c r).mono (by simp) (List.nil_subset _)).trans (Dev.frame_writeHist _ c r)
  refine ⟨_, exec_collectorDrain hs hq hturn hhist hstream, rfl, ?_, ?_, ?_, ?_, hframe.settle⟩
  · rw [Dev.chan_settle, hqueue, hchan]
  · rw [Dev.chan_settle, hring, hchan]
  · rw [Dev.settle_sw, hframe.sw_eq (by decide)]
  · rw [Dev.settle_ec, hec]
    rfl

/-! A gathered frame leaves (R182). -/

/-- A frame of an internal port waits for the spreader also during a loss of ROOT lock. -/
theorem Dev.inject_internal (d : Dev) (f : Machine.Frame) (h : 64 ≤ f.port) :
    d.inject f = (d.countRx f.port f.octets.length).awaitPipe f :=
  if_neg (by rw [decide_eq_false (Nat.not_lt.2 h), Bool.and_false]; exact Bool.false_ne_true)

theorem Dev.frame_injectOwn (d : Dev) {port : Nat} (cls : Nat) (octets : List Byte) (h : 64 ≤ port) :
    d.Frame (d.injectOwn port cls octets) [.sw] [R.PC_ALARM] := by
  rw [Dev.injectOwn, Dev.inject_internal _ _ h]
  exact ((d.frame_countRx _ _).mono (List.nil_subset _) (List.Subset.refl _)).trans (Dev.frame_awaitPipe _ _ _)

theorem Dev.arrive_injectOwn (d : Dev) {port : Nat} (cls : Nat) (octets : List Byte) (h : 64 ≤ port) :
    (d.injectOwn port cls octets).sw.arrive =
      d.sw.arrive ++ [{ d.ownFrame port (some cls) octets with id := d.sw.nextId }] := by
  rw [Dev.injectOwn, Dev.inject_internal _ _ h, Dev.awaitPipe, (d.frame_countRx _ _).sw_eq (by decide)]

theorem gathered_sent (hs : s.Up) (hsome : (s.dev.chan c).gather ≠ [])
    (hfree : s.dev.backPressured 66 (s.dev.tplClass c) = false) : Answers (.streamFrameFlush c) s (fun e =>
      s.dev.Frame e [.chans, .sw] [R.PC_ALARM] ∧ (e.chan c).gather = [] ∧
      ∃ f, e.sw.arrive = s.dev.sw.arrive ++ [f] ∧ f.port = 66 ∧ f.cls = some (s.dev.tplClass c) ∧ f.second = none) := by
  refine .of_running (f := fun d =>
    if (d.chan c).gather.isEmpty || d.backPressured 66 (d.tplClass c) then d else d.sendGathered c) hs rfl ?_
  rw [hfree, List.isEmpty_eq_false_iff.2 hsome, Bool.or_false, if_neg Bool.false_ne_true, Dev.sendGathered]
  refine ⟨Dev.Frame.settle (((s.dev.frame_setChan c _ _ (by simp)).trans
    ((Dev.frame_injectOwn _ _ _ (by decide)).mono (by simp) (List.Subset.refl _)))), ?_, ?_⟩
  · rw [Dev.chan_settle, (Dev.frame_injectOwn _ _ _ (by decide)).chan_eq (by simp), Dev.chan_setChan]
  · rw [Dev.settle_sw, Dev.arrive_injectOwn _ _ _ (by decide)]
    exact ⟨_, rfl, rfl, rfl, rfl⟩

end

/-! The end of STARTING of a TDC input (R167, R175). -/

section
variable {d : Dev} {c : Nat} {m : ScaleMeas}

/-- The present trims are applied and the first scale is taken, as channel c is ON. -/
def Dev.scaleTaken (d : Dev) (c : Nat) (m : ScaleMeas) : Dev :=
  ((d.setChanState c enOn).applyWaiting c (d.chanWaiting c)).applyScale c m

/-- A TDC input is ON with its series of windows, and not yet live. -/
def Dev.inputOn (d : Dev) (c : Nat) (m : ScaleMeas) : Dev :=
  (d.scaleTaken c m).setChan c { (d.scaleTaken c m).chan c with
    nextOpen := seriesAfter ((d.scaleTaken c m).chan c).winBase ((d.reg (R.EC_WIN_PERIOD c)).toNat * 256) d.now }

/-- Registers that the end of STARTING may touch. -/
def startRegs (c : Nat) : List Nat :=
  [R.EC_CTRL c, R.EC_WIN_BASE_HI c, R.EC_CAL_STAT c, R.EC_ALARM c, R.PC_ALARM, R.EC_IN_DELAY c, R.EC_OUT_DELAY c, R.EC_STATUS c]

/-- What remains of the input as its state is ON: the channel's own working registers alone. -/
theorem Dev.frame_inputOn_on : (d.setChanState c enOn).Frame (d.inputOn c m) [.chans, .ca]
    [R.EC_IN_DELAY c, R.EC_OUT_DELAY c, R.EC_STATUS c, R.EC_CAL_STAT c, R.EC_ALARM c, R.PC_ALARM] :=
  (((Dev.frame_applyWaiting _ c _).mono (List.Subset.refl _) (by simp)).trans
    ((Dev.frame_applyScale _ c m).mono (by simp) (by simp [scaleRegs]))).trans (Dev.frame_setChan _ _ _ _ (by simp))

theorem Dev.frame_inputOn : d.Frame (d.inputOn c m) [.chans, .ca] (startRegs c) :=
  (d.frame_setFld _ _ _ (by simp [startRegs])).trans
    (Dev.frame_inputOn_on.mono (List.Subset.refl _) (by simp [startRegs]))

theorem Dev.keepsSetup_inputOn (hc : c < 128) : (d.setChanState c enOn).KeepsSetup (d.inputOn c m) c :=
  Dev.frame_inputOn_on.keepsSetup_work hc (by simp [chanWorkRegs])

theorem Dev.chanState_inputOn (hc : c < 128) : (d.inputOn c m).chanState c = enOn :=
  (Dev.keepsSetup_inputOn hc).chanState.trans (d.chanState_setChanState c (by decide))

/-- A change of a channel's state leaves every other register. -/
theorem Dev.frame_setChanState (d : Dev) (c st : Nat) : d.Frame (d.setChanState c st) [] [R.EC_CTRL c] :=
  d.frame_setFld _ _ _ (by simp)

theorem Dev.isDtc_inputOn (hc : c < 128) : (d.inputOn c m).isDtc c = d.isDtc c := by
  rw [(Dev.keepsSetup_inputOn hc).isDtc, Dev.isDtc, Dev.isDtc, (d.frame_setChanState c enOn).fld_eq]
  simp only [List.mem_singleton, R.EC_PAD, R.EC_CTRL]
  omega

theorem Dev.timeValid_inputOn (hc : c < 128) : (d.inputOn c m).timeValid = d.timeValid := by
  rw [(Dev.keepsSetup_inputOn hc).timeValid, Dev.timeValid, Dev.timeValid, (d.frame_setChanState c enOn).flag_eq]
  simp only [List.mem_singleton, R.TC_STATUS, R.EC_CTRL]
  omega

theorem Dev.chan_inputOn : ((d.inputOn c m).chan c).dead = (d.chan c).dead ∧
    ((d.inputOn c m).chan c).queue = (d.chan c).queue ∧ ((d.inputOn c m).chan c).latest = (d.chan c).latest ∧
    (d.inputOn c m).ec = d.ec := by
  obtain ⟨⟨o, hscaled⟩, hec⟩ := Dev.chan_applyScale ((d.setChanState c enOn).applyWaiting c (d.chanWaiting c)) c m
  rw [Dev.chan_applyWaiting] at hscaled
  rw [Dev.inputOn, Dev.chan_setChan, Dev.ec_setChan, Dev.scaleTaken, hscaled, hec, Dev.ec_applyWaiting]
  exact ⟨rfl, rfl, rfl, rfl⟩

/-- A channel without a record takes the present instant for a mark. -/
theorem Dev.recAt_of_no_record (h : (d.chan c).latest = none) : d.recAt c = d.now := by rw [Dev.recAt, h]

theorem Dev.frame_inputLive : (d.inputOn c m).Frame ((d.inputOn c m).deadClose c 3) [.chans] [] :=
  Dev.frame_deadClose _ _ _ _ (by simp)

variable (hc : c < 128) (hdead : (d.chan c).dead = [3])
include hc hdead

/-- The DEAD_END record of reason 3. -/
theorem Dev.deadClose_inputOn : ((d.inputOn c m).deadClose c 3) =
    ((d.inputOn c m).setChan c { (d.inputOn c m).chan c with dead := [] }).pushMark c
      ((d.inputOn c m).mkRec c 3 3 ((d.inputOn c m).recAt c)) := by
  have hopen : ((d.inputOn c m).chan c).dead = [3] := Dev.chan_inputOn.1.trans hdead
  have hrec : (d.inputOn c m).recording c = true := by rw [Dev.recording, Dev.chanState_inputOn hc]; rfl
  rw [Dev.deadClose_of_recording (by rw [hopen]; rfl) hrec, hopen]
  rfl

theorem Dev.dead_inputLive : (((d.inputOn c m).deadClose c 3).chan c).dead = [] := by
  rw [Dev.deadClose_inputOn hc hdead, (Dev.sansMarks_pushMark _ _ _).2, Dev.chan_setChan]

theorem Dev.queue_inputLive (hq : (d.chan c).queue = []) (hlatest : (d.chan c).latest = none)
    (hwaits : d.hasWaits c = false) :
    ∃ r, (((d.inputOn c m).deadClose c 3).chan c).queue = [r] ∧ r.kind = 3 ∧ r.aux = 3 ∧ r.t48 = d.now := by
  obtain ⟨-, hqueue, hlast, hec⟩ := Dev.chan_inputOn (d := d) (c := c) (m := m)
  have hnow : (d.inputOn c m).recAt c = d.now := by
    rw [Dev.recAt_of_no_record (hlast.trans hlatest), Dev.now, Dev.frame_inputOn.tc_eq (by simp)]
    rfl
  have hfree (x : Chan) : ((d.inputOn c m).setChan c x).hasWaits c = false := (Dev.hasWaits_of_ec hec c).trans hwaits
  rw [Dev.deadClose_inputOn hc hdead, Dev.chan_pushMark _ _ _ (hfree _)
    (by rw [Dev.chan_setChan, hqueue, hq]; decide), Dev.chan_setChan, hnow, Chan.enter, hqueue, hq]
  exact ⟨_, rfl, rfl, rfl, rfl⟩

end

/-- At the end of STARTING a reason that no longer holds is closed, and TIME that is not valid becomes one. -/
def Dev.reasonsJudged (d : Dev) (c : Nat) : Dev :=
  let e := if d.flag (R.EC_STATUS c) F.EC_STATUS_cal || d.opHolds c then d else d.deadClose c 1
  if e.timeValid then e.deadClose c 2 else e.deadOpen c 2

theorem Dev.reasonsJudged_of_live {d : Dev} {c : Nat} (hdead : (d.chan c).dead = []) (hvalid : d.timeValid = true) :
    d.reasonsJudged c = d := by
  have hclose (k : Nat) : d.deadClose c k = d := Dev.deadClose_of_not_open (by rw [hdead]; rfl)
  rw [Dev.reasonsJudged, hclose, ite_self]
  exact (if_pos hvalid).trans (hclose 2)

section
variable {s : State} {c : Fin 128}

theorem input_started {m : ScaleMeas} (hs : s.Up) (hdtc : s.dev.isDtc c = false) (hfault : s.dev.inFault = false)
    (hglaze : s.dev.inGlaze = true) (hstart : s.dev.chanState c = enStarting)
    (henable : s.dev.flag (R.EC_CTRL c) F.EC_CTRL_enable = true) (hvalid : s.dev.timeValid = true)
    (hdead : (s.dev.chan c).dead = [3]) (hq : (s.dev.chan c).queue = []) (hlatest : (s.dev.chan c).latest = none)
    (hwaits : s.dev.hasWaits c = false) : Answers (.channelStartingEnd c m) s (fun e =>
      s.dev.Frame e [.chans, .ca] (startRegs c) ∧ e.chanLive c = true ∧
      ∃ r, (e.chan c).queue = [r] ∧ r.kind = 3 ∧ r.aux = 3 ∧ r.t48 = s.dev.now) := by
  have hkept := (s.dev.frame_inputLive (c := c) (m := m)).keepsSetup (c := c) (by simp)
  have htime := hkept.timeValid.trans ((Dev.timeValid_inputOn c.isLt).trans hvalid)
  have hlive := Dev.dead_inputLive (m := m) c.isLt hdead
  refine .of_running (f := fun d =>
    if d.chanState c != enStarting || d.inFault then d
    else if !d.flag (R.EC_CTRL c) F.EC_CTRL_enable || !d.inGlaze then d.setChanState c enStopping
    else if d.isDtc c then d.scaleTaken c m
    else ((d.inputOn c m).deadClose c 3).reasonsJudged c) hs rfl ?_
  simp only [hstart, bne_self_eq_false, hfault, Bool.or_self, henable, hglaze, Bool.not_true, hdtc, Bool.false_eq_true, if_false,
    Dev.reasonsJudged_of_live hlive htime]
  refine ⟨(Dev.frame_inputOn.trans (Dev.frame_inputLive.mono (by simp) (List.nil_subset _))).settle, ?_, ?_⟩
  · rw [Dev.chanLive_settle, Dev.chanLive_tdc (hkept.isDtc.trans ((Dev.isDtc_inputOn c.isLt).trans hdtc)), hkept.chanState,
      Dev.chanState_inputOn c.isLt, htime, hlive]
    rfl
  · rw [Dev.chan_settle]
    exact Dev.queue_inputLive c.isLt hdead hq hlatest hwaits

/-! The end of STOPPING of a TDC input (R167). -/

theorem input_stopped (hs : s.Up) (hdtc : s.dev.isDtc c = false) (hfault : s.dev.inFault = false)
    (hstop : s.dev.chanState c = enStopping) (henable : s.dev.flag (R.EC_CTRL c) F.EC_CTRL_enable = false)
    (hq : (s.dev.chan c).queue = []) (hheld : (s.dev.chan c).held = []) (hwaits : s.dev.hasWaits c = false) :
    Answers (.channelStoppingEnd c) s (fun e => e.chanState c = enOff ∧
      s.dev.Frame e [.chans] [R.EC_CTRL c, R.EC_STATUS c]) := by
  have hoff : (s.dev.chanOff c).chanAgain c = s.dev.chanOff c :=
    Dev.chanAgain_of_disabled _ _ ((s.dev.enable_chanOff c).trans henable)
  have hexec : exec (.channelStoppingEnd c) s = .next { s with dev := (s.dev.chanOff c).settle } := by
    have h : exec (.channelStoppingEnd c) s = execChannelStoppingEnd c s := rfl
    rw [h, execChannelStoppingEnd, running_next hs.1.1 hs.1.2 hs.2]
    simp [hstop, hfault, hdtc, hq, hheld, hwaits, hoff]
  refine ⟨_, hexec, rfl, ?_, (s.dev.frame_chanOff c).settle⟩
  rw [Dev.chanState_settle, Dev.chanState_chanOff]

end

/-- Settles O21: the openings of mode 2, the commit of a window base, the collector, gathered frames, and a TDC input that starts
and stops. -/
theorem channelWindowsAndStreams : Obligations.ChannelWindowsAndStreams :=
  ⟨fun _ _ _ w hs => ⟨window_opened hs, base_committed w hs, base_rejected w hs⟩,
    fun _ _ _ _ _ hs => ⟨record_drained hs, gathered_sent hs, fun hdtc hfault hglaze =>
      ⟨fun hstart henable hvalid hdead hq hlatest hwaits _ =>
          input_started hs hdtc hfault hglaze hstart henable hvalid hdead hq hlatest hwaits,
        input_stopped hs hdtc hfault⟩⟩⟩

end Sys2Proof.Machine
end

section
/-! PROOF of O31. Schedule entries, primitives and decisions from the host (R184, R196, R211, R298). -/

namespace Sys2Proof.Machine

/-! A list kept in order. -/

section
variable {α : Type} (before : α → α → Bool) (x : α) (xs : List α)

theorem perm_insertBy : (insertBy before x xs).Perm (x :: xs) := by
  induction xs with
  | nil => exact .refl _
  | cons y ys ih =>
    unfold insertBy
    split
    · exact .refl _
    · exact (ih.cons y).trans (.swap x y ys)

theorem length_insertBy : (insertBy before x xs).length = xs.length + 1 := (perm_insertBy before x xs).length_eq

theorem mem_insertBy : x ∈ insertBy before x xs := (perm_insertBy before x xs).mem_iff.2 List.mem_cons_self

end

/-! Failures that a command counts before its completion (R196, R308). -/

/-- The registers that count the failures of host commands. -/
def crcRegs : List Nat := [R.HR_ALARM, R.HR_CMD_ERR]

/-- The device `d`, its counts of failures as `u` has them. Its rings are those of `d`, so that a command of `d` that has counted
failures by `u` is one of this device that has counted none. -/
def Dev.withFailures (d u : Dev) : Dev :=
  (d.setReg R.HR_ALARM (u.reg R.HR_ALARM)).setReg R.HR_CMD_ERR (u.reg R.HR_CMD_ERR)

section
variable {d u : Dev}

theorem Dev.reg_withFailures_ne {o : Nat} (h : o ∉ crcRegs) : (d.withFailures u).reg o = d.reg o := by
  simp only [crcRegs, List.mem_cons, List.not_mem_nil, or_false, not_or] at h
  rw [Dev.withFailures, Dev.reg_setReg_ne _ _ h.2, Dev.reg_setReg_ne _ _ h.1]

theorem Dev.reg_withFailures {o : Nat} (h : o ∈ crcRegs) : (d.withFailures u).reg o = u.reg o := by
  simp only [crcRegs, List.mem_cons, List.not_mem_nil, or_false] at h
  rcases h with rfl | rfl
  · rw [Dev.withFailures, Dev.reg_setReg_ne _ _ (by decide), Dev.reg_setReg_same]
  · rw [Dev.withFailures, Dev.reg_setReg_same]

theorem crcRegs_apart_place {y : Nat} {o : Nat} (h : o ∈ placeRegs y ∨ o = R.HR_RING_CTRL y ∨ o = R.HR_RING_HIDX y) :
    o ∉ crcRegs := by
  simp only [placeRegs, crcRegs, List.mem_cons, List.not_mem_nil, or_false, R.HR_CTRL, R.HR_RING_CFG, R.HR_RING_BASE_LO,
    R.HR_RING_BASE_HI, R.HR_RING_DIDX, R.HR_RING_CTRL, R.HR_RING_HIDX, R.HR_ALARM, R.HR_CMD_ERR] at h ⊢
  omega

theorem Dev.place_withFailures (y : Nat) {o : Nat} (h : o ∈ placeRegs y) : (d.withFailures u).reg o = d.reg o :=
  Dev.reg_withFailures_ne (crcRegs_apart_place (.inl h))

theorem Dev.cplRing_withFailures (y : Nat) : (d.withFailures u).cplRing y = d.cplRing y := by
  rw [Dev.cplRing, Dev.cplRing, Dev.fld, Dev.fld, Dev.place_withFailures y (by simp [placeRegs])]

theorem Dev.didx_withFailures (y : Nat) : (d.withFailures u).didx y = d.didx y :=
  (Dev.entry_eq fun _ => Dev.place_withFailures y).2.2

theorem Dev.cmdReady_withFailures (y : Nat) : (d.withFailures u).cmdReady y = d.cmdReady y := by
  have hctrl (z : Nat) : (d.withFailures u).reg (R.HR_RING_CTRL z) = d.reg (R.HR_RING_CTRL z) :=
    Dev.reg_withFailures_ne (crcRegs_apart_place (y := z) (by simp))
  have hcfg (z : Nat) : (d.withFailures u).reg (R.HR_RING_CFG z) = d.reg (R.HR_RING_CFG z) :=
    Dev.place_withFailures z (by simp [placeRegs])
  have hhidx (z : Nat) : (d.withFailures u).hidx z = d.hidx z := by
    rw [Dev.hidx, Dev.hidx, Dev.reg_withFailures_ne (crcRegs_apart_place (y := z) (by simp))]
  have hring (z : Nat) : (d.withFailures u).ring z = d.ring z := rfl
  have hfull (z : Nat) : (d.withFailures u).ringFull z = d.ringFull z := by
    rw [Dev.ringFull, Dev.ringFull, Dev.ringSize, Dev.ringSize, Dev.fld, Dev.fld, hcfg, Dev.didx_withFailures, hhidx, hring]
  simp only [Dev.cmdReady, Dev.cplRoom, hfull, hhidx, hring, Dev.didx_withFailures, Dev.ringType, Dev.ringState, Dev.fld, hcfg,
    hctrl]

theorem completes_withFailures {c : CmdDesc} {op status r0 r1 : Nat} {e : Dev}
    (h : Completes c op status r0 r1 (d.withFailures u) e) : Completes c op status r0 r1 d e := by
  obtain ⟨haddr, hv3, -⟩ := Dev.entry_eq fun _ => Dev.place_withFailures (d := d) (u := u) (d.cplRing c.ring)
  have hring (z : Nat) : (d.withFailures u).ring z = d.ring z := rfl
  have hlink : (d.withFailures u).hr.linkUp = d.hr.linkUp := rfl
  unfold Completes at h ⊢
  dsimp only at h ⊢
  rwa [Dev.cplRing_withFailures, haddr, hv3, Dev.didx_withFailures, Dev.didx_withFailures, hring, hlink] at h

/-- A step of the execution that keeps the rings but for the counts of failures. -/
theorem Dev.Executes.failing {t : Dev} {y : Nat} {p : List Part} {r : List Nat} (h : d.Executes t y) (hy : y < 64)
    (hf : t.Frame u p r) (hr : ∀ o ∈ r, o / 0x10000 ≠ 9 ∨ o ∈ crcRegs) (hk : t.KeepsRings u) :
    (d.withFailures u).Executes u y where
  reg o ho hne := by
    by_cases hcrc : o ∈ crcRegs
    · exact (Dev.reg_withFailures hcrc).symm
    · rw [Dev.reg_withFailures_ne hcrc, hf.reg_eq fun hm => (hr o hm).elim (absurd ho) hcrc, h.reg o ho hne]
  didx := by
    have hdidx : R.HR_RING_DIDX y ∉ crcRegs := crcRegs_apart_place (y := y) (.inl (by simp [placeRegs]))
    have hblock : R.HR_RING_DIDX y / 0x10000 = 9 := by simp only [R.HR_RING_DIDX]; omega
    rw [Dev.didx_withFailures, Dev.didx, hf.reg_eq fun hm => (hr _ hm).elim (absurd hblock) hdidx, ← Dev.didx, h.didx]
  link := hk.link.trans h.link
  reserved := by
    rw [Dev.cplRing_withFailures, hk.reserved]
    exact h.reserved

/-- The whole frame of a command that has counted failures and ended, with its completion. -/
theorem Dev.Executes.ended_failing {t : Dev} {c : CmdDesc} {p q : List Part} {r w : List Nat} (h : d.Executes t c.ring)
    (hready : d.cmdReady c.ring = true) (hf : t.Frame u p r) (hr : ∀ o ∈ r, o / 0x10000 ≠ 9 ∨ o ∈ crcRegs)
    (hk : t.KeepsRings u) (hwhole : d.Frame u q w) (hq : Part.hr ∈ q) (hw : d.cmdRegs c.ring ⊆ w) (op status r0 r1 : Nat) :
    d.Frame (u.finish (d.cmdOrigin c op) status r0 r1).settle q w ∧
      Completes c op status r0 r1 d (u.finish (d.cmdOrigin c op) status r0 r1).settle := by
  have hexec := h.failing c.ring.isLt hf hr hk
  have horigin : (d.withFailures u).cmdOrigin c op = d.cmdOrigin c op := by
    rw [Dev.cmdOrigin, Dev.cmdOrigin, Dev.didx_withFailures]
  have hdone := hexec.completes ((Dev.cmdReady_withFailures _).trans hready) op status r0 r1
  rw [horigin] at hdone
  refine ⟨(hwhole.trans ((u.frame_finish _ status r0 r1).mono (by simpa using hq) ?_)).settle, completes_withFailures hdone⟩
  rw [Dev.cmdOrigin, hexec.cplRing c.ring.isLt, Dev.cplRing_withFailures]
  exact List.Subset.trans (List.subset_cons_self _ _) hw

end

/-! A schedule entry (R184, R185). -/

section
variable {d : Dev} {c : Nat} {x : DtcEntry}

/-- Registers that the submission of an entry may touch. -/
def submitRegs (c : Nat) : List Nat := [R.EC_ALARM c, R.EC_DTC_REFUSED c, R.EC_DTC_LATE c, R.PC_ALARM]

/-- An entry is in the schedule of its channel, in the order of instants. -/
def Dev.entryQueued (d : Dev) (c : Nat) (x : DtcEntry) : Dev :=
  d.setChan c { d.chan c with sched := insertBy (DtcEntry.before d.now) x (d.chan c).sched }

/-- The conditions under which a DTC output accepts an entry. -/
structure Dev.Accepts (d : Dev) (c : Nat) (x : DtcEntry) : Prop where
  on    : d.chanState c = enOn
  dtc   : d.isDtc c = true
  room  : (d.chan c).sched.length < 64
  width : 960 ≤ x.width
  gap   : x.count = 1 ∨ x.width + 960 ≤ x.period

/-- An accepted entry is queued as it is, or counted as late and queued with a first edge 51.2 ns from now. -/
theorem Dev.dtcSubmit_accepted (h : d.Accepts c x) : d.dtcSubmit c x = (d.entryQueued c x, true) ∨
    d.dtcSubmit c x = ((d.entryQueued c { x with due := some (gridAdd (toGrid d.now) 40960) }).countLate c, true) := by
  obtain ⟨hon, hdtc, hroom, hwidth, hgap⟩ := h
  have hcount : (x.count != 1 && decide (x.period < x.width + 960)) = false := by
    rw [Bool.and_eq_false_iff, bne_eq_false_iff_eq, decide_eq_false_iff_not]
    omega
  unfold Dev.dtcSubmit
  dsimp only
  rw [hon, hdtc, hcount, decide_eq_false (Nat.not_le.2 hroom), decide_eq_false (Nat.not_lt.2 hwidth), if_neg (by decide)]
  cases decide (gridSub (toGrid x.t48) (toGrid d.now) < 40960) with
  | false => exact .inl rfl
  | true => exact .inr rfl

theorem Dev.dtcSubmit_refused (h : d.chanState c ≠ enOn) : d.dtcSubmit c x =
    (((d.addSat (R.EC_DTC_REFUSED c) F.EC_DTC_REFUSED_count 1).raise (R.EC_ALARM c) F.EC_ALARM_dtc_refused).count
      (chanCtr c 5), false) := by
  unfold Dev.dtcSubmit
  dsimp only
  rw [if_pos (by simp [h])]

theorem Dev.keepsRings_setChan (d : Dev) (c : Nat) (x : Chan) : d.KeepsRings (d.setChan c x) :=
  Dev.keepsRings_of_hr rfl fun _ h => h

theorem Dev.keepsRings_countLate (d : Dev) (c : Nat) : d.KeepsRings (d.countLate c) :=
  ((d.keepsRings_setFld _ _ _).trans (Dev.keepsRings_raise _ _ _)).trans (Dev.keepsRings_count _ _ _)

theorem Dev.frame_entryQueued (r : List Nat) : d.Frame (d.entryQueued c x) [.chans] r := d.frame_setChan _ _ _ (by simp)

theorem Dev.length_entryQueued : ((d.entryQueued c x).chan c).sched.length = (d.chan c).sched.length + 1 := by
  rw [Dev.entryQueued, Dev.chan_setChan]
  exact length_insertBy _ _ _

theorem Dev.dtcSubmit_accepts (h : d.Accepts c x) : ∃ u, d.dtcSubmit c x = (u, true) ∧ d.Frame u [.chans] (submitRegs c) ∧
    d.KeepsRings u ∧ (u.chan c).sched.length = (d.chan c).sched.length + 1 := by
  rcases Dev.dtcSubmit_accepted h with hu | hu
  · exact ⟨_, hu, Dev.frame_entryQueued _, d.keepsRings_setChan _ _, Dev.length_entryQueued⟩
  · refine ⟨_, hu, (Dev.frame_entryQueued _).trans
      (Dev.frame_countLate _ _ _ (by simp [submitRegs]) (by simp [submitRegs]) (by simp [submitRegs])),
      (d.keepsRings_setChan _ _).trans (Dev.keepsRings_countLate _ _), ?_⟩
    have hchan (e : Dev) : (e.countLate c).chan c = e.chan c := by
      rw [Dev.countLate, Dev.chan_count, Dev.chan_raise, Dev.addSat, Dev.chan_setFld]
    rw [hchan, Dev.length_entryQueued]

theorem Dev.dtcSubmit_refuses (h : d.chanState c ≠ enOn) : ∃ u, d.dtcSubmit c x = (u, false) ∧
    d.Frame u [.chans] (submitRegs c) ∧ d.KeepsRings u ∧ u.chan c = d.chan c ∧
    u.flag (R.EC_ALARM c) F.EC_ALARM_dtc_refused = true := by
  refine ⟨_, Dev.dtcSubmit_refused h, ((d.frame_addSat _ _ _ (by simp [submitRegs])).trans
    (Dev.frame_raise _ _ _ (by simp [submitRegs]))).trans (Dev.frame_count _ _ _ _ (by simp [submitRegs])),
    ((d.keepsRings_setFld _ _ _).trans (Dev.keepsRings_raise _ _ _)).trans (Dev.keepsRings_count _ _ _), ?_, ?_⟩
  · rw [Dev.chan_count, Dev.chan_raise, Dev.addSat, Dev.chan_setFld]
  · have hpc : R.EC_ALARM c ∉ [R.PC_ALARM] := by simp only [List.mem_singleton, R.EC_ALARM, R.PC_ALARM]; omega
    rw [(Dev.frame_count _ _ _ [] (by simp)).flag_eq hpc]
    exact Dev.flag_raise_same _ _ _ ⟨by decide, by decide⟩

end

section
variable (d : Dev) (y k : Nat)

theorem submitRegs_apart {k : Nat} (hk : k < 128) : ∀ o ∈ submitRegs k, o / 0x10000 ≠ 9 := by
  simp only [submitRegs, List.mem_cons, List.not_mem_nil, or_false, forall_eq_or_imp, forall_eq, R.EC_ALARM, R.EC_DTC_REFUSED,
    R.EC_DTC_LATE, R.PC_ALARM]
  omega

theorem Dev.chan_takeCommand : (d.takeCommand y).chan k = d.chan k := (d.frame_takeCommand y).chan_eq (by decide) k

theorem Dev.keepsSetup_takeCommand : d.KeepsSetup (d.takeCommand y) k := by
  refine (d.frame_takeCommand y).keepsSetup fun o ho => ?_
  simp only [setupRegs, List.mem_cons, List.not_mem_nil, or_false, R.HR_RING_DIDX, R.EC_CTRL, R.EC_PAD, R.EC_OUT_CFG,
    R.TC_STATUS] at ho ⊢
  omega

end

section
variable {s : State} {c : CmdDesc}

/-- The work of DTC_SUBMIT. -/
def Dev.submitWork (c : CmdDesc) (d : Dev) (o : Origin) : Dev :=
  if 127 < c.arg0.toNat then d.finish o 4
  else
    let (d1, k, ok) := d.submitEntries c.arg0.toNat c.data 0 (entriesOf c)
    d1.finish o (if ok then 0 else 1) k k

theorem Dev.submitWork_one {d u : Dev} {ok : Bool} (o : Origin) (hk : c.arg0.toNat ≤ 127) (hone : entriesOf c = 1)
    (h : d.dtcSubmit c.arg0.toNat (dtcEntryOf (octets c.data 0 16)) = (u, ok)) :
    d.submitWork c o = u.finish o (if ok then 0 else 1) ok.toNat ok.toNat := by
  rw [Dev.submitWork, if_neg (Nat.not_lt.2 hk), hone, Dev.submitEntries, Nat.mul_zero, h]
  cases ok <;> rfl

theorem entries_of_no_channel (hs : s.Up) (hready : s.dev.cmdReady c.ring = true) (hk : 127 < c.arg0.toNat) :
    Answers (.dtcSubmit c) s (fun e => s.dev.Frame e [.hr] (s.dev.cmdRegs c.ring) ∧ Completes c 10 4 0 0 s.dev e) := by
  refine answers_ended (f := Dev.submitWork c) (u := s.dev.takeCommand c.ring) (status := 4) (r0 := 0) (r1 := 0) hs rfl hready
    (if_pos hk) ?_
  exact (Dev.executes_takeCommand hready).ended hready (s.dev.frame_taken c) (by decide) (List.Subset.refl _) 10 4 0 0

/-- The frame of a submission of entries for channel k. -/
abbrev Dev.submitFrame (d e : Dev) (c : CmdDesc) : Prop :=
  d.Frame e [.hr, .chans]
    ([R.EC_ALARM c.arg0.toNat, R.EC_DTC_REFUSED c.arg0.toNat, R.EC_DTC_LATE c.arg0.toNat] ++ d.cmdRegs c.ring)

theorem submitRegs_subset (d : Dev) (c : CmdDesc) : submitRegs c.arg0.toNat ⊆
    [R.EC_ALARM c.arg0.toNat, R.EC_DTC_REFUSED c.arg0.toNat, R.EC_DTC_LATE c.arg0.toNat] ++ d.cmdRegs c.ring := by
  simp [submitRegs, Dev.cmdRegs]

/-- A submission of one entry ends with its answer. -/
theorem one_entry_done {u : Dev} {ok : Bool} (hs : s.Up) (hready : s.dev.cmdReady c.ring = true) (hk : c.arg0.toNat ≤ 127)
    (hone : entriesOf c = 1)
    (h : (s.dev.takeCommand c.ring).dtcSubmit c.arg0.toNat (dtcEntryOf (octets c.data 0 16)) = (u, ok))
    (hframe : (s.dev.takeCommand c.ring).Frame u [.chans] (submitRegs c.arg0.toNat))
    (hkeeps : (s.dev.takeCommand c.ring).KeepsRings u) {Q : Dev → Prop}
    (hQ : Q (u.finish (s.dev.cmdOrigin c 10) (if ok then 0 else 1) ok.toNat ok.toNat).settle) :
    Answers (.dtcSubmit c) s (fun e => s.dev.submitFrame e c ∧
      Completes c 10 (if ok then 0 else 1) ok.toNat ok.toNat s.dev e ∧ Q e) := by
  have hexec := (Dev.executes_takeCommand hready).keep hframe (submitRegs_apart (by omega)) c.ring.isLt hkeeps
  have hwhole : s.dev.submitFrame u c := ((s.dev.frame_taken c).mono (by simp) (List.subset_append_right _ _)).trans
    (hframe.mono (by simp) (submitRegs_subset _ _))
  obtain ⟨hall, hdone⟩ := hexec.ended hready hwhole (by simp) (List.subset_append_right _ _) 10 (if ok then 0 else 1) ok.toNat
    ok.toNat
  exact answers_ended (f := Dev.submitWork c) hs rfl hready (Dev.submitWork_one _ hk hone h) ⟨hall, hdone, hQ⟩

theorem Dev.chan_finish_settle (d : Dev) (o : Origin) (status r0 r1 k : Nat) : (d.finish o status r0 r1).settle.chan k = d.chan k := by
  rw [Dev.chan_settle, (d.frame_finish o status r0 r1).chan_eq (by decide)]

theorem entry_accepted (hs : s.Up) (hready : s.dev.cmdReady c.ring = true) (hk : c.arg0.toNat ≤ 127) (hone : entriesOf c = 1)
    (h : s.dev.Accepts c.arg0.toNat (dtcEntryOf (octets c.data 0 16))) :
    Answers (.dtcSubmit c) s (fun e => s.dev.submitFrame e c ∧ Completes c 10 0 1 1 s.dev e ∧
      (e.chan c.arg0.toNat).sched.length = (s.dev.chan c.arg0.toNat).sched.length + 1) := by
  have hsetup := s.dev.keepsSetup_takeCommand c.ring c.arg0.toNat
  have htaken : (s.dev.takeCommand c.ring).Accepts c.arg0.toNat (dtcEntryOf (octets c.data 0 16)) :=
    ⟨hsetup.chanState.trans h.on, hsetup.isDtc.trans h.dtc, by rw [Dev.chan_takeCommand]; exact h.room, h.width, h.gap⟩
  obtain ⟨u, hsubmit, hframe, hkeeps, hlength⟩ := Dev.dtcSubmit_accepts htaken
  refine one_entry_done (ok := true) hs hready hk hone hsubmit hframe hkeeps ?_
  rw [Dev.chan_finish_settle, hlength, Dev.chan_takeCommand]

theorem entry_refused (hs : s.Up) (hready : s.dev.cmdReady c.ring = true) (hk : c.arg0.toNat ≤ 127) (hone : entriesOf c = 1)
    (h : s.dev.chanState c.arg0.toNat ≠ enOn) :
    Answers (.dtcSubmit c) s (fun e => s.dev.submitFrame e c ∧ Completes c 10 1 0 0 s.dev e ∧
      (e.chan c.arg0.toNat).sched = (s.dev.chan c.arg0.toNat).sched ∧
      e.flag (R.EC_ALARM c.arg0.toNat) F.EC_ALARM_dtc_refused = true) := by
  have hsetup := s.dev.keepsSetup_takeCommand c.ring c.arg0.toNat
  obtain ⟨u, hsubmit, hframe, hkeeps, hchan, halarm⟩ :=
    Dev.dtcSubmit_refuses (x := dtcEntryOf (octets c.data 0 16)) (hsetup.chanState ▸ h)
  refine one_entry_done (ok := false) hs hready hk hone hsubmit hframe hkeeps ⟨?_, ?_⟩
  · rw [Dev.chan_finish_settle, hchan, Dev.chan_takeCommand]
  · rw [Dev.flag_settle, (u.frame_finish _ _ _ _).flag_eq, halarm]
    simp only [failureRegs, List.mem_cons, List.not_mem_nil, or_false, R.EC_ALARM, R.HR_RING_DIDX, R.HR_ALARM, R.HR_CMD_ERR,
      R.PC_ALARM]
    have hlt := u.cplRing_lt (s.dev.cmdOrigin c 10).ring
    omega

/-! Primitives (R196, R298). -/

/-- The failure of host words, by their CRC. -/
theorem Dev.frame_hostCrcError (d : Dev) (n : Nat) :
    d.Frame (d.hostCrcError n) [] [R.HR_CMD_ERR, R.HR_ALARM, R.TG_ALARM, R.PC_ALARM] :=
  (((d.frame_addSat _ _ _ (by simp)).trans (Dev.frame_raise _ _ _ (by simp))).trans (Dev.frame_count _ _ _ _ (by simp))).trans
    (Dev.frame_raise _ _ _ (by simp))

theorem Dev.keepsRings_hostCrcError (d : Dev) (n : Nat) : d.KeepsRings (d.hostCrcError n) :=
  (((d.keepsRings_setFld _ _ _).trans (Dev.keepsRings_raise _ _ _)).trans (Dev.keepsRings_count _ _ _)).trans
    (Dev.keepsRings_raise _ _ _)

theorem Dev.wordErr_hostCrcError (d : Dev) (n : Nat) : (d.hostCrcError n).flag R.TG_ALARM F.TG_ALARM_word_err = true :=
  Dev.flag_raise_same _ _ _ ⟨by decide, by decide⟩

theorem Dev.frame_engineArrive (d : Dev) (k : Nat) (p : Prim) :
    d.Frame (d.engineArrive k p) [.tg] [R.TG_ALARM, R.TG_IN_LOSS k, R.PC_ALARM] := by
  have hleft := d.frame_tg { d.tg with flight := dropFirst (fun x => x == (k, p)) d.tg.flight }
    [R.TG_ALARM, R.TG_IN_LOSS k, R.PC_ALARM] (p := [.tg]) (by simp)
  exact Dev.frame_ite hleft (Dev.frame_ite (((hleft.trans (Dev.frame_addSat _ _ _ _ (by simp))).trans
    (Dev.frame_raise _ _ _ (by simp))).trans (Dev.frame_count _ _ _ _ (by simp))) (hleft.trans (Dev.frame_tg _ _ _ (by simp))))

theorem Dev.out_engineArrive (d : Dev) (k : Nat) (p : Prim) : (d.engineArrive k p).out = d.out := by
  unfold Dev.engineArrive
  dsimp only
  split
  · rfl
  · split
    · rw [Dev.out_count, Dev.raise_out]
      rfl
    · rfl

theorem Dev.keepsRings_engineArrive (d : Dev) (k : Nat) (p : Prim) : d.KeepsRings (d.engineArrive k p) :=
  (d.frame_engineArrive k p).keepsRings (by decide) fun x hx => by rwa [d.out_engineArrive]

/-- The work of PRIM_SUBMIT. -/
def Dev.primWork (c : CmdDesc) (d : Dev) (o : Origin) : Dev :=
  let (d1, k, st) := d.submitPrims c.data 0 (entriesOf c)
  d1.finish o st k

theorem Dev.primWork_corrupt (d : Dev) (o : Origin) (hone : entriesOf c = 1)
    (hcrc : primCrcOk (leNat (octets c.data 0 8)) = false) : d.primWork c o = (d.hostCrcError 1).finish o 6 0 0 := by
  simp [Dev.primWork, hone, Dev.submitPrims, hcrc]

theorem Dev.primWork_one (d : Dev) (o : Origin) (hone : entriesOf c = 1)
    (hcrc : primCrcOk (leNat (octets c.data 0 8)) = true) (htype : bits (leNat (octets c.data 0 8)) 63 60 = 1) :
    d.primWork c o = (d.engineArrive 193 (primOf (leNat (octets c.data 0 8)))).finish o 0 1 0 := by
  simp [Dev.primWork, hone, Dev.submitPrims, hcrc, htype]

/-- The end of a command leaves the alarms of the trigger plane. -/
theorem Dev.wordErr_finish (d : Dev) (o : Origin) (status r0 r1 : Nat) :
    (d.finish o status r0 r1).settle.flag R.TG_ALARM F.TG_ALARM_word_err = d.flag R.TG_ALARM F.TG_ALARM_word_err := by
  rw [Dev.flag_settle, (d.frame_finish o status r0 r1).flag_eq]
  simp only [failureRegs, List.mem_cons, List.not_mem_nil, or_false, R.TG_ALARM, R.HR_RING_DIDX, R.HR_ALARM, R.HR_CMD_ERR,
    R.PC_ALARM]
  have hlt := d.cplRing_lt o.ring
  omega

theorem primitive_corrupt (hs : s.Up) (hready : s.dev.cmdReady c.ring = true) (hone : entriesOf c = 1)
    (hcrc : primCrcOk (leNat (octets c.data 0 8)) = false) : Answers (.primSubmit c) s (fun e =>
      s.dev.Frame e [.hr] (R.TG_ALARM :: s.dev.cmdRegs c.ring) ∧ Completes c 11 6 0 0 s.dev e ∧
      e.flag R.TG_ALARM F.TG_ALARM_word_err = true) := by
  have hnoted := (s.dev.takeCommand c.ring).frame_hostCrcError 1
  have hwhole : s.dev.Frame ((s.dev.takeCommand c.ring).hostCrcError 1) [.hr] (R.TG_ALARM :: s.dev.cmdRegs c.ring) :=
    ((s.dev.frame_taken c).mono (List.Subset.refl _) (List.subset_cons_self _ _)).trans
      (hnoted.mono (List.nil_subset _) (by simp [Dev.cmdRegs]))
  obtain ⟨hframe, hdone⟩ := (Dev.executes_takeCommand hready).ended_failing hready hnoted (by decide)
    (Dev.keepsRings_hostCrcError _ 1) hwhole (by simp) (List.subset_cons_self _ _) 11 6 0 0
  refine answers_ended (f := Dev.primWork c) hs rfl hready (Dev.primWork_corrupt _ _ hone hcrc) ⟨hframe, hdone, ?_⟩
  rw [Dev.wordErr_finish, Dev.wordErr_hostCrcError]

theorem primitive_arrived (hs : s.Up) (hready : s.dev.cmdReady c.ring = true) (hone : entriesOf c = 1)
    (hcrc : primCrcOk (leNat (octets c.data 0 8)) = true) (htype : bits (leNat (octets c.data 0 8)) 63 60 = 1) :
    Answers (.primSubmit c) s (fun e =>
      s.dev.Frame e [.hr, .tg] (R.TG_ALARM :: R.TG_IN_LOSS 193 :: s.dev.cmdRegs c.ring) ∧
      Completes c 11 0 1 0 s.dev e) := by
  have harrived := (s.dev.takeCommand c.ring).frame_engineArrive 193 (primOf (leNat (octets c.data 0 8)))
  have hexec := (Dev.executes_takeCommand hready).keep harrived (by decide) c.ring.isLt (Dev.keepsRings_engineArrive _ _ _)
  have hwhole := ((s.dev.frame_taken c).mono (q := [.hr, .tg]) (t := R.TG_ALARM :: R.TG_IN_LOSS 193 :: s.dev.cmdRegs c.ring)
    (by simp) (by simp)).trans (harrived.mono (by simp) (by simp [Dev.cmdRegs]))
  exact answers_ended (f := Dev.primWork c) hs rfl hready (Dev.primWork_one _ _ hone hcrc htype)
    (hexec.ended hready hwhole (by simp) (by simp) 11 0 1 0)

/-! Decisions (R195, R211, R298). -/

/-- A decision of the host, for the scheduler: from now on, by the present budget where it names no instant. -/
def Dev.hostDec (d : Dev) (c : CmdDesc) (o : Origin) : Dec :=
  let x := decOf (leNat (c.data.take 16))
  { x with
    tExec := if x.tExec = 0 then t48Add d.now (ns (d.fld R.TG_BUDGET F.TG_BUDGET_budget) : Nat) else x.tExec
    tDec := d.now, loc := bit c.arg0.toNat 0, down := bit c.arg0.toNat 1, host := some o }

/-- A decision of the host that fails its CRC is counted and recorded. -/
def Dev.decNoted (d : Dev) (c : CmdDesc) : Dev :=
  let v := leNat (c.data.take 16)
  ((d.hostCrcError 2).count (devCtr 4) 2).recDecision 2 (bits v 87 80) (decOf v).action (decOf v).tExec (decOf v).origin

/-- The work of DEC_SUBMIT. -/
def Dev.decWork (c : CmdDesc) (d : Dev) (o : Origin) : Dev :=
  let v := leNat (c.data.take 16)
  if !decCrcOk v then (d.decNoted c).finish o 6
  else if bits v 127 124 ≠ 2 ∨ bits v 63 60 ≠ 3 then d.finish o 4
  else if !d.engineOn then d.finish o 1
  else d.schedule (d.hostDec c o)

/-- Registers that the failure of a decision may touch. -/
def decRegs : List Nat := [R.HR_CMD_ERR, R.HR_ALARM, R.TG_ALARM] ++ logRegs

theorem Dev.frame_decNoted (d : Dev) (c : CmdDesc) : d.Frame (d.decNoted c) [.log] decRegs :=
  (((d.frame_hostCrcError 2).mono (List.nil_subset _) (by simp [decRegs, logRegs])).trans
    (Dev.frame_count _ _ _ _ (by decide))).trans (Dev.frame_record _ _ _ (by simp) (List.subset_append_right _ _))

theorem Dev.keepsRings_decNoted (d : Dev) (c : CmdDesc) : d.KeepsRings (d.decNoted c) :=
  ((d.keepsRings_hostCrcError 2).trans (Dev.keepsRings_count _ _ _)).trans (Dev.keepsRings_record _ _ _)

theorem decision_corrupt (hs : s.Up) (hready : s.dev.cmdReady c.ring = true)
    (hcrc : decCrcOk (leNat (c.data.take 16)) = false) : Answers (.decSubmit c) s (fun e =>
      s.dev.Frame e [.hr, .log] (R.TG_ALARM :: logRegs ++ s.dev.cmdRegs c.ring) ∧
      Completes c 12 6 0 0 s.dev e ∧ e.tg.own = s.dev.tg.own) := by
  have hnoted := (s.dev.takeCommand c.ring).frame_decNoted c
  have hwhole := ((s.dev.frame_taken c).mono (q := [.hr, .log]) (t := R.TG_ALARM :: logRegs ++ s.dev.cmdRegs c.ring)
    (by simp) (List.subset_append_right _ _)).trans (hnoted.mono (by simp) (by simp [decRegs, logRegs, Dev.cmdRegs]))
  obtain ⟨hframe, hdone⟩ := (Dev.executes_takeCommand hready).ended_failing hready hnoted (by decide)
    (Dev.keepsRings_decNoted _ c) hwhole (by simp) (List.subset_append_right _ _) 12 6 0 0
  refine answers_ended (f := Dev.decWork c) hs rfl hready (if_pos (by rw [hcrc]; rfl)) ⟨hframe, hdone, ?_⟩
  rw [hframe.1 .tg (by decide)]

theorem Dev.reg_takeCommand (d : Dev) (y : Nat) {o : Nat} (h : o / 0x10000 = 8) : (d.takeCommand y).reg o = d.reg o := by
  refine (d.frame_takeCommand y).reg_eq ?_
  simp only [List.mem_singleton, R.HR_RING_DIDX]
  omega

theorem Dev.engineOn_takeCommand (d : Dev) (y : Nat) : (d.takeCommand y).engineOn = d.engineOn := by
  rw [Dev.engineOn, Dev.engineOn, Dev.fld, Dev.fld, d.reg_takeCommand y (by decide)]

/-- A good decision waits for the engine alone. -/
theorem Dev.decWork_good (d : Dev) (o : Origin) (hcrc : decCrcOk (leNat (c.data.take 16)) = true)
    (hhigh : bits (leNat (c.data.take 16)) 127 124 = 2) (hlow : bits (leNat (c.data.take 16)) 63 60 = 3) :
    d.decWork c o = if d.engineOn then d.schedule (d.hostDec c o) else d.finish o 1 := by
  rw [Dev.decWork, hcrc, hhigh, hlow]
  cases d.engineOn <;> simp

/-- With the engine off no decision waits. -/
theorem decision_refused (hs : s.Up) (hready : s.dev.cmdReady c.ring = true)
    (hcrc : decCrcOk (leNat (c.data.take 16)) = true) (hhigh : bits (leNat (c.data.take 16)) 127 124 = 2)
    (hlow : bits (leNat (c.data.take 16)) 63 60 = 3) (hoff : s.dev.engineOn = false) : Answers (.decSubmit c) s (fun e =>
      s.dev.Frame e [.hr] (s.dev.cmdRegs c.ring) ∧ Completes c 12 1 0 0 s.dev e ∧ e.tg.own = s.dev.tg.own) := by
  obtain ⟨hframe, hdone⟩ := (Dev.executes_takeCommand hready).ended hready (s.dev.frame_taken c) (by decide)
    (List.Subset.refl _) 12 1 0 0
  refine answers_ended (f := Dev.decWork c) (u := s.dev.takeCommand c.ring) hs rfl hready ?_ ⟨hframe, hdone, ?_⟩
  · rw [Dev.decWork_good _ _ hcrc hhigh hlow, Dev.engineOn_takeCommand, hoff, if_neg Bool.false_ne_true]
  · rw [hframe.1 .tg (by decide)]

theorem Dev.hostDec_takeCommand (d : Dev) (y : Fin 64) (o : Origin) : (d.takeCommand y).hostDec c o = d.hostDec c o := by
  rw [Dev.hostDec, Dev.hostDec, (d.keepsTime_takeCommand y.isLt).now, Dev.fld, d.reg_takeCommand y (by decide), ← Dev.fld]

theorem Dev.frame_schedule (d : Dev) (x : Dec) : d.Frame (d.schedule x) [.tg] [] := d.frame_tg _ _ (by simp)

theorem Dev.own_schedule (d : Dev) (x : Dec) :
    (d.schedule x).tg.own.length = d.tg.own.length + 1 ∧ x ∈ (d.schedule x).tg.own :=
  ⟨length_insertBy _ _ _, mem_insertBy _ _ _⟩

theorem decision_waits (hs : s.Up) (hready : s.dev.cmdReady c.ring = true)
    (hcrc : decCrcOk (leNat (c.data.take 16)) = true) (hhigh : bits (leNat (c.data.take 16)) 127 124 = 2)
    (hlow : bits (leNat (c.data.take 16)) 63 60 = 3) (hon : s.dev.engineOn = true) : Answers (.decSubmit c) s (fun e =>
      s.dev.Frame e [.hr, .tg] [R.HR_RING_DIDX c.ring] ∧ (e.ring c.ring).busy = true ∧
      e.tg.own.length = s.dev.tg.own.length + 1 ∧ s.dev.hostDec c (s.dev.cmdOrigin c 12) ∈ e.tg.own) := by
  have htaken := s.dev.frame_takeCommand c.ring
  have hplaced := (s.dev.takeCommand c.ring).frame_schedule (s.dev.hostDec c (s.dev.cmdOrigin c 12))
  obtain ⟨hlength, hmem⟩ := (s.dev.takeCommand c.ring).own_schedule (s.dev.hostDec c (s.dev.cmdOrigin c 12))
  refine answers_command (f := Dev.decWork c) (op := 12) hs rfl hready ?_
  rw [Dev.decWork_good _ _ hcrc hhigh hlow, Dev.engineOn_takeCommand, hon, if_pos rfl, Dev.hostDec_takeCommand]
  refine ⟨Dev.Frame.settle ((htaken.mono (by simp) (List.Subset.refl _)).trans (hplaced.mono (by simp) (List.nil_subset _))),
    ?_, ?_, ?_⟩
  · rw [(Dev.keepsRings_settle _).busy]
    exact s.dev.busy_takeCommand c.ring
  · rw [Dev.settle_tg, hlength, htaken.1 .tg (by decide)]
  · rw [Dev.settle_tg]
    exact hmem

end

/-- Settles O31: entries, primitives and decisions of the host. -/
theorem submittingCommands : Obligations.SubmittingCommands := fun s c hs hready => by
  refine ⟨entries_of_no_channel hs hready, fun hk hone hdtc => ⟨fun hon hroom hwidth hgap => ?_, ?_⟩,
    primitive_corrupt hs hready, primitive_arrived hs hready, decision_corrupt hs hready, fun hcrc hhigh hlow =>
      ⟨decision_refused hs hready hcrc hhigh hlow, fun hon => ?_⟩⟩
  · exact entry_accepted hs hready hk hone ⟨hon, hdtc, hroom, hwidth, hgap⟩
  · exact entry_refused hs hready hk hone
  · obtain ⟨t, hexec, hpending, hframe, hbusy, hlength, hmem⟩ := decision_waits hs hready hcrc hhigh hlow hon
    exact ⟨t, hexec, hpending, hframe, hbusy, hlength, _, hmem, rfl, rfl, rfl, rfl, rfl⟩

end Sys2Proof.Machine
end

section
/-! PROOF of O17, refuted. A primitive that reaches a full merge buffer is lost, and leaves the primitives on their way to the
engine input: the trigger plane does not stay as it was (R198, R199). -/

namespace Sys2Proof.Machine

/-- A primitive that finds the merge buffer full is only taken off its way to the engine input: nothing else of the trigger
plane moves. -/
theorem Dev.tg_engineArrive_lost {d : Dev} (k : Nat) (p : Prim) (hon : d.engineOn = true) (hfull : 32 ≤ d.tg.merge.length) :
    (d.engineArrive k p).tg = { d.tg with flight := dropFirst (fun x => x == (k, p)) d.tg.flight } := by
  have hstill : Dev.engineOn { d with tg := { d.tg with flight := dropFirst (fun x => x == (k, p)) d.tg.flight } } = true := hon
  have hcount (e : Dev) : (e.count (lossCtr k)).tg = e.tg :=
    (e.frame_count _ _ [] (List.mem_singleton_self _)).1 .tg (by decide)
  simp only [Dev.engineArrive, hstill, Bool.not_true, Bool.false_eq_true, if_false, if_pos hfull, hcount, Dev.raise_tg]
  rfl

theorem exec_primitiveArrival {s : State} (src : Fin 194) (wd : Word64) (hs : s.Up) :
    exec (.primitiveArrival src wd) s = .next { s with dev := (s.dev.engineArrive src (primOf wd.toNat)).settle } :=
  (show execPrimitiveArrival src wd s = running s _ from rfl).trans (running_next hs.1.1 hs.1.2 hs.2)

/-- A crossing of edge channel 0. -/
def crossing : Prim := { srcId := 5, pol := true, t32p := 77 }

/-- The engine is ON with 32 primitives in its merge buffer, and one more is on its way from edge channel 0. -/
def fullMergeState : State :=
  { pending := []
    dev := { State.reset.dev.setFld R.TG_CTRL F.TG_CTRL_state enOn with
             stage := .glaze
             tg := { Tg.reset with flight := [(0, crossing)], merge := List.replicate 32 (1, crossing) } } }

/-- Refutes O17: an arrival that finds the merge buffer full takes the lost primitive off its way to the engine input, so that
the trigger plane changes. -/
theorem not_engineInput : ¬ Obligations.EngineInput := by
  intro h
  have hs : fullMergeState.Up := by decide +kernel
  have hon : fullMergeState.dev.engineOn = true := by decide +kernel
  have hfull : 32 ≤ fullMergeState.dev.tg.merge.length := by decide
  have hword : primOf (BitVec.ofNat 64 crossing.word).toNat = crossing := by decide +kernel
  obtain ⟨-, hloss, -⟩ := h fullMergeState 0 (BitVec.ofNat 64 crossing.word) crossing [] hs hon
  obtain ⟨t, ht, -, ⟨hparts, -⟩, -⟩ := hloss hfull
  rw [exec_primitiveArrival _ _ hs, hword] at ht
  cases ht
  have hkept : (fullMergeState.dev.engineArrive 0 crossing).settle.tg = fullMergeState.dev.tg := hparts .tg (by decide)
  rw [Dev.settle_tg, Dev.tg_engineArrive_lost 0 crossing hon hfull] at hkept
  have hflight : dropFirst (fun x => x == (0, crossing)) [(0, crossing)] = [(0, crossing)] := congrArg Tg.flight hkept
  exact absurd hflight (by decide)

end Sys2Proof.Machine
end

section
/-! SUPPORT of the switch core's statements (O24, O25, O26). Which part of the switch core each of its operations leaves alone, beside
the frame and what has left the device: counts and alarms, flow control and credit, the end of a frame's stay, and the egress
queues (R233–R250). -/

namespace Sys2Proof.Machine

/-! What a step leaves of the switch core. -/

/-- A step within the units `ps` and the registers `rs` that keeps what `g` shows of the switch core, and behind which all that has
left the device before stays noted. -/
structure Dev.KeepsSw (d e : Dev) (g : Sw → Sw) (ps : List Part) (rs : List Nat) : Prop where
  frame : d.Frame e ps rs
  sw    : g e.sw = g d.sw
  out   : d.out <:+ e.out

/-- The switch core without the flow-control frames that wait. -/
def Sw.sansDue (x : Sw) : Sw := { x with fcDue := [] }

/-- The switch core without flow control: credit, back-pressure and the flow-control frames that wait. -/
def Sw.sansFlow (x : Sw) : Sw := { x with credit := [], bp := [], fcDue := [] }

/-- The switch core without flow control and without what a frame's stay holds: its cells and its count of targets. -/
def Sw.sansStay (x : Sw) : Sw := { x.sansFlow with store := [], targets := [] }

section
variable {d e f : Dev} {g : Sw → Sw} {ps : List Part} {rs : List Nat}

theorem Dev.KeepsSw.refl (d : Dev) (g : Sw → Sw) (ps : List Part) (rs : List Nat) : d.KeepsSw d g ps rs :=
  ⟨.refl d ps rs, rfl, List.suffix_refl _⟩

theorem Dev.KeepsSw.trans (h : d.KeepsSw e g ps rs) (h' : e.KeepsSw f g ps rs) : d.KeepsSw f g ps rs :=
  ⟨h.frame.trans h'.frame, h'.sw.trans h.sw, h.out.trans h'.out⟩

theorem Dev.KeepsSw.ite {a b : Dev} {c : Prop} [Decidable c] (ha : d.KeepsSw a g ps rs) (hb : d.KeepsSw b g ps rs) :
    d.KeepsSw (if c then a else b) g ps rs := by
  split
  · exact ha
  · exact hb

theorem Dev.KeepsSw.foldl {α : Type} {k : Dev → α → Dev} (hk : ∀ (d : Dev) (x : α), d.KeepsSw (k d x) g ps rs) (xs : List α)
    (d : Dev) : d.KeepsSw (xs.foldl k d) g ps rs := by
  induction xs generalizing d with
  | nil => exact .refl d g ps rs
  | cons x xs ih => exact (hk d x).trans (ih (k d x))

theorem Dev.KeepsSw.sansFlow (h : d.KeepsSw e Sw.sansDue ps rs) : d.KeepsSw e Sw.sansFlow ps rs :=
  ⟨h.frame, (congrArg Sw.sansFlow h.sw :), h.out⟩

theorem Dev.KeepsSw.sansStay (h : d.KeepsSw e Sw.sansFlow ps rs) : d.KeepsSw e Sw.sansStay ps rs :=
  ⟨h.frame, (congrArg Sw.sansStay h.sw :), h.out⟩

/-! What is left outside flow control and a frame's stay. -/

theorem Dev.KeepsSw.fly (h : d.KeepsSw e Sw.sansStay ps rs) : e.sw.fly = d.sw.fly := (congrArg Sw.fly h.sw :)

theorem Dev.KeepsSw.order (h : d.KeepsSw e Sw.sansStay ps rs) : e.sw.order = d.sw.order := (congrArg Sw.order h.sw :)

theorem Dev.KeepsSw.recirc (h : d.KeepsSw e Sw.sansStay ps rs) : e.sw.recirc = d.sw.recirc := (congrArg Sw.recirc h.sw :)

theorem Dev.KeepsSw.queues (h : d.KeepsSw e Sw.sansStay ps rs) : e.sw.queues = d.sw.queues := (congrArg Sw.queues h.sw :)

theorem Dev.KeepsSw.tx (h : d.KeepsSw e Sw.sansStay ps rs) : e.sw.tx = d.sw.tx := (congrArg Sw.tx h.sw :)

theorem Dev.KeepsSw.lost (h : d.KeepsSw e Sw.sansStay ps rs) : e.sw.lost = d.sw.lost := (congrArg Sw.lost h.sw :)

theorem Dev.KeepsSw.downed (h : d.KeepsSw e Sw.sansStay ps rs) : e.sw.downed = d.sw.downed := (congrArg Sw.downed h.sw :)

/-! Counts, alarms, what leaves the device, and the end of a command. -/

theorem Dev.keepsSw_count (d : Dev) (n k : Nat) (g : Sw → Sw) (ps : List Part) (h : R.PC_ALARM ∈ rs) :
    d.KeepsSw (d.count n k) g ps rs :=
  have hsw : (d.count n k).sw = d.sw := (d.frame_count (r := [R.PC_ALARM]) n k [] (by simp)).sw_eq (by simp)
  ⟨d.frame_count n k ps h, congrArg g hsw, by rw [Dev.out_count]⟩

theorem Dev.keepsSw_addSat (d : Dev) {o : Nat} (f : Field) (n : Nat) (g : Sw → Sw) (ps : List Part) (h : o ∈ rs) :
    d.KeepsSw (d.addSat o f n) g ps rs := ⟨d.frame_addSat f n ps h, rfl, List.suffix_refl _⟩

theorem Dev.keepsSw_raise (d : Dev) {o : Nat} (f : Field) (g : Sw → Sw) (ps : List Part) (h : o ∈ rs) :
    d.KeepsSw (d.raise o f) g ps rs := ⟨d.frame_raise f ps h, by rw [Dev.raise_sw], by rw [Dev.raise_out]⟩

theorem Dev.keepsSw_emit (d : Dev) (x : Out) (g : Sw → Sw) (ps : List Part) (rs : List Nat) : d.KeepsSw (d.emit x) g ps rs :=
  ⟨d.frame_emit x ps rs, rfl, List.suffix_cons ..⟩

theorem Dev.keepsSw_settle (d : Dev) (g : Sw → Sw) (ps : List Part) (rs : List Nat) : d.KeepsSw d.settle g ps rs :=
  ⟨d.frame_settle ps rs, by rw [Dev.settle_sw], (d.out_settle_append.imp fun _ h => h.symm)⟩

theorem Dev.KeepsSw.settle (h : d.KeepsSw e g ps rs) : d.KeepsSw e.settle g ps rs := h.trans (e.keepsSw_settle g ps rs)

/-- The switch core replaced by one of which `g` shows the same. -/
theorem Dev.keepsSw_sw (d : Dev) {x : Sw} (rs : List Nat) (hps : Part.sw ∈ ps) (hx : g x = g d.sw) :
    d.KeepsSw { d with sw := x } g ps rs := ⟨d.frame_sw x rs hps, hx, List.suffix_refl _⟩

/-- The same, before a further step. -/
theorem Dev.KeepsSw.of_sw {x : Sw} (hps : Part.sw ∈ ps) (h : ({ d with sw := x } : Dev).KeepsSw e g ps rs) (hx : g x = g d.sw) :
    d.KeepsSw e g ps rs := (d.keepsSw_sw rs hps hx).trans h

theorem Dev.keepsSw_setPort (d : Dev) (p : Nat) (x : Port) (g : Sw → Sw) (rs : List Nat) (hps : Part.ports ∈ ps) :
    d.KeepsSw (d.setPort p x) g ps rs := ⟨d.frame_setPort p x rs hps, rfl, List.suffix_refl _⟩

/-! Flow control and credit (R236–R242). -/

variable (d)

theorem Dev.keepsSw_pfcEmit (p off : Nat) (g : Sw → Sw) (ps : List Part) (hrs : R.PC_ALARM ∈ rs) :
    d.KeepsSw (d.pfcEmit p off) g ps rs :=
  have hcount := d.keepsSw_count (portCtr p 19) 1 g ps hrs
  .ite (hcount.trans (Dev.keepsSw_emit ..)) (hcount.trans (Dev.keepsSw_emit ..))

theorem Dev.keepsSw_pfcSend (p : Nat) (off : List Nat) (hps : Part.sw ∈ ps) (hrs : R.PC_ALARM ∈ rs) :
    d.KeepsSw (d.pfcSend p off) Sw.sansDue ps rs :=
  .ite (.refl ..) (.ite (d.keepsSw_sw rs hps rfl) (d.keepsSw_pfcEmit p _ _ ps hrs))

theorem Dev.keepsSw_pfcFlush (p : Nat) (hps : Part.sw ∈ ps) (hrs : R.PC_ALARM ∈ rs) :
    d.KeepsSw (d.pfcFlush p) Sw.sansDue ps rs := by
  unfold Dev.pfcFlush
  split
  · exact .refl ..
  · exact .of_sw hps (Dev.keepsSw_pfcEmit _ p _ _ ps hrs) rfl

theorem Dev.keepsSw_assertBp (p c : Nat) (hps : Part.sw ∈ ps) (hrs : R.PC_ALARM ∈ rs) :
    d.KeepsSw (d.assertBp p c) Sw.sansFlow ps rs :=
  .ite (.refl ..) (.of_sw hps (Dev.keepsSw_pfcSend _ p _ hps hrs).sansFlow rfl)

theorem Dev.mem_bp_assertBp (p c : Nat) : (p, c) ∈ (d.assertBp p c).sw.bp := by
  unfold Dev.assertBp
  split
  · next h => simpa using h
  · next h =>
    have hsend := (({ d with sw := { d.sw with bp := d.sw.bp ++ [(p, c)] } } : Dev).keepsSw_pfcSend (ps := [.sw])
      (rs := [R.PC_ALARM]) p [] (by simp) (by simp)).sw
    have hbp := congrArg Sw.bp hsend
    exact hbp ▸ List.mem_append_right _ (List.mem_singleton_self _)

theorem Dev.keepsSw_setCredit (p c : Nat) (x : Credit) (rs : List Nat) (hps : Part.sw ∈ ps) :
    d.KeepsSw (d.setCredit p c x) Sw.sansFlow ps rs := d.keepsSw_sw rs hps rfl

theorem Dev.keepsSw_creditRaise (p c : Nat) (rs : List Nat) (hps : Part.sw ∈ ps) :
    d.KeepsSw (d.creditRaise p c) Sw.sansFlow ps rs := by
  unfold Dev.creditRaise
  exact .ite (d.keepsSw_setCredit p c _ rs hps) (.refl ..)

theorem Dev.keepsSw_releaseBp (hps : Part.sw ∈ ps) (hrs : R.PC_ALARM ∈ rs) : d.KeepsSw d.releaseBp Sw.sansFlow ps rs := by
  unfold Dev.releaseBp
  exact .of_sw hps (.trans (.foldl (fun d _ => (d.keepsSw_pfcSend _ _ hps hrs).sansFlow) _ _)
    (.foldl (fun d _ => d.keepsSw_creditRaise _ _ rs hps) _ _)) rfl

theorem Dev.keepsSw_orderFull (x : Fly) (hps : Part.sw ∈ ps) (hrs : R.PC_ALARM ∈ rs) :
    d.KeepsSw (d.orderFull x) Sw.sansFlow ps rs := .ite (d.keepsSw_assertBp _ _ hps hrs) (.refl ..)

/-! The end of a frame's stay (R233, R246). -/

theorem Dev.frameCells_congr {d e : Dev} (h : e.sw.store = d.sw.store) (id : Nat) : e.frameCells id = d.frameCells id := by
  rw [Dev.frameCells, Dev.frameCells, h]

@[simp] theorem Dev.frameCells_settle (id : Nat) : d.settle.frameCells id = d.frameCells id :=
  Dev.frameCells_congr (by rw [Dev.settle_sw]) id

theorem Dev.KeepsSw.frameCells (h : d.KeepsSw e Sw.sansFlow ps rs) (id : Nat) : e.frameCells id = d.frameCells id :=
  Dev.frameCells_congr (congrArg Sw.store h.sw :) id

/-- The device without the cells of frame `id` and without its count of targets. -/
def Dev.withoutFrame (id : Nat) : Dev :=
  { d with sw := { d.sw with store := d.sw.store.filter fun h => h.id != id, targets := sPut 0 d.sw.targets id 0 } }

/-- What follows when the cells of a stored frame are free: credit is raised and back-pressure released. -/
theorem Dev.freeFrame_cases (id : Nat) : (d.freeFrame id = d ∧ d.sw.store.find? (fun h => h.id == id) = none) ∨
    ∃ p c, d.freeFrame id = ((d.withoutFrame id).creditRaise p c).releaseBp := by
  unfold Dev.freeFrame
  split
  · next h => exact .inl ⟨rfl, h⟩
  · next h _ => exact .inr ⟨h.port, h.start, rfl⟩

theorem Dev.keepsSw_freeFrame (id : Nat) (hps : Part.sw ∈ ps) (hrs : R.PC_ALARM ∈ rs) :
    d.KeepsSw (d.freeFrame id) Sw.sansStay ps rs := by
  rcases d.freeFrame_cases id with ⟨heq, -⟩ | ⟨p, c, heq⟩ <;> rw [heq]
  · exact .refl ..
  · exact .of_sw hps ((Dev.keepsSw_creditRaise _ p c rs hps).trans (Dev.keepsSw_releaseBp _ hps hrs)).sansStay rfl

theorem Dev.frameCells_freeFrame (id : Nat) : (d.freeFrame id).frameCells id = [] := by
  rcases d.freeFrame_cases id with ⟨heq, hnone⟩ | ⟨p, c, heq⟩ <;> rw [heq]
  · rw [Dev.frameCells, hnone]
  · have hflow := ((d.withoutFrame id).keepsSw_creditRaise (ps := [.sw]) p c [R.PC_ALARM] (by simp)).trans
      (Dev.keepsSw_releaseBp _ (by simp) (by simp))
    have hgone : (d.withoutFrame id).sw.store.find? (fun h => h.id == id) = none := by simp [Dev.withoutFrame]
    rw [hflow.frameCells, Dev.frameCells, hgone]

theorem Dev.targetDone_last {id : Nat} (h : sGet 0 d.sw.targets id ≤ 1) : d.targetDone id = d.freeFrame id := if_pos h

theorem Dev.targetDone_more {id : Nat} (h : 1 < sGet 0 d.sw.targets id) : d.targetDone id =
    { d with sw := { d.sw with targets := sPut 0 d.sw.targets id (sGet 0 d.sw.targets id - 1) } } := if_neg (by omega)

theorem Dev.keepsSw_targetDone (id : Nat) (hps : Part.sw ∈ ps) (hrs : R.PC_ALARM ∈ rs) :
    d.KeepsSw (d.targetDone id) Sw.sansStay ps rs :=
  .ite (d.keepsSw_freeFrame id hps hrs) (d.keepsSw_sw rs hps rfl)

end

/-! Egress queues (R243). -/

@[simp] theorem Dev.queue_settle (d : Dev) (p c : Nat) : d.settle.queue p c = d.queue p c := by simp [Dev.queue]

theorem Dev.queue_congr {d e : Dev} (h : e.sw.queues = d.sw.queues) (p c : Nat) : e.queue p c = d.queue p c := by
  rw [Dev.queue, Dev.queue, h]

theorem Dev.queue_setQueue_same (d : Dev) (p c : Nat) (q : List QEntry) : (d.setQueue p c q).queue p c = q :=
  sGet_sPut_same _ _ _ _

theorem Dev.queue_setQueue_ne (d : Dev) {p c p' c' : Nat} (q : List QEntry) (h : pcKey p' c' ≠ pcKey p c) :
    (d.setQueue p c q).queue p' c' = d.queue p' c' := sGet_sPut_ne _ _ _ _ h

/-- Queues of different ports, or of different classes of one port, are apart. -/
theorem pcKey_ne {p c p' c' : Nat} (hc : c < 8) (hc' : c' < 8) (h : p' ≠ p ∨ c' ≠ c) : pcKey p' c' ≠ pcKey p c := by
  simp only [pcKey]
  omega

theorem Dev.enqueue_joins {d : Dev} {p : Nat} (x : QEntry) (hpair : d.isPairPort p = false) (hdown : d.downed p = false) :
    d.enqueue p x = d.setQueue p x.cls (d.queue p x.cls ++ [x]) := by
  simp only [Dev.enqueue, hpair, hdown, Bool.false_eq_true, if_false]

/-- The step changes the queues whose keys satisfy `k` by `h`, and no other queue. -/
def Dev.Reworks (d e : Dev) (k : Nat → Prop) (h : List QEntry → List QEntry) : Prop :=
  ∀ n, (k n → sGet [] e.sw.queues n = h (sGet [] d.sw.queues n)) ∧ (¬ k n → sGet [] e.sw.queues n = sGet [] d.sw.queues n)

theorem Dev.reworks_setQueue (d : Dev) (p c : Nat) (h : List QEntry → List QEntry) :
    d.Reworks (d.setQueue p c (h (d.queue p c))) (· = pcKey p c) h :=
  fun n => ⟨fun hn => by rw [hn]; exact sGet_sPut_same _ _ _ _, fun hn => sGet_sPut_ne _ _ _ _ hn⟩

theorem Dev.Reworks.congr {d e f : Dev} {k : Nat → Prop} {h : List QEntry → List QEntry} (he : d.Reworks e k h)
    (hf : f.sw.queues = e.sw.queues) : d.Reworks f k h := by
  rw [Dev.Reworks, hf]
  exact he

/-- Steps that rework queues apart from each other rework them all. -/
theorem Dev.Reworks.foldl {α : Type} {step : Dev → α → Dev} {k : α → Nat → Prop} {h : List QEntry → List QEntry}
    (hstep : ∀ (d : Dev) (x : α), d.Reworks (step d x) (k x) h) {xs : List α}
    (hxs : xs.Pairwise fun x y => ∀ n, k x n → ¬ k y n) (d : Dev) :
    d.Reworks (xs.foldl step d) (fun n => ∃ x ∈ xs, k x n) h := by
  induction xs generalizing d with
  | nil => exact fun n => ⟨fun hn => by simp at hn, fun _ => rfl⟩
  | cons x xs ih =>
    obtain ⟨hx, hxs⟩ := List.pairwise_cons.1 hxs
    intro n
    obtain ⟨hhit, hmiss⟩ := hstep d x n
    obtain ⟨hhits, hmisses⟩ := ih hxs (step d x) n
    by_cases hn : k x n
    · have hrest : ¬ ∃ y ∈ xs, k y n := fun ⟨y, hy, hyn⟩ => hx y hy n hn hyn
      exact ⟨fun _ => (hmisses hrest).trans (hhit hn), fun hno => absurd ⟨x, List.mem_cons_self, hn⟩ hno⟩
    · refine ⟨fun hex => ?_, fun hno => ?_⟩
      · rw [List.foldl_cons, hhits (by simpa [hn] using hex), hmiss hn]
      · rw [List.foldl_cons, hmisses fun ⟨y, hy, hyn⟩ => hno ⟨y, List.mem_cons_of_mem _ hy, hyn⟩, hmiss hn]

/-! A command that moves the switch core alone. -/

/-- The end of a command adds nothing where the invariant held and only the switch core has changed. -/
theorem State.Inv.settle_sw {s : State} (h : s.Inv) (x : Sw) :
    ({ s.dev with sw := x } : Dev).settle = { s.dev with sw := x } := by
  obtain ⟨⟨hregs, hmsix, hctrs⟩, h64, h65⟩ := h
  exact Dev.settle_eq _ hregs hmsix hctrs h64 h65

theorem State.Inv.settle_same {s : State} (h : s.Inv) : s.dev.settle = s.dev := h.settle_sw s.dev.sw

end Sys2Proof.Machine
end

section
/-! PROOF of O24. The spreader's assignment of a head cell, and the admission of a cell from each space (R228, R229, R235, R236, R239,
R278). -/

namespace Sys2Proof.Machine

/-! The spreader (R228, R229, R278). -/

/-- The oldest frame goes next where it is a second pass or its port has a place in the resequencer. -/
theorem Dev.nextHead_cons {d : Dev} {f : Machine.Frame} {fs : List Machine.Frame} (harr : d.sw.arrive = f :: fs)
    (hmay : f.second ≠ none ∨ d.orderBlocked f.port = false) : d.nextHead = some f := by
  have hgo : (f.second.isSome || !d.orderBlocked f.port) = true := by
    rcases hmay with h | h
    · simp [Option.isSome_iff_ne_none.2 h]
    · simp [h]
  rw [Dev.nextHead, harr]
  exact List.find?_cons_of_pos hgo

theorem head_cell_assigned {s : State} {f : Machine.Frame} {fs : List Machine.Frame} (hs : s.Up) (hinv : s.Inv)
    (hglaze : s.dev.stage = .glaze) (hf : s.dev.inFault = false) (harr : s.dev.sw.arrive = f :: fs)
    (hmay : f.second ≠ none ∨ s.dev.orderBlocked f.port = false) :
    Answers .headCellAssign s (fun e =>
      e = { s.dev with sw := { s.dev.sw with arrive := fs, fly := e.sw.fly
                                             seqNo := (s.dev.sw.seqNo + 1) % 4096
                                             rotate := (s.dev.sw.rotate + 1) % 16 } } ∧
      ∃ x : Fly, e.sw.fly = s.dev.sw.fly ++ [x] ∧ x.config = s.dev.regs.filter (fun y => headConfig y.1) ∧
      x.frame = f ∧ x.seq = s.dev.sw.seqNo ∧ x.pipe = s.dev.sw.rotate ∧ x.verdict = none ∧
      (f.second = none → x.bank = s.dev.activeBank ∧ x.epoch = s.dev.epoch) ∧
      (∀ y, f.second = some y → x.bank = y.bank ∧ x.epoch = y.epoch)) := by
  refine .of_running hs (show execHeadCellAssign s = running s _ from rfl) ?_
  have hgo : (!s.dev.inGlaze || s.dev.inFault) = false := by simp [Dev.inGlaze, hglaze, hf]
  simp only [Dev.nextHead_cons harr hmay, hgo, Bool.false_eq_true, if_false]
  rw [hinv.settle_sw, harr, List.erase_cons_head]
  exact ⟨rfl, _, rfl, rfl, rfl, rfl, rfl, rfl, fun h => by simp [h], fun y h => by simp [h]⟩

/-! One more cell of a frame (R232, R233). -/

/-- A cell charged changes the stored frames and the rotation of the banks, and nothing else. -/
theorem Dev.charge_eq (d : Dev) (x : Fly) (k : Space) :
    ∃ store bank, d.charge x k = { d with sw := { d.sw with store := store, bank := bank } } := by
  unfold Dev.charge
  dsimp only
  split
  · exact ⟨_, _, rfl⟩
  · exact ⟨_, _, rfl⟩

/-- The cells found for a frame are those of that frame. -/
theorem Dev.heldOf_id {d : Dev} {id : Nat} {h : Held} (hh : d.heldOf id = some h) : h.id = id :=
  beq_iff_eq.1 (List.find?_some (p := fun y : Held => y.id == id) hh)

/-- A stored frame holds one cell more. -/
theorem Dev.frameCells_addCell {d : Dev} {id : Nat} {h : Held} (hh : d.heldOf id = some h) (k : Space) :
    (d.addCell id k).frameCells id = h.cells ++ [k] := by
  simp only [Dev.frameCells, Dev.addCell, List.find?_map]
  rw [show ((fun h : Held => h.id == id) ∘ fun h : Held => if (h.id == id) = true then
      { h with cells := h.cells ++ [k], banks := h.banks ++ [d.bankOf d.nextPlace] } else h) = fun h => h.id == id by
    funext y
    simp only [Function.comp_apply]
    split <;> rfl]
  rw [show d.sw.store.find? (fun h => h.id == id) = some h from hh]
  simp [Dev.heldOf_id hh]

/-- The cells that a frame holds, those of a stored one or none. -/
theorem Dev.frameCells_eq (d : Dev) (id : Nat) : d.frameCells id = ((d.heldOf id).map Held.cells).getD [] := by
  unfold Dev.frameCells Dev.heldOf
  cases d.sw.store.find? (fun h => h.id == id) <;> rfl

theorem Dev.frameCells_charge (d : Dev) (x : Fly) (k : Space) :
    (d.charge x k).frameCells x.frame.id = d.frameCells x.frame.id ++ [k] := by
  rw [Dev.frameCells_eq d]
  unfold Dev.charge
  dsimp only
  cases hh : d.heldOf x.frame.id with
  | some h => exact Dev.frameCells_addCell hh k
  | none =>
    have hnone : d.sw.store.find? (fun h => h.id == x.frame.id) = none := hh
    exact Dev.frameCells_addCell (h := { id := x.frame.id, port := x.frame.port, cls := x.cls, start := x.start, cells := []
                                         banks := [], bad := false })
      (by simp [Dev.heldOf, Dev.openHeld, List.find?_append, hnone]) k

theorem Dev.frame_charge (d : Dev) (x : Fly) (k : Space) (rs : List Nat) : d.Frame (d.charge x k) [.sw] rs := by
  obtain ⟨store, bank, heq⟩ := d.charge_eq x k
  rw [heq]
  exact d.frame_sw _ rs (by simp)

theorem Dev.credit_charge (d : Dev) (x : Fly) (k : Space) (p c : Nat) : (d.charge x k).credit p c = d.credit p c := by
  obtain ⟨store, bank, heq⟩ := d.charge_eq x k
  rw [heq]
  rfl

/-! The cell admitted (R235, R236, R239). -/

/-- A cell of port p past its headroom is counted, by an event of the port and with an alarm (R235). -/
def Dev.pastHeadroom (d : Dev) (p event : Nat) (alarm : Field) : Dev :=
  ((d.addSat (R.SW_HDRM_BORROW p) F.SW_HDRM_BORROW_count 1).raise R.SW_ALARM alarm).count (portCtr p event)

/-- A cell is charged to a frame in a space; headroom and a borrowed cell assert back-pressure, and a borrowed cell is counted. -/
def Dev.chargedFrom (d : Dev) (x : Fly) (k : Space) (borrowed : Bool) : Dev :=
  let p := x.frame.port
  let d1 := if borrowed then (d.charge x k).pastHeadroom p 17 F.SW_ALARM_hdrm_borrow else d.charge x k
  if borrowed || k == .hdrm then d1.assertBp p x.cls else d1

/-- What CELL_ADMIT does: a cell set aside for an Isazu class, a cell of a space, or the frame discarded with the buffer full. -/
theorem answers_cellAdmit {s : State} {id : Nat} {x : Fly} {Q : Dev → Prop} (hs : s.Up)
    (hx : s.dev.sw.fly.find? (fun y => y.frame.id == id) = some x) (hneeds : x.needsCells = true)
    (hstored : s.dev.stored x = false) :
    let p := x.frame.port
    ((s.dev.isazu p && decide (0 < (s.dev.credit p x.start).aside)) = true →
      Q ((s.dev.takeAside p x.start).2.charge x (s.dev.takeAside p x.start).1).settle → Answers (.cellAdmit id) s Q) ∧
    ((s.dev.isazu p && decide (0 < (s.dev.credit p x.start).aside)) = false →
      (∀ k borrowed, s.dev.space p x.cls = some (k, borrowed) → Q (s.dev.chargedFrom x k borrowed).settle →
        Answers (.cellAdmit id) s Q) ∧
      (s.dev.space p x.cls = none → Q (s.dev.bufferFull x).settle → Answers (.cellAdmit id) s Q)) := by
  have hexec : exec (.cellAdmit id) s = running s _ := show execCellAdmit id s = running s _ from rfl
  refine ⟨fun haside hQ => ?_, fun haside => ⟨fun k borrowed hspace hQ => ?_, fun hspace hQ => ?_⟩⟩ <;>
    refine .of_running hs hexec ?_ <;>
    simp only [hx, hneeds, hstored, haside, Bool.not_true, Bool.or_self, Bool.false_eq_true, if_false, if_true]
  · exact hQ
  · simp only [hspace]
    exact hQ
  · simp only [hspace]
    exact hQ

/-- A cell set aside is taken from the class's credit, one of the reservation first. -/
theorem Dev.takeAside_eq (d : Dev) (p c : Nat) :
    (d.takeAside p c).1 = (if (d.credit p c).lent < (d.credit p c).aside then .rsv else .shared) ∧
    (((d.takeAside p c).2.credit p c).aside = (d.credit p c).aside - 1) ∧
    ∃ credit, (d.takeAside p c).2 = { d with sw := { d.sw with credit := credit } } := by
  unfold Dev.takeAside
  dsimp only
  split
  · exact ⟨rfl, congrArg Credit.aside (Dev.credit_setCredit_same ..), _, rfl⟩
  · exact ⟨rfl, congrArg Credit.aside (Dev.credit_setCredit_same ..), _, rfl⟩

theorem Dev.chargedFrom_plain (d : Dev) (x : Fly) {k : Space} (hk : k ≠ .hdrm) : d.chargedFrom x k false = d.charge x k := by
  simp [Dev.chargedFrom, hk]

theorem Dev.chargedFrom_hdrm (d : Dev) (x : Fly) :
    d.chargedFrom x .hdrm false = (d.charge x .hdrm).assertBp x.frame.port x.cls := rfl

theorem Dev.chargedFrom_borrowed (d : Dev) (x : Fly) (k : Space) : d.chargedFrom x k true =
    ((d.charge x k).pastHeadroom x.frame.port 17 F.SW_ALARM_hdrm_borrow).assertBp x.frame.port x.cls := by
  simp [Dev.chargedFrom]

theorem Dev.bufferFull_eq (d : Dev) (x : Fly) : d.bufferFull x =
    ((d.pastHeadroom x.frame.port 18 F.SW_ALARM_flow_violation).voidFly x.frame.id).freeFrame x.frame.id := rfl

/-- Registers that a cell past the headroom of port p touches. -/
def pastHeadroomRegs (p : Nat) : List Nat := [R.SW_HDRM_BORROW p, R.SW_ALARM, R.PC_ALARM]

theorem Dev.keepsSw_pastHeadroom (d : Dev) (p event : Nat) (alarm : Field) (g : Sw → Sw) (ps : List Part) :
    d.KeepsSw (d.pastHeadroom p event alarm) g ps (pastHeadroomRegs p) :=
  ((d.keepsSw_addSat _ _ g ps (by simp [pastHeadroomRegs])).trans
    (Dev.keepsSw_raise _ _ g ps (by simp [pastHeadroomRegs]))).trans
      (Dev.keepsSw_count _ _ _ g ps (by simp [pastHeadroomRegs]))

/-- An alarm of the switch core stays over what counts events alone. -/
theorem Dev.Frame.swAlarm {d e : Dev} {ps : List Part} (h : d.Frame e ps [R.PC_ALARM]) (f : Field) :
    e.flag R.SW_ALARM f = d.flag R.SW_ALARM f := h.flag_eq (by decide) f

theorem Dev.flag_pastHeadroom (d : Dev) (p event : Nat) {alarm : Field} (h : alarm.ok) :
    (d.pastHeadroom p event alarm).flag R.SW_ALARM alarm = true :=
  ((Dev.frame_count _ _ _ [] (List.mem_singleton_self _)).swAlarm _).trans (Dev.flag_raise_same _ _ _ h)

theorem Dev.flag_assertBp (d : Dev) (p c : Nat) (f : Field) : (d.assertBp p c).flag R.SW_ALARM f = d.flag R.SW_ALARM f :=
  (d.keepsSw_assertBp (ps := [.sw]) p c (by simp) (List.mem_singleton_self _)).frame.swAlarm f

theorem Dev.flag_freeFrame (d : Dev) (id : Nat) (f : Field) : (d.freeFrame id).flag R.SW_ALARM f = d.flag R.SW_ALARM f :=
  (d.keepsSw_freeFrame (ps := [.sw]) id (by simp) (List.mem_singleton_self _)).frame.swAlarm f

theorem Dev.flag_voidFly (d : Dev) (id o : Nat) (f : Field) : (d.voidFly id).flag o f = d.flag o f := rfl

/-- A verdict made void is that of every frame of the number. -/
theorem Dev.verdict_voidFly (d : Dev) {id : Nat} {y : Fly} (hy : y ∈ (d.voidFly id).sw.fly) (hid : y.frame.id = id) :
    y.verdict = some .discard := by
  obtain ⟨z, -, rfl⟩ := List.mem_map.1 hy
  split at hid
  · next h => rw [if_pos h]
  · next h => exact absurd (beq_iff_eq.2 hid) h

section
variable {s : State} {id : Nat} {x : Fly} (hs : s.Up) (hx : s.dev.sw.fly.find? (fun y => y.frame.id == id) = some x)
  (hneeds : x.needsCells = true) (hstored : s.dev.stored x = false)
include hs hx hneeds hstored

theorem aside_cell_admitted (hisz : s.dev.isazu x.frame.port = true)
    (haside : 0 < (s.dev.credit x.frame.port x.start).aside) :
    Answers (.cellAdmit id) s (fun e => s.dev.Frame e [.sw] [] ∧
      e.frameCells id = s.dev.frameCells id ++
        [if (s.dev.credit x.frame.port x.start).lent < (s.dev.credit x.frame.port x.start).aside then .rsv else .shared] ∧
      (e.credit x.frame.port x.start).aside = (s.dev.credit x.frame.port x.start).aside - 1) := by
  obtain rfl : x.frame.id = id := by simpa using List.find?_some hx
  obtain ⟨hspace, hcredit, credit, heq⟩ := s.dev.takeAside_eq x.frame.port x.start
  refine (answers_cellAdmit hs hx hneeds hstored).1 (by simp [hisz, haside]) ⟨?_, ?_, ?_⟩
  · rw [heq]
    exact ((s.dev.frame_sw _ [] (by simp)).trans (Dev.frame_charge _ _ _ _)).settle
  · rw [Dev.frameCells_settle, Dev.frameCells_charge, hspace, heq]
    rfl
  · rw [Dev.credit_settle, Dev.credit_charge, hcredit]

variable (haside : (s.dev.isazu x.frame.port && decide (0 < (s.dev.credit x.frame.port x.start).aside)) = false)
include haside

theorem plain_cell_admitted (hinv : s.Inv) {k : Space} (hspace : s.dev.space x.frame.port x.cls = some (k, false))
    (hk : k ≠ .hdrm) : Answers (.cellAdmit id) s (fun e =>
      e = { s.dev with sw := { s.dev.sw with store := e.sw.store, bank := e.sw.bank } } ∧
      e.frameCells id = s.dev.frameCells id ++ [k]) := by
  obtain rfl : x.frame.id = id := by simpa using List.find?_some hx
  refine ((answers_cellAdmit hs hx hneeds hstored).2 haside).1 k false hspace ?_
  rw [Dev.chargedFrom_plain _ _ hk]
  refine ⟨?_, by rw [Dev.frameCells_settle, Dev.frameCells_charge]⟩
  obtain ⟨store, bank, heq⟩ := s.dev.charge_eq x k
  rw [heq, hinv.settle_sw]

theorem headroom_cell_admitted (hspace : s.dev.space x.frame.port x.cls = some (.hdrm, false)) :
    Answers (.cellAdmit id) s (fun e => s.dev.Frame e [.sw] [R.PC_ALARM] ∧
      e.frameCells id = s.dev.frameCells id ++ [.hdrm] ∧ (x.frame.port, x.cls) ∈ e.sw.bp) := by
  obtain rfl : x.frame.id = id := by simpa using List.find?_some hx
  have hassert := (s.dev.charge x .hdrm).keepsSw_assertBp (ps := [.sw]) x.frame.port x.cls (by simp)
    (List.mem_singleton_self R.PC_ALARM)
  refine ((answers_cellAdmit hs hx hneeds hstored).2 haside).1 .hdrm false hspace ?_
  rw [Dev.chargedFrom_hdrm]
  refine ⟨((s.dev.frame_charge x _ _).trans hassert.frame).settle, ?_, ?_⟩
  · rw [Dev.frameCells_settle, hassert.frameCells, Dev.frameCells_charge]
  · rw [Dev.settle_sw]
    exact Dev.mem_bp_assertBp ..

theorem borrowed_cell_admitted {k : Space} (hspace : s.dev.space x.frame.port x.cls = some (k, true)) :
    Answers (.cellAdmit id) s (fun e =>
      s.dev.Frame e [.sw] [R.SW_HDRM_BORROW x.frame.port, R.SW_ALARM, R.PC_ALARM] ∧
      e.frameCells id = s.dev.frameCells id ++ [k] ∧ (x.frame.port, x.cls) ∈ e.sw.bp ∧
      e.flag R.SW_ALARM F.SW_ALARM_hdrm_borrow = true) := by
  obtain rfl : x.frame.id = id := by simpa using List.find?_some hx
  have hassert := ((s.dev.charge x k).keepsSw_pastHeadroom x.frame.port 17 F.SW_ALARM_hdrm_borrow Sw.sansFlow [.sw]).trans
    (Dev.keepsSw_assertBp _ x.frame.port x.cls (by simp) (by simp [pastHeadroomRegs]))
  refine ((answers_cellAdmit hs hx hneeds hstored).2 haside).1 k true hspace ?_
  rw [Dev.chargedFrom_borrowed]
  refine ⟨((s.dev.frame_charge x _ _).trans hassert.frame).settle, ?_, ?_, ?_⟩
  · rw [Dev.frameCells_settle, hassert.frameCells, Dev.frameCells_charge]
  · rw [Dev.settle_sw]
    exact Dev.mem_bp_assertBp ..
  · rw [Dev.flag_settle, Dev.flag_assertBp, Dev.flag_pastHeadroom _ _ _ ⟨by decide, by decide⟩]

theorem full_buffer_discards (hspace : s.dev.space x.frame.port x.cls = none) :
    Answers (.cellAdmit id) s (fun e =>
      s.dev.Frame e [.sw] [R.SW_HDRM_BORROW x.frame.port, R.SW_ALARM, R.PC_ALARM] ∧ e.frameCells id = [] ∧
      e.flag R.SW_ALARM F.SW_ALARM_flow_violation = true ∧
      ∀ y ∈ e.sw.fly, y.frame.id = id → y.verdict = some .discard) := by
  obtain rfl : x.frame.id = id := by simpa using List.find?_some hx
  have hcounted := s.dev.keepsSw_pastHeadroom x.frame.port 18 F.SW_ALARM_flow_violation (fun x => x) [.sw]
  have hfree := ((s.dev.pastHeadroom x.frame.port 18 F.SW_ALARM_flow_violation).voidFly x.frame.id).keepsSw_freeFrame
    (ps := [.sw]) (rs := pastHeadroomRegs x.frame.port) x.frame.id (by simp) (by simp [pastHeadroomRegs])
  refine ((answers_cellAdmit hs hx hneeds hstored).2 haside).2 hspace ?_
  rw [Dev.bufferFull_eq]
  refine ⟨((hcounted.frame.trans (Dev.frame_sw _ _ _ (by simp))).trans hfree.frame).settle, ?_, ?_, fun y hy hid => ?_⟩
  · rw [Dev.frameCells_settle, Dev.frameCells_freeFrame]
  · rw [Dev.flag_settle, Dev.flag_freeFrame, Dev.flag_voidFly, Dev.flag_pastHeadroom _ _ _ ⟨by decide, by decide⟩]
  · rw [Dev.settle_sw, hfree.fly] at hy
    exact Dev.verdict_voidFly _ hy hid

end

/-- Settles O24, clause by clause. -/
theorem ingressCells : Obligations.IngressCells := by
  refine ⟨fun s f fs hs hinv hglaze hf harr hmay => head_cell_assigned hs hinv hglaze hf harr hmay,
    fun s id x hs hinv hx hneeds hstored => ⟨aside_cell_admitted hs hx hneeds hstored, fun hno => ?_⟩⟩
  have haside : (s.dev.isazu x.frame.port && decide (0 < (s.dev.credit x.frame.port x.start).aside)) = false := by
    rcases hno with h | h <;> simp [h]
  exact ⟨fun k hspace hk => plain_cell_admitted hs hx hneeds hstored haside hinv hspace hk,
    headroom_cell_admitted hs hx hneeds hstored haside,
    fun k hspace => borrowed_cell_admitted hs hx hneeds hstored haside hspace,
    full_buffer_discards hs hx hneeds hstored haside⟩

end Sys2Proof.Machine
end

section
/-! SUPPORT of O25 and O26. A transmission that starts on an external port: its stamp, the credit that it consumes, and what the
port then sends (R152, R241). -/

namespace Sys2Proof.Machine

/-- The switch core without flow control and the transmissions in progress. -/
def Sw.sansTx (x : Sw) : Sw := { x.sansFlow with tx := [] }

/-- Units that the start of a transmission touches: the switch core, and the queue of transmit stamps. -/
def txStartParts : List Part := [.sw, .tc]

/-- Registers that a transmit stamp touches (R152). -/
def txStartRegs : List Nat := [R.TC_TSQ_STAT, R.TC_ALARM, R.PC_ALARM]

theorem Dev.KeepsSw.sansTx {d e : Dev} {ps : List Part} {rs : List Nat} (h : d.KeepsSw e Sw.sansFlow ps rs) :
    d.KeepsSw e Sw.sansTx ps rs := ⟨h.frame, (congrArg Sw.sansTx h.sw :), h.out⟩

theorem Dev.txRun_setTx_same (d : Dev) (p : Nat) (x : Option TxRun) : (d.setTx p x).txRun p = x := sGet_sPut_same _ _ _ _

theorem Dev.txRun_congr {d e : Dev} (h : e.sw.tx = d.sw.tx) (p : Nat) : e.txRun p = d.txRun p := by rw [Dev.txRun, Dev.txRun, h]

@[simp] theorem Dev.txRun_settle (d : Dev) (p : Nat) : d.settle.txRun p = d.txRun p := Dev.txRun_congr (by rw [Dev.settle_sw]) p

section
variable (d : Dev) (p : Nat) (x : QEntry) (l : TxLoad) (g : Sw → Sw)

theorem Dev.keepsSw_tc (t : Tc) : d.KeepsSw { d with tc := t } g txStartParts txStartRegs :=
  ⟨d.frame_tc _ _ (by simp [txStartParts]), rfl, List.suffix_refl _⟩

theorem Dev.keepsSw_tsqPush (id : BitVec 16) (t : Nat) : d.KeepsSw (d.tsqPush id p t) g txStartParts txStartRegs := by
  unfold Dev.tsqPush
  refine .ite ?_ (d.keepsSw_tc g _)
  exact (((d.keepsSw_tc g _).trans (Dev.keepsSw_addSat _ _ _ _ _ (by simp [txStartRegs]))).trans
    (Dev.keepsSw_raise _ _ _ _ (by simp [txStartRegs]))).trans (Dev.keepsSw_count _ _ _ _ _ (by simp [txStartRegs]))

theorem Dev.keepsSw_txRequest : d.KeepsSw (d.txRequest p x l).1 g txStartParts txStartRegs := by
  have hstamp (r : TxReq) (t : Nat) : d.KeepsSw (if r.stamp then d.tsqPush r.id p t else d) g txStartParts txStartRegs :=
    .ite (d.keepsSw_tsqPush p g _ _) (.refl ..)
  unfold Dev.txRequest
  split
  · exact .refl ..
  · dsimp only
    split
    · split
      · exact (d.keepsSw_tsqPush p g _ _).trans (Dev.keepsSw_count _ _ _ _ _ (by simp [txStartRegs]))
      · exact hstamp _ _
    · exact hstamp _ _

theorem Dev.keepsSw_setTx (r : Option TxRun) : d.KeepsSw (d.setTx p r) Sw.sansTx txStartParts txStartRegs :=
  d.keepsSw_sw _ (by simp [txStartParts]) rfl

/-- An external port starts a frame: the frame is in transmission, and of the switch core only flow control has moved beside. -/
theorem Dev.beginTx_external {p : Nat} (hp : p < 64) (bad : Bool) :
    d.KeepsSw (d.beginTx p x bad l) Sw.sansTx txStartParts txStartRegs ∧
      ∃ r, (d.beginTx p x bad l).txRun p = some r ∧ r.entry = x ∧ r.bad = bad := by
  have hreq := d.keepsSw_txRequest p x l Sw.sansTx
  unfold Dev.beginTx
  generalize d.txRequest p x l = made at hreq ⊢
  obtain ⟨d1, x1⟩ := made
  simp only [if_neg (show p ≠ 64 by omega), if_neg (show p ≠ 65 by omega)]
  have hcredit (c : Nat) (y : Credit) :=
    (d1.keepsSw_setCredit (ps := txStartParts) p c y txStartRegs (by simp [txStartParts])).sansTx
  exact ⟨hreq.trans (.trans (.ite (hcredit ..) (.refl ..)) (Dev.keepsSw_setTx ..)), _,
    Dev.txRun_setTx_same .., rfl, rfl⟩

end

/-- The queues stay over what moves flow control and transmissions alone. -/
theorem Dev.KeepsSw.queues_tx {d e : Dev} {ps : List Part} {rs : List Nat} (h : d.KeepsSw e Sw.sansTx ps rs) :
    e.sw.queues = d.sw.queues := (congrArg Sw.queues h.sw :)

end Sys2Proof.Machine
end

section
/-! PROOF of O25. A descriptor that leaves the resequencer, by its verdict; the hold limit of a multicast frame; and the end of a lost
link's grace (R229–R231, R245–R249, R271). -/

namespace Sys2Proof.Machine

/-! The descriptor next in sequence (R229). -/

/-- The descriptor next in sequence has left the pipelines. -/
def Dev.landed (d : Dev) (xs : List Fly) : Dev := { d with sw := { d.sw with fly := xs } }

theorem Dev.frame_landed (d : Dev) (xs : List Fly) (rs : List Nat) : d.Frame (d.landed xs) [.sw] rs :=
  d.frame_sw _ rs (by simp)

/-- A descriptor that its pipeline has resolved, and whose cells are stored where it needs cells, leaves. -/
theorem answers_release {s : State} {x : Fly} {xs : List Fly} {Q : Dev → Prop} (hs : s.Up) (hfly : s.dev.sw.fly = x :: xs)
    {v : Verdict} (hv : x.verdict = some v) (hcells : x.needsCells = false ∨ s.dev.stored x = true)
    (hQ : Q ((s.dev.landed xs).releaseFly x).settle) : Answers (.resequencerRelease .good) s Q := by
  refine .of_running hs (show execResequencerRelease .good s = running s _ from rfl) ?_
  have hgo : (x.verdict.isNone || (x.needsCells && !s.dev.stored x)) = false := by
    rcases hcells with h | h <;> simp [h, hv]
  simp only [hfly, hgo, Bool.false_eq_true, if_false]
  exact hQ

section
variable {d : Dev} {x : Fly}

theorem Fly.needsCells_second {y : Second} (h : x.frame.second = some y) : x.needsCells = false := by simp [Fly.needsCells, h]

theorem Fly.needsCells_discard (h : x.verdict = some .discard) : x.needsCells = false := by simp [Fly.needsCells, h]

/-- A first pass behind no recirculating frame of its port and class is delivered. -/
theorem Dev.releaseFly_free (hsec : x.frame.second = none) (hfree : d.orderHeld x = false) : d.releaseFly x = d.deliver x := by
  simp [Dev.releaseFly, hsec, hfree]

/-- A void, and a frame for the host, pass whatever recirculates. -/
theorem Dev.releaseFly_plain (hsec : x.frame.second = none)
    (hplain : x.verdict = some .discard ∨ ∃ w, x.verdict = some (.whey w)) : d.releaseFly x = d.deliver x := by
  rcases hplain with h | ⟨w, h⟩ <;> simp [Dev.releaseFly, hsec, h]

/-- A unicast frame behind a recirculating frame of its port and class is held (R231). -/
theorem Dev.releaseFly_held {p : Nat} (hsec : x.frame.second = none) (hv : x.verdict = some (.unicast p))
    (hheld : d.orderHeld x = true) :
    d.releaseFly x = ({ d with sw := { d.sw with order := d.sw.order ++ [x] } } : Dev).orderFull x := by
  simp [Dev.releaseFly, hsec, hv, hheld]

/-- The hold of frame `id` has ended (R231). -/
def Dev.unheld (d : Dev) (id : Nat) : Dev :=
  { d with sw := { d.sw with recirc := d.sw.recirc.filter fun r => r.1 != id } }

/-- Where no frame is held, a second pass ends the hold and is delivered, and back-pressure may be released. -/
theorem Dev.releaseFly_second {y : Second} (hsec : x.frame.second = some y)
    (hnone : ((d.unheld x.frame.id).deliver x).sw.order = []) (horder : d.sw.order = []) :
    d.releaseFly x = ((d.unheld x.frame.id).deliver x).releaseBp := by
  have hkept : ((d.unheld x.frame.id).deliver x).releaseOrder 1 = (d.unheld x.frame.id).deliver x := by
    simp [Dev.releaseOrder, hnone]
  have hlen : (d.unheld x.frame.id).sw.order.length + 1 = 1 := by simp [Dev.unheld, horder]
  have heq : d.releaseFly x =
      (((d.unheld x.frame.id).deliver x).releaseOrder ((d.unheld x.frame.id).sw.order.length + 1)).releaseBp := by
    simp only [Dev.releaseFly, hsec]
    rfl
  rw [heq, hlen, hkept]

/-! What a descriptor becomes, by its verdict (R245, R246, R250, R271). -/

theorem Dev.deliver_discard (hv : x.verdict = some .discard) : d.deliver x = d.freeFrame x.frame.id := by
  simp only [Dev.deliver, hv]

/-- The queue entry of a unicast frame. -/
def Fly.unicastEntry (x : Fly) : QEntry := x.entry x.cls x.edited false none 0

theorem Dev.deliver_cutThrough {p : Nat} (hv : x.verdict = some (.unicast p)) (hct : d.cutThrough x p x.unicastEntry = true) :
    d.deliver x = (d.setTargets x.frame.id 1).beginTx p x.unicastEntry x.frame.err { lane := 0, at_ := 0 } := by
  simp only [Dev.deliver, hv]
  exact if_pos hct

theorem Dev.deliver_error {p : Nat} (hv : x.verdict = some (.unicast p)) (hct : d.cutThrough x p x.unicastEntry = false)
    (herr : x.frame.err = true) : d.deliver x = d.freeFrame x.frame.id := by
  simp only [Dev.deliver, hv]
  exact (if_neg (ne_true_of_eq_false hct)).trans (if_pos herr)

theorem Dev.deliver_unicast {p : Nat} (hv : x.verdict = some (.unicast p)) (hct : d.cutThrough x p x.unicastEntry = false)
    (herr : x.frame.err = false) : d.deliver x = (d.setTargets x.frame.id 1).enqueue p x.unicastEntry := by
  simp only [Dev.deliver, hv]
  exact (if_neg (ne_true_of_eq_false hct)).trans (if_neg (ne_true_of_eq_false herr))

theorem Dev.deliver_whey {w : Whey} (hv : x.verdict = some (.whey w)) (herr : x.frame.err = false) :
    d.deliver x = (d.setTargets x.frame.id 1).enqueue 65 (x.entry (d.wheyClass w.reason) x.frame.octets false (some w) 0) := by
  simp only [Dev.deliver, hv]
  exact if_neg (ne_true_of_eq_false herr)

/-- Frames of the port and class of a recirculating frame are held from here on (R231). -/
def Dev.heldBehind (d : Dev) (x : Fly) : Dev :=
  { d with sw := { d.sw with recirc := d.sw.recirc ++ [(x.frame.id, x.frame.port, x.cls)] } }

theorem Dev.deliver_recirculate {tag : Nat} (hv : x.verdict = some (.recirculate tag)) (herr : x.frame.err = false) :
    d.deliver x = ((d.heldBehind x).setTargets x.frame.id 1).enqueue 66 (x.entry x.cls x.edited false none tag) := by
  simp only [Dev.deliver, hv]
  exact if_neg (ne_true_of_eq_false herr)

theorem Dev.deliver_group {g : Nat} (hv : x.verdict = some (.group g)) (herr : x.frame.err = false) :
    d.deliver x = d.multicast x g := by
  simp only [Dev.deliver, hv]
  exact if_neg (ne_true_of_eq_false herr)

/-- Only a port below 64 sends cut-through, and never a second pass. -/
theorem Dev.cutThrough_external {p : Nat} {e : QEntry} (h : d.cutThrough x p e = true) : p < 64 := by
  simp only [Dev.cutThrough, Bool.and_eq_true, decide_eq_true_eq] at h
  omega

theorem Dev.cutThrough_second {y : Second} (h : x.frame.second = some y) (p : Nat) (e : QEntry) : d.cutThrough x p e = false := by
  simp [Dev.cutThrough, h]

/-! A frame joins one queue. -/

/-- The frame of an entry has one target, and the entry stands last in its queue of port p. -/
def Dev.joined (d : Dev) (p : Nat) (q : QEntry) : Dev :=
  (d.setTargets q.id 1).setQueue p q.cls (d.queue p q.cls ++ [q])

theorem Dev.enqueue_one {p : Nat} {q : QEntry} (hpair : d.isPairPort p = false) (hdown : d.downed p = false) :
    (d.setTargets q.id 1).enqueue p q = d.joined p q := Dev.enqueue_joins q hpair hdown

theorem Dev.frame_joined (d : Dev) (p : Nat) (q : QEntry) (rs : List Nat) : d.Frame (d.joined p q) [.sw] rs :=
  d.frame_sw _ rs (by simp)

theorem Dev.queue_joined (d : Dev) (p : Nat) (q : QEntry) : (d.joined p q).queue p q.cls = d.queue p q.cls ++ [q] :=
  Dev.queue_setQueue_same ..

theorem Dev.queue_joined_ne {p : Nat} (q : QEntry) {p' c' : Nat} (h : pcKey p' c' ≠ pcKey p q.cls) :
    (d.joined p q).queue p' c' = d.queue p' c' := Dev.queue_setQueue_ne _ _ h

theorem Dev.targets_joined (d : Dev) (p : Nat) (q : QEntry) : sGet 0 (d.joined p q).sw.targets q.id = 1 :=
  sGet_sPut_same 0 d.sw.targets q.id 1

/-! A frame joins every queue of its group (R246, R247). -/

/-- The entry of each copy of a multicast frame. -/
def Fly.groupEntry (x : Fly) : QEntry := x.entry x.cls x.edited true none 0

/-- Where every target takes the frame's size, the frame joins the queue of each. -/
theorem Dev.multicast_fits {g : Nat} (hvalid : bit (sGet 0 d.sw.groups g) 127 = true)
    (hsome : groupPorts (sGet 0 d.sw.groups g) x.frame.port ≠ [])
    (hfits : ∀ p ∈ groupPorts (sGet 0 d.sw.groups g) x.frame.port, p ≤ 64 → x.edited.length ≤ d.maxFrame p) :
    d.multicast x g = (groupPorts (sGet 0 d.sw.groups g) x.frame.port).foldl (fun d p => d.enqueue p x.groupEntry)
      (d.setTargets x.frame.id (groupPorts (sGet 0 d.sw.groups g) x.frame.port).length) := by
  unfold Dev.multicast
  simp only [hvalid, if_true]
  generalize groupPorts (sGet 0 d.sw.groups g) x.frame.port = ps at hsome hfits ⊢
  have hsmall : (ps.filter fun p => decide (p ≤ 64) && decide (d.maxFrame p < x.edited.length)) = [] := by
    refine List.filter_eq_nil_iff.2 fun p hp => ?_
    simp only [Bool.and_eq_true, decide_eq_true_eq, not_and, Nat.not_lt]
    exact hfits p hp
  have hall : (ps.filter fun p => !([] : List Nat).contains p) = ps := by simp
  have hlen : ps.length + 0 ≠ 0 := fun h => hsome (List.length_eq_zero_iff.1 h)
  simp only [hsmall, hall, List.isEmpty_nil, Bool.true_or, if_true, Bool.false_eq_true, if_false, if_neg hlen]
  rfl

/-- An entry joins the queue of each of the ports. -/
def Dev.joinAll (d : Dev) (ps : List Nat) (q : QEntry) : Dev :=
  ps.foldl (fun d p => d.setQueue p q.cls (d.queue p q.cls ++ [q])) d

theorem Dev.foldl_enqueue_joins (q : QEntry) {ps : List Nat} {d : Dev}
    (hjoin : ∀ p ∈ ps, d.isPairPort p = false ∧ d.downed p = false) :
    ps.foldl (fun d p => d.enqueue p q) d = d.joinAll ps q := by
  induction ps generalizing d with
  | nil => rfl
  | cons p ps ih =>
    obtain ⟨hpair, hdown⟩ := hjoin p List.mem_cons_self
    rw [List.foldl_cons, Dev.enqueue_joins q hpair hdown]
    exact ih (d := d.setQueue p q.cls (d.queue p q.cls ++ [q])) fun k hk => hjoin k (List.mem_cons_of_mem _ hk)

/-- The switch core without its egress queues. -/
def Sw.sansQueues (x : Sw) : Sw := { x with queues := [] }

theorem Dev.keepsSw_setQueue (d : Dev) (p c : Nat) (q : List QEntry) :
    d.KeepsSw (d.setQueue p c q) Sw.sansQueues [.sw] [] := d.keepsSw_sw [] (by simp) rfl

theorem Dev.keepsSw_joinAll (ps : List Nat) (q : QEntry) : d.KeepsSw (d.joinAll ps q) Sw.sansQueues [.sw] [] :=
  .foldl (fun d p => d.keepsSw_setQueue p q.cls _) ps d

theorem Dev.queue_joinAll {ps : List Nat} (hps : ps.Nodup) (q : QEntry) {p : Nat} (hp : p ∈ ps) :
    (d.joinAll ps q).queue p q.cls = d.queue p q.cls ++ [q] := by
  have hapart : ps.Pairwise fun p p' => ∀ n, n = pcKey p q.cls → ¬ n = pcKey p' q.cls :=
    hps.imp fun hne n h h' => hne (by simp only [pcKey] at h h'; omega)
  exact (Dev.Reworks.foldl (fun d p => d.reworks_setQueue p q.cls (· ++ [q])) hapart d (pcKey p q.cls)).1 ⟨p, hp, rfl⟩

theorem nodup_groupPorts (e ingress : Nat) : (groupPorts e ingress).Nodup := by
  unfold groupPorts
  dsimp only
  split
  · exact List.nodup_range.filter _
  · exact (List.nodup_range.filter _).filter _

end

/-! The clauses of a descriptor's release. -/

section
variable {s : State} {x : Fly} {xs : List Fly}

/-- A frame that is not forwarded frees its cells, and leaves the queues and the frames held as they are. -/
theorem freed_on_release (hfree : (s.dev.landed xs).releaseFly x = (s.dev.landed xs).freeFrame x.frame.id) :
    let e := ((s.dev.landed xs).releaseFly x).settle
    s.dev.Frame e [.sw] [R.PC_ALARM] ∧ e.sw.fly = xs ∧ e.frameCells x.frame.id = [] ∧ e.sw.queues = s.dev.sw.queues ∧
      e.sw.order = s.dev.sw.order := by
  have hkeeps := ((s.dev.landed xs).keepsSw_freeFrame (ps := [.sw]) x.frame.id (by simp)
    (List.mem_singleton_self R.PC_ALARM)).settle
  rw [hfree]
  exact ⟨(s.dev.frame_landed xs _).trans hkeeps.frame, hkeeps.fly,
    by rw [Dev.frameCells_settle, Dev.frameCells_freeFrame], hkeeps.queues, hkeeps.order⟩

variable (hs : s.Up) (hfly : s.dev.sw.fly = x :: xs)
include hs hfly

theorem discarded_released (hv : x.verdict = some .discard)
    (hsec : x.frame.second = none) : Answers (.resequencerRelease .good) s (fun e =>
      s.dev.Frame e [.sw] [R.PC_ALARM] ∧ e.sw.fly = xs ∧ e.frameCells x.frame.id = [] ∧
      e.sw.queues = s.dev.sw.queues ∧ e.sw.order = s.dev.sw.order) := by
  refine answers_release hs hfly hv (.inl (Fly.needsCells_discard hv)) (freed_on_release ?_)
  rw [Dev.releaseFly_plain hsec (.inl hv), Dev.deliver_discard hv]

theorem error_released {p : Nat} (hv : x.verdict = some (.unicast p))
    (hstored : s.dev.stored x = true) (herr : x.frame.err = true) (hsec : x.frame.second = none)
    (hfree : s.dev.orderHeld x = false) (hct : s.dev.cutThrough x p x.unicastEntry = false) :
    Answers (.resequencerRelease .good) s (fun e => s.dev.Frame e [.sw] [R.PC_ALARM] ∧ e.sw.fly = xs ∧
      e.frameCells x.frame.id = [] ∧ e.sw.queues = s.dev.sw.queues) := by
  obtain ⟨hframe, hrest, hcells, hqueues, -⟩ := freed_on_release (s := s) (xs := xs)
    ((Dev.releaseFly_free (d := s.dev.landed xs) hsec hfree).trans (Dev.deliver_error hv hct herr))
  exact answers_release hs hfly hv (.inr hstored) ⟨hframe, hrest, hcells, hqueues⟩

theorem unicast_held {p : Nat} (hv : x.verdict = some (.unicast p))
    (hstored : s.dev.stored x = true) (hsec : x.frame.second = none) (hheld : s.dev.orderHeld x = true) :
    Answers (.resequencerRelease .good) s (fun e => s.dev.Frame e [.sw] [R.PC_ALARM] ∧
      e.sw.fly = xs ∧ e.sw.order = s.dev.sw.order ++ [x] ∧ e.sw.queues = s.dev.sw.queues) := by
  refine answers_release hs hfly hv (.inr hstored) ?_
  rw [Dev.releaseFly_held (d := s.dev.landed xs) hsec hv hheld]
  have hkeeps := (({ s.dev.landed xs with sw := { (s.dev.landed xs).sw with order := s.dev.sw.order ++ [x] } } :
    Dev).keepsSw_orderFull (ps := [.sw]) x (by simp) (List.mem_singleton_self R.PC_ALARM)).sansStay.settle
  exact ⟨(s.dev.frame_sw _ _ (by simp)).trans hkeeps.frame, hkeeps.fly, hkeeps.order, hkeeps.queues⟩

theorem unicast_cut_through {p : Nat} (hv : x.verdict = some (.unicast p))
    (hstored : s.dev.stored x = true) (herr : x.frame.err = false) (hsec : x.frame.second = none)
    (hfree : s.dev.orderHeld x = false) (hct : s.dev.cutThrough x p x.unicastEntry = true) :
    Answers (.resequencerRelease .good) s (fun e =>
      s.dev.Frame e [.sw, .tc] [R.TC_TSQ_STAT, R.TC_ALARM, R.PC_ALARM] ∧ e.sw.fly = xs ∧ e.sw.queues = s.dev.sw.queues ∧
      ∃ r, e.txRun p = some r ∧ r.bad = false ∧ r.entry = x.unicastEntry) := by
  refine answers_release hs hfly hv (.inr hstored) ?_
  have hmade : (s.dev.landed xs).releaseFly x = ((s.dev.landed xs).setTargets x.frame.id 1).beginTx p x.unicastEntry
      x.frame.err { lane := 0, at_ := 0 } :=
    (Dev.releaseFly_free (d := s.dev.landed xs) hsec hfree).trans (Dev.deliver_cutThrough hv hct)
  rw [hmade, herr]
  obtain ⟨hkeeps, r, hrun, hentry, hbad⟩ := ((s.dev.landed xs).setTargets x.frame.id 1).beginTx_external x.unicastEntry
    { lane := 0, at_ := 0 } (Dev.cutThrough_external hct) false
  have hkeeps := hkeeps.settle
  refine ⟨(s.dev.frame_sw _ _ (by simp)).trans hkeeps.frame, (congrArg Sw.fly hkeeps.sw :), hkeeps.queues_tx, r, ?_, hbad,
    hentry⟩
  rw [Dev.txRun_settle]
  exact hrun

theorem unicast_joined {p : Nat} (hv : x.verdict = some (.unicast p))
    (hstored : s.dev.stored x = true) (herr : x.frame.err = false) (hsec : x.frame.second = none)
    (hfree : s.dev.orderHeld x = false) (hct : s.dev.cutThrough x p x.unicastEntry = false)
    (hpair : s.dev.isPairPort p = false) (hdown : s.dev.downed p = false) :
    Answers (.resequencerRelease .good) s (fun e => s.dev.Frame e [.sw] [] ∧ e.sw.fly = xs ∧
      e.queue p x.cls = s.dev.queue p x.cls ++ [x.unicastEntry] ∧
      (∀ p' c', pcKey p' c' ≠ pcKey p x.cls → e.queue p' c' = s.dev.queue p' c') ∧ sGet 0 e.sw.targets x.frame.id = 1) := by
  refine answers_release hs hfly hv (.inr hstored) ?_
  have hmade : (s.dev.landed xs).releaseFly x = (s.dev.landed xs).joined p x.unicastEntry :=
    (Dev.releaseFly_free (d := s.dev.landed xs) hsec hfree).trans
      ((Dev.deliver_unicast (d := s.dev.landed xs) hv hct herr).trans (Dev.enqueue_one hpair hdown))
  simp only [hmade, Dev.settle_sw, Dev.queue_settle]
  exact ⟨((s.dev.frame_landed xs _).trans ((s.dev.landed xs).frame_joined p x.unicastEntry _)).settle, rfl,
    (s.dev.landed xs).queue_joined p x.unicastEntry, fun p' c' hne => Dev.queue_joined_ne x.unicastEntry hne,
    (s.dev.landed xs).targets_joined p x.unicastEntry⟩

theorem second_pass_joined {p : Nat} {y : Second} (hsec : x.frame.second = some y)
    (hv : x.verdict = some (.unicast p)) (herr : x.frame.err = false) (horder : s.dev.sw.order = [])
    (hpair : s.dev.isPairPort p = false) (hdown : s.dev.downed p = false) :
    Answers (.resequencerRelease .good) s (fun e => s.dev.Frame e [.sw] [R.PC_ALARM] ∧ e.sw.fly = xs ∧
      e.sw.recirc = (s.dev.sw.recirc.filter fun r => r.1 != x.frame.id) ∧
      e.queue p x.cls = s.dev.queue p x.cls ++ [x.unicastEntry]) := by
  refine answers_release hs hfly hv (.inl (Fly.needsCells_second hsec)) ?_
  have hdeliver : ((s.dev.landed xs).unheld x.frame.id).deliver x =
      ((s.dev.landed xs).unheld x.frame.id).joined p x.unicastEntry :=
    (Dev.deliver_unicast hv (Dev.cutThrough_second hsec p _) herr).trans (Dev.enqueue_one hpair hdown)
  have hmade : (s.dev.landed xs).releaseFly x = (((s.dev.landed xs).unheld x.frame.id).deliver x).releaseBp :=
    Dev.releaseFly_second hsec (by rw [hdeliver]; exact horder) horder
  rw [hmade, hdeliver]
  have hbp := ((((s.dev.landed xs).unheld x.frame.id).joined p x.unicastEntry).keepsSw_releaseBp (ps := [.sw]) (by simp)
    (List.mem_singleton_self R.PC_ALARM)).sansStay.settle
  refine ⟨((s.dev.frame_sw _ _ (by simp)).trans (Dev.frame_joined _ p x.unicastEntry _)).trans hbp.frame, hbp.fly,
    hbp.recirc, ?_⟩
  rw [Dev.queue_congr hbp.queues]
  exact Dev.queue_joined ..

theorem host_joined {w : Whey} (hv : x.verdict = some (.whey w))
    (hstored : s.dev.stored x = true) (herr : x.frame.err = false) (hsec : x.frame.second = none)
    (hpair : s.dev.isPairPort 65 = false) (hdown : s.dev.downed 65 = false) :
    Answers (.resequencerRelease .good) s (fun e => s.dev.Frame e [.sw] [] ∧ e.sw.fly = xs ∧
      e.queue 65 (s.dev.wheyClass w.reason) = s.dev.queue 65 (s.dev.wheyClass w.reason) ++
        [x.entry (s.dev.wheyClass w.reason) x.frame.octets false (some w) 0]) := by
  refine answers_release hs hfly hv (.inr hstored) ?_
  have hmade : (s.dev.landed xs).releaseFly x =
      (s.dev.landed xs).joined 65 (x.entry (s.dev.wheyClass w.reason) x.frame.octets false (some w) 0) :=
    (Dev.releaseFly_plain hsec (.inr ⟨w, hv⟩)).trans ((Dev.deliver_whey hv herr).trans (Dev.enqueue_one hpair hdown))
  simp only [hmade, Dev.settle_sw, Dev.queue_settle]
  exact ⟨((s.dev.frame_landed xs _).trans (Dev.frame_joined ..)).settle, rfl, Dev.queue_joined ..⟩

theorem recirculating_joined {tag : Nat} (hv : x.verdict = some (.recirculate tag))
    (hstored : s.dev.stored x = true) (herr : x.frame.err = false) (hsec : x.frame.second = none)
    (hfree : s.dev.orderHeld x = false) (hpair : s.dev.isPairPort 66 = false) (hdown : s.dev.downed 66 = false) :
    Answers (.resequencerRelease .good) s (fun e => s.dev.Frame e [.sw] [] ∧ e.sw.fly = xs ∧
      e.sw.recirc = s.dev.sw.recirc ++ [(x.frame.id, x.frame.port, x.cls)] ∧
      e.queue 66 x.cls = s.dev.queue 66 x.cls ++ [x.entry x.cls x.edited false none tag]) := by
  refine answers_release hs hfly hv (.inr hstored) ?_
  have hmade : (s.dev.landed xs).releaseFly x =
      ((s.dev.landed xs).heldBehind x).joined 66 (x.entry x.cls x.edited false none tag) :=
    (Dev.releaseFly_free (d := s.dev.landed xs) hsec hfree).trans
      ((Dev.deliver_recirculate hv herr).trans (Dev.enqueue_one hpair hdown))
  simp only [hmade, Dev.settle_sw, Dev.queue_settle]
  exact ⟨((s.dev.frame_sw _ _ (by simp)).trans (Dev.frame_joined ..)).settle, rfl, rfl, Dev.queue_joined ..⟩

theorem group_joined {g : Nat} (hv : x.verdict = some (.group g))
    (hstored : s.dev.stored x = true) (herr : x.frame.err = false) (hsec : x.frame.second = none)
    (hfree : s.dev.orderHeld x = false) (hpair : s.dev.flag R.PS_PAIR_CFG F.PS_PAIR_CFG_enable = false)
    (hvalid : bit (sGet 0 s.dev.sw.groups g) 127 = true)
    (hsome : groupPorts (sGet 0 s.dev.sw.groups g) x.frame.port ≠ [])
    (hports : ∀ p ∈ groupPorts (sGet 0 s.dev.sw.groups g) x.frame.port,
      s.dev.downed p = false ∧ (p ≤ 64 → x.edited.length ≤ s.dev.maxFrame p)) :
    Answers (.resequencerRelease .good) s (fun e => s.dev.Frame e [.sw] [] ∧ e.sw.fly = xs ∧
      sGet 0 e.sw.targets x.frame.id = (groupPorts (sGet 0 s.dev.sw.groups g) x.frame.port).length ∧
      ∀ p ∈ groupPorts (sGet 0 s.dev.sw.groups g) x.frame.port,
        e.queue p x.cls = s.dev.queue p x.cls ++ [x.groupEntry]) := by
  refine answers_release hs hfly hv (.inr hstored) ?_
  have hnone (p : Nat) : s.dev.isPairPort p = false := by simp [Dev.isPairPort, hpair]
  have hmade : (s.dev.landed xs).releaseFly x =
      ((s.dev.landed xs).setTargets x.frame.id (groupPorts (sGet 0 s.dev.sw.groups g) x.frame.port).length).joinAll
        (groupPorts (sGet 0 s.dev.sw.groups g) x.frame.port) x.groupEntry :=
    calc (s.dev.landed xs).releaseFly x
      _ = (s.dev.landed xs).deliver x := Dev.releaseFly_free hsec hfree
      _ = (s.dev.landed xs).multicast x g := Dev.deliver_group hv herr
      _ = _ := Dev.multicast_fits hvalid hsome fun p hp => (hports p hp).2
      _ = _ := Dev.foldl_enqueue_joins x.groupEntry fun p hp => ⟨hnone p, (hports p hp).1⟩
  have hnodup := nodup_groupPorts (sGet 0 s.dev.sw.groups g) x.frame.port
  rw [hmade]
  generalize groupPorts (sGet 0 s.dev.sw.groups g) x.frame.port = ps at hnodup ⊢
  have hkeeps := (((s.dev.landed xs).setTargets x.frame.id ps.length).keepsSw_joinAll ps x.groupEntry).settle
  refine ⟨(s.dev.frame_sw _ _ (by simp)).trans hkeeps.frame, (congrArg Sw.fly hkeeps.sw :), ?_, fun p hp => ?_⟩
  · have htargets : _ = sPut 0 s.dev.sw.targets x.frame.id ps.length := congrArg Sw.targets hkeeps.sw
    exact (congrArg (sGet 0 · x.frame.id) htargets).trans (sGet_sPut_same ..)
  · rw [Dev.queue_settle]
    exact Dev.queue_joinAll hnodup x.groupEntry hp

theorem unresolved_waits (hv : x.verdict = none) (hinv : s.Inv) :
    Answers (.resequencerRelease .good) s (fun e => e = s.dev) := by
  refine .of_running hs (show execResequencerRelease .good s = running s _ from rfl) ?_
  simp only [hfly, hv, Option.isNone_none, Bool.true_or, if_true]
  exact hinv.settle_same

end

/-! The hold limit of a multicast frame (R248). -/

/-- A copy of multicast frame `id`. -/
def QEntry.copyOf (q : QEntry) (id : Nat) : Bool := q.id == id && q.multi

/-- A copy that has not begun is abandoned at port p. -/
def Dev.abandon (d : Dev) (p : Nat) (q : QEntry) : Dev :=
  (((d.addSat (R.SW_MC_ABANDON p) F.SW_MC_ABANDON_count 1).count (portCtr p 15)).raise R.SW_ALARM
    F.SW_ALARM_mc_abandon).targetDone q.id

/-- The copies of frame `id` in one queue are abandoned. -/
def Dev.abandonIn (d : Dev) (id p c : Nat) : Dev :=
  ((d.queue p c).filter (·.copyOf id)).foldl (fun d q => d.abandon p q)
    (if (d.queue p c).any (·.copyOf id) then d.setQueue p c ((d.queue p c).filter fun q => !q.copyOf id) else d)

/-- The copies of frame `id` in the queues of port p are abandoned. -/
def Dev.abandonAt (d : Dev) (id p : Nat) : Dev := (List.range 8).foldl (fun d c => d.abandonIn id p c) d

/-- The copies of frame `id` in every queue are abandoned. -/
def Dev.abandonAll (d : Dev) (id : Nat) : Dev := (List.range 66).foldl (fun d p => d.abandonAt id p) d

/-- The queues of one port are apart. -/
theorem pairwise_pcKey (p k : Nat) : (List.range k).Pairwise fun c c' => ∀ n, n = pcKey p c → ¬ n = pcKey p c' :=
  List.nodup_range.imp fun hne n h h' => hne (by simp only [pcKey] at h h'; omega)

/-- Registers that abandoning touches. -/
def abandonRegs : List Nat := R.SW_ALARM :: R.PC_ALARM :: (List.range 66).map R.SW_MC_ABANDON

section
variable (d : Dev) (id p c : Nat)

/-- Registers that abandoning touches at port p. -/
def abandonRegsAt (p : Nat) : List Nat := [R.SW_ALARM, R.PC_ALARM, R.SW_MC_ABANDON p]

theorem abandonRegsAt_subset {p : Nat} (hp : p < 66) : abandonRegsAt p ⊆ abandonRegs := by
  have hmem : R.SW_MC_ABANDON p ∈ (List.range 66).map R.SW_MC_ABANDON := List.mem_map_of_mem (List.mem_range.2 hp)
  simp only [abandonRegsAt, abandonRegs, List.cons_subset]
  exact ⟨by simp, by simp, by simp [-List.mem_map, hmem], List.nil_subset _⟩

theorem Dev.keepsSw_abandon (q : QEntry) : d.KeepsSw (d.abandon p q) Sw.sansStay [.sw] (abandonRegsAt p) :=
  (((d.keepsSw_addSat _ _ _ _ (by simp [abandonRegsAt])).trans (Dev.keepsSw_count _ _ _ _ _ (by simp [abandonRegsAt]))).trans
    (Dev.keepsSw_raise _ _ _ _ (by simp [abandonRegsAt]))).trans
      (Dev.keepsSw_targetDone _ _ (by simp) (by simp [abandonRegsAt]))

theorem Dev.flag_abandon (q : QEntry) : (d.abandon p q).flag R.SW_ALARM F.SW_ALARM_mc_abandon = true :=
  ((Dev.keepsSw_targetDone (ps := [.sw]) _ _ (by simp) (List.mem_singleton_self _)).frame.swAlarm _).trans
    (Dev.flag_raise_same _ _ _ ⟨by decide, by decide⟩)

/-- Abandoning the copies leaves the queues to the step before. -/
theorem Dev.keepsSw_abandonEach (qs : List QEntry) :
    d.KeepsSw (qs.foldl (fun d q => d.abandon p q) d) Sw.sansStay [.sw] (abandonRegsAt p) :=
  .foldl (fun d q => d.keepsSw_abandon p q) qs d

theorem Dev.frame_abandonIn : d.Frame (d.abandonIn id p c) [.sw] (abandonRegsAt p) :=
  (Dev.frame_ite (d.frame_sw _ _ (by simp)) (.refl d _ _)).trans (Dev.keepsSw_abandonEach _ p _).frame

/-- One queue loses the copies of the frame. -/
theorem Dev.reworks_abandonIn :
    d.Reworks (d.abandonIn id p c) (· = pcKey p c) (List.filter fun q => !q.copyOf id) := by
  refine Dev.Reworks.congr ?_ (Dev.keepsSw_abandonEach _ p _).queues
  split
  · exact d.reworks_setQueue p c (List.filter fun q => !q.copyOf id)
  · next hnone =>
    refine fun n => ⟨fun hn => ?_, fun _ => rfl⟩
    have hkept : (d.queue p c).filter (fun q => !q.copyOf id) = d.queue p c := by
      simpa [List.filter_eq_self] using hnone
    rw [hn]
    exact hkept.symm

/-- Where the queue holds a copy, the alarm is set; where it holds none, nothing happens. -/
theorem Dev.abandonIn_alarm : (d.abandonIn id p c).flag R.SW_ALARM F.SW_ALARM_mc_abandon = true ∨
    d.abandonIn id p c = d ∧ ∀ q ∈ d.queue p c, ¬ q.copyOf id = true := by
  unfold Dev.abandonIn
  cases hany : (d.queue p c).any (·.copyOf id) with
  | false =>
    have hnone : ∀ q ∈ d.queue p c, ¬ q.copyOf id = true := by simpa using hany
    rw [List.filter_eq_nil_iff.2 hnone]
    exact .inr ⟨rfl, hnone⟩
  | true =>
    refine .inl ?_
    rcases List.eq_nil_or_concat ((d.queue p c).filter (·.copyOf id)) with hnil | ⟨qs, q, hlast⟩
    · exact absurd (List.filter_eq_nil_iff.1 hnil) (by simpa using hany)
    · rw [hlast, List.concat_eq_append, List.foldl_append]
      exact Dev.flag_abandon ..

end

/-- Steps each of which reaches `P` or finds `C` and does nothing: so do they all in a row. -/
theorem foldl_reaches_or_idles {α : Type} {step : Dev → α → Dev} {P : Dev → Prop} {C : Dev → α → Prop}
    (hstep : ∀ d x, P (step d x) ∨ step d x = d ∧ C d x) (xs : List α) (d : Dev) :
    P (xs.foldl step d) ∨ xs.foldl step d = d ∧ ∀ x ∈ xs, C d x := by
  induction xs generalizing d with
  | nil => exact .inr ⟨rfl, by simp⟩
  | cons x xs ih =>
    rw [List.foldl_cons]
    rcases hstep d x with h | ⟨heq, hx⟩
    · exact .inl ((ih (step d x)).elim id fun ⟨heq, _⟩ => by rw [heq]; exact h)
    · rw [heq]
      exact (ih d).imp_right fun ⟨hd, hxs⟩ => ⟨hd, List.forall_mem_cons.2 ⟨hx, hxs⟩⟩

section
variable (d : Dev) (id : Nat)

theorem Dev.frame_abandonAll : d.Frame (d.abandonAll id) [.sw] abandonRegs :=
  .foldl_of_mem (fun d p hp => .foldl (fun d c => (d.frame_abandonIn id p c).mono (List.Subset.refl _)
    (abandonRegsAt_subset (List.mem_range.1 hp))) _ d) d

/-- The queues of one port, and those of every port, lose the copies of the frame. -/
theorem Dev.reworks_abandonAt (p : Nat) : d.Reworks (d.abandonAt id p) (fun n => ∃ c ∈ List.range 8, n = pcKey p c)
    (List.filter fun q => !q.copyOf id) :=
  .foldl (fun d c => d.reworks_abandonIn id p c) (pairwise_pcKey p 8) d

theorem Dev.reworks_abandonAll : d.Reworks (d.abandonAll id) (fun n => ∃ p ∈ List.range 66, ∃ c ∈ List.range 8, n = pcKey p c)
    (List.filter fun q => !q.copyOf id) := by
  refine .foldl (fun d p => d.reworks_abandonAt id p) (List.nodup_range.imp fun hne n ⟨c, hc, h⟩ ⟨c', hc', h'⟩ => ?_) d
  exact pcKey_ne (List.mem_range.1 hc') (List.mem_range.1 hc) (.inl hne) (h.symm.trans h')

theorem Dev.queue_abandonAll {p c : Nat} (hp : p < 66) (hc : c < 8) :
    (d.abandonAll id).queue p c = (d.queue p c).filter fun q => !q.copyOf id :=
  (d.reworks_abandonAll id (pcKey p c)).1 ⟨p, List.mem_range.2 hp, c, List.mem_range.2 hc, rfl⟩

/-- The alarm is set, or no queue of the port held a copy. -/
theorem Dev.abandonAt_alarm (p : Nat) : (d.abandonAt id p).flag R.SW_ALARM F.SW_ALARM_mc_abandon = true ∨
    d.abandonAt id p = d ∧ ∀ c ∈ List.range 8, ∀ q ∈ d.queue p c, ¬ q.copyOf id = true :=
  foldl_reaches_or_idles (P := fun e => e.flag R.SW_ALARM F.SW_ALARM_mc_abandon = true) (fun d c => d.abandonIn_alarm id p c) _ d

theorem Dev.abandonAll_alarm : (d.abandonAll id).flag R.SW_ALARM F.SW_ALARM_mc_abandon = true ∨
    d.abandonAll id = d ∧ ∀ p ∈ List.range 66, ∀ c ∈ List.range 8, ∀ q ∈ d.queue p c, ¬ q.copyOf id = true :=
  foldl_reaches_or_idles (P := fun e => e.flag R.SW_ALARM F.SW_ALARM_mc_abandon = true) (fun d p => d.abandonAt_alarm id p) _ d

/-- The alarm is set where some queue held a copy. -/
theorem Dev.flag_abandonAll {p c : Nat} (hp : p < 66) (hc : c < 8) {q : QEntry} (hq : q ∈ d.queue p c)
    (hcopy : q.copyOf id = true) : (d.abandonAll id).flag R.SW_ALARM F.SW_ALARM_mc_abandon = true :=
  (d.abandonAll_alarm id).resolve_right fun ⟨_, hnone⟩ =>
    hnone p (List.mem_range.2 hp) c (List.mem_range.2 hc) q hq hcopy

end

theorem held_copies_abandoned {s : State} (id : Nat) (hs : s.Up) : Answers (.mcHoldExpiry id) s (fun e =>
    s.dev.Frame e [.sw] (R.SW_ALARM :: R.PC_ALARM :: (List.range 66).map R.SW_MC_ABANDON) ∧
    (∀ p c, p < 66 → c < 8 → e.queue p c = (s.dev.queue p c).filter fun q => !(q.id == id && q.multi)) ∧
    ((∃ p c, p < 66 ∧ c < 8 ∧ ∃ q ∈ s.dev.queue p c, q.id = id ∧ q.multi = true) →
      e.flag R.SW_ALARM F.SW_ALARM_mc_abandon = true)) := by
  refine .of_running (f := fun d => d.abandonAll id) hs rfl
    ⟨(s.dev.frame_abandonAll id).settle, fun p c hp hc => ?_, fun ⟨p, c, hp, hc, q, hq, hid, hmulti⟩ => ?_⟩
  · rw [Dev.queue_settle]
    exact s.dev.queue_abandonAll id hp hc
  · rw [Dev.flag_settle]
    exact s.dev.flag_abandonAll id hp hc hq (by simp [QEntry.copyOf, hid, hmulti])

/-! The end of a lost link's grace (R249). -/

/-- Registers that a discard for a lost link touches. -/
def downRegs (p : Nat) : List Nat := [R.SW_ALARM, R.SW_DOWN_DISCARD p, R.SW_MC_REMOVED p, R.PC_ALARM]

theorem Dev.keepsSw_downDiscard (d : Dev) (p : Nat) (q : QEntry) :
    d.KeepsSw (d.downDiscard p q) Sw.sansStay [.sw] (downRegs p) := by
  refine .trans (.ite ?_ ?_) (Dev.keepsSw_targetDone _ _ (by simp) (by simp [downRegs])) <;>
    exact ((d.keepsSw_addSat _ _ _ _ (by simp [downRegs])).trans (Dev.keepsSw_count _ _ _ _ _ (by simp [downRegs]))).trans
      (Dev.keepsSw_raise _ _ _ _ (by simp [downRegs]))

/-- The grace of port p is over. -/
def Dev.graceOver (d : Dev) (p : Nat) : Dev :=
  { d with sw := { d.sw with lost := d.sw.lost.filter (· != p), downed := p :: d.sw.downed.filter (· != p) } }

/-- The queues of port p are empty. -/
def Dev.emptied (d : Dev) (p : Nat) : Dev := (List.range 8).foldl (fun d c => d.setQueue p c []) d

theorem Dev.keepsSw_emptied (d : Dev) (p : Nat) : d.KeepsSw (d.emptied p) Sw.sansQueues [.sw] [] :=
  .foldl (fun d c => d.keepsSw_setQueue p c []) _ d

theorem Dev.queue_emptied (d : Dev) (p : Nat) : (∀ c < 8, (d.emptied p).queue p c = []) ∧
    ∀ p' c, p' ≠ p → c < 8 → (d.emptied p).queue p' c = d.queue p' c := by
  have hall : d.Reworks (d.emptied p) (fun n => ∃ c ∈ List.range 8, n = pcKey p c) fun _ => [] :=
    .foldl (fun d c => d.reworks_setQueue p c fun _ => []) (pairwise_pcKey p 8) d
  refine ⟨fun c hc => (hall _).1 ⟨c, List.mem_range.2 hc, rfl⟩, fun p' c hp hc => (hall _).2 fun ⟨c', hc', h⟩ => ?_⟩
  exact pcKey_ne (List.mem_range.1 hc') hc (.inl hp) h

/-- What was queued to port p is discarded after its queues are emptied: neither the queues nor the lost links move again. -/
theorem Dev.keepsSw_dropPort (d : Dev) (p : Nat) :
    ((d.graceOver p).emptied p).KeepsSw (d.dropPort p) Sw.sansStay [.sw] (downRegs p) :=
  .foldl (fun d q => d.keepsSw_downDiscard p q) _ _

theorem grace_over_empties {s : State} (p : Fin 64) (hs : s.Up) (hlost : p.val ∈ s.dev.sw.lost) :
    Answers (.downGraceExpiry p) s (fun e =>
      s.dev.Frame e [.sw] [R.SW_ALARM, R.SW_DOWN_DISCARD p, R.SW_MC_REMOVED p, R.PC_ALARM] ∧
      (∀ c < 8, e.queue p c = []) ∧
      (∀ p' c, p' ≠ p.val → c < 8 → e.queue p' c = s.dev.queue p' c) ∧ p.val ∉ e.sw.lost ∧ e.downed p = true) := by
  refine .of_running hs (show execDownGraceExpiry p s = running s _ from rfl) ?_
  rw [if_pos (by simpa using hlost)]
  have hempty := (s.dev.graceOver p).keepsSw_emptied p
  have hdrop := (s.dev.keepsSw_dropPort p).settle
  have hlostNow : (s.dev.dropPort p).settle.sw.lost = s.dev.sw.lost.filter (· != p.val) :=
    hdrop.lost.trans (congrArg Sw.lost hempty.sw :)
  have hdowned : (s.dev.dropPort p).settle.sw.downed = p.val :: s.dev.sw.downed.filter (· != p.val) :=
    hdrop.downed.trans (congrArg Sw.downed hempty.sw :)
  obtain ⟨hown, hothers⟩ := (s.dev.graceOver p).queue_emptied p
  refine ⟨?_, fun c hc => ?_, fun p' c hp hc => ?_, by rw [hlostNow]; simp, by simp only [Dev.downed, hdowned]; simp⟩
  · exact (((s.dev.frame_sw _ _ (by simp)).trans hempty.frame).mono (List.Subset.refl _) (List.nil_subset _)).trans hdrop.frame
  · rw [Dev.queue_congr hdrop.queues, hown c hc]
  · rw [Dev.queue_congr hdrop.queues, hothers p' c hp hc]
    rfl

/-- Settles O25, clause by clause. -/
theorem releasesAndDiscards : Obligations.ReleasesAndDiscards := by
  refine ⟨fun s x xs hs hfly => ⟨fun hv hsec => discarded_released hs hfly hv hsec, fun p hv hstored herr hsec => ?_,
    fun p hv hstored herr hsec hfree hct => error_released hs hfly hv hstored herr hsec hfree hct,
    fun p y hsec hv herr horder hpair hdown => second_pass_joined hs hfly hsec hv herr horder hpair hdown,
    fun w hv hstored herr hsec hpair hdown => host_joined hs hfly hv hstored herr hsec hpair hdown,
    fun tag hv hstored herr hsec hfree hpair hdown => recirculating_joined hs hfly hv hstored herr hsec hfree hpair hdown,
    fun g hv hstored herr hsec hfree hpair hvalid hsome hports =>
      group_joined hs hfly hv hstored herr hsec hfree hpair hvalid hsome hports,
    fun hv hinv => unresolved_waits hs hfly hv hinv⟩,
    fun s hs => ⟨fun id => held_copies_abandoned id hs, fun p hlost => grace_over_empties p hs hlost⟩⟩
  exact ⟨unicast_held hs hfly hv (hstored hsec) hsec, unicast_cut_through hs hfly hv (hstored hsec) herr hsec,
    unicast_joined hs hfly hv (hstored hsec) herr hsec⟩

end Sys2Proof.Machine
end

section
/-! PROOF of O26. Which class of a port goes next; a frame that comes round for its second pass; and the end of a transmission (R233,
R235, R243, R246, R250, R271). -/

namespace Sys2Proof.Machine

/-! Which class goes next (R243). -/

/-- The device with other deficits and turns of its ports. -/
def Dev.withTurn (d : Dev) (deficit turn : Sparse Nat) : Dev := { d with sw := { d.sw with deficit := deficit, turn := turn } }

section
variable {d : Dev}

/-- What a port can start depends on no deficit and no turn. -/
theorem Dev.eligible_withTurn (deficit turn : Sparse Nat) (p c : Nat) :
    (d.withTurn deficit turn).eligible p c = d.eligible p c := rfl

/-- A class is eligible with the head of its queue. -/
theorem Dev.queue_of_eligible {p c : Nat} {q : QEntry} (h : d.eligible p c = some q) :
    d.queue p c = q :: (d.queue p c).tail := by
  unfold Dev.eligible at h
  split at h
  · next e es heq =>
    split at h
    · rw [heq, ← Option.some.inj h]
      rfl
    · exact absurd h (by simp)
  · exact absurd h (by simp)

/-- The turn passes to a class of the port, and beside deficits nothing changes. -/
theorem Dev.passTurn_eq (d : Dev) (p mask c : Nat) :
    ∃ deficit turn, d.passTurn p mask c = d.withTurn deficit turn ∧ sGet 0 turn p < 8 := by
  have hturn (t : Sparse Nat) : sGet 0 (sPut 0 t p ((c + 1) % 8)) p < 8 := by
    rw [sGet_sPut_same]
    exact Nat.mod_lt _ (by decide)
  unfold Dev.passTurn
  dsimp only
  split <;> split <;> exact ⟨_, _, rfl, hturn _⟩

/-- Round robin moves deficits and turns alone, and what it picks is an eligible class outside the mask. -/
theorem Dev.drr_spec (p mask k : Nat) (hturn : sGet 0 d.sw.turn p < 8) :
    ∃ deficit turn, (d.drr p mask k).1 = d.withTurn deficit turn ∧
      ∀ c, (d.drr p mask k).2 = some c → c < 8 ∧ bit mask c = false ∧ ∃ q, d.eligible p c = some q := by
  induction k generalizing d with
  | zero => exact ⟨_, _, rfl, by simp [Dev.drr]⟩
  | succ k ih =>
    have hpass : ∃ deficit turn, ((d.passTurn p mask (sGet 0 d.sw.turn p)).drr p mask k).1 = d.withTurn deficit turn ∧
        ∀ c, ((d.passTurn p mask (sGet 0 d.sw.turn p)).drr p mask k).2 = some c →
          c < 8 ∧ bit mask c = false ∧ ∃ q, d.eligible p c = some q := by
      obtain ⟨deficit, turn, heq, hlt⟩ := d.passTurn_eq p mask (sGet 0 d.sw.turn p)
      rw [heq]
      obtain ⟨deficit', turn', heq', hpick⟩ := ih (d := d.withTurn deficit turn) hlt
      exact ⟨deficit', turn', heq', by simpa only [Dev.eligible_withTurn] using hpick⟩
    unfold Dev.drr
    dsimp only
    split
    · next e he =>
      split
      · refine ⟨_, _, rfl, fun c hc => ?_⟩
        obtain rfl := Option.some.inj hc
        cases hbit : bit mask (sGet 0 d.sw.turn p) with
        | true => simp [hbit] at he
        | false => exact ⟨hturn, rfl, e, by simpa [hbit] using he⟩
      · exact hpass
    · exact hpass

/-- The highest number below `n` of which `P` holds. -/
theorem find?_reverse_range {P : Nat → Bool} {n c : Nat} (hc : c < n) (hP : P c = true)
    (hhigher : ∀ c', c < c' → c' < n → P c' = false) : (List.range n).reverse.find? P = some c := by
  induction n with
  | zero => omega
  | succ n ih =>
    rw [List.range_succ, List.reverse_append, List.reverse_singleton, List.singleton_append]
    by_cases h : c = n
    · rw [← h, List.find?_cons_of_pos hP]
    · rw [List.find?_cons_of_neg (by rw [hhigher n (by omega) (by omega)]; exact Bool.false_ne_true)]
      exact ih (by omega) fun c' hc' hn => hhigher c' hc' (by omega)

/-- Strict priority: the highest eligible class of the mask goes. -/
theorem Dev.pickClass_strict {p : Nat} {c : Fin 8} {q : QEntry}
    (hbit : bit (d.fld (R.SW_PORT_CFG p) F.SW_PORT_CFG_sp_mask) c = true) (hc : d.eligible p c = some q)
    (hhigher : ∀ c' : Fin 8, c < c' → bit (d.fld (R.SW_PORT_CFG p) F.SW_PORT_CFG_sp_mask) c' = true →
      d.eligible p c' = none) :
    d.pickClass p = (d, some c.val) := by
  have hfind : (List.range 8).reverse.find? (fun c => bit (d.fld (R.SW_PORT_CFG p) F.SW_PORT_CFG_sp_mask) c &&
      (d.eligible p c).isSome) = some c.val := by
    refine find?_reverse_range c.isLt (by simp [hbit, hc]) fun c' hlt hc' => ?_
    cases hb : bit (d.fld (R.SW_PORT_CFG p) F.SW_PORT_CFG_sp_mask) c' with
    | false => rfl
    | true => simp [hhigher ⟨c', hc'⟩ hlt hb]
  simp only [Dev.pickClass, hfind]

/-- With no class of the mask eligible, round robin picks among the others where one is eligible. -/
theorem Dev.pickClass_robin {p : Nat}
    (hnone : ∀ c : Fin 8, bit (d.fld (R.SW_PORT_CFG p) F.SW_PORT_CFG_sp_mask) c = true → d.eligible p c = none) :
    d.pickClass p = if (List.range 8).any fun c => !bit (d.fld (R.SW_PORT_CFG p) F.SW_PORT_CFG_sp_mask) c &&
      (d.eligible p c).isSome then d.drr p (d.fld (R.SW_PORT_CFG p) F.SW_PORT_CFG_sp_mask) 1024 else (d, none) := by
  have hfind : (List.range 8).reverse.find? (fun c => bit (d.fld (R.SW_PORT_CFG p) F.SW_PORT_CFG_sp_mask) c &&
      (d.eligible p c).isSome) = none := by
    refine List.find?_eq_none.2 fun c hc => ?_
    cases hb : bit (d.fld (R.SW_PORT_CFG p) F.SW_PORT_CFG_sp_mask) c with
    | false => simp
    | true => simp [hnone ⟨c, List.mem_range.1 (List.mem_reverse.1 hc)⟩ hb]
  simp only [Dev.pickClass, hfind]

theorem Dev.pickClass_outside {p : Nat}
    (hnone : ∀ c : Fin 8, bit (d.fld (R.SW_PORT_CFG p) F.SW_PORT_CFG_sp_mask) c = true → d.eligible p c = none)
    (hturn : sGet 0 d.sw.turn p < 8) :
    ∃ deficit turn, (d.pickClass p).1 = d.withTurn deficit turn ∧ ∀ c, (d.pickClass p).2 = some c →
      c < 8 ∧ bit (d.fld (R.SW_PORT_CFG p) F.SW_PORT_CFG_sp_mask) c = false ∧ ∃ q, d.eligible p c = some q := by
  rw [Dev.pickClass_robin hnone]
  split
  · exact Dev.drr_spec p _ 1024 hturn
  · exact ⟨_, _, rfl, by simp⟩

theorem Dev.pickClass_idle {p : Nat} (hnone : ∀ c : Fin 8, d.eligible p c = none) : d.pickClass p = (d, none) := by
  rw [Dev.pickClass_robin fun c _ => hnone c]
  refine if_neg fun hany => ?_
  obtain ⟨c, hc, helig⟩ := List.any_eq_true.1 hany
  simp [hnone ⟨c, List.mem_range.1 hc⟩] at helig

/-! The next frame starts (R241, R243). -/

theorem Dev.schedulePort_none {d1 : Dev} {p : Nat} (l : TxLoad) (hrun : d.txRun p = none) (hpick : d.pickClass p = (d1, none)) :
    d.schedulePort p false l = d1 := by
  simp [Dev.schedulePort, hrun, hpick]

/-- The head of the class picked leaves its queue, and its transmission starts. -/
theorem Dev.schedulePort_starts {d1 : Dev} {p c : Nat} {q : QEntry} {qs : List QEntry} (l : TxLoad) (hp : p ≠ 66)
    (hrun : d.txRun p = none) (hpick : d.pickClass p = (d1, some c)) (hq : d1.queue p c = q :: qs) :
    d.schedulePort p false l = (d1.setQueue p c qs).beginTx p q ((d1.setQueue p c qs).frameBad q.id) l := by
  simp [Dev.schedulePort, hrun, hpick, hq, hp]

/-- On port 66 the head of the class picked comes round for its second pass. -/
theorem Dev.schedulePort_recirculates {d1 : Dev} {c : Nat} {q : QEntry} {qs : List QEntry} (l : TxLoad)
    (hrun : d.txRun 66 = none) (hpick : d.pickClass 66 = (d1, some c)) (hq : d1.queue 66 c = q :: qs) :
    d.schedulePort 66 false l = (d1.setQueue 66 c qs).recirculate q := by
  simp [Dev.schedulePort, hrun, hpick, hq]

/-- What an external port does whose picked class is eligible: its head is in transmission, and the other queues stand. -/
theorem Dev.started_external {p c : Nat} {q : QEntry} {deficit turn : Sparse Nat} (l : TxLoad) (hp : p < 64)
    (hrun : d.txRun p = none) (hpick : d.pickClass p = (d.withTurn deficit turn, some c)) (hc : c < 8)
    (helig : d.eligible p c = some q) :
    let e := (d.schedulePort p false l).settle
    d.Frame e txStartParts txStartRegs ∧ (∃ r, e.txRun p = some r ∧ r.entry = q) ∧
      e.queue p c = (d.queue p c).tail ∧ ∀ c' < 8, c' ≠ c → e.queue p c' = d.queue p c' := by
  have hq : (d.withTurn deficit turn).queue p c = q :: (d.queue p c).tail := Dev.queue_of_eligible helig
  rw [Dev.schedulePort_starts l (by omega) hrun hpick hq]
  obtain ⟨hkeeps, r, htx, hentry, -⟩ := ((d.withTurn deficit turn).setQueue p c (d.queue p c).tail).beginTx_external q l hp
    (((d.withTurn deficit turn).setQueue p c (d.queue p c).tail).frameBad q.id)
  have hkeeps := hkeeps.settle
  refine ⟨(d.frame_sw _ _ (by simp [txStartParts])).trans hkeeps.frame, ⟨r, ?_, hentry⟩, ?_, fun c' hc' hne => ?_⟩
  · rw [Dev.txRun_settle]
    exact htx
  · rw [Dev.queue_congr hkeeps.queues_tx]
    exact Dev.queue_setQueue_same ..
  · rw [Dev.queue_congr hkeeps.queues_tx]
    exact Dev.queue_setQueue_ne _ _ (pcKey_ne hc hc' (.inr hne))

end

section
variable {s : State} {x : Departure}

/-- A free port whose cells are read without an error takes its next frame. -/
theorem answers_egressSchedule {p : Fin 67} {Q : Dev → Prop} (hs : s.Up) (hglaze : s.dev.stage = .glaze)
    (hf : s.dev.inFault = false) (herrs : x.errs = []) (hrun : s.dev.txRun p = none)
    {e : Dev} (he : s.dev.schedulePort p false { lane := x.lane, at_ := x.load } = e) (hQ : Q e.settle) :
    Answers (.egressSchedule p x) s Q := by
  subst he
  refine .of_running hs (show execEgressSchedule p x s = running s _ from rfl) ?_
  have hgo : (!s.dev.inGlaze || s.dev.inFault || (s.dev.txRun p).isSome) = false := by simp [Dev.inGlaze, hglaze, hf, hrun]
  simp only [hgo, herrs, Bool.false_eq_true, if_false, List.filter_nil]
  exact hQ

variable (p : Fin 64) (hs : s.Up) (hglaze : s.dev.stage = .glaze) (hf : s.dev.inFault = false) (herrs : x.errs = [])
  (hrun : s.dev.txRun p = none)
include hs hglaze hf herrs hrun

theorem strict_class_starts {c : Fin 8} {q : QEntry}
    (hbit : bit (s.dev.fld (R.SW_PORT_CFG p) F.SW_PORT_CFG_sp_mask) c = true) (hc : s.dev.eligible p c = some q)
    (hhigher : ∀ c' : Fin 8, c < c' → bit (s.dev.fld (R.SW_PORT_CFG p) F.SW_PORT_CFG_sp_mask) c' = true →
      s.dev.eligible p c' = none) : Answers (.egressSchedule ⟨p, by omega⟩ x) s (fun e =>
      s.dev.Frame e [.sw, .tc] [R.TC_TSQ_STAT, R.TC_ALARM, R.PC_ALARM] ∧
      (∃ r, e.txRun p = some r ∧ r.entry = q) ∧ e.queue p c = (s.dev.queue p c).tail ∧
      ∀ c' : Fin 8, c' ≠ c → e.queue p c' = s.dev.queue p c') := by
  obtain ⟨hframe, htx, hqueue, hothers⟩ := Dev.started_external { lane := x.lane, at_ := x.load } p.isLt hrun
    (Dev.pickClass_strict hbit hc hhigher) c.isLt hc
  exact answers_egressSchedule hs hglaze hf herrs hrun rfl ⟨hframe, htx, hqueue, fun c' hne =>
    hothers c' c'.isLt fun h => hne (Fin.ext h)⟩

theorem other_class_starts
    (hnone : ∀ c : Fin 8, bit (s.dev.fld (R.SW_PORT_CFG p) F.SW_PORT_CFG_sp_mask) c = true → s.dev.eligible p c = none)
    (hturn : sGet 0 s.dev.sw.turn p < 8) : Answers (.egressSchedule ⟨p, by omega⟩ x) s (fun e =>
      s.dev.Frame e [.sw, .tc] [R.TC_TSQ_STAT, R.TC_ALARM, R.PC_ALARM] ∧ ∀ r, e.txRun p = some r →
      ∃ c : Fin 8, bit (s.dev.fld (R.SW_PORT_CFG p) F.SW_PORT_CFG_sp_mask) c = false ∧
        s.dev.eligible p c = some r.entry ∧ e.queue p c = (s.dev.queue p c).tail) := by
  refine answers_egressSchedule hs hglaze hf herrs hrun rfl ?_
  obtain ⟨deficit, turn, hmoved, hpicked⟩ := Dev.pickClass_outside hnone hturn
  cases hpick : s.dev.pickClass p with
  | mk d1 choice =>
    obtain rfl : d1 = s.dev.withTurn deficit turn := by rw [← hmoved, hpick]
    cases choice with
    | none =>
      rw [Dev.schedulePort_none _ hrun hpick]
      refine ⟨(s.dev.frame_sw _ _ (by simp)).settle, fun r hr => ?_⟩
      rw [Dev.txRun_settle] at hr
      exact absurd (hrun.symm.trans hr) (by simp)
    | some c =>
      obtain ⟨hc, hbit, q, helig⟩ := hpicked c (by rw [hpick])
      obtain ⟨hframe, ⟨r, htx, hentry⟩, hqueue, -⟩ := Dev.started_external { lane := x.lane, at_ := x.load } p.isLt hrun
        hpick hc helig
      refine ⟨hframe, fun r' hr' => ⟨⟨c, hc⟩, hbit, ?_, hqueue⟩⟩
      rw [← Option.some.inj (htx.symm.trans hr'), hentry]
      exact helig

theorem idle_port_waits (hnone : ∀ c : Fin 8, s.dev.eligible p c = none) (hinv : s.Inv) :
    Answers (.egressSchedule ⟨p, by omega⟩ x) s (fun e => e = s.dev) := by
  exact answers_egressSchedule hs hglaze hf herrs hrun (Dev.schedulePort_none _ hrun (Dev.pickClass_idle hnone)) hinv.settle_same

end

/-! The second pass (R235, R271). -/

/-- The frame of an entry, with its edits, as its second pass takes it. -/
def QEntry.secondPass (q : QEntry) : Machine.Frame :=
  { q.frame with octets := q.octets
                 second := some { cls := q.cls, tag := q.tag, bank := q.bank, epoch := q.epoch, order := q.cls } }

/-- The switch core without the stored cells, the rotation of the banks, and the frames that wait for the spreader. -/
def Sw.sansPass (x : Sw) : Sw := { x with store := [], bank := 0, arrive := [] }

/-- The cell that the edits of a frame may take. -/
def Dev.grown (d : Dev) (q : QEntry) : Dev :=
  if d.sw.store.any fun h => h.id == q.id && decide (h.cells.length < cellsOf q.octets.length) then d.addCell q.id .recirc else d

/-- A frame that comes round is counted on port 66. -/
def Dev.passCounted (d : Dev) (q : QEntry) : Dev :=
  ((d.count (portCtr 66 2)).count (portCtr 66 3) q.octets.length).count (portCtr 66 (40 + q.cls))

theorem Dev.recirculate_eq (d : Dev) (q : QEntry) : d.recirculate q = { (d.grown q).passCounted q with
    sw := { ((d.grown q).passCounted q).sw with arrive := ((d.grown q).passCounted q).sw.arrive ++ [q.secondPass] } } := rfl

/-- A frame that comes round takes at most one cell, is counted, and waits for the spreader. -/
theorem Dev.recirculate_spec (d : Dev) (q : QEntry) : d.KeepsSw (d.recirculate q) Sw.sansPass [.sw] [R.PC_ALARM] ∧
    (d.recirculate q).sw.arrive = d.sw.arrive ++ [q.secondPass] := by
  have hgrown : d.KeepsSw (d.grown q) Sw.sansPass [.sw] [R.PC_ALARM] ∧ (d.grown q).sw.arrive = d.sw.arrive := by
    unfold Dev.grown
    split
    · exact ⟨d.keepsSw_sw _ (by simp) rfl, rfl⟩
    · exact ⟨.refl .., rfl⟩
  have hcount (g : Sw → Sw) : (d.grown q).KeepsSw ((d.grown q).passCounted q) g [.sw] [R.PC_ALARM] :=
    ((Dev.keepsSw_count _ _ _ _ _ (by simp)).trans (Dev.keepsSw_count _ _ _ _ _ (by simp))).trans
      (Dev.keepsSw_count _ _ _ _ _ (by simp))
  rw [Dev.recirculate_eq]
  refine ⟨(hgrown.1.trans (hcount _)).trans (Dev.keepsSw_sw _ _ (by simp) rfl), ?_⟩
  rw [← hgrown.2, ← (hcount fun x => x).sw]

theorem second_pass_begins {s : State} {x : Departure} {c : Fin 8} {q : QEntry} {qs : List QEntry} (hs : s.Up)
    (hglaze : s.dev.stage = .glaze) (hf : s.dev.inFault = false) (herrs : x.errs = []) (hrun : s.dev.txRun 66 = none)
    (hbit : bit (s.dev.fld (R.SW_PORT_CFG 66) F.SW_PORT_CFG_sp_mask) c = true) (hq : s.dev.queue 66 c = q :: qs)
    (hhigher : ∀ c' : Fin 8, c < c' → s.dev.queue 66 c' = []) : Answers (.egressSchedule 66 x) s (fun e =>
      s.dev.Frame e [.sw] [R.PC_ALARM] ∧ e.txRun 66 = none ∧ e.queue 66 c = qs ∧
      ∃ f, e.sw.arrive = s.dev.sw.arrive ++ [f] ∧ f.octets = q.octets ∧
        f.second = some { cls := q.cls, tag := q.tag, bank := q.bank, epoch := q.epoch, order := q.cls }) := by
  have helig : s.dev.eligible 66 c = some q := by simp [Dev.eligible, hq, Dev.canStart]
  have hpick : s.dev.pickClass 66 = (s.dev, some c.val) :=
    Dev.pickClass_strict hbit helig fun c' hlt _ => by simp [Dev.eligible, hhigher c' hlt]
  have hstart := Dev.schedulePort_recirculates { lane := x.lane, at_ := x.load } hrun hpick hq
  obtain ⟨hkeeps, harrive⟩ := (s.dev.setQueue 66 c qs).recirculate_spec q
  have hkeeps := hkeeps.settle
  refine answers_egressSchedule (p := 66) hs hglaze hf herrs hrun hstart ⟨(s.dev.frame_sw _ _ (by simp)).trans hkeeps.frame,
    (Dev.txRun_congr (congrArg Sw.tx hkeeps.sw :) 66).trans hrun, ?_, q.secondPass, ?_, rfl, rfl⟩
  · rw [Dev.queue_congr (congrArg Sw.queues hkeeps.sw :)]
    exact Dev.queue_setQueue_same ..
  · rw [Dev.settle_sw, harrive]
    rfl

/-! The end of a transmission (R233, R246, R250). -/

/-- Units that the end of a transmission touches. -/
def endParts : List Part := [.sw, .ports]

/-- Registers that the end of a transmission on port p touches. -/
def endRegs (p : Nat) : List Nat := [R.SW_STOMP p, R.SW_ALARM, R.PC_ALARM]

section
variable (d : Dev) (p : Nat) (x : TxRun)

/-- The frame's blocks have left, and port p has no transmission. -/
def Dev.txEmptied : Dev := (d.flushBlocks p x).setTx p none

/-- The frame is counted, and one that left stomped is counted as such. -/
def Dev.txCounted : Dev :=
  let d1 := ((d.count (portCtr p 2)).count (portCtr p 3) x.sent.length).count (portCtr p (40 + x.entry.cls))
  if x.bad then d1.countStomp p else d1

/-- An external port's frame leaves, and a flow-control frame that waited for its end. -/
def Dev.txLeft : Dev :=
  if p < 64 then (d.emit (.frame p x.entry.cls (if x.bad then stompFcs x.sent else x.sent) x.bad)).pfcFlush p else d

/-- The transmission of port p is over, its frame and the flow-control frame behind it have left; its target is not done yet. -/
def Dev.txOver : Dev := ((d.txEmptied p x).txCounted p x).txLeft p x

theorem Dev.endTx_eq : d.endTx p x = ((d.txOver p x).targetDone x.entry.id).flushTrigger p := rfl

theorem Dev.keepsSw_flushBlocks (g : Sw → Sw) (rs : List Nat) : d.KeepsSw (d.flushBlocks p x) g endParts rs :=
  .ite (.refl ..) ((d.keepsSw_setPort p _ g rs (by simp [endParts])).trans (Dev.keepsSw_emit ..))

theorem Dev.keepsSw_flushTrigger (g : Sw → Sw) (rs : List Nat) : d.KeepsSw (d.flushTrigger p) g endParts rs :=
  .ite (.refl ..) ((d.keepsSw_setPort p _ g rs (by simp [endParts])).trans (.foldl (fun d _ => d.keepsSw_emit ..) _ _))

/-- The transmission of port p is over; of the switch core nothing else has changed. -/
theorem Dev.txEmptied_spec : (d.txEmptied p x).sw = { d.sw with tx := sPut none d.sw.tx p none } ∧
    d.Frame (d.txEmptied p x) endParts (endRegs p) ∧ d.out <:+ (d.txEmptied p x).out := by
  have hflush := d.keepsSw_flushBlocks p x (fun sw => sw) (endRegs p)
  refine ⟨?_, hflush.frame.trans (Dev.frame_sw _ _ _ (by simp [endParts])), hflush.out⟩
  rw [← hflush.sw]
  rfl

theorem Dev.keepsSw_countStomp (g : Sw → Sw) (ps : List Part) : d.KeepsSw (d.countStomp p) g ps (endRegs p) :=
  ((d.keepsSw_addSat _ _ g ps (by simp [endRegs])).trans (Dev.keepsSw_count _ _ _ g ps (by simp [endRegs]))).trans
    (Dev.keepsSw_raise _ _ g ps (by simp [endRegs]))

theorem Dev.keepsSw_txCounted (g : Sw → Sw) (ps : List Part) : d.KeepsSw (d.txCounted p x) g ps (endRegs p) := by
  have hcount : d.KeepsSw (((d.count (portCtr p 2)).count (portCtr p 3) x.sent.length).count (portCtr p (40 + x.entry.cls))) g
      ps (endRegs p) :=
    ((d.keepsSw_count _ _ _ _ (by simp [endRegs])).trans (Dev.keepsSw_count _ _ _ _ _ (by simp [endRegs]))).trans
      (Dev.keepsSw_count _ _ _ _ _ (by simp [endRegs]))
  exact .ite (hcount.trans (Dev.keepsSw_countStomp ..)) hcount

theorem Dev.flag_txCounted (hbad : x.bad = true) : (d.txCounted p x).flag R.SW_ALARM F.SW_ALARM_stomp = true := by
  rw [Dev.txCounted, if_pos hbad]
  exact Dev.flag_raise_same _ _ _ ⟨by decide, by decide⟩

theorem Dev.keepsSw_txLeft {rs : List Nat} (hrs : R.PC_ALARM ∈ rs) : d.KeepsSw (d.txLeft p x) Sw.sansDue endParts rs :=
  .ite ((d.keepsSw_emit ..).trans (Dev.keepsSw_pfcFlush _ p (by simp [endParts]) hrs)) (.refl ..)

/-- The frame of an external port is the first of what leaves from there on. -/
theorem Dev.out_txLeft (hp : p < 64) :
    .frame p x.entry.cls (if x.bad then stompFcs x.sent else x.sent) x.bad :: d.out <:+ (d.txLeft p x).out := by
  rw [Dev.txLeft, if_pos hp]
  exact ((d.emit _).keepsSw_pfcFlush (ps := endParts) p (by simp [endParts]) (List.mem_singleton_self _)).out

/-- What stands when the transmission is over: of the switch core only port p's transmission and flow-control frame have changed,
the frame has left behind what left before, and one that left stomped has set its alarm. -/
theorem Dev.txOver_spec : (d.txOver p x).sw.sansDue = Sw.sansDue { d.sw with tx := sPut none d.sw.tx p none } ∧
    d.Frame (d.txOver p x) endParts (endRegs p) ∧
    (x.bad = true → (d.txOver p x).flag R.SW_ALARM F.SW_ALARM_stomp = true) ∧
    (p < 64 → ∃ mid, d.out <:+ mid ∧
      .frame p x.entry.cls (if x.bad then stompFcs x.sent else x.sent) x.bad :: mid <:+ (d.txOver p x).out) := by
  obtain ⟨hsw, hframe, hout⟩ := d.txEmptied_spec p x
  have hcounted := (d.txEmptied p x).keepsSw_txCounted p x Sw.sansDue endParts
  have hleft := hcounted.trans (Dev.keepsSw_txLeft _ p x (by simp [endRegs]))
  have hflag := (((d.txEmptied p x).txCounted p x).keepsSw_txLeft p x (List.mem_singleton_self _)).frame.swAlarm
    F.SW_ALARM_stomp
  refine ⟨hleft.sw.trans (congrArg Sw.sansDue hsw), hframe.trans hleft.frame, fun hbad => ?_,
    fun hp => ⟨_, hout.trans hcounted.out, Dev.out_txLeft _ p x hp⟩⟩
  exact hflag.trans ((d.txEmptied p x).flag_txCounted p x hbad)

/-- What is left once the frame is out: its target is done, and trigger words that waited leave. -/
theorem Dev.keepsSw_endTarget {rs : List Nat} (hrs : R.PC_ALARM ∈ rs) :
    d.KeepsSw ((d.targetDone x.entry.id).flushTrigger p).settle Sw.sansStay endParts rs :=
  ((d.keepsSw_targetDone _ (by simp [endParts]) hrs).trans (Dev.keepsSw_flushTrigger ..)).settle

theorem Dev.sw_endTarget : ((d.targetDone x.entry.id).flushTrigger p).settle.sw = (d.targetDone x.entry.id).sw :=
  (Dev.keepsSw_flushTrigger _ p (fun sw => sw) []).settle.sw

end

/-- What stands before older items has left the device since. -/
theorem mem_take_of_suffix {α : Type} {x : α} {old mid now : List α} (hnow : x :: mid <:+ now) (hold : old <:+ mid) :
    x ∈ now.take (now.length - old.length) := by
  obtain ⟨front, rfl⟩ := hnow
  obtain ⟨back, rfl⟩ := hold
  have hsplit : front ++ x :: (back ++ old) = (front ++ x :: back) ++ old := by simp
  rw [hsplit, List.length_append, Nat.add_sub_cancel, List.take_left]
  simp

/-- Where no frame waits for buffers of the host, the transmission on port 65 ends like any other. -/
theorem Dev.endTxHost_whole {d : Dev} (hparts : d.sw.parts = []) (x : TxRun) : d.endTxHost x = d.endTx 65 x := by
  have hnone : (List.range 64).find? (fun r => (d.rxpPart r).any fun q => q.run == x && !q.ended) = none := by
    simp [Dev.rxpPart, hparts, sGet]
  simp only [Dev.endTxHost, hnone]

/-- The frame in transmission leaves port p. -/
theorem Dev.endTx_spec (d : Dev) (p : Nat) (x : TxRun) : let e := (d.endTx p x).settle
    e.txRun p = none ∧ d.Frame e endParts (endRegs p) ∧
      (p < 64 → .frame p x.entry.cls (if x.bad then stompFcs x.sent else x.sent) x.bad ∈
        e.out.take (e.out.length - d.out.length)) ∧
      (x.bad = true → e.flag R.SW_ALARM F.SW_ALARM_stomp = true) ∧
      (sGet 0 d.sw.targets x.entry.id ≤ 1 → e.frameCells x.entry.id = []) ∧
      (1 < sGet 0 d.sw.targets x.entry.id → e.sw.store = d.sw.store ∧
        sGet 0 e.sw.targets x.entry.id = sGet 0 d.sw.targets x.entry.id - 1) := by
  rw [Dev.endTx_eq]
  obtain ⟨hsw, hframe, hflag, hout⟩ := d.txOver_spec p x
  generalize d.txOver p x = d1 at hsw hframe hflag hout ⊢
  have htx : d1.sw.tx = sPut none d.sw.tx p none := (congrArg Sw.tx hsw :)
  have htargets : d1.sw.targets = d.sw.targets := (congrArg Sw.targets hsw :)
  have hstore : d1.sw.store = d.sw.store := (congrArg Sw.store hsw :)
  have hend := d1.keepsSw_endTarget p x (rs := endRegs p) (by simp [endRegs])
  have hendFlag := (d1.keepsSw_endTarget p x (List.mem_singleton_self _)).frame.swAlarm F.SW_ALARM_stomp
  refine ⟨?_, hframe.trans hend.frame, fun hp => ?_, fun hbad => hendFlag.trans (hflag hbad), fun hlast => ?_, fun hmore => ?_⟩
  · rw [Dev.txRun, hend.tx, htx]
    exact sGet_sPut_same none d.sw.tx p none
  · obtain ⟨mid, hold, hnow⟩ := hout hp
    exact mem_take_of_suffix (hnow.trans hend.out) hold
  · rw [Dev.frameCells_congr (congrArg Sw.store (d1.sw_endTarget p x)), Dev.targetDone_last _ (htargets ▸ hlast),
      Dev.frameCells_freeFrame]
  · rw [Dev.sw_endTarget, Dev.targetDone_more _ (htargets ▸ hmore)]
    exact ⟨hstore, by rw [htargets]; exact sGet_sPut_same _ _ _ _⟩

theorem transmission_ends {s : State} (p : Fin 67) {x : TxRun} (hs : s.Up) (hrun : s.dev.txRun p = some x)
    (hparts : p.val < 64 ∨ s.dev.sw.parts = []) : Answers (.frameTransmitEnd p) s (fun e => e.txRun p = none ∧
      s.dev.Frame e [.sw, .ports] [R.SW_STOMP p, R.SW_ALARM, R.PC_ALARM] ∧
      (p.val < 64 → .frame p x.entry.cls (if x.bad then stompFcs x.sent else x.sent) x.bad ∈
        e.out.take (e.out.length - s.dev.out.length)) ∧
      (x.bad = true → e.flag R.SW_ALARM F.SW_ALARM_stomp = true) ∧
      (sGet 0 s.dev.sw.targets x.entry.id ≤ 1 → e.frameCells x.entry.id = []) ∧
      (1 < sGet 0 s.dev.sw.targets x.entry.id → e.sw.store = s.dev.sw.store ∧
        sGet 0 e.sw.targets x.entry.id = sGet 0 s.dev.sw.targets x.entry.id - 1)) := by
  refine .of_running hs (show execFrameTransmitEnd p s = running s _ from rfl) ?_
  have hend : (if p.val = 65 then s.dev.endTxHost x else s.dev.endTx p x) = s.dev.endTx p x := by
    split
    · next h =>
      rw [h, Dev.endTxHost_whole (hparts.resolve_left (by omega))]
    · rfl
  simp only [hrun, hend]
  exact s.dev.endTx_spec p x

/-- Settles O26, clause by clause. -/
theorem egress : Obligations.Egress := by
  refine ⟨fun s p x hs hglaze hf herrs hrun => ⟨fun c q hbit hc hhigher => ?_, fun hnone hturn => ?_, fun hnone hinv => ?_⟩,
    fun s x c q qs hs hglaze hf herrs hrun hbit hq hhigher => ?_, fun s p x hs hrun hparts => ?_⟩
  · exact strict_class_starts p hs hglaze hf herrs hrun hbit hc hhigher
  · exact other_class_starts p hs hglaze hf herrs hrun hnone hturn
  · exact idle_port_waits p hs hglaze hf herrs hrun hnone hinv
  · exact second_pass_begins hs hglaze hf herrs hrun hbit hq hhigher
  · exact transmission_ends p hs hrun hparts

end Sys2Proof.Machine
end

section
/-! SUPPORT of the classifier's statements (O27, O28, O29). What a frame keeps of the tables and their banks, and how a command that
may be held in its ring starts (R276–R281). -/

namespace Sys2Proof.Machine

/-! What a frame keeps. -/

section
variable {d e : Dev} {p : List Part} {r : List Nat}

theorem Dev.Frame.cl_eq (h : d.Frame e p r) (hp : Part.cl ∉ p) : e.cl = d.cl := h.1 .cl hp

theorem Dev.Frame.tg_eq (h : d.Frame e p r) (hp : Part.tg ∉ p) : e.tg = d.tg := h.1 .tg hp

theorem Dev.Frame.mi_eq (h : d.Frame e p r) (hp : Part.mi ∉ p) : e.mi = d.mi := h.1 .mi hp

theorem Dev.Frame.activeBank_eq (h : d.Frame e p r) (hr : R.CL_BANK_STAT ∉ r) : e.activeBank = d.activeBank := h.fld_eq hr _

theorem Dev.Frame.epoch_eq (h : d.Frame e p r) (hr : R.CL_BANK_STAT ∉ r) : e.epoch = d.epoch := h.fld_eq hr _

theorem Dev.Frame.drainBank_eq (h : d.Frame e p r) (hr : R.CL_BANK_STAT ∉ r) : e.drainBank = d.drainBank := by
  rw [Dev.drainBank, Dev.drainBank, h.flag_eq hr, h.activeBank_eq hr]

end

/-- The bank report is no register of a host ring. -/
theorem bankStat_ne_ring (y : Nat) : R.CL_BANK_STAT ∉ [R.HR_RING_DIDX y] := by
  simp only [List.mem_singleton, R.CL_BANK_STAT, R.HR_RING_DIDX]
  omega

theorem Dev.cl_takeCommand (d : Dev) (y : Nat) : (d.takeCommand y).cl = d.cl := (d.frame_takeCommand y).cl_eq (by decide)

theorem Dev.ticks_takeCommand (d : Dev) (y : Nat) : (d.takeCommand y).ticks = d.ticks :=
  ((d.frame_takeCommand y).1 .board (by decide)).2.2

theorem Dev.activeBank_takeCommand (d : Dev) (y : Nat) : (d.takeCommand y).activeBank = d.activeBank :=
  (d.frame_takeCommand y).activeBank_eq (bankStat_ne_ring y)

theorem Dev.epoch_takeCommand (d : Dev) (y : Nat) : (d.takeCommand y).epoch = d.epoch :=
  (d.frame_takeCommand y).epoch_eq (bankStat_ne_ring y)

theorem Dev.drainBank_takeCommand (d : Dev) (y : Nat) : (d.takeCommand y).drainBank = d.drainBank :=
  (d.frame_takeCommand y).drainBank_eq (bankStat_ne_ring y)

/-- The rings have no part in the classifier's tables. -/
theorem Dev.keepsRings_cl (d : Dev) (x : Cl) : d.KeepsRings { d with cl := x } :=
  (d.frame_cl (p := [.cl]) x [] (by simp)).keepsRings (by decide) fun _ h => h

/-! The report of the banks, as the end of a command leaves it. -/

theorem Dev.activeBank_settle (d : Dev) : d.settle.activeBank = d.activeBank := d.fld_settle _ _

theorem Dev.epoch_settle (d : Dev) : d.settle.epoch = d.epoch := d.fld_settle _ _

theorem Dev.drainBank_settle (d : Dev) : d.settle.drainBank = d.drainBank := (d.frame_settle [] []).drainBank_eq (by simp)

/-! A command that may be held (R279, R280). -/

/-- The command of a descriptor just taken, none of its entries applied. -/
def Dev.heldCmd (d : Dev) (c : CmdDesc) (op : Nat) : HeldCmd := { op := op, desc := c, origin := d.cmdOrigin c op, done := 0 }

/-- A table, exact-match or swap command on a ring that is ready for it. -/
theorem answers_held {i : Instr} {c : CmdDesc} {op : Nat} {s : State} {Q : Dev → Prop} (hs : s.Up)
    (hi : exec i s = running s fun d => d.startHeld c op) (hready : s.dev.cmdReady c.ring = true)
    (hQ : Q ((s.dev.takeCommand c.ring).runHeld (s.dev.heldCmd c op)).settle) : Answers i s Q :=
  answers_command (f := fun d o => d.runHeld { op := op, desc := c, origin := o, done := 0 }) hs hi hready hQ

end Sys2Proof.Machine
end

section
/-! PROOF of O29. The swap of the banks, the command held while one drains, the end of a drain, and the commit of a shadow base (R277,
R279, R281). -/

namespace Sys2Proof.Machine

/-! The swap (R279, R281). -/

section
variable (d : Dev) (o : Origin)

theorem Dev.activeBank_le_one : d.activeBank ≤ 1 := Nat.le_of_lt_succ (d.fld_lt R.CL_BANK_STAT F.CL_BANK_STAT_active)

theorem Dev.frame_swapBanks : d.Frame (d.swapBanks o) [.cl] [R.CL_BANK_STAT] :=
  (((d.frame_setFld _ _ _ (by simp)).trans (Dev.frame_setFld _ _ _ _ (by simp))).trans
    (Dev.frame_setFlag _ _ _ _ (by simp))).trans (Dev.frame_cl _ _ _ (by simp))

/-- The bank report of a swap, before the classifier notes its drain. -/
def Dev.swapShown : Dev :=
  ((d.setFld R.CL_BANK_STAT F.CL_BANK_STAT_active (1 - d.activeBank)).setFld R.CL_BANK_STAT F.CL_BANK_STAT_epoch
    ((d.epoch + 1) % 16)).setFlag R.CL_BANK_STAT F.CL_BANK_STAT_draining true

theorem Dev.swapBanks_eq : ∃ x : Cl, d.swapBanks o = { d.swapShown with cl := x } ∧ x.drainAt = d.ticks := ⟨_, rfl, rfl⟩

theorem Dev.fld_swapBanks (f : Field) : (d.swapBanks o).fld R.CL_BANK_STAT f = d.swapShown.fld R.CL_BANK_STAT f := by
  obtain ⟨x, hx, -⟩ := d.swapBanks_eq o
  rw [hx]
  rfl

theorem Dev.drainAt_swapBanks : (d.swapBanks o).cl.drainAt = d.ticks := by
  obtain ⟨x, hx, hat⟩ := d.swapBanks_eq o
  rw [hx, hat]

theorem Dev.keepsRings_swapBanks : d.KeepsRings (d.swapBanks o) := by
  obtain ⟨x, hx, -⟩ := d.swapBanks_eq o
  rw [hx]
  exact (((d.keepsRings_setFld _ _ _).trans (Dev.keepsRings_setFld _ _ _ _)).trans (Dev.keepsRings_setFld _ _ _ _)).trans
    (Dev.keepsRings_cl _ x)

theorem Dev.activeBank_swapBanks : (d.swapBanks o).activeBank = 1 - d.activeBank := by
  have hlt : 1 - d.activeBank < 2 := by omega
  rw [Dev.activeBank, d.fld_swapBanks, Dev.swapShown, Dev.setFlag, Dev.fld_setFld_clear _ _ _ _ _ (by decide),
    Dev.fld_setFld_clear _ _ _ _ _ (by decide), Dev.fld_setFld_low _ _ _ _ ⟨by decide, by decide, hlt⟩]

theorem Dev.epoch_swapBanks : (d.swapBanks o).epoch = (d.epoch + 1) % 16 := by
  have hlt : (d.epoch + 1) % 16 < 16 := Nat.mod_lt _ (by decide)
  rw [Dev.epoch, d.fld_swapBanks, Dev.swapShown, Dev.setFlag, Dev.fld_setFld_clear _ _ _ _ _ (by decide),
    Dev.fld_setFld_low _ _ _ _ ⟨by decide, by decide, hlt⟩]

theorem Dev.draining_swapBanks : (d.swapBanks o).flag R.CL_BANK_STAT F.CL_BANK_STAT_draining = true := by
  rw [Dev.flag, d.fld_swapBanks, ← Dev.flag, Dev.swapShown, Dev.flag_setFlag_same _ _ _ _ (by decide)]

/-- The bank that was active drains. -/
theorem Dev.drainBank_swapBanks : (d.swapBanks o).drainBank = some d.activeBank := by
  have hle := d.activeBank_le_one
  rw [Dev.drainBank, d.draining_swapBanks, if_pos rfl, d.activeBank_swapBanks, Nat.sub_sub_self hle]

end

theorem Dev.runHeld_swap (d : Dev) {h : HeldCmd} (hop : h.op = 4) :
    d.runHeld h = if d.drainBank.isSome then d.hold h else d.swapBanks h.origin := if_pos hop

section
variable {s : State} {c : CmdDesc}

theorem banks_swapped (hs : s.Up) (hready : s.dev.cmdReady c.ring = true) (hdrain : s.dev.drainBank = none) :
    Answers (.bankSwap c) s (fun e => s.dev.Frame e [.cl, .hr] [R.CL_BANK_STAT, R.HR_RING_DIDX c.ring] ∧
      e.activeBank = 1 - s.dev.activeBank ∧ e.epoch = (s.dev.epoch + 1) % 16 ∧ e.drainBank = some s.dev.activeBank ∧
      e.cl.drainAt = s.dev.ticks ∧ (e.ring c.ring).busy = true) := by
  have hswap := (s.dev.takeCommand c.ring).frame_swapBanks (s.dev.cmdOrigin c 4)
  refine answers_held hs rfl hready ?_
  rw [Dev.runHeld_swap _ rfl, s.dev.drainBank_takeCommand, hdrain, if_neg (by simp), Dev.activeBank_settle, Dev.epoch_settle,
    Dev.drainBank_settle, Dev.activeBank_swapBanks, Dev.epoch_swapBanks, Dev.drainBank_swapBanks, s.dev.activeBank_takeCommand,
    s.dev.epoch_takeCommand]
  refine ⟨Dev.Frame.settle (((s.dev.frame_takeCommand c.ring).mono (by simp) (by simp)).trans (hswap.mono (by simp) (by simp))),
    rfl, rfl, rfl, ?_, ?_⟩
  · rw [Dev.settle_cl, Dev.drainAt_swapBanks, s.dev.ticks_takeCommand]
  · rw [(Dev.keepsRings_settle _).busy, (Dev.keepsRings_swapBanks _ _).busy, s.dev.busy_takeCommand]

theorem swap_held (hs : s.Up) (hready : s.dev.cmdReady c.ring = true) (hdrain : s.dev.drainBank ≠ none) :
    Answers (.bankSwap c) s (fun e => s.dev.Frame e [.cl, .hr] [R.HR_RING_DIDX c.ring] ∧
      e.cl.held.length = s.dev.cl.held.length + 1 ∧ (e.ring c.ring).busy = true) := by
  have hhold : (s.dev.takeCommand c.ring).Frame ((s.dev.takeCommand c.ring).hold (s.dev.heldCmd c 4)) [.cl]
      [R.HR_RING_DIDX c.ring] := Dev.frame_cl _ _ _ (by simp)
  refine answers_held hs rfl hready ?_
  rw [Dev.runHeld_swap _ rfl, s.dev.drainBank_takeCommand, if_pos (Option.isSome_iff_ne_none.2 hdrain)]
  refine ⟨Dev.Frame.settle (((s.dev.frame_takeCommand c.ring).mono (by simp) (by simp)).trans (hhold.mono (by simp) (by simp))),
    ?_, ?_⟩
  · rw [Dev.settle_cl, Dev.hold, List.length_append, s.dev.cl_takeCommand, List.length_singleton]
  · rw [(Dev.keepsRings_settle _).busy, (hhold.keepsRings (by decide) fun _ h => h).busy, s.dev.busy_takeCommand]

end

/-! The end of a drain (R279). -/

/-- The time of a drain in nanoseconds: 1.6 a tick, rounded (R279). -/
def Dev.drainTime (d : Dev) : Nat := ((d.ticks - d.cl.drainAt) * 8 + 4) / 5

/-- The report of a drain that has ended, and of the longest one. -/
def Dev.drainShown (d : Dev) : Dev :=
  let e := d.setFlag R.CL_BANK_STAT F.CL_BANK_STAT_draining false
  if e.fld R.CL_DRAIN_MAX F.CL_DRAIN_MAX_ns < d.drainTime then
    e.setFld R.CL_DRAIN_MAX F.CL_DRAIN_MAX_ns (min d.drainTime 0xFFFF)
  else e

/-- A drain has ended, its swap's completion apart. -/
def Dev.drainEnded (d : Dev) : Dev := { d.drainShown with cl := { d.drainShown.cl with swap := none } }

section
variable (d : Dev)

theorem Dev.drainShown_cases : d.drainShown = d.setFlag R.CL_BANK_STAT F.CL_BANK_STAT_draining false ∨
    ∃ n, d.drainShown =
      (d.setFlag R.CL_BANK_STAT F.CL_BANK_STAT_draining false).setFld R.CL_DRAIN_MAX F.CL_DRAIN_MAX_ns n := by
  unfold Dev.drainShown
  dsimp only
  split
  · exact .inr ⟨_, rfl⟩
  · exact .inl rfl

theorem Dev.cl_drainShown : d.drainShown.cl = d.cl := by
  rcases d.drainShown_cases with h | ⟨n, h⟩ <;> rw [h, Dev.setFlag] <;> rfl

theorem Dev.frame_drainShown : d.Frame d.drainShown [] [R.CL_BANK_STAT, R.CL_DRAIN_MAX] := by
  have hflag := d.frame_setFlag (r := [R.CL_BANK_STAT, R.CL_DRAIN_MAX]) F.CL_BANK_STAT_draining false [] List.mem_cons_self
  rcases d.drainShown_cases with h | ⟨n, h⟩ <;> rw [h]
  · exact hflag
  · exact hflag.trans (Dev.frame_setFld _ _ _ _ (by simp))

theorem Dev.frame_drainEnded : d.Frame d.drainEnded [.cl] [R.CL_BANK_STAT, R.CL_DRAIN_MAX] :=
  (d.frame_drainShown.mono (List.nil_subset _) (List.Subset.refl _)).trans (Dev.frame_cl _ _ _ (by simp))

theorem Dev.cl_drainEnded : d.drainEnded.cl = { d.cl with swap := none } := by rw [Dev.drainEnded, d.cl_drainShown]

/-- The bank report of a drain that has ended: its flag alone has changed. -/
theorem Dev.bankStat_drainEnded (f : Field) : d.drainEnded.fld R.CL_BANK_STAT f =
    (d.setFlag R.CL_BANK_STAT F.CL_BANK_STAT_draining false).fld R.CL_BANK_STAT f := by
  have hreg : d.drainEnded.fld R.CL_BANK_STAT f = d.drainShown.fld R.CL_BANK_STAT f := rfl
  rcases d.drainShown_cases with h | ⟨n, h⟩ <;> rw [hreg, h]
  exact Dev.fld_setFld_ne _ _ _ _ (by decide)

theorem Dev.drainBank_drainEnded : d.drainEnded.drainBank = none := by
  have hflag : d.drainEnded.flag R.CL_BANK_STAT F.CL_BANK_STAT_draining = false := by
    rw [Dev.flag, d.bankStat_drainEnded, ← Dev.flag, Dev.flag_setFlag_same _ _ _ _ (by decide)]
  rw [Dev.drainBank, hflag, if_neg Bool.false_ne_true]

theorem Dev.activeBank_drainEnded : d.drainEnded.activeBank = d.activeBank := by
  rw [Dev.activeBank, d.bankStat_drainEnded, Dev.setFlag, Dev.fld_setFld_clear _ _ _ _ _ (by decide)]
  rfl

theorem Dev.epoch_drainEnded : d.drainEnded.epoch = d.epoch := by
  rw [Dev.epoch, d.bankStat_drainEnded, Dev.setFlag, Dev.fld_setFld_clear _ _ _ _ _ (by decide)]
  rfl

/-- The completion ring of any ring, of whatever number. -/
theorem Dev.cplRing_drainEnded (y : Nat) : d.drainEnded.cplRing y = d.cplRing y := by
  refine d.frame_drainEnded.fld_eq ?_ _
  simp only [List.mem_cons, List.not_mem_nil, or_false, R.HR_RING_CFG, R.CL_BANK_STAT, R.CL_DRAIN_MAX]
  omega

end

/-- The swap whose drain has ended completes. -/
def Dev.swapDone (d : Dev) (o : Origin) : Dev := d.drainEnded.finish o 0 d.drainTime

theorem Dev.frame_swapDone (d : Dev) (o : Origin) :
    d.drainEnded.Frame (d.swapDone o) [.hr] [R.HR_RING_DIDX (d.cplRing o.ring)] := by
  have hfinish := d.drainEnded.frame_finish_good o d.drainTime 0 (status := 0) (by decide)
  rwa [d.cplRing_drainEnded] at hfinish

theorem Dev.cl_swapDone (d : Dev) (o : Origin) : (d.swapDone o).cl = { d.cl with swap := none } := by
  rw [(d.frame_swapDone o).cl_eq (by decide), d.cl_drainEnded]

/-- With no command held there is none to try again. -/
theorem Dev.retryHeld_nil {d : Dev} (h : d.cl.held = []) : d.retryHeld = d := by
  rw [Dev.retryHeld, h, List.foldl_nil, ← h]

/-- BANK_DRAIN_END once no frame with the old stamp is left. -/
theorem answers_bankDrainEnd {s : State} {b : Nat} {o : Origin} {Q : Dev → Prop} (hs : s.Up) (hb : s.dev.drainBank = some b)
    (ho : s.dev.cl.swap = some o) (hidle : s.dev.inflight b = 0) (hQ : Q (s.dev.swapDone o).retryHeld.settle) :
    Answers .bankDrainEnd s Q := by
  refine .of_running hs (show execBankDrainEnd s = running s _ from rfl) ?_
  dsimp only
  rw [hb, ho]
  dsimp only
  rw [if_neg (not_not.2 hidle)]
  exact hQ

theorem drain_ended {s : State} {b : Nat} {o : Origin} (hs : s.Up) (hb : s.dev.drainBank = some b)
    (ho : s.dev.cl.swap = some o) (hidle : s.dev.inflight b = 0) (hheld : s.dev.cl.held = []) :
    Answers .bankDrainEnd s (fun e =>
      s.dev.Frame e [.hr, .cl] (R.CL_BANK_STAT :: R.CL_DRAIN_MAX :: s.dev.cmdRegs o.ring) ∧ e.drainBank = none ∧
        e.cl.swap = none ∧ e.activeBank = s.dev.activeBank ∧ e.epoch = s.dev.epoch ∧ (e.ring o.ring).busy = false) := by
  have hcl := s.dev.cl_swapDone o
  have hdone := s.dev.frame_swapDone o
  have hstat := bankStat_ne_ring (s.dev.cplRing o.ring)
  refine answers_bankDrainEnd hs hb ho hidle ?_
  rw [Dev.retryHeld_nil (by rw [hcl, hheld]), Dev.drainBank_settle, Dev.activeBank_settle, Dev.epoch_settle, Dev.settle_cl,
    hdone.drainBank_eq hstat, hdone.activeBank_eq hstat, hdone.epoch_eq hstat, hcl, Dev.drainBank_drainEnded,
    Dev.activeBank_drainEnded, Dev.epoch_drainEnded]
  refine ⟨Dev.Frame.settle ((s.dev.frame_drainEnded.mono (by simp) (by simp)).trans (hdone.mono (by simp) (by simp [Dev.cmdRegs]))),
    rfl, rfl, rfl, rfl, ?_⟩
  rw [(Dev.keepsRings_settle _).busy, Dev.swapDone, (Dev.keepsRings_finish _ _ _ _ _).busy, Dev.busy_released]

/-! A shadow base (R277). -/

theorem regSpec_CL_SHADOW_HI : ∀ t : Fin 4, regSpec (R.CL_SHADOW_HI t) =
    some ⟨0x60A04, 4, 0x8, 1, 0x0, 0x00000000, [⟨⟨31, 0⟩, .rw, .any⟩]⟩ := by decide

/-- A write of the high half stores the whole word, and with the low half it registers the table's image. -/
theorem Dev.writeReg_CL_SHADOW_HI (d : Dev) (t : Fin 4) (w : Word) : d.writeReg (R.CL_SHADOW_HI t) w = d.shadowCommit t w := by
  have hblock : R.CL_SHADOW_HI t / 0x10000 = 6 := by simp only [R.CL_SHADOW_HI]; omega
  have hinst : inst (R.CL_SHADOW_HI 0) 8 4 (R.CL_SHADOW_HI t) = some t.val := inst_of_lt (by decide) t.isLt
  have hlim : inst (R.CL_WHEY_LIM 0) 4 16 (R.CL_SHADOW_HI t) = none := by
    simp only [inst, R.CL_WHEY_LIM, R.CL_SHADOW_HI]
    exact if_neg (by omega)
  have hmode : R.CL_SHADOW_HI t ≠ R.CL_TBL_CFG := by simp only [R.CL_SHADOW_HI, R.CL_TBL_CFG]; omega
  simp only [Dev.writeReg, hblock, Dev.writeCL, if_neg hmode, hlim, hinst]

theorem Dev.store_CL_SHADOW_HI (d : Dev) (t : Fin 4) (w : Word) :
    d.store (R.CL_SHADOW_HI t) w = d.setReg (R.CL_SHADOW_HI t) w := by
  simp [Dev.store, Dev.fieldsStored, regSpec_CL_SHADOW_HI t, FieldSpec.store, WRule.store, putField_whole, getField_whole]

theorem shadow_registered {s : State} (t : Fin 4) (w : Word) (hs : s.Up) :
    Answers (.shadowCommit t w) s (fun e => s.dev.Frame e [.cl] [R.CL_SHADOW_HI t] ∧ e.reg (R.CL_SHADOW_HI t) = w ∧
      sGet none e.cl.shadow t = some ((s.dev.reg (R.CL_SHADOW_LO t)).toNat + 2 ^ 32 * w.toNat)) := by
  refine .of_write hs (by rw [regSpec_CL_SHADOW_HI]; rfl) rfl ?_
  rw [s.dev.writeReg_CL_SHADOW_HI, Dev.shadowCommit, s.dev.store_CL_SHADOW_HI]
  refine ⟨((s.dev.frame_setReg _ _ (by simp)).trans (Dev.frame_cl _ _ _ (by simp))).settle, ?_, ?_⟩
  · rw [Dev.reg_settle]
    exact s.dev.reg_setReg_same _ _
  · rw [Dev.settle_cl, sGet_sPut_same]

/-- Settles O29: the swap with and without a drain in progress, the end of a drain, and the commit of a shadow base. -/
theorem banks : Obligations.Banks := fun _ _ t w hs =>
  ⟨banks_swapped hs, swap_held hs, fun _ _ => drain_ended hs, shadow_registered t w hs⟩

end Sys2Proof.Machine
end

section
/-! PROOF of O28. What the write of one entry of a table does, and of a run of entries; and the commands that write them (R201,
R276, R280, R298). -/

namespace Sys2Proof.Machine

/-! The entries of the tables. -/

theorem Dev.Frame.tableEntry_eq {d e : Dev} {p : List Part} {r : List Nat} (h : d.Frame e p r) (htg : Part.tg ∉ p)
    (hsw : Part.sw ∉ p) (hcl : Part.cl ∉ p) (t j : Nat) : e.tableEntry t j = d.tableEntry t j := by
  unfold Dev.tableEntry
  rw [h.tg_eq htg, h.sw_eq hsw, h.cl_eq hcl]

section
variable (d : Dev) (x : Sparse Nat) (m : Mi) (t j : Nat)

/-- The channel map is table 1. -/
theorem Dev.tableEntry_chanMap : ({ d with tg := { d.tg with chanMap := x }, mi := m } : Dev).tableEntry t j =
    if t = 1 then sGet 0 x j else d.tableEntry t j := by
  unfold Dev.tableEntry
  split <;> simp_all

/-- The multicast groups are table 4. -/
theorem Dev.tableEntry_groups : ({ d with sw := { d.sw with groups := x }, mi := m } : Dev).tableEntry t j =
    if t = 4 then sGet 0 x j else d.tableEntry t j := by
  unfold Dev.tableEntry
  split <;> simp_all

/-- The ternary entries of the two banks are tables 5 and 6. -/
theorem Dev.tableEntry_tern : ({ d with cl := { d.cl with tern := x }, mi := m } : Dev).tableEntry t j =
    if t = 5 ∨ t = 6 then sGet 0 x ((t - 5) * 16384 + j) else d.tableEntry t j := by
  unfold Dev.tableEntry
  split <;> simp_all

/-- The action entries of the two banks are tables 7 and 8. -/
theorem Dev.tableEntry_act : ({ d with cl := { d.cl with act := x }, mi := m } : Dev).tableEntry t j =
    if t = 7 ∨ t = 8 then sGet 0 x ((t - 7) * 65536 + j) else d.tableEntry t j := by
  unfold Dev.tableEntry
  split <;> simp_all

/-- The push templates of the two banks are tables 9 and 10. -/
theorem Dev.tableEntry_tpl : ({ d with cl := { d.cl with tpl := x }, mi := m } : Dev).tableEntry t j =
    if t = 9 ∨ t = 10 then sGet 0 x ((t - 9) * 256 + j) else d.tableEntry t j := by
  unfold Dev.tableEntry
  split <;> simp_all

end

/-- The tables of R298 but for the coincidence units, with the entries of those whose key depends on the bank. -/
theorem tableShape_cases {t size limit : Nat} (h : tableShape t = some (size, limit)) (ht : t ≠ 2) :
    t = 1 ∨ t = 3 ∨ t = 4 ∨ (t = 5 ∨ t = 6) ∧ limit = 16384 ∨ (t = 7 ∨ t = 8) ∧ limit = 65536 ∨
      (t = 9 ∨ t = 10) ∧ limit = 256 := by
  unfold tableShape at h
  split at h <;> simp_all

/-- From `d` to `e` the entries k to k + m - 1 of a run have been written, from index `first` of table t on, and no other entry of
any table: no unit's and no exact-match entry either (R276). -/
structure Dev.Writes (d e : Dev) (t size first : Nat) (bs : List Byte) (k m : Nat) : Prop where
  frame  : d.Frame e [.sw, .tg, .cl, .mi] []
  rings  : d.KeepsRings e
  entry  : t ≠ 3 → ∀ j, k ≤ j → j < k + m → e.tableEntry t (first + j) = leNat (octets bs (size * j) size)
  action : t = 3 → ∀ j, k ≤ j → j < k + m → sGet [] e.tg.actTab (first + j) = entryWords 8 (octets bs (size * j) size)
  other  : ∀ t' j size' limit', tableShape t' = some (size', limit') → j < limit' →
    (t' ≠ t ∨ j < first + k ∨ first + k + m ≤ j) → e.tableEntry t' j = d.tableEntry t' j
  kept   : ∀ j, j < first + k ∨ first + k + m ≤ j → sGet [] e.tg.actTab j = sGet [] d.tg.actTab j
  em     : e.cl.em = d.cl.em
  units  : e.tg.unitTab = d.tg.unitTab

section
variable {d e f : Dev} {t size limit first k m : Nat} {bs : List Byte} {image : Bool}

theorem Dev.Writes.nil (d : Dev) (t size first : Nat) (bs : List Byte) (k : Nat) : d.Writes d t size first bs k 0 :=
  ⟨.refl _ _ _, .refl d, fun _ _ _ _ => by omega, fun _ _ _ _ => by omega, fun _ _ _ _ _ _ _ => rfl, fun _ _ => rfl, rfl, rfl⟩

/-- One entry, and then the entries after it. -/
theorem Dev.Writes.cons (hshape : tableShape t = some (size, limit)) (hk : first + k < limit)
    (h : d.Writes e t size first bs k 1) (h' : e.Writes f t size first bs (k + 1) m) :
    d.Writes f t size first bs k (m + 1) where
  frame := h.frame.trans h'.frame
  rings := h.rings.trans h'.rings
  entry ht j hlo hhi := by
    rcases Nat.eq_or_lt_of_le hlo with rfl | hlt
    · rw [h'.other t _ size limit hshape hk (.inr (.inl (by omega))), h.entry ht k (Nat.le_refl _) (by omega)]
    · exact h'.entry ht j hlt (by omega)
  action ht j hlo hhi := by
    rcases Nat.eq_or_lt_of_le hlo with rfl | hlt
    · rw [h'.kept _ (.inl (by omega)), h.action ht k (Nat.le_refl _) (by omega)]
    · exact h'.action ht j hlt (by omega)
  other t' j size' limit' hs hj hne :=
    (h'.other t' j size' limit' hs hj (by omega)).trans (h.other t' j size' limit' hs hj (by omega))
  kept j hj := (h'.kept j (by omega)).trans (h.kept j (by omega))
  em := h'.em.trans h.em
  units := h'.units.trans h.units

/-- What the tables hold, replaced. -/
theorem Dev.frame_tables (d : Dev) (x : Sw) (y : Tg) (z : Cl) (w : Mi) :
    d.Frame { d with sw := x, tg := y, cl := z, mi := w } [.sw, .tg, .cl, .mi] [] :=
  (((d.frame_sw x _ (by simp)).trans (Dev.frame_tg _ y _ (by simp))).trans (Dev.frame_cl _ z _ (by simp))).trans
    (Dev.frame_mi _ w _ (by simp))

/-- One entry of a table that is kept as a number. -/
theorem Dev.Writes.number {x : Sw} {y : Tg} {z : Cl} {w : Mi} (he : e = { d with sw := x, tg := y, cl := z, mi := w })
    (ht : t ≠ 3) (hsame : e.tableEntry t (first + k) = leNat (octets bs (size * k) size))
    (hother : ∀ t' j size' limit', tableShape t' = some (size', limit') → j < limit' → (t' ≠ t ∨ j ≠ first + k) →
      e.tableEntry t' j = d.tableEntry t' j)
    (hact : y.actTab = d.tg.actTab) (hem : z.em = d.cl.em) (hunits : y.unitTab = d.tg.unitTab) :
    d.Writes e t size first bs k 1 := by
  subst he
  refine ⟨d.frame_tables x y z w, Dev.keepsRings_of_hr rfl fun _ h => h, fun _ j hlo hhi => ?_, fun h => absurd h ht,
    fun t' j size' limit' hs hj hne => hother t' j size' limit' hs hj (by omega), fun j _ => ?_, hem, hunits⟩
  · rw [show j = k by omega, hsame]
  · exact congrArg (fun tab => sGet [] tab j) hact

/-- Entries of a pair of banks lie apart. -/
theorem bankKey_ne {b n i j t t' : Nat} (ht : t = b ∨ t = b + 1) (ht' : t' = b ∨ t' = b + 1) (hi : i < n) (hj : j < n)
    (hne : t' ≠ t ∨ j ≠ i) : (t' - b) * n + j ≠ (t - b) * n + i := by
  rcases ht with rfl | rfl <;> rcases ht' with rfl | rfl <;> simp <;> omega

/-- One entry of a table of a bank, which lies in one store with those of the other bank. -/
theorem Dev.Writes.banked {z : Cl} {w : Mi} {old : Sparse Nat} {b n : Nat} (he : e = { d with cl := z, mi := w })
    (ht : t = b ∨ t = b + 1) (hb : 3 < b) (hk : first + k < n)
    (hlimit : ∀ t' size' limit', tableShape t' = some (size', limit') → (t' = b ∨ t' = b + 1) → limit' = n)
    (hold : ∀ t' j, (t' = b ∨ t' = b + 1) → d.tableEntry t' j = sGet 0 old ((t' - b) * n + j))
    (hnew : ∀ t' j, e.tableEntry t' j = if t' = b ∨ t' = b + 1
      then sGet 0 (sPut 0 old ((t - b) * n + (first + k)) (leNat (octets bs (size * k) size))) ((t' - b) * n + j)
      else d.tableEntry t' j) (hem : z.em = d.cl.em) : d.Writes e t size first bs k 1 := by
  refine .number (x := d.sw) (y := d.tg) he (by omega) ?_ (fun t' j size' limit' hs hj hne => ?_) rfl hem rfl
  · rw [hnew, if_pos ht, sGet_sPut_same]
  · rw [hnew]
    split
    · next ht' =>
      rw [sGet_sPut_ne _ _ _ _ (bankKey_ne ht ht' hk (hlimit t' size' limit' hs ht' ▸ hj) hne), hold t' j ht']
    · rfl

theorem Dev.writeEntry_chanMap (d : Dev) (i : Nat) (bs : List Byte) (image : Bool) : ∃ m, d.writeEntry 1 i bs image =
    some { d with tg := { d.tg with chanMap := sPut 0 d.tg.chanMap i (leNat bs) }, mi := m } := ⟨_, rfl⟩

theorem Dev.writeEntry_actTab (d : Dev) (i : Nat) (bs : List Byte) (image : Bool) : ∃ m, d.writeEntry 3 i bs image =
    some { d with tg := { d.tg with actTab := sPut [] d.tg.actTab i (entryWords 8 bs) }, mi := m } := ⟨_, rfl⟩

theorem Dev.writeEntry_groups (d : Dev) (i : Nat) (bs : List Byte) (image : Bool) : ∃ m, d.writeEntry 4 i bs image =
    some { d with sw := { d.sw with groups := sPut 0 d.sw.groups i (leNat bs) }, mi := m } := ⟨_, rfl⟩

theorem Dev.writeEntry_tern (d : Dev) (i : Nat) (bs : List Byte) (image : Bool) (ht : t = 5 ∨ t = 6) : ∃ m,
    d.writeEntry t i bs image =
      some { d with cl := { d.cl with tern := sPut 0 d.cl.tern ((t - 5) * 16384 + i) (leNat bs) }, mi := m } := by
  rcases ht with rfl | rfl <;> exact ⟨_, rfl⟩

theorem Dev.writeEntry_act (d : Dev) (i : Nat) (bs : List Byte) (image : Bool) (ht : t = 7 ∨ t = 8) : ∃ m,
    d.writeEntry t i bs image =
      some { d with cl := { d.cl with act := sPut 0 d.cl.act ((t - 7) * 65536 + i) (leNat bs) }, mi := m } := by
  rcases ht with rfl | rfl <;> exact ⟨_, rfl⟩

theorem Dev.writeEntry_tpl (d : Dev) (i : Nat) (bs : List Byte) (image : Bool) (ht : t = 9 ∨ t = 10) : ∃ m,
    d.writeEntry t i bs image =
      some { d with cl := { d.cl with tpl := sPut 0 d.cl.tpl ((t - 9) * 256 + i) (leNat bs) }, mi := m } := by
  rcases ht with rfl | rfl <;> exact ⟨_, rfl⟩

/-- An entry of a table, but for a unit's, is written and nothing else. -/
theorem Dev.writeEntry_writes (d : Dev) (bs : List Byte) (image : Bool) (hshape : tableShape t = some (size, limit)) (ht : t ≠ 2)
    (hk : first + k < limit) : ∃ e, d.writeEntry t (first + k) (octets bs (size * k) size) image = some e ∧
      d.Writes e t size first bs k 1 := by
  rcases tableShape_cases hshape ht with rfl | rfl | rfl | ⟨ht, hlimit⟩ | ⟨ht, hlimit⟩ | ⟨ht, hlimit⟩
  · obtain ⟨m, he⟩ := d.writeEntry_chanMap (first + k) (octets bs (size * k) size) image
    refine ⟨_, he, .number (x := d.sw) (z := d.cl) rfl (by decide) ?_ (fun t' j _ _ _ _ hne => ?_) rfl rfl rfl⟩
    · rw [Dev.tableEntry_chanMap, if_pos rfl, sGet_sPut_same]
    · rw [Dev.tableEntry_chanMap]
      split
      · next h => rw [h, sGet_sPut_ne _ _ _ _ (by omega)]; rfl
      · rfl
  · obtain ⟨m, he⟩ := d.writeEntry_actTab (first + k) (octets bs (size * k) size) image
    refine ⟨_, he, d.frame_tables d.sw _ d.cl m, Dev.keepsRings_of_hr rfl fun _ h => h, fun h => absurd rfl h,
      fun _ j hlo hhi => ?_, fun _ _ _ _ _ _ _ => rfl, fun j hj => sGet_sPut_ne _ _ _ _ (by omega), rfl, rfl⟩
    rw [show j = k by omega]
    exact sGet_sPut_same _ _ _ _
  · obtain ⟨m, he⟩ := d.writeEntry_groups (first + k) (octets bs (size * k) size) image
    refine ⟨_, he, .number (y := d.tg) (z := d.cl) rfl (by decide) ?_ (fun t' j _ _ _ _ hne => ?_) rfl rfl rfl⟩
    · rw [Dev.tableEntry_groups, if_pos rfl, sGet_sPut_same]
    · rw [Dev.tableEntry_groups]
      split
      · next h => rw [h, sGet_sPut_ne _ _ _ _ (by omega)]; rfl
      · rfl
  · obtain ⟨m, he⟩ := d.writeEntry_tern (first + k) (octets bs (size * k) size) image ht
    exact ⟨_, he, .banked rfl ht (by decide) (hlimit ▸ hk) (fun t' _ _ hs ht' => by have := tableShape_cases hs; omega)
      (fun t' j ht' => by rcases ht' with rfl | rfl <;> rfl) (Dev.tableEntry_tern d _ m) rfl⟩
  · obtain ⟨m, he⟩ := d.writeEntry_act (first + k) (octets bs (size * k) size) image ht
    exact ⟨_, he, .banked rfl ht (by decide) (hlimit ▸ hk) (fun t' _ _ hs ht' => by have := tableShape_cases hs; omega)
      (fun t' j ht' => by rcases ht' with rfl | rfl <;> rfl) (Dev.tableEntry_act d _ m) rfl⟩
  · obtain ⟨m, he⟩ := d.writeEntry_tpl (first + k) (octets bs (size * k) size) image ht
    exact ⟨_, he, .banked rfl ht (by decide) (hlimit ▸ hk) (fun t' _ _ hs ht' => by have := tableShape_cases hs; omega)
      (fun t' j ht' => by rcases ht' with rfl | rfl <;> rfl) (Dev.tableEntry_tpl d _ m) rfl⟩

/-- A run of entries of a table, but for the units', is written up to the table's end. -/
theorem Dev.writeTable_writes (d : Dev) (bs : List Byte) (image : Bool) (hshape : tableShape t = some (size, limit)) (ht : t ≠ 2)
    (first k n : Nat) : ∃ e m st, d.writeTable t size limit first bs image k n = (e, k + m, st) ∧
      d.Writes e t size first bs k m ∧ st ≠ .waits ∧ (first + k + n ≤ limit → m = n ∧ st = .all) := by
  induction n generalizing d k with
  | zero => exact ⟨d, 0, .all, rfl, .nil .., by decide, fun _ => ⟨rfl, rfl⟩⟩
  | succ n ih =>
    by_cases hk : limit ≤ first + k
    · exact ⟨d, 0, .badIndex, if_pos hk, .nil .., by decide, fun h => by omega⟩
    · obtain ⟨e, he, hone⟩ := d.writeEntry_writes bs image hshape ht (Nat.lt_of_not_le hk)
      obtain ⟨f, m, st, hf, hrest, hst, hall⟩ := ih e (k + 1)
      refine ⟨f, m + 1, st, ?_, hone.cons hshape (Nat.lt_of_not_le hk) hrest, hst, fun h => ?_⟩
      · rw [Dev.writeTable, if_neg hk, he]
        dsimp only
        rw [hf, Nat.add_right_comm, Nat.add_assoc]
      · obtain ⟨rfl, hst⟩ := hall (by omega)
        exact ⟨rfl, hst⟩

end

/-! A table write as a command (R276, R280, R298). -/

/-- A table command whose bank does not drain ends where its run of entries ends. -/
theorem Dev.runHeld_table {d e : Dev} {h : HeldCmd} {size limit k : Nat} {st : Ended} (hop : h.op = 1)
    (hshape : tableShape (h.desc.arg0.toNat / 2 ^ 24) = some (size, limit))
    (hbank : (tableBank (h.desc.arg0.toNat / 2 ^ 24)).isSome = true →
      tableBank (h.desc.arg0.toNat / 2 ^ 24) ≠ d.drainBank)
    (hrun : d.writeTable (h.desc.arg0.toNat / 2 ^ 24) size limit (h.desc.arg0.toNat % 2 ^ 24) h.desc.data false h.done
      (entriesOf h.desc - h.done) = (e, k, st)) (hst : st ≠ .waits) :
    d.runHeld h = e.finish h.origin st.status k := by
  have hfree : ¬ ((tableBank (h.desc.arg0.toNat / 2 ^ 24)).isSome &&
      tableBank (h.desc.arg0.toNat / 2 ^ 24) == d.drainBank) = true := by
    simpa using hbank
  unfold Dev.runHeld
  dsimp only
  rw [if_neg (by omega), if_pos hop, hshape]
  dsimp only
  rw [if_neg hfree, hrun]
  exact if_neg hst

/-- An exact-match command none of whose entries waits ends where its run of entries ends. -/
theorem Dev.runHeld_em {d e : Dev} {h : HeldCmd} {k : Nat} {st : Ended} (hop : h.op = 2 ∨ h.op = 3)
    (hrun : d.runEm (h.op == 2) h.desc.data false h.done (entriesOf h.desc - h.done) = (e, k, st)) (hst : st ≠ .waits) :
    d.runHeld h = e.finish h.origin st.status k := by
  unfold Dev.runHeld
  dsimp only
  rw [if_neg (by omega), if_neg (by omega), hrun]
  exact if_neg hst

section
variable {s : State} {c : CmdDesc} {u : Dev} {k op : Nat} {st : Ended} {p : List Part} {r : List Nat} {Q : Dev → Prop}

theorem Answers.imp {i : Instr} {Q' : Dev → Prop} (h : Answers i s Q) (hQ : ∀ e, Q e → Q' e) : Answers i s Q' := by
  obtain ⟨t, hexec, hpending, hq⟩ := h
  exact ⟨t, hexec, hpending, hQ _ hq⟩

/-- A command that has changed the tables alone: its whole frame, its completion, and what else holds of the device then. -/
theorem answers_tables {i : Instr} (hs : s.Up) (hi : exec i s = running s fun d => d.startHeld c op)
    (hready : s.dev.cmdReady c.ring = true)
    (hrun : (s.dev.takeCommand c.ring).runHeld (s.dev.heldCmd c op) = u.finish (s.dev.cmdOrigin c op) st.status k)
    (hframe : (s.dev.takeCommand c.ring).Frame u p []) (hrings : (s.dev.takeCommand c.ring).KeepsRings u)
    (hr : s.dev.cmdRegs c.ring ⊆ r)
    (hQ : Q (u.finish (s.dev.cmdOrigin c op) st.status k).settle) :
    Answers i s (fun e => s.dev.Frame e (.hr :: p) r ∧ Completes c op st.status k 0 s.dev e ∧ Q e) := by
  have hexec := (Dev.executes_takeCommand hready).keep hframe (by simp) c.ring.isLt hrings
  have hwhole : s.dev.Frame u (.hr :: p) r := ((s.dev.frame_taken c).mono (by simp) hr).trans
    (hframe.mono (List.subset_cons_self _ _) (List.nil_subset _))
  obtain ⟨hall, hdone⟩ := hexec.ended hready hwhole List.mem_cons_self hr op st.status k 0
  refine answers_held hs hi hready ?_
  rw [hrun]
  exact ⟨hall, hdone, hQ⟩

end

/-- What a command leaves of the tables when it completes. -/
theorem Dev.frame_finish_settle (d : Dev) (o : Origin) (status r0 r1 : Nat) :
    d.Frame (d.finish o status r0 r1).settle [.hr] (R.HR_RING_DIDX (d.cplRing o.ring) :: failureRegs) :=
  (d.frame_finish o status r0 r1).settle

theorem Dev.tableEntry_finish_settle (d : Dev) (o : Origin) (status r0 r1 t j : Nat) :
    (d.finish o status r0 r1).settle.tableEntry t j = d.tableEntry t j :=
  (d.frame_finish_settle o status r0 r1).tableEntry_eq (by decide) (by decide) (by decide) t j

theorem Dev.tableEntry_takeCommand (d : Dev) (y t j : Nat) : (d.takeCommand y).tableEntry t j = d.tableEntry t j :=
  (d.frame_takeCommand y).tableEntry_eq (by decide) (by decide) (by decide) t j

theorem Dev.tg_takeCommand (d : Dev) (y : Nat) : (d.takeCommand y).tg = d.tg := (d.frame_takeCommand y).tg_eq (by decide)

section
variable {s : State} {c : CmdDesc} {size limit : Nat}
  (hshape : tableShape (c.arg0.toNat / 2 ^ 24) = some (size, limit))
  (hbank : (tableBank (c.arg0.toNat / 2 ^ 24)).isSome = true → tableBank (c.arg0.toNat / 2 ^ 24) ≠ s.dev.drainBank)
include hshape hbank

/-- A table write is a run of entries, and a completion that tells how many and how it ended. -/
theorem table_run (ht : c.arg0.toNat / 2 ^ 24 ≠ 2) : ∃ (u : Dev) (m : Nat) (st : Ended),
    (s.dev.takeCommand c.ring).runHeld (s.dev.heldCmd c 1) = u.finish (s.dev.cmdOrigin c 1) st.status m ∧
    (s.dev.takeCommand c.ring).Writes u (c.arg0.toNat / 2 ^ 24) size (c.arg0.toNat % 2 ^ 24) c.data 0 m ∧
    (c.arg0.toNat % 2 ^ 24 + entriesOf c ≤ limit → m = entriesOf c ∧ st = .all) := by
  obtain ⟨u, m, st, hrun, hwrites, hst, hall⟩ := (s.dev.takeCommand c.ring).writeTable_writes c.data false hshape ht
    (c.arg0.toNat % 2 ^ 24) 0 (entriesOf c)
  rw [Nat.zero_add] at hrun
  refine ⟨u, m, st, Dev.runHeld_table rfl hshape ?_ hrun hst, hwrites, hall⟩
  rw [s.dev.drainBank_takeCommand]
  exact hbank

theorem table_written (hs : s.Up) (hready : s.dev.cmdReady c.ring = true)
    (ht : c.arg0.toNat / 2 ^ 24 ≠ 2) (hfits : c.arg0.toNat % 2 ^ 24 + entriesOf c ≤ limit) :
    Answers (.tblWrite c) s (fun e => s.dev.Frame e [.hr, .sw, .tg, .cl, .mi] (s.dev.cmdRegs c.ring) ∧
      Completes c 1 0 (entriesOf c) 0 s.dev e ∧
      (c.arg0.toNat / 2 ^ 24 ≠ 3 → ∀ k < entriesOf c, e.tableEntry (c.arg0.toNat / 2 ^ 24) (c.arg0.toNat % 2 ^ 24 + k) =
        leNat (octets c.data (size * k) size)) ∧
      (c.arg0.toNat / 2 ^ 24 = 3 → ∀ k < entriesOf c, sGet [] e.tg.actTab (c.arg0.toNat % 2 ^ 24 + k) =
        entryWords 8 (octets c.data (32 * k) 32)) ∧
      (∀ j < limit, j < c.arg0.toNat % 2 ^ 24 ∨ c.arg0.toNat % 2 ^ 24 + entriesOf c ≤ j →
        e.tableEntry (c.arg0.toNat / 2 ^ 24) j = s.dev.tableEntry (c.arg0.toNat / 2 ^ 24) j) ∧
      e.cl.em = s.dev.cl.em ∧ e.tg.unitTab = s.dev.tg.unitTab) := by
  obtain ⟨u, m, st, hrun, hwrites, hall⟩ := table_run hshape hbank ht
  obtain ⟨rfl, rfl⟩ := hall hfits
  have hend := u.frame_finish_settle (s.dev.cmdOrigin c 1) Ended.all.status (entriesOf c) 0
  refine answers_tables (op := 1) (st := .all) hs rfl hready hrun hwrites.frame hwrites.rings (List.Subset.refl _)
    ⟨fun hnum k hk => ?_, fun hact k hk => ?_, fun j hj hout => ?_, ?_, ?_⟩
  · rw [Dev.tableEntry_finish_settle, hwrites.entry hnum k (Nat.zero_le k) (by omega)]
  · have hsize : size = 32 := by
      rw [hact] at hshape
      exact (congrArg Prod.fst (Option.some.inj hshape)).symm
    rw [hend.tg_eq (by decide), hwrites.action hact k (Nat.zero_le k) (by omega), hsize]
  · rw [Dev.tableEntry_finish_settle, hwrites.other _ j size limit hshape hj (by omega), Dev.tableEntry_takeCommand]
  · rw [hend.cl_eq (by decide), hwrites.em, Dev.cl_takeCommand]
  · rw [hend.tg_eq (by decide), hwrites.units, Dev.tg_takeCommand]

theorem table_beyond (hs : s.Up) (hready : s.dev.cmdReady c.ring = true) (hi : limit ≤ c.arg0.toNat % 2 ^ 24) :
    Answers (.tblWrite c) s (fun e => s.dev.Frame e [.hr] (s.dev.cmdRegs c.ring) ∧
      Completes c 1 4 0 0 s.dev e ∧ e.cl = s.dev.cl ∧ e.sw = s.dev.sw ∧
      e.tg.chanMap = s.dev.tg.chanMap ∧ e.tg.actTab = s.dev.tg.actTab) := by
  have hend := ((s.dev.frame_takeCommand c.ring).mono (List.Subset.refl _) (List.subset_append_left _ _)).trans
    (((s.dev.takeCommand c.ring).frame_finish_settle (s.dev.cmdOrigin c 1) Ended.badIndex.status 0 0).mono
      (List.Subset.refl _) (List.subset_append_right _ _))
  have hrun : (s.dev.takeCommand c.ring).writeTable (c.arg0.toNat / 2 ^ 24) size limit (c.arg0.toNat % 2 ^ 24) c.data false 0
      (entriesOf c) = (s.dev.takeCommand c.ring, 0, .badIndex) := by
    obtain ⟨n, hn⟩ := Nat.exists_eq_succ_of_ne_zero (entriesOf_ne_zero c)
    rw [hn]
    exact if_pos hi
  refine answers_tables (op := 1) (st := .badIndex) (k := 0) (p := []) hs rfl hready
    (Dev.runHeld_table rfl hshape ?_ hrun (by decide)) (.refl _ _ _) (.refl _) (List.Subset.refl _)
    ⟨hend.cl_eq (by decide), hend.sw_eq (by decide), ?_, ?_⟩
  · rw [s.dev.drainBank_takeCommand]
    exact hbank
  · rw [hend.tg_eq (by decide)]
  · rw [hend.tg_eq (by decide)]

theorem table_apart (hs : s.Up) (hready : s.dev.cmdReady c.ring = true)
    (ht : c.arg0.toNat / 2 ^ 24 ≠ 2) {t' j size' limit' : Nat} (hshape' : tableShape t' = some (size', limit'))
    (hne : t' ≠ c.arg0.toNat / 2 ^ 24) (hj : j < limit') : Answers (.tblWrite c) s (fun e =>
      s.dev.Frame e [.hr, .sw, .tg, .cl, .mi] (R.CL_ALARM :: s.dev.cmdRegs c.ring) ∧
        e.tableEntry t' j = s.dev.tableEntry t' j) := by
  obtain ⟨u, m, st, hrun, hwrites, -⟩ := table_run hshape hbank ht
  have hkept : (u.finish (s.dev.cmdOrigin c 1) st.status m).settle.tableEntry t' j = s.dev.tableEntry t' j := by
    rw [Dev.tableEntry_finish_settle, hwrites.other t' j size' limit' hshape' hj (.inl hne), Dev.tableEntry_takeCommand]
  exact (answers_tables (Q := fun e => e.tableEntry t' j = s.dev.tableEntry t' j) hs rfl hready hrun hwrites.frame hwrites.rings
    (List.subset_cons_self R.CL_ALARM _) hkept).imp fun _ ⟨hframe, _, hq⟩ => ⟨hframe, hq⟩

end

/-! A unit's entry (R201). -/

/-- A unit's entry is well formed and its unit OFF. -/
def Dev.unitFree (d : Dev) (i : Nat) (es : List Word) : Prop :=
  unitEntryOk es = true ∧ d.fld (R.TG_CU_CTRL i) F.TG_CU_CTRL_state = enOff

/-- The entries of unit `i`, replaced, and what the write notes of the memory. -/
def Dev.unitPut (d : Dev) (i : Nat) (es : List Word) (m : Mi) : Dev :=
  { d with tg := { d.tg with unitTab := sPut [] d.tg.unitTab i es }, mi := m }

theorem Dev.frame_unitPut (d : Dev) (i : Nat) (es : List Word) (m : Mi) : d.Frame (d.unitPut i es m) [.tg, .mi] [] :=
  (d.frame_tg (p := [.tg, .mi]) { d.tg with unitTab := sPut [] d.tg.unitTab i es } [] (by simp)).trans
    (Dev.frame_mi (p := [.tg, .mi]) _ m [] (by simp))

theorem Dev.keepsRings_unitPut (d : Dev) (i : Nat) (es : List Word) (m : Mi) : d.KeepsRings (d.unitPut i es m) :=
  Dev.keepsRings_of_hr rfl fun _ h => h

section
variable {d e : Dev} {t size limit first i k : Nat} {bs : List Byte} {image : Bool}

theorem Dev.writeTable_one (hi : first + k < limit) (h : d.writeEntry t (first + k) (octets bs (size * k) size) image = some e) :
    d.writeTable t size limit first bs image k 1 = (e, k + 1, .all) := by
  rw [Dev.writeTable, if_neg (Nat.not_le.2 hi), h]
  rfl

theorem Dev.writeTable_refused (hi : first + k < limit)
    (h : d.writeEntry t (first + k) (octets bs (size * k) size) image = none) :
    d.writeTable t size limit first bs image k 1 = (d, k, .refused) := by
  rw [Dev.writeTable, if_neg (Nat.not_le.2 hi), h]

theorem Dev.writeEntry_unit (h : d.unitFree i (entryWords 16 bs)) : ∃ m, d.writeEntry 2 i bs image =
    some (d.unitPut i (entryWords 16 bs) m) := by
  obtain ⟨hok, hoff⟩ := h
  exact ⟨_, if_pos (by rw [hok, hoff]; rfl)⟩

theorem Dev.writeEntry_unit_refused (h : ¬ d.unitFree i (entryWords 16 bs)) : d.writeEntry 2 i bs image = none := by
  refine if_neg fun hgood => h ?_
  simpa [Dev.unitFree] using hgood

end

section
variable {s : State} {c : CmdDesc} (hs : s.Up) (hready : s.dev.cmdReady c.ring = true) (hone : entriesOf c = 1)
  (ht : c.arg0.toNat / 2 ^ 24 = 2) (hi : c.arg0.toNat % 2 ^ 24 < 4096)
include hs hready hone ht hi

omit hs hready hone ht in
theorem unitFree_takeCommand (es : List Word) : (s.dev.takeCommand c.ring).unitFree (c.arg0.toNat % 2 ^ 24) es ↔
    s.dev.unitFree (c.arg0.toNat % 2 ^ 24) es := by
  have hapart : R.TG_CU_CTRL (c.arg0.toNat % 2 ^ 24) ∉ [R.HR_RING_DIDX c.ring] := by
    simp only [List.mem_singleton, R.TG_CU_CTRL, R.HR_RING_DIDX]
    omega
  rw [Dev.unitFree, Dev.unitFree, (s.dev.frame_takeCommand c.ring).fld_eq hapart]

omit hs hready hi in
/-- A write of one unit's entry is one step of the table, and its completion. -/
theorem unit_run {u : Dev} {k : Nat} {st : Ended} (hst : st ≠ .waits)
    (hrun : (s.dev.takeCommand c.ring).writeTable 2 64 4096 (c.arg0.toNat % 2 ^ 24) c.data false 0 1 = (u, k, st)) :
    (s.dev.takeCommand c.ring).runHeld (s.dev.heldCmd c 1) = u.finish (s.dev.cmdOrigin c 1) st.status k := by
  have hshape : tableShape (c.arg0.toNat / 2 ^ 24) = some (64, 4096) := by rw [ht]; rfl
  have hbank : tableBank (c.arg0.toNat / 2 ^ 24) = none := by rw [ht]; rfl
  refine Dev.runHeld_table (h := s.dev.heldCmd c 1) rfl hshape (fun h => ?_) ?_ hst
  · exact absurd (hbank ▸ h) (by decide)
  · have hlen : entriesOf c - 0 = 1 := hone
    show (s.dev.takeCommand c.ring).writeTable (c.arg0.toNat / 2 ^ 24) 64 4096 (c.arg0.toNat % 2 ^ 24) c.data false 0
      (entriesOf c - 0) = _
    rw [ht, hlen]
    exact hrun

theorem unit_written (hfree : s.dev.unitFree (c.arg0.toNat % 2 ^ 24) (entryWords 16 (octets c.data 0 64))) :
    Answers (.tblWrite c) s (fun e => s.dev.Frame e [.hr, .tg, .mi] (s.dev.cmdRegs c.ring) ∧ Completes c 1 0 1 0 s.dev e ∧
      e.tg = { s.dev.tg with unitTab := e.tg.unitTab } ∧ ∀ j : Nat, j < 4096 → sGet [] e.tg.unitTab j =
        if j = c.arg0.toNat % 2 ^ 24 then entryWords 16 (octets c.data 0 64) else sGet [] s.dev.tg.unitTab j) := by
  obtain ⟨m, hentry⟩ := Dev.writeEntry_unit (image := false) ((unitFree_takeCommand hi _).2 hfree)
  have hrun := unit_run hone ht (by decide) (Dev.writeTable_one (size := 64) (k := 0) hi hentry)
  have hend : (((s.dev.takeCommand c.ring).unitPut (c.arg0.toNat % 2 ^ 24) (entryWords 16 (octets c.data 0 64)) m).finish
      (s.dev.cmdOrigin c 1) Ended.all.status 1).settle.tg = (s.dev.unitPut (c.arg0.toNat % 2 ^ 24)
        (entryWords 16 (octets c.data 0 64)) m).tg := by
    rw [(Dev.frame_finish_settle _ _ _ _ _).tg_eq (by decide), Dev.unitPut, s.dev.tg_takeCommand, Dev.unitPut]
  refine answers_tables (op := 1) (st := .all) (k := 1) hs rfl hready hrun (Dev.frame_unitPut _ _ _ m)
    (Dev.keepsRings_unitPut _ _ _ m) (List.Subset.refl _) ⟨?_, fun j _ => ?_⟩
  · rw [hend, Dev.unitPut]
  · rw [hend, Dev.unitPut]
    dsimp only
    split
    · next h => rw [h, sGet_sPut_same]
    · next h => exact sGet_sPut_ne _ _ _ _ h

theorem unit_refused (hfree : ¬ s.dev.unitFree (c.arg0.toNat % 2 ^ 24) (entryWords 16 (octets c.data 0 64))) :
    Answers (.tblWrite c) s (fun e => s.dev.Frame e [.hr] (s.dev.cmdRegs c.ring) ∧ Completes c 1 1 0 0 s.dev e) := by
  have hentry := Dev.writeEntry_unit_refused (image := false) (mt (unitFree_takeCommand hi _).1 hfree)
  have hrun := unit_run hone ht (by decide) (Dev.writeTable_refused (size := 64) (k := 0) hi hentry)
  exact (answers_tables (Q := fun _ => True) (op := 1) (st := .refused) (k := 0) (p := []) hs rfl hready hrun (.refl _ _ _)
    (.refl _) (List.Subset.refl _) trivial).imp fun _ ⟨hframe, hdone, _⟩ => ⟨hframe, hdone⟩

end

end Sys2Proof.Machine
end

section
/-! PROOF of O28, continued. The line that an exact-match entry takes or leaves, and the commands that add and remove one (R263,
R280). -/

namespace Sys2Proof.Machine

/-! The fields of an entry. -/

/-- An entry as it is stored: valid (R263). -/
def emEntry (v : Nat) : Nat := if emValid v then v else v + 2 ^ 255

theorem emProf_emEntry (v : Nat) : emProf (emEntry v) = emProf v := by
  unfold emEntry
  split
  · rfl
  · simp only [emProf, bits, Nat.shiftRight_eq_div_pow]
    omega

theorem emKey_emEntry (v : Nat) : emKey (emEntry v) = emKey v := by
  unfold emEntry
  split
  · rfl
  · simp only [emKey, bits, Nat.shiftRight_eq_div_pow]
    omega

/-- A valid entry without its top bit is not valid. -/
theorem emValid_cleared {v : Nat} (h : emValid v = true) : emValid (v - 2 ^ 255) = false := by
  simp only [emValid, bit, Nat.testBit_eq_decide_div_mod_eq, decide_eq_true_eq, decide_eq_false_iff_not] at h ⊢
  omega

/-! The lines of a key. -/

theorem mem_emLines_way {w : Nat} (hw : w < 2) {prof key l : Nat}
    (h : l ∈ (List.range 4).map fun s => emLine w (emBucket w prof key) s) : l ∈ emLines prof key :=
  List.mem_flatMap.2 ⟨w, List.mem_range.2 hw, h⟩

section
variable {d : Dev} {prof key l : Nat}

/-- The line found holds a valid entry, and is one of the key's eight. -/
theorem Dev.emFind_some (h : d.emFind prof key = some l) : l ∈ emLines prof key ∧ emValid (d.emAt l) = true := by
  have hhit := List.find?_some h
  simp only [Bool.and_eq_true] at hhit
  obtain ⟨⟨hvalid, -⟩, -⟩ := hhit
  exact ⟨List.mem_of_find?_eq_some h, hvalid⟩

theorem Dev.emFree_mem {w : Nat} (hw : w < 2) (h : d.emFree w (emBucket w prof key) = some l) : l ∈ emLines prof key :=
  mem_emLines_way hw (List.mem_of_find?_eq_some h)

end

/-! The write of a line. -/

section
variable (d : Dev) (l e : Nat) (image : Bool)

/-- The line written, its shadow image in host memory apart. -/
def Dev.emPut : Dev := ({ d with cl := { d.cl with em := sPut 0 d.cl.em l e } } : Dev).lineWritten 1 l image

theorem Dev.frame_emPut : d.Frame (d.emPut l e image) [.cl, .mi] [] :=
  (d.frame_cl (p := [.cl, .mi]) { d.cl with em := sPut 0 d.cl.em l e } [] (by simp)).trans
    (Dev.frame_mi (p := [.cl, .mi]) _ _ [] (by simp))

theorem Dev.cl_emPut : (d.emPut l e image).cl = { d.cl with em := sPut 0 d.cl.em l e } := rfl

/-- The shadow image in host memory follows, where one is registered. -/
theorem Dev.writeEm_cases : d.writeEm l e image = d.emPut l e image ∨
    ∃ base, d.writeEm l e image = (d.emPut l e image).toHost (base + 32 * l) (leBytes 32 e) := by
  unfold Dev.writeEm
  split
  · exact .inr ⟨_, rfl⟩
  · exact .inl rfl

theorem Dev.frame_writeEm : d.Frame (d.writeEm l e image) [.cl, .mi] [] := by
  rcases d.writeEm_cases l e image with h | ⟨base, h⟩ <;> rw [h]
  · exact d.frame_emPut l e image
  · exact (d.frame_emPut l e image).trans (Dev.frame_toHost _ _ _ _ _)

theorem Dev.keepsRings_writeEm : d.KeepsRings (d.writeEm l e image) := by
  have hput : d.KeepsRings (d.emPut l e image) := Dev.keepsRings_of_hr rfl fun _ h => h
  rcases d.writeEm_cases l e image with h | ⟨base, h⟩ <;> rw [h]
  · exact hput
  · exact hput.trans (Dev.keepsRings_toHost _ _ _)

theorem Dev.cl_writeEm : (d.writeEm l e image).cl = { d.cl with em := sPut 0 d.cl.em l e } := by
  rcases d.writeEm_cases l e image with h | ⟨base, h⟩ <;> rw [h, ← d.cl_emPut l e image]
  exact (Dev.frame_toHost _ _ _ [] []).cl_eq (by simp)

end

/-! One entry added or removed (R263). -/

section
variable {d e : Dev} {v : Nat} {image : Bool}

/-- An entry goes to the line of its key, or else to the first free line of its two buckets. -/
theorem Dev.emAdd_room (hroom : d.emFind (emProf v) (emKey v) ≠ none ∨ d.emFree 0 (emBucket 0 (emProf v) (emKey v)) ≠ none ∨
    d.emFree 1 (emBucket 1 (emProf v) (emKey v)) ≠ none) :
    ∃ l ∈ emLines (emProf v) (emKey v), d.emAdd v image = some (d.writeEm l (emEntry v) image) := by
  rw [← emProf_emEntry v, ← emKey_emEntry v] at hroom ⊢
  unfold Dev.emAdd
  dsimp only
  rw [← emEntry.eq_1]
  cases hfind : d.emFind (emProf (emEntry v)) (emKey (emEntry v)) with
  | some l => exact ⟨l, (Dev.emFind_some hfind).1, rfl⟩
  | none =>
    cases hfree : d.emFree 0 (emBucket 0 (emProf (emEntry v)) (emKey (emEntry v))) with
    | some l => exact ⟨l, Dev.emFree_mem (by decide) hfree, rfl⟩
    | none =>
      cases hfree' : d.emFree 1 (emBucket 1 (emProf (emEntry v)) (emKey (emEntry v))) with
      | some l => exact ⟨l, Dev.emFree_mem (by decide) hfree', rfl⟩
      | none => simp_all

theorem Dev.runEm_add {bs : List Byte} {k : Nat} (hwaits : d.emWaits (leNat (octets bs (32 * k) 32)) true = false)
    (hadd : d.emAdd (leNat (octets bs (32 * k) 32)) false = some e) : d.runEm true bs false k 1 = (e, k + 1, .all) := by
  unfold Dev.runEm
  dsimp only
  rw [hwaits, hadd]
  rfl

theorem Dev.runEm_remove {bs : List Byte} {k : Nat} (hwaits : d.emWaits (leNat (octets bs (32 * k) 32)) false = false) :
    d.runEm false bs false k 1 = (d.emRemove (leNat (octets bs (32 * k) 32)), k + 1, .all) := by
  unfold Dev.runEm
  dsimp only
  rw [hwaits]
  rfl

end

/-! The commands. -/

section
variable (d : Dev) (y : Nat)

theorem Dev.mi_takeCommand : (d.takeCommand y).mi = d.mi := (d.frame_takeCommand y).mi_eq (by decide)

theorem Dev.emFind_takeCommand (prof key : Nat) : (d.takeCommand y).emFind prof key = d.emFind prof key := by
  rw [Dev.emFind, Dev.emFind, d.cl_takeCommand]

theorem Dev.emAt_takeCommand (l : Nat) : (d.takeCommand y).emAt l = d.emAt l := by
  rw [Dev.emAt, Dev.emAt, d.cl_takeCommand]

theorem Dev.emFree_takeCommand (w b : Nat) : (d.takeCommand y).emFree w b = d.emFree w b := by
  simp only [Dev.emFree, d.emAt_takeCommand]

theorem Dev.emWaits_takeCommand (v : Nat) (add : Bool) : (d.takeCommand y).emWaits v add = d.emWaits v add := by
  simp only [Dev.emWaits, Dev.emAimed, Dev.diverted, d.mi_takeCommand, d.emFind_takeCommand, d.emAt_takeCommand,
    d.drainBank_takeCommand]

end

section
variable {s : State} {c : CmdDesc}

/-- What a write of one line leaves, once its command has completed. -/
theorem cl_writeEm_settle (l x : Nat) (o : Origin) (k : Nat) :
    (((s.dev.takeCommand c.ring).writeEm l x false).finish o Ended.all.status k).settle.cl =
      { s.dev.cl with em := sPut 0 s.dev.cl.em l x } := by
  rw [(Dev.frame_finish_settle _ _ _ _ _).cl_eq (by decide), Dev.cl_writeEm, s.dev.cl_takeCommand]

variable (hs : s.Up) (hready : s.dev.cmdReady c.ring = true) (hone : entriesOf c = 1) {v : Nat}
  (hv : leNat (octets c.data 0 32) = v)
include hs hready hone hv

theorem em_added (hwaits : s.dev.emWaits v true = false)
    (hroom : s.dev.emFind (emProf v) (emKey v) ≠ none ∨
      s.dev.emFree 0 (emBucket 0 (emProf v) (emKey v)) ≠ none ∨
      s.dev.emFree 1 (emBucket 1 (emProf v) (emKey v)) ≠ none) :
    Answers (.emAdd c) s (fun e => s.dev.Frame e [.hr, .cl, .mi] (s.dev.cmdRegs c.ring) ∧ Completes c 2 0 1 0 s.dev e ∧
      (∃ l ∈ emLines (emProf v) (emKey v),
        e.emAt l = emEntry v ∧ ∀ l', l' ≠ l → e.emAt l' = s.dev.emAt l') ∧
      e.cl.tern = s.dev.cl.tern ∧ e.cl.act = s.dev.cl.act ∧ e.cl.tpl = s.dev.cl.tpl ∧ e.sw = s.dev.sw) := by
  rw [← s.dev.emFind_takeCommand c.ring, ← s.dev.emFree_takeCommand c.ring, ← s.dev.emFree_takeCommand c.ring] at hroom
  obtain ⟨l, hl, hadd⟩ := Dev.emAdd_room (image := false) hroom
  have hrun : (s.dev.takeCommand c.ring).runEm true c.data false 0 (entriesOf c) =
      ((s.dev.takeCommand c.ring).writeEm l (emEntry v) false, 1, .all) := by
    rw [hone]
    subst hv
    exact Dev.runEm_add (k := 0) (by rw [s.dev.emWaits_takeCommand]; exact hwaits) hadd
  have hframe := (s.dev.takeCommand c.ring).frame_writeEm l (emEntry v) false
  have hcl := cl_writeEm_settle (s := s) (c := c) l (emEntry v) (s.dev.cmdOrigin c 2) 1
  refine answers_tables (op := 2) (st := .all) (k := 1) hs rfl hready (Dev.runHeld_em (.inl rfl) hrun (by decide)) hframe
    (Dev.keepsRings_writeEm _ _ _ _) (List.Subset.refl _) ⟨⟨l, hl, ?_, fun l' hne => ?_⟩, ?_, ?_, ?_, ?_⟩
  · rw [Dev.emAt, hcl]
    exact sGet_sPut_same _ _ _ _
  · rw [Dev.emAt, hcl]
    exact sGet_sPut_ne _ _ _ _ hne
  · rw [hcl]
  · rw [hcl]
  · rw [hcl]
  · rw [(Dev.frame_finish_settle _ _ _ _ _).sw_eq (by decide), hframe.sw_eq (by decide),
      (s.dev.frame_takeCommand c.ring).sw_eq (by decide)]

theorem em_removed (hwaits : s.dev.emWaits v false = false) :
    Answers (.emRemove c) s (fun e => s.dev.Frame e [.hr, .cl, .mi] (s.dev.cmdRegs c.ring) ∧ Completes c 3 0 1 0 s.dev e ∧
      (∀ l, s.dev.emFind (emProf v) (emKey v) = some l →
        emValid (e.emAt l) = false ∧ ∀ l', l' ≠ l → e.emAt l' = s.dev.emAt l') ∧
      (s.dev.emFind (emProf v) (emKey v) = none → e.cl = s.dev.cl)) := by
  have hrun {u : Dev} (hu : (s.dev.takeCommand c.ring).emRemove v = u) :
      (s.dev.takeCommand c.ring).runEm false c.data false 0 (entriesOf c) = (u, 1, .all) := by
    subst hv
    rw [hone, ← hu]
    exact Dev.runEm_remove (k := 0) (by rw [s.dev.emWaits_takeCommand]; exact hwaits)
  cases hfind : s.dev.emFind (emProf v) (emKey v) with
  | none =>
    have hsame : (s.dev.takeCommand c.ring).emRemove v = s.dev.takeCommand c.ring := by
      rw [Dev.emRemove, s.dev.emFind_takeCommand, hfind]
    refine answers_tables (op := 3) (st := .all) (k := 1) hs rfl hready (Dev.runHeld_em (.inr rfl) (hrun hsame) (by decide))
      (.refl _ _ _) (.refl _) (List.Subset.refl _) ⟨fun _ h => (nomatch h), fun _ => ?_⟩
    rw [(Dev.frame_finish_settle _ _ _ _ _).cl_eq (by decide), s.dev.cl_takeCommand]
  | some l =>
    have hgone : (s.dev.takeCommand c.ring).emRemove v =
        (s.dev.takeCommand c.ring).writeEm l (s.dev.emAt l - 2 ^ 255) false := by
      rw [Dev.emRemove, s.dev.emFind_takeCommand, hfind, ← s.dev.emAt_takeCommand c.ring]
    have hcl := cl_writeEm_settle (s := s) (c := c) l (s.dev.emAt l - 2 ^ 255) (s.dev.cmdOrigin c 3) 1
    refine answers_tables (op := 3) (st := .all) (k := 1) hs rfl hready (Dev.runHeld_em (.inr rfl) (hrun hgone) (by decide))
      (Dev.frame_writeEm _ _ _ _) (Dev.keepsRings_writeEm _ _ _ _) (List.Subset.refl _)
      ⟨fun l₀ h => ?_, fun h => (nomatch h)⟩
    obtain rfl := Option.some.inj h
    refine ⟨?_, fun l' hne => ?_⟩
    · rw [Dev.emAt, hcl]
      dsimp only
      rw [sGet_sPut_same]
      exact emValid_cleared (Dev.emFind_some hfind).2
    · rw [Dev.emAt, hcl]
      dsimp only
      rw [sGet_sPut_ne _ 0 _ _ hne, Dev.emAt]

end

/-- Settles O28: the runs of entries of a table, the entry of a unit, and the exact-match entries, each as a command. -/
theorem tableCommands : Obligations.TableCommands :=
  ⟨fun _ _ _ _ hs hready hshape ht hbank => ⟨table_written hshape hbank hs hready ht, table_beyond hshape hbank hs hready,
      fun _ _ _ _ hshape' hne hj => table_apart hshape hbank hs hready ht hshape' hne hj⟩,
    fun _ _ hs hready hone ht hi => ⟨unit_written hs hready hone ht hi, unit_refused hs hready hone ht hi⟩,
    fun _ _ hs hready hone => ⟨em_added hs hready hone rfl, em_removed hs hready hone rfl⟩⟩

end Sys2Proof.Machine
end

section
/-! SUPPORT of O27. What keeps the frames in the pipeline: counts, the credit of a class, and the blocks that follow their enables
when the device yields (R233, R242, R337, R413). -/

namespace Sys2Proof.Machine

/-- The frames in the pipeline are the same in `d` and in `e`. -/
def Dev.KeepsFly (d e : Dev) : Prop := e.sw.fly = d.sw.fly

section
variable {d e f : Dev}

theorem Dev.KeepsFly.refl (d : Dev) : d.KeepsFly d := rfl

theorem Dev.KeepsFly.trans (h : d.KeepsFly e) (h' : e.KeepsFly f) : d.KeepsFly f := Eq.trans h' h

theorem Dev.KeepsFly.ite {c : Prop} [Decidable c] (he : d.KeepsFly e) (hf : d.KeepsFly f) : d.KeepsFly (if c then e else f) := by
  split
  · exact he
  · exact hf

theorem Dev.KeepsFly.foldl {α : Type} {k : Dev → α → Dev} (hk : ∀ (d : Dev) (x : α), d.KeepsFly (k d x)) (xs : List α)
    (d : Dev) : d.KeepsFly (xs.foldl k d) := by
  induction xs generalizing d with
  | nil => exact .refl d
  | cons x xs ih => exact (hk d x).trans (ih (k d x))

theorem Dev.keepsFly_of_sw (h : e.sw = d.sw) : d.KeepsFly e := congrArg Sw.fly h

/-- A frame without the switch core. -/
theorem Dev.Frame.keepsFly {p : List Part} {r : List Nat} (h : d.Frame e p r) (hp : Part.sw ∉ p) : d.KeepsFly e :=
  Dev.keepsFly_of_sw (h.sw_eq hp)

/-- What changes flow control and the stay of frames alone. -/
theorem Dev.KeepsSw.keepsFly {ps : List Part} {rs : List Nat} (h : d.KeepsSw e Sw.sansFlow ps rs) : d.KeepsFly e := h.sansStay.fly

end

/-! The operations of the state. -/

section
variable (d : Dev) (n k o : Nat) (f : Field)

theorem Dev.keepsFly_setFld (v : Nat) : d.KeepsFly (d.setFld o f v) := rfl

theorem Dev.keepsFly_raise : d.KeepsFly (d.raise o f) := Dev.keepsFly_of_sw (d.raise_sw o f)

theorem Dev.keepsFly_count : d.KeepsFly (d.count n k) :=
  (d.frame_count (r := [R.PC_ALARM]) n k [] (by simp)).keepsFly (by simp)

theorem Dev.keepsFly_recStage : d.KeepsFly (d.recStage n k) :=
  (d.frame_record (p := [.log]) _ _ (by simp) (List.Subset.refl _)).keepsFly (by simp)

/-! Credit (R233, R242). -/

theorem Dev.keepsFly_setCredit (x : Credit) : d.KeepsFly (d.setCredit n k x) := rfl

theorem Dev.keepsFly_creditReturn (c : Nat) : d.KeepsFly (d.creditReturn n c k) :=
  .ite (Dev.KeepsSw.keepsFly ((d.keepsSw_setCredit (ps := [.sw]) n c _ [] (by simp)).trans
    (Dev.keepsSw_creditRaise _ n c [] (by simp)))) (.refl d)

theorem Dev.keepsFly_recharge : d.KeepsFly (d.recharge n k) := by
  have hstore (xs : List Held) : d.KeepsFly { d with sw := { d.sw with store := xs } } := rfl
  unfold Dev.recharge
  split
  · exact (hstore _).trans (Dev.keepsSw_releaseBp (ps := [.sw]) (rs := [R.PC_ALARM]) _ (by simp) (by simp)).keepsFly
  · exact .refl d

/-! The blocks (R346, R347). -/

theorem Dev.keepsFly_outStart : d.KeepsFly (d.outStart n) := by
  have halign (d : Dev) (m i : Nat) : d.KeepsFly (d.alignOutputs m i) := (d.frame_alignOutputs m i).keepsFly (by simp)
  have hstarted : d.KeepsFly { d with ck := { d.ck with started := true } } := rfl
  unfold Dev.outStart
  dsimp only
  split
  · exact d.keepsFly_setFld _ _ _
  · exact (hstarted.trans (halign _ _ _)).trans (Dev.keepsFly_setFld _ _ _ _)

theorem Dev.keepsFly_ringSet : d.KeepsFly (d.setRingState n k) :=
  (d.keepsFly_setFld _ _ _).trans ((Dev.frame_writeStatus _ n).keepsFly (by simp))

theorem Dev.keepsFly_ringStart : d.KeepsFly (d.ringStart n) := by
  have hrefused : d.KeepsFly ((d.setFld (R.HR_RING_CTRL n) F.HR_RING_CTRL_err 1).raise R.HR_ALARM F.HR_ALARM_cfg_reject) :=
    (d.keepsFly_setFld _ _ 1).trans (Dev.keepsFly_raise _ _ _)
  have hreset (x : Ring) : d.KeepsFly ((((d.setRing n x).setFld (R.HR_RING_CTRL n) F.HR_RING_CTRL_err 0).setFld
      (R.HR_RING_HIDX n) F.HR_RING_HIDX_hidx 0).setFld (R.HR_RING_DIDX n) F.HR_RING_DIDX_didx 0) := rfl
  unfold Dev.ringStart
  dsimp only
  split
  · exact hrefused.trans (Dev.keepsFly_ringSet _ n enOff)
  · exact (hreset _).trans (Dev.keepsFly_ringSet _ n enStarting)

theorem Dev.keepsFly_chanStop : d.KeepsFly (d.chanStop n) :=
  (Dev.KeepsFly.ite ((d.frame_cutRun (p := [.chans]) n [] (by simp)).keepsFly (by simp))
    ((d.frame_deadOpen (p := [.chans]) n 3 [] (by simp)).keepsFly (by simp))).trans (Dev.keepsFly_setFld _ _ _ _)

theorem Dev.keepsFly_engineStop : d.KeepsFly d.engineStop := by
  have hflight : d.KeepsFly (({ d with tg := { d.tg with flight := [], merge := [] } } : Dev).setFld R.TG_CTRL
      F.TG_CTRL_state enStopping) := rfl
  exact hflight.trans (.foldl (fun d _ => .ite (d.keepsFly_setFld _ _ _) (.refl d)) _ _)

theorem Dev.keepsFly_pailLevels : d.KeepsFly d.pailLevels := by
  have hshow (d : Dev) (f : Field) (n high low : Nat) : d.KeepsFly (if high ≤ n then d.setFlag R.PL_STATUS f true
      else if n ≤ low then d.setFlag R.PL_STATUS f false else d) :=
    .ite (d.keepsFly_setFld _ _ _) (.ite (d.keepsFly_setFld _ _ _) (.refl d))
  exact (hshow d _ _ _ _).trans (hshow _ _ _ _ _)

theorem Dev.keepsFly_pailStart : d.KeepsFly d.pailStart :=
  (show d.KeepsFly { d with pl := { Pl.reset with training := true } } from rfl).trans
    ((Dev.keepsFly_pailLevels _).trans (Dev.keepsFly_setFld _ _ _ _))

/-! A lane, and the link that falls with it (R76, R79). -/

theorem Dev.keepsFly_laneStart : d.KeepsFly (d.laneStart n) := by
  unfold Dev.laneStart
  dsimp only
  split
  · exact .ite ((show d.KeepsFly ((d.setLane n _).setLaneState n enStarting) from rfl).trans (Dev.keepsFly_raise _ _ _)) rfl
  · rfl

theorem Dev.keepsFly_laneRef : d.KeepsFly (d.laneRef n) :=
  (d.moves_laneRef n (List.Subset.refl cleanParts) (cleanIn_of (List.Subset.refl (d.linkRegs [] [n])))
    (laneIn_of (List.Subset.refl (d.linkRegs [] [n])) (List.mem_singleton_self n))).frame.keepsFly (by decide)

theorem Dev.keepsFly_freshState : d.KeepsFly (d.freshState n k) := Dev.keepsFly_laneRef _ n

theorem Dev.keepsFly_bringUpAt : d.KeepsFly (d.bringUpAt n k) :=
  ((d.frame_setRate n k).keepsFly (by simp)).trans (Dev.keepsFly_freshState _ n _)

theorem Dev.keepsFly_dropOne : d.KeepsFly (d.dropOne n fun d m => d.bringUpAt m (d.rateNow m)) := by
  have hnoted : d.KeepsFly ((d.raise (R.LN_ALARM n) F.LN_ALARM_loss).count (laneCtr n 1)) :=
    (d.keepsFly_raise _ _).trans (Dev.keepsFly_count _ _ 1)
  have hquiet (d : Dev) (x : Lane) : d.KeepsFly ((d.spoilWindow n).setLane n x) := rfl
  unfold Dev.dropOne
  dsimp only
  split
  · exact (hnoted.trans (hquiet _ _)).trans (Dev.keepsFly_bringUpAt _ n _)
  · exact .refl d

theorem Dev.keepsFly_creditEnd : d.KeepsFly (d.creditEnd n) := .foldl (fun d _ => d.keepsFly_setCredit _ _ _) _ d

theorem Dev.keepsFly_relayAdmit : d.KeepsFly d.relayAdmit :=
  (d.frame_relayAdmit (r := [R.TG_RELAY_NOW_LO, R.TG_RELAY_NOW_HI, R.TG_ALARM]) [] (by simp) (by simp) (by simp)).keepsFly
    (by simp)

theorem Dev.keepsFly_enumLink (up down : Bool) : d.KeepsFly (d.enumLink n up down) :=
  (d.frame_enumLink (p := [.en]) n up down (by simp) (portIn_of (List.Subset.refl (d.linkRegs [n] []))
    (List.mem_singleton_self n))).keepsFly (by simp)

theorem Dev.keepsFly_validCheck : d.KeepsFly d.validCheck :=
  (d.frame_validCheck (List.Subset.refl _) (List.Subset.refl _)).keepsFly (by decide)

theorem Dev.keepsFly_linkFall : d.KeepsFly (d.linkFall n) := by
  have htail (d : Dev) (down : Bool) :
      d.KeepsFly ((((d.creditEnd n).lanesActive n).relayAdmit).enumLink n false down).validCheck :=
    (((((d.keepsFly_creditEnd n).trans (Dev.keepsFly_setFld _ _ _ _)).trans (Dev.keepsFly_relayAdmit _)).trans
      (Dev.keepsFly_enumLink _ n _ _)).trans (Dev.keepsFly_validCheck _))
  have hdown : d.KeepsFly ((d.setReg (R.LK_STATUS n) 0).raise (R.LK_ALARM n) F.LK_ALARM_link_down) :=
    (show d.KeepsFly (d.setReg (R.LK_STATUS n) 0) from rfl).trans (Dev.keepsFly_raise _ _ _)
  have hport (d : Dev) (x : Port) : d.KeepsFly (d.setPort n x) := rfl
  have hlost (d : Dev) (xs : List Nat) : d.KeepsFly { d with sw := { d.sw with lost := xs } } := rfl
  unfold Dev.linkFall
  dsimp only
  split
  · exact .refl d
  · refine .trans ?_ (htail _ _)
    split
    · exact (hdown.trans (hport _ _)).trans (hlost _ _)
    · exact hdown.trans (hport _ _)

theorem Dev.keepsFly_laneDrop : d.KeepsFly (d.laneDrop n) := by
  have hgroup : d.KeepsFly ((d.group n).foldl (fun d m => d.dropOne m fun d m => d.bringUpAt m (d.rateNow m)) d) :=
    .foldl (fun d m => d.keepsFly_dropOne m) _ d
  unfold Dev.laneDrop
  dsimp only
  split
  · exact (hgroup.trans (Dev.keepsFly_linkFall _ _)).trans (Dev.keepsFly_setFld _ _ _ _)
  · exact hgroup

theorem Dev.keepsFly_laneStop : d.KeepsFly (d.laneStop n) :=
  ((Dev.KeepsFly.ite (d.keepsFly_laneDrop n) (.refl d)).trans (Dev.keepsFly_freshState _ n 0)).trans
    (Dev.keepsFly_setFld _ _ _ _)

end

/-! The enables, and a device that yields (R337, R413). -/

theorem Dev.keepsFly_enStart (d : Dev) (t : EnTarget) : d.KeepsFly (d.enStart t) := by
  cases t with
  | clkout n => exact d.keepsFly_outStart n
  | pps m => rfl
  | lane n => exact d.keepsFly_laneStart n
  | port p => rfl
  | ring r => exact d.keepsFly_ringStart r
  | chan c => rfl
  | engine => rfl
  | unit u => rfl
  | pail => exact d.keepsFly_pailStart

theorem Dev.keepsFly_enStop (d : Dev) (t : EnTarget) : d.KeepsFly (d.enStop t) := by
  cases t with
  | clkout n => rfl
  | pps m => rfl
  | lane n => exact d.keepsFly_laneStop n
  | port p => rfl
  | ring r => exact d.keepsFly_ringSet r enStopping
  | chan c => exact d.keepsFly_chanStop c
  | engine => exact d.keepsFly_engineStop
  | unit u => rfl
  | pail => rfl

theorem Dev.keepsFly_enApply (d : Dev) (t : EnTarget) : d.KeepsFly (d.enApply t) :=
  .ite (.refl d) (.ite (.ite (d.keepsFly_enStart t) (.refl d)) (.ite (.ite (.refl d) (d.keepsFly_enStop t)) (.refl d)))

theorem Dev.keepsFly_applyEnables (d : Dev) : d.KeepsFly d.applyEnables := .foldl Dev.keepsFly_enApply _ d

theorem Dev.keepsFly_yieldBegun (d : Dev) (cause : Nat) : d.KeepsFly (d.yieldBegun cause) :=
  (show d.KeepsFly (({ d with stage := .yielded } : Dev).setPair 4) from rfl).trans
    (((Dev.keepsFly_recStage _ 4 cause).trans (Dev.keepsFly_raise _ _ _)).trans rfl)

theorem Dev.keepsFly_yieldTables (d : Dev) : d.KeepsFly d.yieldTables := by
  have hnow (cause : Nat) : d.KeepsFly (d.yieldNow cause) := by
    rw [d.yieldNow_eq]
    exact .ite (.refl d) ((d.keepsFly_yieldBegun cause).trans (Dev.keepsFly_applyEnables _))
  exact .ite (.ite (hnow 19) (.refl d)) (.refl d)

end Sys2Proof.Machine
end

section
/-! PROOF of O27. The action of a first pass once its lookups are off or miss, or hit in the exact-match table; and CLASSIFY, which
puts what it resolved to beside the frame (R265, R266, R272, R274, R282). -/

namespace Sys2Proof.Machine

/-! The outcomes of a lookup (R272, R274, R275, R282). -/

section
variable {d : Dev} {x : Fly} {q : Parsed}

/-- A whey frame of a reason without a rate always passes (R275). -/
theorem Dev.wheyTake_unlimited {r : Nat} (h : d.fld (R.CL_WHEY_LIM r) F.CL_WHEY_LIM_rate = 0) :
    d.wheyTake r = ((d.addSat (R.CL_WHEY_CNT r) F.CL_WHEY_CNT_count 1).count (wheyCtr r 0), true) := if_pos h

/-- A miss without an action of its own takes the frame to the whey path by reason 1. -/
theorem Dev.divert_unlimited {ruleId cls : Nat} (h : d.fld (R.CL_WHEY_LIM 1) F.CL_WHEY_LIM_rate = 0) :
    d.divert x 1 ruleId cls = ((d.addSat (R.CL_WHEY_CNT 1) F.CL_WHEY_CNT_count 1).count (wheyCtr 1 0),
      { verdict := .whey { reason := 1, ruleId := ruleId, bank := x.bank, epoch := x.epoch, pass := x.frame.pass },
        rule := ruleId, cls := cls, octets := x.frame.octets }) := by
  have hquiet : (if 1 = 10 then d.raise R.CL_ALARM F.CL_ALARM_bad_action
      else if 1 = 11 then d.raise R.CL_ALARM F.CL_ALARM_stale_epoch else d) = d := rfl
  unfold Dev.divert
  rw [hquiet]
  dsimp only
  rw [Dev.wheyTake_unlimited h]
  rfl

/-- A frame that its target takes is forwarded (R270). -/
theorem Dev.sendTo_fits {t ruleId cls : Nat} {bs : List Byte} (h : t = 65 ∨ bs.length ≤ d.maxFrame t) :
    d.sendTo x t ruleId cls bs = (d, { verdict := .unicast t, rule := ruleId, cls := cls, octets := bs }) := by
  refine if_neg fun hlong => ?_
  omega

/-- The inline form of an action forwards the frame unedited to its port (R266). -/
theorem Dev.perform_inline {a cls t : Nat} {bad : Nat × Nat → Bool} (hfwd : bits (actWord a 0) 31 29 = 1)
    (hport : actWord a 0 % 65536 = t) (ht : t ≤ 65) (hlen : x.frame.octets.length ≤ 16384) :
    d.perform x q a true cls bad =
      d.sendTo x t 0 (if bit (actWord a 0) 28 then bits (actWord a 0) 27 25 else cls) x.frame.octets := by
  unfold Dev.perform
  simp [hfwd, hport, Nat.not_lt.2 ht, Nat.not_lt.2 hlen]

/-- A hit of the exact-match table gives the action where no ternary rule overrides it (R265, R266). -/
theorem Dev.lookup_em {tern : Option Nat} {e bank : Nat} (h : tern.all (fun v => !bit v 1310) = true) :
    d.lookup tern (some e) bank = d.resolve (d.flag R.CL_TBL_CFG F.CL_TBL_CFG_em_mode) bank (bits e 31 0) := by
  cases tern with
  | none => rfl
  | some t =>
    have hover : ¬ bit t 1310 = true := by simpa using h
    exact if_neg hover

end

/-! A first pass (R265). -/

section
variable {d : Dev} {x : Fly} {q : Parsed} {cls : Nat} {extra : List (Nat × Nat)}

/-- A first pass that no layer-2 protocol claims goes to the tables, in its entry class. -/
theorem Dev.classifyFrame_first (hstandby : d.standby = false) (hdirect : x.frame.direct = none)
    (hsecond : x.frame.second = none) (hslow : (parse x.frame.octets).slow = none)
    (hptp : d.ptpKnown x.frame.port (parse x.frame.octets) = false) :
    d.classifyFrame x extra = d.classifyTables x (parse x.frame.octets)
      ((x.assigned d).entryClass x.frame (parse x.frame.octets)) extra := by
  unfold Dev.classifyFrame
  dsimp only
  rw [hstandby, hdirect, hsecond, hslow, hptp]
  rfl

section
variable (hem : (x.assigned d).flag (R.CL_PORT_CFG x.frame.port) F.CL_PORT_CFG_em_en = false)
  (htcam : (x.assigned d).flag (R.CL_PORT_CFG x.frame.port) F.CL_PORT_CFG_tcam_en = false)
include hem htcam

/-- With both lookups off, a port whose miss discards drops the frame. -/
theorem Dev.classifyTables_discard (hmiss : (x.assigned d).fld (R.CL_PORT_CFG x.frame.port) F.CL_PORT_CFG_miss = 1) :
    d.classifyTables x q cls extra = d.classDrop x.frame cls := by
  unfold Dev.classifyTables
  dsimp only
  rw [hem, htcam, hmiss]
  rfl

/-- With both lookups off, a port whose miss forwards sends the frame to the port that it names. -/
theorem Dev.classifyTables_forward {t : Nat} (hmiss : (x.assigned d).fld (R.CL_PORT_CFG x.frame.port) F.CL_PORT_CFG_miss = 2)
    (hport : (x.assigned d).fld (R.CL_PORT_CFG x.frame.port) F.CL_PORT_CFG_miss_port = t) (ht : t ≤ 65) :
    d.classifyTables x q cls extra = d.sendTo x t 0 cls x.frame.octets := by
  unfold Dev.classifyTables
  dsimp only
  rw [hem, htcam, hmiss, hport]
  exact if_neg (Nat.not_lt.2 ht)

/-- With both lookups off, a port whose miss does neither takes the frame to the whey path. -/
theorem Dev.classifyTables_punt (hmiss : (x.assigned d).fld (R.CL_PORT_CFG x.frame.port) F.CL_PORT_CFG_miss = 0) :
    d.classifyTables x q cls extra = d.divert x 1 0 cls := by
  unfold Dev.classifyTables
  dsimp only
  rw [hem, htcam, hmiss]
  rfl

end

/-- With no line diverted, an inline exact-match hit that no ternary rule overrides is performed. -/
theorem Dev.classifyTables_em {l : Nat} (hsecond : x.frame.second = none) (hgood : d.mi.diverted = [])
    (hem : (x.assigned d).flag (R.CL_PORT_CFG x.frame.port) F.CL_PORT_CFG_em_en = true)
    (hmode : d.flag R.CL_TBL_CFG F.CL_TBL_CFG_em_mode = true)
    (hfind : d.emFind ((x.assigned d).fld (R.CL_PORT_CFG x.frame.port) F.CL_PORT_CFG_eprof0)
      ((x.assigned d).key x.frame q cls ((x.assigned d).fld (R.CL_PORT_CFG x.frame.port) F.CL_PORT_CFG_eprof0) 12) = some l)
    (hbank : bit (emBanks (d.emAt l)) x.bank = true)
    (htern : (x.assigned d).flag (R.CL_PORT_CFG x.frame.port) F.CL_PORT_CFG_tcam_en = false ∨
      (d.ternFind x.bank ((x.assigned d).fld (R.CL_PORT_CFG x.frame.port) F.CL_PORT_CFG_tprof0)
        ((x.assigned d).key x.frame q cls ((x.assigned d).fld (R.CL_PORT_CFG x.frame.port) F.CL_PORT_CFG_tprof0) 40)).all
          (fun v => !bit v 1310) = true) :
    ∃ bad, d.classifyTables x q cls [] = d.perform x q (bits (d.emAt l) 31 0 % 2 ^ 32) true cls bad := by
  have hline (m l : Nat) : d.diverted m l = false := by simp [Dev.diverted, hgood]
  have htbad : d.ternBad x.bank [] = false := by simp [Dev.ternBad, hgood]
  have htern' : (if (x.assigned d).flag (R.CL_PORT_CFG x.frame.port) F.CL_PORT_CFG_tcam_en = true then
      d.ternFind x.bank ((x.assigned d).fld (R.CL_PORT_CFG x.frame.port) F.CL_PORT_CFG_tprof0)
        ((x.assigned d).key x.frame q cls ((x.assigned d).fld (R.CL_PORT_CFG x.frame.port) F.CL_PORT_CFG_tprof0) 40)
      else none).all (fun v => !bit v 1310) = true := by
    split
    · exact htern.resolve_left (by simp_all)
    · rfl
  refine ⟨fun l => d.diverted l.1 l.2 || List.contains [] l, ?_⟩
  unfold Dev.classifyTables
  dsimp only
  rw [hsecond, htbad]
  simp only [Option.isSome_none, Bool.false_eq_true, if_false]
  rw [hfind, hem]
  simp [hline, ← Dev.emAt.eq_1, hbank, Dev.lookup_em htern', hmode, Dev.resolve]

end

/-! The command (R255, R282). -/

/-- A frame with what the pipeline resolved for it. -/
def Fly.resolved (x : Fly) (r : Resolved) : Fly :=
  { x with verdict := some r.verdict, rule := r.rule, cls := r.cls, edited := r.octets }

/-- The pipeline with `y` in the place of frame `id`. -/
def Dev.putFly (d : Dev) (id : Nat) (y : Fly) : Dev :=
  { d with sw := { d.sw with fly := d.sw.fly.map fun z => if z.frame.id == id then y else z } }

/-- What takes the place of a frame of the pipeline stays, once the table condition has been looked at. -/
theorem mem_fly_putFly {d e : Dev} {id : Nat} {x y : Fly} (h : d.KeepsFly e)
    (hx : d.sw.fly.find? (fun z => z.frame.id == id) = some x) : y ∈ (e.putFly id y).yieldTables.settle.sw.fly := by
  have hid : (x.frame.id == id) = true := List.find?_some (p := fun z : Fly => z.frame.id == id) hx
  have hmem : x ∈ e.sw.fly := by
    rw [show e.sw.fly = d.sw.fly from h]
    exact List.mem_of_find?_eq_some hx
  rw [Dev.settle_sw, show (e.putFly id y).yieldTables.sw.fly = (e.putFly id y).sw.fly from Dev.keepsFly_yieldTables _]
  exact List.mem_map.2 ⟨x, hmem, if_pos hid⟩

/-- CLASSIFY puts what the classification resolved beside the frame, whatever it counts and charges. -/
theorem answers_classify {s : State} {id : Nat} {x : Fly} {e : Dev} {r : Resolved} {Q : Fly → Prop} (hs : s.Up)
    (hx : s.dev.sw.fly.find? (fun z => z.frame.id == id) = some x) (hverdict : x.verdict = none)
    (hclass : s.dev.classifyFrame x [] = (e, r)) (hfly : s.dev.KeepsFly e) (hQ : Q (x.resolved r)) :
    Answers (.classify id []) s (fun e => ∃ y ∈ e.sw.fly, Q y) := by
  have hread : s.dev.readErrs [] = (s.dev, []) := rfl
  refine .of_running hs (show execClassify id [] s = running s _ from rfl) ⟨x.resolved r, ?_, hQ⟩
  dsimp only
  rw [hx]
  dsimp only
  rw [hverdict, hread]
  dsimp only
  rw [hclass]
  refine mem_fly_putFly ?_ hx
  have hcount : s.dev.KeepsFly (if x.frame.second.isNone && !x.frame.err then
      e.count (portCtr x.frame.port (32 + r.cls)) else e) := hfly.trans (.ite (e.keepsFly_count _ 1) (.refl e))
  exact hcount.trans (.ite (Dev.keepsFly_creditReturn _ _ _ _) (Dev.keepsFly_recharge _ _ _))

section
variable {s : State} {id : Nat} {x : Fly} (hs : s.Up) (hx : s.dev.sw.fly.find? (fun z => z.frame.id == id) = some x)
  (hverdict : x.verdict = none) (hstandby : s.dev.standby = false) (hdirect : x.frame.direct = none)
  (hsecond : x.frame.second = none) (hslow : (parse x.frame.octets).slow = none)
  (hptp : s.dev.ptpKnown x.frame.port (parse x.frame.octets) = false)
include hs hx hverdict hstandby hdirect hsecond hslow hptp

section
variable (hem : (x.assigned s.dev).flag (R.CL_PORT_CFG x.frame.port) F.CL_PORT_CFG_em_en = false)
  (htcam : (x.assigned s.dev).flag (R.CL_PORT_CFG x.frame.port) F.CL_PORT_CFG_tcam_en = false)
include hem htcam

theorem miss_discarded (hmiss : (x.assigned s.dev).fld (R.CL_PORT_CFG x.frame.port) F.CL_PORT_CFG_miss = 1) :
    Answers (.classify id []) s (fun e => ∃ y ∈ e.sw.fly, y.frame = x.frame ∧ y.verdict = some .discard) := by
  have hclass := s.dev.classifyFrame_first (x := x) (extra := []) hstandby hdirect hsecond hslow hptp
  rw [Dev.classifyTables_discard hem htcam hmiss, Dev.classDrop] at hclass
  exact answers_classify hs hx hverdict hclass (s.dev.keepsFly_count _ 1) ⟨rfl, rfl⟩

theorem miss_forwarded (hmiss : (x.assigned s.dev).fld (R.CL_PORT_CFG x.frame.port) F.CL_PORT_CFG_miss = 2)
    (ht : (x.assigned s.dev).fld (R.CL_PORT_CFG x.frame.port) F.CL_PORT_CFG_miss_port ≤ 65)
    (hfits : (x.assigned s.dev).fld (R.CL_PORT_CFG x.frame.port) F.CL_PORT_CFG_miss_port = 65 ∨
      x.frame.octets.length ≤ s.dev.maxFrame ((x.assigned s.dev).fld (R.CL_PORT_CFG x.frame.port) F.CL_PORT_CFG_miss_port)) :
    Answers (.classify id []) s (fun e => ∃ y ∈ e.sw.fly, y.frame = x.frame ∧
      y.verdict = some (.unicast ((x.assigned s.dev).fld (R.CL_PORT_CFG x.frame.port) F.CL_PORT_CFG_miss_port)) ∧
        y.edited = x.frame.octets) := by
  have hclass := s.dev.classifyFrame_first (x := x) (extra := []) hstandby hdirect hsecond hslow hptp
  rw [Dev.classifyTables_forward hem htcam hmiss rfl ht, Dev.sendTo_fits hfits] at hclass
  exact answers_classify hs hx hverdict hclass (.refl _) ⟨rfl, rfl, rfl⟩

theorem miss_punted (hmiss : (x.assigned s.dev).fld (R.CL_PORT_CFG x.frame.port) F.CL_PORT_CFG_miss = 0)
    (hrate : s.dev.fld (R.CL_WHEY_LIM 1) F.CL_WHEY_LIM_rate = 0) :
    Answers (.classify id []) s (fun e => ∃ y ∈ e.sw.fly, y.frame = x.frame ∧
      y.verdict = some (.whey { reason := 1, ruleId := 0, bank := x.bank, epoch := x.epoch, pass := 0 })) := by
  have hclass := s.dev.classifyFrame_first (x := x) (extra := []) hstandby hdirect hsecond hslow hptp
  have hpass : x.frame.pass = 0 := by rw [Frame.pass, hsecond]; rfl
  have hfly (d : Dev) : d.KeepsFly (d.addSat (R.CL_WHEY_CNT 1) F.CL_WHEY_CNT_count 1) := rfl
  rw [Dev.classifyTables_punt hem htcam hmiss, Dev.divert_unlimited hrate, hpass] at hclass
  exact answers_classify hs hx hverdict hclass ((hfly _).trans (Dev.keepsFly_count _ _ 1)) ⟨rfl, rfl⟩

end

end

/-- Settles O27: the lookups off, by the port's miss action; and an inline hit of the exact-match table. -/
theorem classification : Obligations.Classification := by
  refine ⟨fun s id x hs hx hverdict hstandby hdirect hsecond => ?_,
    fun s id l a t x hs hx hverdict hstandby hdirect hsecond hgood => ?_⟩
  · intro o g q hslow hptp hem htcam
    exact ⟨miss_discarded hs hx hverdict hstandby hdirect hsecond hslow hptp hem htcam,
      miss_forwarded hs hx hverdict hstandby hdirect hsecond hslow hptp hem htcam,
      miss_punted hs hx hverdict hstandby hdirect hsecond hslow hptp hem htcam⟩
  · intro f o q g cls ep tp hslow hptp hem hmode hfind hbank htern ha hfwd hport ht hfits hlen
    obtain ⟨bad, htables⟩ := Dev.classifyTables_em (q := q) (cls := cls) hsecond hgood hem hmode hfind hbank htern
    have hword : actWord (bits (s.dev.emAt l) 31 0 % 2 ^ 32) 0 = a := by
      rw [← ha]
      simp [actWord, bits]
    have hclass := s.dev.classifyFrame_first (x := x) (extra := []) hstandby hdirect hsecond hslow hptp
    rw [htables, Dev.perform_inline (by rw [hword]; exact hfwd) (by rw [hword]; exact hport) ht hlen, hword,
      Dev.sendTo_fits hfits] at hclass
    exact answers_classify hs hx hverdict hclass (.refl _) ⟨rfl, rfl, rfl, rfl⟩

end Sys2Proof.Machine
end
